-- ==== Sys2Proof/Word.lean ====
section
/-! DEFINITION. The plain number types of the engine and the tables indexed by the unit numbers of R5 and R19. -/

namespace Sys2Proof

/-- One byte. -/
abbrev Byte := BitVec 8

/-- One 64-bit register value (R12). -/
abbrev Reg := BitVec 64

/-- A job context, 0 to 31 (R6). -/
abbrev Ctx := Fin 32

/-- An array row, 0 to 23; which of them a variant has is read from the fuses (R4, R484). -/
abbrev Row := Fin 24

/-- A physical array, row × 26 + column (R5). -/
abbrev Arr := Fin 624

/-- A memory GTU, stack × 2 + port (R19). -/
abbrev Gtu := Fin 40

/-- A Mernum link and its link GTU (R19). -/
abbrev Lnk := Fin 24

/-- A check slice: 0 to 23 the row slices, 24 the standby (R19). -/
abbrev Slice := Fin 25

/-- A temperature sensor index (R5, R19). -/
abbrev Sensor := Fin 640

/-- A firmware processor: 0 MC, 1 to 4 PC0 to PC3, 5 TC (R19). -/
abbrev Proc := Fin 6

/-- A channel between processors (R441). -/
abbrev Chan := Fin 32

/-- A unit ID (R19). -/
abbrev UnitId := BitVec 16

/-- A table with one entry for each index below `n`. -/
abbrev Tab (n : Nat) (α : Type) := Vector α n

/-- The entry of a table at an index. -/
def Tab.at {n : Nat} {α : Type} (t : Tab n α) (i : Fin n) : α := t[i]

/-- The table with one entry changed. -/
def Tab.upd {n : Nat} {α : Type} (t : Tab n α) (i : Fin n) (f : α → α) : Tab n α :=
  t.set i.val (f t[i]) i.isLt

/-- The table with every entry changed. -/
def Tab.mapAll {n : Nat} {α : Type} (t : Tab n α) (f : Fin n → α → α) : Tab n α :=
  Vector.ofFn (fun i => f i t[i])

end Sys2Proof
end

