-- ==== Sys2Proof/Syntax.lean ====
section
/-! DEFINITION. The commands of the engine: one constructor of `Instr` for each row of spec/opcode_table.json, with the
operands the row's step needs from outside (who sends it, which unit, which data the T9 delivers). -/

namespace Sys2Proof

/-- The two sides that reach the register window: the host through BAR2 and the management port (R12, R14). -/
inductive Src where
  | host
  | mgt
  deriving DecidableEq, Repr

/-- What a register access does (R15). The table has no row of its own for a read, so the access row carries both. -/
inductive Access where
  | write (v : Reg)
  | read
  deriving DecidableEq, Repr

/-- The values the fuses hold (R4, R5, R18, R418). -/
structure Fuses where
  product  : BitVec 4
  gradeB   : Bool
  stepping : BitVec 8
  rowCnt   : Nat
  stackCnt : Nat
  linkCnt  : Nat
  chipId   : BitVec 64
  deriving DecidableEq, Repr

/-- Changes that the memory makes to words it delivers: word index and the bits that differ from what is stored. -/
abbrev Noise := List (Nat × BitVec 32)

/-- The execution that a report names: pass index and replay number (R226). -/
abbrev ExecName := BitVec 48 × BitVec 8

/-- Words of a partial write: word index within the blank and new value (R110). -/
abbrev WordWrites := List (Nat × BitVec 32)

/-- Operand formats of R135. `unlisted` is a format code that R135 does not list (R155). -/
inductive Fmt where
  | e4m3 | e5m2 | e2m3 | e3m2 | e2m1 | bf16
  | unlisted
  deriving DecidableEq, Repr

/-- One segment of a tile's descriptor (R53, R144): its depth K, the formats of A and B, and its anchor. -/
structure Seg where
  k      : Nat
  fa     : Fmt
  fb     : Fmt
  anchor : Int
  deriving DecidableEq, Repr

/-- A tile descriptor given at tile start (R53, R144, R170). -/
structure TileDesc where
  ctx        : Ctx
  seq        : BitVec 32
  segs       : List Seg
  lastOnPort : Bool
  deriving DecidableEq, Repr

/-- The operands of one k-step as the array consumes them (R149): element codes of the A column and the B row, lane 0
first, missing lanes zero; and the MX scale bytes of the lanes, empty where no scale applies (R136). -/
structure OpCycle where
  a  : List (BitVec 16)
  b  : List (BitVec 16)
  sa : List Byte
  sb : List Byte
  deriving DecidableEq, Repr

/-- The accumulators of a tile as the tap reads them: 64 rows of 64 patterns of 160 bits, missing entries zero (R138). -/
abbrev Accs := List (List (BitVec 160))

/-- The verdict field of a TILE_VERDICT flit (R178). -/
inductive Verdict where
  | clean | catch | void | notProduced
  deriving DecidableEq, Repr

/-- A TILE_VERDICT flit (R178). -/
structure VerdictFlit where
  ctx     : Ctx
  port    : UnitId
  seq     : BitVec 32
  verdict : Verdict
  covers  : BitVec 8
  voids   : BitVec 8
  reason  : BitVec 4
  replay  : BitVec 8
  passLow : BitVec 32
  deriving DecidableEq, Repr

/-- Words of an operand blank that passed a port in a tile whose operand cycles did not complete the blank (R112): the blank, the tag it
brought, the words in the order the array consumed them, and the memory port that delivered it, for blank indices are each port's own. -/
structure Snoop where
  blank  : Nat
  tag    : BitVec 64
  words  : WordWrites
  source : Nat := 0
  deriving DecidableEq, Repr

/-- What a shadow slot is (R195, R206, R213). -/
inductive SlotKind where
  | sample | chase | mirror
  deriving DecidableEq, Repr

/-- One output comparison at the shadow scheduler (R194, R216): the execution it names (R226), the pair, the slot, who ran it, and the
output fingerprints; `referee` is present in the first replay after a shadow catch when the row has a reserve. -/
structure Compare where
  pass      : BitVec 48
  replay    : BitVec 8
  logical   : Nat
  cls       : BitVec 3
  kind      : SlotKind
  shadow    : Arr
  primaryFp : BitVec 61
  shadowFp  : BitVec 61
  referee   : Option (Arr × BitVec 61)
  deriving DecidableEq, Repr

/-- A Mernum frame that carries a blank, as it leaves or reaches a link GTU (R120). -/
structure Frame where
  ctx      : Ctx
  keyCheck : BitVec 16
  tag      : BitVec 64
  data     : List (BitVec 32)
  seq      : BitVec 32
  crcRetry : Nat
  adaptive : Bool
  deriving DecidableEq, Repr

/-- A DIGEST frame (R281). -/
structure DigestFrame where
  ctx       : Ctx
  round     : BitVec 8
  replay    : BitVec 8
  pass      : BitVec 48
  n         : BitVec 32
  pairCheck : BitVec 16
  digest    : BitVec 61
  segments  : BitVec 16
  deriving DecidableEq, Repr

/-- Where a link control frame goes (R265, R268, R272): a link, a route of the plan to a member of the barrier group, a consumer chip on
the route of its blanks or on an alternate route, or the lock-step partner. -/
inductive Dest where
  | link (l : Lnk)
  | member (chip : BitVec 16) (route : Nat)
  | chip (chip : BitVec 16) (onAlt : Bool)
  | partner (chip : BitVec 16) (ctx : BitVec 8) (onAlt : Bool)
  deriving DecidableEq, Repr

/-- Link control frames the engine sends (R256, R268, R272, R281, R286); a DIGEST as the 256 bits of R281. -/
inductive Ctl where
  | tickSync (tick : BitVec 64) (frac : BitVec 4)
  | tickSyncReply (rx : BitVec 64) (rxFrac : BitVec 4) (tx : BitVec 64) (txFrac : BitVec 4)
  | stepUp (tick : BitVec 64)
  | commitNotice (ctx : BitVec 8) (pass : BitVec 48)
  | arm (group number check : BitVec 16)
  | armed (group number check : BitVec 16) (unsynced : Bool)
  | start (group number : BitVec 16) (at_ : BitVec 64)
  | startAck (group number : BitVec 16)
  | abandon (group number : BitVec 16) (cause : BitVec 4)
  | digest (frame : BitVec 256)
  | segments (digests : List (BitVec 61))
  | huntTags (fps : List (BitVec 61))
  | pairStop
  deriving DecidableEq, Repr

/-- A frame that was in flight on a link when it was fenced (R265, R266): a blank frame held in the link GTU's retry buffer, with the link
that the T9 reroutes it over, or a control frame of a context. -/
inductive LostFrame where
  | blank (dst : Ctx) (seq : BitVec 32) (via : Lnk)
  | control (c : Ctx) (d : Dest) (x : Ctl)
  deriving DecidableEq, Repr

/-- What the training of a link finds (R65, R256, R264): its width, the lanes that failed and its one-way delay in 1/16 ns. -/
structure Trained where
  width  : Nat
  failed : BitVec 8
  delay  : Nat
  deriving DecidableEq, Repr

/-- How the memory delivers a run of job bytes that the engine reads without a context (R297, R315, R495): byte offsets in the run with
the bits that differ from what is stored, and byte offsets at which an uncorrectable error was met. -/
structure JobRead where
  flips  : List (Nat × Byte) := []
  errors : List Nat := []
  deriving DecidableEq, Repr

/-- What the program image tells the loader of a plan's schedule; the image is in the T9's own format, which the spec does not lay out
(R5, R493). `executions` gives for each executed pair (logical array, op class) the executions of its work items in the W passes of a
rotation (R202); `slots` for each SLOT entry the cycle offset at which it begins and the tiles of its work item, `blanks` the output
blanks of that item, one each where the list gives none; `reads` and `writes` the
blanks that each program position reads and writes, as (position, memory GTU, blank); `chaseLens` the array cycles that a chase slot
filled with each CHASE_TILE entry's tile takes to its completed comparison; `hashPlaced` that every full-hash read has its port cycles
(R300). -/
structure WorkFacts where
  executions : List (Nat × Nat × Nat) := []
  slots      : List (Nat × Nat) := []
  blanks     : List Nat := []
  reads      : List (Nat × Nat × Nat) := []
  writes     : List (Nat × Nat × Nat) := []
  hashPlaced : Bool := true
  chaseLens  : List Nat := []
  deriving DecidableEq, Repr

/-- The 64 bytes of a mailbox message, as eight registers (R432). -/
abbrev MboxRegs := Vector Reg 8

/-- A channel entry (R442): kind 0 request, 1 reply, 2 notice; then the firmware's own words. -/
structure ChanEntry where
  kind   : BitVec 2
  tag    : BitVec 8
  opcode : BitVec 16
  arg    : BitVec 32
  data   : BitVec 64
  deriving DecidableEq, Repr

/-- A request of the management controller that has no row of its own (R73, R75): a register access of the vendor message type, an MCTP
control message, or a reading of one of the three PLDM numeric sensors (0 hottest live sensor, 1 package power, 2 Veraux power). -/
inductive MctpRequest where
  | access (off width : Nat) (acc : Access)
  | control (command : Byte)
  | numericSensor (k : Fin 3)
  deriving DecidableEq, Repr

/-- What a request of the management controller asks for. A register access names its offset and width beside it. -/
inductive MctpOp where
  | access (acc : Access)
  | control (command : Byte)
  | numericSensor (k : Fin 3)
  deriving DecidableEq, Repr

/-- The request that an operation at an offset and width makes; only a register access looks at them. -/
def MctpOp.request (off width : Nat) : MctpOp → MctpRequest
  | .access acc => .access off width acc
  | .control command => .control command
  | .numericSensor k => .numericSensor k

/-- How the I3C controller assigns the dynamic address (R73). -/
inductive Daa where
  | entdaa (addr : BitVec 7)
  | setdasa (static addr : BitVec 7)
  deriving DecidableEq, Repr

/-- The parts of a processor's tightly coupled memory (R425). -/
inductive TcmPart where
  | retained | working | code
  deriving DecidableEq, Repr

/-- What a processor's firmware did since its last event with a row of its own (R426, R435, R449, R454, R455): the top of its main loop, a
watchdog kick, a retained structure rebuilt, one of the trace points 64 to 255, a log message, a store to a word of its memory, a register
written. The arguments are the firmware's own. -/
inductive FwAct where
  | loop (arg : BitVec 32)
  | kick (arg : BitVec 32)
  | rebuilt (arg : BitVec 32)
  | point (n : BitVec 8) (c : Option Ctx) (arg : BitVec 32)
  | message (code : BitVec 16) (c : Option Ctx) (arg : BitVec 32)
  | store (part : TcmPart) (word : Nat) (v : BitVec 32)
  | reg (i : Fin 32) (v : BitVec 32)
  deriving DecidableEq, Repr

/-- A measured item of the shutdown self-test (R378): its unit, its measured value (the trip point from nominal in mV, the mean from the
stored reference in 1/16 °C, bit errors, or the frequency from nominal in ppm) and a PLL's lock time in µs. -/
structure TestItem where
  unit   : UnitId
  value  : BitVec 32
  lockUs : Nat
  deriving DecidableEq, Repr

/-- What a known-answer run ends with (R186, R364): the MISR, the count of cycles or steps, a slice's port position with a wrong value, and
the tick at its end. -/
structure KaRun where
  misr   : BitVec 128
  cycles : BitVec 32
  pos    : Option (Fin 26) := none
  tick   : BitVec 64
  deriving DecidableEq, Repr

/-- The known-answer runs of a unit at bring-up (R376): the first, and the one made at once where that fails. -/
structure KaUnit where
  unit  : UnitId
  first : KaRun
  again : KaRun
  deriving DecidableEq, Repr

/-- What one bring-up step found out (R461, R463): units that failed their part, units found untrained on the warm path,
link widths with the lanes that failed, the known-answer runs that did not end with the expected values (the others did, at the end ticks
given for the rounds of the array columns, for the memory GTUs, the link GTUs and the slices), sensors whose reference check failed twice, records found bad in the flash, and the step's time without
waits in µs. -/
structure StepReport where
  failed    : List UnitId
  cold      : List Gtu
  widths    : List (Lnk × Trained)
  kaRuns    : List KaUnit
  rounds    : List (BitVec 64)
  memTick   : BitVec 64
  linkTick  : BitVec 64
  refFail   : List Sensor
  histCrc   : List (Nat × BitVec 32)
  confCrc   : List (Nat × BitVec 32)
  timeUs    : Nat
  sliceTick : BitVec 64 := 0
  deriving DecidableEq, Repr

/-- One reading of a sensor slot (R382 to R384): the raw conversion code, the reading, or nothing delivered; and in a
reference slot the difference of the reference conversion from the fused value, in 1/16 °C. -/
structure Sample where
  delivered : Bool
  code      : BitVec 16
  reading   : BitVec 16
  refDiff   : Option (BitVec 16)
  deriving DecidableEq, Repr

/-- The commands and events of the engine, one constructor for each row of spec/opcode_table.json, in its order. -/
inductive Instr where
  | registerWrite (src : Src) (off width : Nat) (acc : Access)
  | regTimeout
  | crossingClockRestart (domain : BitVec 8) (row : Option Row) (accepted : Bool)
  | xingTimeoutClear (src : Src)
  | irqStatusClear (src : Src) (mask : Reg) (setNow : BitVec 8)
  | irqEnableWrite (src : Src) (v : Reg)
  | aonPowerValid (fuses : Fuses) (pgMain pgMem pgIo : Bool) (crcBad : List (Nat × BitVec 32) := [])
  | strapSample (pins : BitVec 4)
  | sentinelReady (checks : Bool := true)
  | refclkFallback
  | refclkRestored
  | powerLoss (main mem io : Bool)
  | powerGoodReturn (main : Bool := true) (mem : Bool := true) (io : Bool := true)
  | thermalTrip (n : Sensor)
  | tripRelease
  | tripStatus
  | i3cDaa (how : Daa)
  | mctpRegisterAccess (off width : Nat) (op : MctpOp)
  | recRead (region : BitVec 2) (first : BitVec 32) (count : Nat)
  | cperGet
  | cperAck (seq : BitVec 32)
  | cperResend
  | jobRead (g : Gtu) (c : Ctx) (addr : Nat) (noise : Noise) (ecc lineEcc : Bool) (consumer : Option Arr)
      (visitEnd : Bool) (adaptive : Bool := false) (ex : Option ExecName := none)
  | jobFullWrite (g : Gtu) (c : Ctx) (addr : Nat) (data : List (BitVec 32)) (tag : BitVec 64) (lineEcc visitEnd : Bool)
      (writer : Option Arr) (adaptive : Bool) (flight : Noise := []) (ex : Option ExecName := none)
  | jobPartialWrite (g : Gtu) (c : Ctx) (addr : Nat) (words : WordWrites) (partialFp : BitVec 61) (carried : BitVec 3)
      (noise : Noise) (ecc lineEcc visitEnd : Bool) (writer : Option Arr) (adaptive : Bool) (flight : Noise := [])
      (slotEcc : Bool := false) (ex : Option ExecName := none)
  | hostRead (g : Gtu) (c : Option Ctx) (addr : Nat) (noise : Noise) (ecc lineEcc : Bool)
  | hostFullWrite (g : Gtu) (c : Option Ctx) (addr : Nat) (data : List (BitVec 32)) (ep lineEcc : Bool)
  | hostPartialWrite (g : Gtu) (c : Option Ctx) (addr : Nat) (words : WordWrites) (ep : Bool) (noise : Noise)
      (ecc lineEcc : Bool)
  | mgtuProbe (src : Src) (g : Gtu) (v : Reg)
  | mgtuProbeRun (g : Gtu) (lineEcc : Bool)
  | copyback (g : Gtu) (c : Ctx) (blank : Nat) (noise : Noise) (ecc lineEcc : Bool) (origEcc : Bool := false)
  | fullHashRead (g : Gtu) (c : Ctx) (tensor : Nat) (blank : Nat) (noise : Noise) (ecc lineEcc : Bool)
  | linkFrameSend (l : Lnk) (f : Frame) (srcCtx : Ctx) (blank : Nat) (again : Bool := false) (ex : Option ExecName := none)
  | linkFrameReceive (l : Lnk) (f : Frame) (ex : Option ExecName := none)
  | linkTrained (l : Lnk) (t : Trained) (retries : Nat) (lost : List LostFrame := [])
  | retrain (src : Src) (l : BitVec 5)
  | tileStart (a : Arr) (d : TileDesc)
  | tilePark (a : Arr) (ops : List OpCycle) (snoop : List Snoop := [])
  | singleReadStart (a : Arr) (seq : BitVec 32)
  | singleReadEnd (a : Arr) (inexact : Bool) (acc : Accs)
  | memberRead (a : Arr) (inexact : Bool) (acc : Accs)
  | groupClose (a : Arr)
  | operandBlankComplete (a : Arr) (c : Ctx) (tileSeq : BitVec 32) (blank : Nat) (tag : BitVec 64) (words : WordWrites)
      (source : Nat := 0)
  | sliceTakeover (src : Src) (n : Slice)
  | sliceRelease (src : Src) (n : Slice)
  | handoverComplete (r : Row)
  | sliceReset (src : Src) (n : Slice)
  | sliceResetEnd (n : Slice)
  | portReset (src : Src) (a : Arr)
  | selftestNow (src : Src) (n : Slice)
  | selftestTurnDue
  | sliceSelftestEnd (n : Slice) (failPos : Option (Fin 26)) (misr : BitVec 128)
  | shadowCompare (c : Ctx) (x : Compare)
  | shadowMissing (c : Ctx) (logical : Nat) (cls : BitVec 3) (shadow : Arr) (pass : BitVec 48 := 0) (replay : BitVec 8 := 0)
  | voidTileOffer (a : Arr) (c : Ctx) (pass : BitVec 48) (seq : BitVec 32)
  | chaseSlotFill (c : Ctx) (r : Row)
  | shdPairSelWrite (src : Src) (v : Reg)
  | pairInfoReady
  | executionStart (c : Ctx)
  | endMarker (c : Ctx)
  | poisonCollect (c : Ctx) (writes : List (BitVec 61))
  | commitInject (c : Ctx)
  | commitUnitAbort (c : Ctx)
  | parting (target : UnitId) (c : Ctx)
  | commit (target : UnitId) (c : Ctx)
  | tileVerdict (f : VerdictFlit)
  | targetQuiet (target : UnitId) (c : Ctx)
  | abortDrainTimeout (c : Ctx)
  | replayStartSend (c : Ctx)
  | replayStart (c : Ctx)
  | readinessToken (c : Ctx) (pass : BitVec 48)
  | commitHoldTimeout (c : Ctx)
  | substitutionIssue (r : Row)
  | spareSubstituted (r : Row)
  | substitutionTimeout (r : Row)
  | hold (src : Src) (c : Ctx)
  | release (src : Src) (c : Ctx)
  | stop (src : Src) (c : Ctx)
  | abortStop (src : Src) (c : Ctx)
  | restart (src : Src) (c : Ctx)
  | tickSyncSend
  | tickSync (l : Lnk) (tick : BitVec 64) (frac : BitVec 4) (aheadBy : Option (BitVec 64)) (retries : Nat)
  | tickSyncReply (l : Lnk) (rxTick : BitVec 64) (rxFrac : BitVec 4) (txTick : BitVec 64) (txFrac : BitVec 4) (retries : Nat := 0)
  | tickUnsynced
  | tickHighStore
  | commitNotice (chip : BitVec 16) (c : Ctx) (pass : BitVec 48) (retries : Nat)
  | noticeTimeout (c : Ctx)
  | barrierArrive (c : Ctx)
  | arm (group number check : BitVec 16) (retries : Nat)
  | armed (chip : BitVec 12) (group number check : BitVec 16) (unsynced : Bool) (retries : Nat)
  | start (group number : BitVec 16) (at_ : BitVec 64) (retries : Nat)
  | startAck (chip : BitVec 12) (group number : BitVec 16) (retries : Nat)
  | abandon (group number : BitVec 16) (cause : BitVec 4) (retries : Nat)
  | armTimeout (c : Ctx)
  | startAckDeadline (c : Ctx)
  | barrierFire (c : Ctx)
  | digest (frame : BitVec 256) (retries : Nat)
  | segment (c : Ctx) (digests : List (BitVec 61)) (retries : Nat)
  | huntTags (c : Ctx) (fps : List (BitVec 61)) (retries : Nat)
  | huntCompare (c : Ctx) (primaryFp refereeFp : BitVec 61)
  | lockstepTimeout (c : Ctx)
  | pairStop (c : Ctx) (retries : Nat)
  | spnCfgWrite (src : Src) (v : Reg)
  | prvLeafDone (core : Fin 8) (read : JobRead)
  | prvCtxAck (src : Src) (c : Ctx) (v : Reg)
  | prvReadGo (src : Src) (v : Reg)
  | prvReadDone (read : JobRead := {})
  | load (src : Src) (c : Ctx)
  | cancel (src : Src) (c : Ctx)
  | unload (src : Src) (c : Ctx)
  | planUnloaded (c : Ctx)
  | planValidated (image program : JobRead) (work : WorkFacts := {})
  | distributionDone (c : Ctx) (image : JobRead)
  | planDist (target : UnitId) (c : Ctx) (section_ : BitVec 16) (offset : Nat := 0) (data : BitVec 64 := 0)
  | planSwitch (c : Ctx)
  | faultTaken
  | fstSlotAck (src : Src) (k : Fin 3)
  | historyEntry
  | fstHistoryCfgWrite (src : Src) (v : Reg)
  | optimeStore
  | arrayParity (a : Arr) (code : BitVec 16) (c : Option Ctx)
  | arraySequencer (a : Arr) (code : BitVec 16) (c : Option Ctx)
  | memCeStorm (g : Gtu) (count : Nat) (addr : Nat)
  | pcieCorrectable (bit : BitVec 16)
  | pcieUncorrectable (bit : BitVec 16)
  | fstUnitSelWrite (src : Src) (v : Reg)
  | unitInfoReady
  | screenPatternStart (unit : UnitId) (slot : Bool)
  | screenPatternEnd (unit : UnitId) (misr : BitVec 128) (cycles : BitVec 32)
  | screenRotationLate (unit : UnitId)
  | testNow (src : Src)
  | scrUnitSelWrite (src : Src) (v : Reg)
  | scrUnitInfoReady
  | sensorSample (n : Sensor) (x : Sample)
  | throttleUpdate
  | clockStretch (steps : Fin 17) (monitor : BitVec 32)
  | clockStretchEnd (monitor : BitVec 32 := 0)
  | marginViolationTimeout
  | compensationUpdate
  | thermalConfig (src : Src) (v : Reg)
  | thmSensorSelWrite (src : Src) (v : Reg)
  | sensorInfoReady
  | recordIntake
  | mergeWindowExpiry
  | recordAppend (fail : Option (BitVec 2))
  | recFlashLost (eraseFailed : Bool)
  | flashRetry (answers : Bool)
  | recWallWrite (src : Src) (v : Reg)
  | recCfgWrite (src : Src) (v : Reg)
  | recReadGo (src : Src) (v : Reg)
  | recReadDone
  | recDumpGo (src : Src) (v : Reg)
  | recDumpDone
  | fwpLoadGo (src : Src) (v : Reg)
  | fwpLoadDone (image : JobRead)
  | mbxRing (src : Src) (p : Proc) (side : Fin 2)
  | mbxTimeout (p : Proc) (side : Fin 2)
  | hello (p : Proc) (side : Fin 2) (acts : List FwAct := [])
  | getStatus (p : Proc) (side : Fin 2) (acts : List FwAct := [])
  | echo (p : Proc) (side : Fin 2) (acts : List FwAct := [])
  | queueStatus (p : Proc) (side : Fin 2) (acts : List FwAct := [])
  | traceName (p : Proc) (side : Fin 2) (acts : List FwAct := [])
  | open_ (p : Proc) (ch : Chan) (receiver : Proc) (priority : BitVec 2)
  | send (p : Proc) (ch : Chan) (e : ChanEntry)
  | waitSend (p : Proc) (ch : Chan) (any : Bool)
  | recv (p : Proc)
  | waitRecv (p : Proc)
  | close (p : Proc) (ch : Chan)
  | queueCycle (p : Proc)
  | watchdogExpiry (p : Proc) (pc : BitVec 32)
  | fwpCtrlRestart (src : Src) (p : Proc) (pc : BitVec 32)
  | tcmError (p : Proc) (codePart : Bool) (pc : BitVec 32) (corrected : Bool := false)
  | latchRelease (p : Proc) (acts : List FwAct := [])
  | fwpFailed (p : Proc) (pc : BitVec 32)
  | bringupStep (x : StepReport)
  | powerStateGo (src : Src) (v : Reg)
  | shutdown (src : Src) (v : Reg)
  | shutdownStopTimeout (c : Ctx)
  | shutdownSelftestStart
  | shutdownSelftestEnd (items : List TestItem)
  | resetGo (src : Src) (v : Reg)
  | resetDrainTimeout (items : Nat)
  | resetEnd
  | vddAonLoss
  | i3cHdrEntry
  | i3cHdrExit
  | recentRestartExpiry (p : Proc)
  deriving DecidableEq, Repr

end Sys2Proof
end

