-- ==== Sys2Proof/Config.lean ====
section
/-! DEFINITION. What an implementation fixes and the spec leaves open: opaque constants without a body, so that nothing can be
proved of their values. Each is named in the assumption log. -/

namespace Sys2Proof.Config

/-- A value the spec does not state, numbered by the counter of the state (log 8). -/
opaque freeWord : Nat → BitVec 64

/-- Which of a stack's two ports serves a stave: true for port 1 (R103 gives no rule; log 11). -/
opaque portOfStave : Nat → Nat → Bool

/-- A run of job byte addresses that the T9 places in a stack: its first job address, its length, the stack and the byte address there. -/
structure JobRange where
  job   : Nat
  size  : Nat
  stack : Nat
  addr  : Nat
  deriving DecidableEq, Repr

/-- The T9's map from job byte addresses to the stacks (R101 leaves the map to the T9; log 36). -/
opaque jobMap : List JobRange

/-- The expected MISR of a pattern on a kind of unit (0 array, 1 spare, 3 memory GTU, 4 link GTU) at a stepping (R364; log 12). -/
opaque expectedMisr : BitVec 16 → Nat → BitVec 8 → BitVec 128

/-- The stored signature of the slice self-test at a stepping (R186; log 12). -/
opaque sliceSignature : BitVec 8 → BitVec 128

/-- The ROM build number of a stepping other than 0x00 (VX_FWP_VERSION; log 13). -/
opaque romVersion : BitVec 8 → BitVec 32

/-- MC's mask ROM of 64 KiB at a stepping, and the offset of the trace table in it (R425, R434; log 13). -/
opaque rom : BitVec 8 → List Byte

/-- The offset of the trace table in MC's ROM (R434; log 13). -/
opaque romTable : BitVec 8 → Nat

/-- The name of a trace point in an image: its code, the offset of its trace table and the point; the spec does not lay the table out
(R428, R434; log 13). -/
opaque traceName : List Byte → Nat → Nat → List Byte

/-- The fused compensation tables (R398; log 14): 0 the internal oscillator, 1 the bandgap references, 2 the PLL bias; 16 points each, from
−40 °C to 125 °C. -/
opaque trimTable : Fin 3 → Fin 16 → Int

/-- A trim at a temperature in 1/16 °C outside its table, and the one in force before the first computation (R398; log 14). -/
opaque trimOutside : Fin 3 → Option Int → Int

/-- A hop of a route: a link of this chip, or a link further on with its one-way delay in 1/16 ns. -/
inductive Hop where
  | own (l : Nat)
  | far (delay : Nat)
  deriving DecidableEq, Repr

/-- The hops of a route, from its words in the T9 router's own format (R273, R493; log 17). -/
opaque routeHops : List (BitVec 64) → List Hop

end Sys2Proof.Config
end

