-- ==== Sys2Proof/Machine/Crc.lean ====
section
/-! DEFINITION. The two check codes of R489 and little-endian bytes of a number. -/

namespace Sys2Proof.Machine

/-- The low `n` bytes of a number, least significant first. -/
def leBytes : Nat → Nat → List Byte
  | 0, _ => []
  | n + 1, v => BitVec.ofNat 8 v :: leBytes n (v / 256)

/-- The number whose little-endian bytes these are. -/
def leNat : List Byte → Nat
  | [] => 0
  | b :: bs => b.toNat + 256 * leNat bs

/-- One bit step of CRC-32C in reflected form, eight times for a byte (R489). -/
def crc32Step (c : BitVec 32) : BitVec 32 :=
  if c.getLsbD 0 then (c >>> 1) ^^^ 0x82F63B78#32 else c >>> 1

/-- CRC-32C over bytes (R489). -/
def crc32c (bytes : List Byte) : BitVec 32 :=
  (bytes.foldl (fun c b =>
    let x := c ^^^ b.setWidth 32
    crc32Step (crc32Step (crc32Step (crc32Step (crc32Step (crc32Step (crc32Step (crc32Step x))))))))
    0xFFFFFFFF#32) ^^^ 0xFFFFFFFF#32

/-- One bit step of CRC-16, most significant bit first (R489). -/
def crc16Step (c : BitVec 16) : BitVec 16 :=
  if c.getLsbD 15 then (c <<< 1) ^^^ 0x1021#16 else c <<< 1

/-- CRC-16 over bytes (R489). -/
def crc16 (bytes : List Byte) : BitVec 16 :=
  bytes.foldl (fun c b =>
    let x : BitVec 16 := c ^^^ BitVec.ofNat 16 (b.toNat * 256)
    crc16Step (crc16Step (crc16Step (crc16Step (crc16Step (crc16Step (crc16Step (crc16Step x))))))))
    0xFFFF#16

/-- Bytes of ASCII text. -/
def ascii (t : String) : List Byte := t.toList.map (fun ch => BitVec.ofNat 8 ch.toNat)

/-- Little-endian 64-bit registers as bytes. -/
def regBytes (rs : List Reg) : List Byte := rs.flatMap (fun r => leBytes 8 r.toNat)

/-- Eight bytes from position `8·k` as a register; missing bytes read 0. -/
def byteReg (bytes : List Byte) (k : Nat) : Reg := BitVec.ofNat 64 (leNat ((bytes.drop (8 * k)).take 8))

end Sys2Proof.Machine
end

