-- ==== Sys2Proof/Machine/Gf61.lean ====
section
/-! DEFINITION. Arithmetic mod p = 2^61 − 1 (R93 to R97, R110, R134, R139, R140): fingerprints of blanks and of partial writes, the
residue of a dyadic value, the fold of an accumulator. Residues are natural numbers below p; a register holds them in 61 bits. -/

namespace Sys2Proof.Machine

/-- p = 2^61 − 1 (R93). -/
def p61 : Nat := 0x1FFFFFFFFFFFFFFF

/-- Sum mod p. -/
def add61 (a b : Nat) : Nat := (a + b) % p61

/-- Product mod p. -/
def mul61 (a b : Nat) : Nat := (a * b) % p61

/-- p minus the residue, 0 for 0. -/
def neg61 (a : Nat) : Nat := (p61 - a % p61) % p61

/-- A residue as 61 bits. -/
def res61 (n : Nat) : BitVec 61 := BitVec.ofNat 61 (n % p61)

/-- Product of a residue by 2^e for any integer e: the exponent counts mod 61 (R134). -/
def rot61 (r : Nat) (e : Int) : Nat := mul61 r (2 ^ (e % 61).toNat)

/-- ρ^k mod p. -/
def pow61 (rho k : Nat) : Nat := rho ^ k % p61

/-- The fingerprint F = Σ dᵢ·ρ^(i+1) of the words of a blank, in Horner form (R94). -/
def fingerprint (rho : Nat) (words : List (BitVec 32)) : Nat :=
  words.foldr (fun d f => mul61 (add61 f d.toNat) rho) 0

/-- The partial fingerprint Σ dᵢ·ρ^(i+1) over listed words (R110). -/
def partialFp (rho : Nat) (words : List (Nat × BitVec 32)) : Nat :=
  words.foldl (fun g w => add61 g (mul61 w.2.toNat (pow61 rho (w.1 + 1)))) 0

/-- F_new = F_old + G − G_old (R110). -/
def deltaFp (old g gOld : Nat) : Nat := add61 (add61 old g) (neg61 gOld)

/-- Σ f_w·σ^(w+1) over the output writes in order, the digest of R279. -/
def digestSum (sigma : Nat) (fps : List (BitVec 61)) : Nat :=
  fps.foldr (fun f acc => mul61 (add61 acc f.toNat) sigma) 0

/-- The fold of R139: x0 + x1 + x2 − b·2^38 mod p over the 160 bits of an accumulator. -/
def fold160 (x : BitVec 160) : Nat :=
  let n := x.toNat
  let x0 := n % 2 ^ 61
  let x1 := n / 2 ^ 61 % 2 ^ 61
  let x2 := n / 2 ^ 122 % 2 ^ 38
  let r := (x0 + x1 + x2) % p61
  if n / 2 ^ 159 = 1 then add61 r (neg61 (2 ^ 38)) else r

/-- φ(C) = φ(X)·2^a (R140). -/
def accResidue (x : BitVec 160) (anchor : Int) : Nat := rot61 (fold160 x) anchor

end Sys2Proof.Machine
end

