-- ==== Sys2Proof/Machine/Operands.lean ====
section
/-! DEFINITION. Operand forms of the witness (R134 to R137, R149): how an element code is read in each format, its residue, the MX
scale, and the lengths of a tile (R166). -/

namespace Sys2Proof.Machine

/-- A DIGEST frame as the 256 bits of R281. -/
def digestWord (f : DigestFrame) : BitVec 256 :=
  0x21 ||| (BitVec.ofNat 256 f.ctx.val <<< 8) ||| (f.round.setWidth 256 <<< 16) ||| (f.replay.setWidth 256 <<< 24) |||
    (f.pass.setWidth 256 <<< 32) ||| (f.n.setWidth 256 <<< 80) ||| (f.pairCheck.setWidth 256 <<< 112) ||| (f.digest.setWidth 256 <<< 128) |||
    (f.segments.setWidth 256 <<< 192)

/-- The DIGEST frame that 256 bits spell (R281): TYPE 0x21 and a context of the engine. -/
def digestFrame (w : BitVec 256) : Option DigestFrame :=
  let ctx := (w.extractLsb' 8 8).toNat
  if h : w.extractLsb' 0 8 = 0x21 ∧ ctx < 32 then
    some { ctx := ⟨ctx, h.2⟩, round := w.extractLsb' 16 8, replay := w.extractLsb' 24 8, pass := w.extractLsb' 32 48, n := w.extractLsb' 80 32,
           pairCheck := w.extractLsb' 112 16, digest := w.extractLsb' 128 61, segments := w.extractLsb' 192 16 }
  else none

/-- TYPE of a link control frame (R272, R281, R285, R286). -/
def ctlType (x : Ctl) : Byte :=
  match x with
  | .tickSync .. | .tickSyncReply .. | .stepUp .. => 0x10
  | .arm .. => 0x11
  | .armed .. => 0x12
  | .start .. => 0x13
  | .startAck .. => 0x14
  | .abandon .. => 0x15
  | .commitNotice .. => 0x18
  | .digest .. => 0x21
  | .segments .. => 0x22
  | .huntTags .. => 0x23
  | .pairStop => 0x24

/-- A decoded element: sign, significand and exponent, or infinity or NaN (R135). -/
inductive Elem where
  | num (neg : Bool) (mag : Nat) (exp : Int)
  | special
  deriving DecidableEq, Repr

/-- An element with `eb` exponent bits and `mb` mantissa bits: significand 2^mb + M and exponent E − off when E > 0, M and 1 − off
when E = 0. -/
def decodeNum (eb mb : Nat) (off : Int) (code : BitVec 16) : Elem :=
  let n := code.toNat
  let m := n % 2 ^ mb
  let e := n / 2 ^ mb % 2 ^ eb
  let s := n / 2 ^ (mb + eb) % 2 = 1
  if e = 0 then .num s m (1 - off) else .num s (2 ^ mb + m) ((e : Int) - off)

/-- R135, one line for each format. An unlisted format decodes nothing. -/
def decodeElem (f : Fmt) (code : BitVec 16) : Elem :=
  let n := code.toNat
  match f with
  | .e4m3 => if n % 128 = 127 then .special else decodeNum 4 3 10 code
  | .e5m2 => if n / 4 % 32 = 31 then .special else decodeNum 5 2 17 code
  | .e2m3 => decodeNum 2 3 4 code
  | .e3m2 => decodeNum 3 2 5 code
  | .e2m1 => decodeNum 2 1 2 code
  | .bf16 => if n / 128 % 256 = 255 then .special else decodeNum 8 7 134 code
  | .unlisted => .num false 0 0

/-- The significand width w of R135. -/
def sigWidth : Fmt → Int
  | .e4m3 => 4 | .e5m2 => 3 | .e2m3 => 4 | .e3m2 => 3 | .e2m1 => 2 | .bf16 => 8 | .unlisted => 0

/-- An element under its scale: the scale byte adds S − 127 to the exponent, 0xFF is NaN; no scale leaves it (R135, R136). -/
def scaled (e : Elem) (scale : Option Byte) : Elem :=
  match e, scale with
  | .num s m x, some b => if b = 0xFF then .special else .num s m (x + (b.toNat : Int) - 127)
  | e, _ => e

/-- φ(x)·r for a decoded element x and a residue r; special elements contribute 0 (R134, R137). -/
def phiMul (e : Elem) (r : Nat) : Nat :=
  match e with
  | .num s m x => let t := rot61 (mul61 m r) x; if s then neg61 t else t
  | .special => 0

/-- The lanes of one side of an operand cycle: 64 decoded and scaled elements, missing lanes zero (R143). -/
def decodeLanes (f : Fmt) (codes : List (BitVec 16)) (scales : List Byte) : List Elem :=
  (List.range 64).map (fun i => scaled (decodeElem f (codes.getD i 0)) (scales[i]?))

/-- The exponents e (and e + w) of the nonzero elements of a side. -/
def exponents (w : Int) (es : List Elem) : List Int :=
  es.filterMap (fun e => match e with
    | .num _ m x => if m = 0 then none else some (x + w)
    | .special => none)

/-- The least element of a list, none if empty. -/
def leastInt : List Int → Option Int
  | [] => none
  | x :: xs => match leastInt xs with
    | none => some x
    | some y => some (min x y)

/-- The greatest element of a list, none if empty. -/
def greatestInt : List Int → Option Int
  | [] => none
  | x :: xs => match greatestInt xs with
    | none => some x
    | some y => some (max x y)

/-- The powers ρ^1 … ρ^64 (R148). -/
def vector64 (rho : Nat) : List Nat := (List.range 64).map (fun c => pow61 rho (c + 1))

/-- w_k = Σ φ(B[k,j])·v[j] (R149). -/
def rowResidue (b : List Elem) (v : List Nat) : Nat :=
  (b.zip v).foldl (fun acc x => add61 acc (phiMul x.1 x.2)) 0

/-- Array cycles of the operand side of a segment (R166). -/
def segLength (s : Seg) : Nat :=
  if s.fa = .e2m1 ∧ s.fb = .e2m1 then (s.k + 1) / 2
  else if s.fa = .bf16 ∨ s.fb = .bf16 then 2 * s.k else s.k

/-- L of a tile (R166). -/
def tileLength (d : TileDesc) : Nat := (d.segs.map segLength).sum

/-- K of a tile (R144). -/
def tileK (d : TileDesc) : Nat := (d.segs.map (·.k)).sum

/-- The anchor of the first segment (R144). -/
def tileAnchor (d : TileDesc) : Int := (d.segs.headD { k := 0, fa := .e4m3, fb := .e4m3, anchor := 0 }).anchor

/-- The segment that operand cycle `k` of a tile belongs to; cycles beyond the last segment go by its formats. -/
def segAt : List Seg → Nat → Seg
  | [], _ => { k := 0, fa := .e4m3, fb := .e4m3, anchor := 0 }
  | [s], _ => s
  | s :: t :: rest, k => if k < s.k then s else segAt (t :: rest) (k - s.k)

end Sys2Proof.Machine
end

