-- ==== Sys2Proof/Machine/PlanType.lean ====
section
/-! DEFINITION. A turning plan as the engine holds it after reading an image: the header of R311 and the groups of R493,
one structure per kind of group, fields as R493 lists them. -/

namespace Sys2Proof.Machine

/-- An owned logical array (PROGRAM 0x02): its role is 0 work, 1 dense shadow, 2 mirror. -/
structure Owned where
  logical : Nat
  role    : Nat
  deriving DecidableEq, Repr

/-- A claim of slices of a shared resource (R326, R329): classes 1 port, 2 link, 3 shadow time, 4 reserve time. -/
structure Claim where
  cls   : Nat
  index : Nat
  mask  : BitVec 64
  deriving DecidableEq, Repr

/-- A program position (PASSES 0x01): end marker, barrier pass, result point and its number. -/
structure Position where
  e        : Nat
  barrier  : Bool
  result   : Bool
  resultNo : Nat
  deriving DecidableEq, Repr

/-- A dependence of a position on a producer's pass (PASSES 0x02). -/
structure Dependence where
  position : Nat
  chip     : Nat
  ctx      : Nat
  offset   : Int
  deriving DecidableEq, Repr

/-- A consumer chip of a position (PASSES 0x03). -/
structure Consumer where
  position : Nat
  chip     : Nat
  ctx      : Nat
  deriving DecidableEq, Repr

/-- A tile count of a position and holder (WITNESS 0x01). -/
structure TileCount where
  position : Nat
  holder   : Nat
  index    : Nat
  tiles    : Nat
  minL     : Nat
  debt     : Nat
  lastWord : Nat
  deriving DecidableEq, Repr

/-- A shadow slot (SHADOW 0x01): holder 0 dense shadow or mirror, 1 spare of the primary's row. -/
structure Slot where
  step     : Nat
  position : Nat
  logical  : Nat
  cls      : Nat
  holder   : Nat
  index    : Nat
  item     : Nat
  delay    : Nat
  compare  : Nat
  deriving DecidableEq, Repr

/-- Timing of a slot over an alternate shadow route (SHADOW 0x02). -/
structure AltSlot where
  slot      : Nat
  candidate : Nat
  delay     : Nat
  compare   : Nat
  deriving DecidableEq, Repr

/-- The chase window of a row (SHADOW 0x03). -/
structure ChaseWin where
  row    : Nat
  slots  : Nat
  begin_ : Nat
  end_   : Nat
  cycles : Nat
  deriving DecidableEq, Repr

/-- A chase-eligible tile (SHADOW 0x04). -/
structure ChaseTile where
  position : Nat
  logical  : Nat
  seq      : Nat
  deriving DecidableEq, Repr

/-- A retention area on a port (RETENTION 0x01). -/
structure Area where
  gtu    : Nat
  first  : Nat
  staves : Nat
  deriving DecidableEq, Repr

/-- A retained blank of a position (RETENTION 0x02). -/
structure Retained where
  position : Nat
  gtu      : Nat
  blank    : Nat
  deriving DecidableEq, Repr

/-- A run of copy-backs (RETENTION 0x03). -/
structure CopyRun where
  position : Nat
  gtu      : Nat
  offset   : Nat
  count    : Nat
  deriving DecidableEq, Repr

/-- A route (ROUTES 0x01): kind 0 static mesh, 1 static fabric, 2 alternate control, 3 alternate shadow. -/
structure Route where
  kind   : Nat
  number : Nat
  words  : Nat
  deriving DecidableEq, Repr

/-- A member of a barrier group (BARRIER 0x02). -/
structure Member where
  chip    : Nat
  primary : Nat
  alt     : Nat
  deriving DecidableEq, Repr

/-- The lock-step pair (LOCKSTEP 0x01). -/
structure Pair where
  chip  : Nat
  ctx   : Nat
  link  : Nat
  alt   : Nat
  check : BitVec 16
  hunt  : Nat
  deriving DecidableEq, Repr

/-- An output write of a position (LOCKSTEP 0x02). -/
structure OutWrite where
  position : Nat
  logical  : Nat
  w        : Nat
  item     : Nat
  deriving DecidableEq, Repr

/-- A result point (PROVENANCE 0x01). -/
structure ResultPoint where
  number   : Nat
  position : Nat
  deriving DecidableEq, Repr

/-- A listed blank (PROVENANCE 0x02): roles 0 W, 1 I, 2 O, 3 F (R291). -/
structure Listed where
  result : Nat
  role   : Nat
  gtu    : Nat
  blank  : Nat
  tensor : Nat
  deriving DecidableEq, Repr

/-- A capture bank (PROVENANCE 0x03). -/
structure Bank where
  role : Nat
  bank : Nat
  addr : Nat
  deriving DecidableEq, Repr

/-- A declared idle run (IDLE 0x01): holder 0 logical array, 1 shadow spare of a row, 2 reserve spare of a row. -/
structure IdleRun where
  position : Nat
  holder   : Nat
  index    : Nat
  start    : Nat
  length   : Nat
  deriving DecidableEq, Repr

/-- A hunt slot (IDLE 0x02). -/
structure HuntSlot where
  row      : Nat
  position : Nat
  start    : Nat
  length   : Nat
  deriving DecidableEq, Repr

/-- A pattern of a SCREEN plan (SCREEN 0x01). -/
structure PatternAt where
  position : Nat
  arr      : Nat
  pattern  : Nat
  start    : Nat
  deriving DecidableEq, Repr

/-- The program side of a plan: header (R311) and the PROGRAM, PASSES and WITNESS sections. -/
structure PlanCore where
  minor     : Nat := 0
  imageLen  : Nat := 0
  rowsUsed  : Nat := 0
  primary   : BitVec 3 := 0
  lockstep  : Bool := false
  relaxed   : Bool := false
  level     : BitVec 8 := 0
  window    : Nat := 0
  requested : Nat := 0
  densePct  : Nat := 0
  cChase    : Nat := 0
  home      : Fin 4 := 0
  compiler  : BitVec 32 := 0
  types     : List Nat := []
  ignored   : Nat := 0
  seed      : List Byte := []
  progAddr  : Nat := 0
  progLen   : Nat := 0
  owned     : List Owned := []
  claims    : List Claim := []
  positions : List Position := []
  deps      : List Dependence := []
  consumers : List Consumer := []
  counts    : List TileCount := []
  crossbar  : List (Nat × Nat) := []
  deriving DecidableEq, Repr

/-- The coverage side of a plan: SHADOW, RETENTION, VISITS, FENCE and ROUTES. -/
structure PlanCover where
  slots      : List Slot := []
  altSlots   : List AltSlot := []
  chase      : List ChaseWin := []
  chaseTiles : List ChaseTile := []
  chaseOuts  : List (Nat × Nat × Nat) := []
  peakTags   : List (Nat × Nat) := []
  areas      : List Area := []
  retained   : List Retained := []
  copyRuns   : List CopyRun := []
  peaks      : List (Nat × Nat) := []
  tagSlots   : List (Nat × Nat × Nat) := []
  targets    : List UnitId := []
  routes     : List Route := []
  routeWords : List (BitVec 64) := []
  deriving DecidableEq, Repr

/-- The remaining sections of a plan: BARRIER, LOCKSTEP, PROVENANCE, IDLE and SCREEN. -/
structure PlanExtra where
  group       : Option (Nat × Nat) := none
  members     : List Member := []
  barrierPos  : List Nat := []
  pair        : Option Pair := none
  writes      : List OutWrite := []
  results     : List ResultPoint := []
  lists       : List Listed := []
  banks       : List Bank := []
  ring        : Option (Nat × Nat) := none
  idle        : List IdleRun := []
  huntSlots   : List HuntSlot := []
  patterns    : List PatternAt := []
  deriving DecidableEq, Repr

/-- A turning plan, with what its program image tells of the schedule. -/
structure Plan where
  core  : PlanCore := {}
  cover : PlanCover := {}
  extra : PlanExtra := {}
  work  : WorkFacts := {}
  deriving DecidableEq, Repr

end Sys2Proof.Machine
end

