-- ==== Sys2Proof/Machine/CtxTypes.lean ====
section
/-! DEFINITION. The state the spec gives each of the 32 job contexts: its passes and commits (chapter 07), its plan and loads
(10), its pass position and barrier (08), its lock-step half (08), its coverage counts (04, 06), its tags (03) and its
provenance spans (09). -/

namespace Sys2Proof.Machine

/-- The states of a context (R248). -/
inductive CtxState where
  | noPlan | running | boundary | aborting | held | stopped
  deriving DecidableEq, Repr

/-- The first abort cause of an execution: the reason code of PASS_ABORT (R252) and its unit (R240). -/
structure AbortCause where
  reason : BitVec 4
  unit   : UnitId
  deriving DecidableEq, Repr

/-- A catch of the present pass that is not yet decided (R242): the unit, the replay number of the catch, for a witness catch
the slice and port column (R350), for shadow catches one comparison of each pair caught. -/
structure OpenCatch where
  unit     : UnitId
  replay   : BitVec 8
  slice    : Option (BitVec 8 × BitVec 8) := none
  shadows  : List Compare := []
  repeated : Bool := false
  deriving DecidableEq, Repr

/-- A slot caught by a shadow catch of the present pass (R216): the comparison, the replay number, and whether the replay with the
referee has decided it otherwise than transient. -/
structure CaughtSlot where
  slot    : Compare
  replay  : BitVec 8
  settled : Bool := false
  deriving DecidableEq, Repr

/-- Passes, commit and replay of one context (R221 to R253): the registers' fields, and the execution in progress. -/
structure PassSt where
  st          : CtxState := .noPlan
  index       : BitVec 48 := 0
  replay      : BitVec 8 := 0
  sinceStart  : BitVec 2 := 0
  driverHold  : Bool := false
  holdSub     : Bool := false
  holdFw      : Bool := false
  holdDigest  : Bool := false
  commitCount : BitVec 48 := 0
  aborts      : BitVec 16 := 0
  replays     : BitVec 16 := 0
  transient   : BitVec 16 := 0
  repeats     : BitVec 16 := 0
  stopEvent   : BitVec 16 := 0
  stopPass    : BitVec 48 := 0
  peakSlots   : BitVec 16 := 0
  refused     : Bool := false
  notifyEvery : BitVec 16 := 1
  sincePlan   : Nat := 0
  deriving DecidableEq, Repr

/-- The execution in progress of one context, as the commit unit sees it (R224 to R244). `used` is the last replay number used for the
pass index (none before its first execution), `done` the replay numbers that committed passes, where they are not 0, `caught` the slots of shadow
catches, `startOut` a REPLAY_START on its way, whose credits have not come back (R67), `refRan` the rows whose
reserve ran a referee or hunt slot in the execution, `runners` the array that runs each row's shadow slots in it (R210, R216), `token` the newest readiness token, `endTick` the tick of the end marker. -/
structure ExecSt where
  ended      : Bool := false
  collected  : Bool := false
  injected   : Bool := true
  committed  : Bool := false
  poison     : Nat := 0
  poisonBase : Nat := 0
  cause      : Option AbortCause := none
  stopAfter  : Option (BitVec 16) := none
  covers     : List (Arr × Nat) := []
  badPorts   : List Arr := []
  compares   : List (Nat × BitVec 3 × SlotKind) := []
  catches    : List OpenCatch := []
  quiet      : List UnitId := []
  got        : List UnitId := []
  fenced     : List UnitId := []
  replayDue  : Bool := false
  replaySent : Bool := false
  token      : BitVec 48 := 0
  tokenWait  : Bool := false
  endTick   : BitVec 64 := 0
  seed       : List Byte := []
  used       : Option (BitVec 8) := none
  done       : List (BitVec 48 × BitVec 8) := []
  caught     : List CaughtSlot := []
  startOut   : Bool := false
  refRan     : List Row := []
  runners    : List (Row × Option Arr) := []
  tests      : List PatternAt := []
  deriving DecidableEq, Repr

/-- Where a context stands in its program and in time (R6, R200, R259, R260): the program position, the rotation step counters,
the tick at cycle 0 and the cycle offset with its fraction (numerator over the clock's divisor). -/
structure PosSt where
  position : Nat := 0
  step     : Nat := 0
  rowStep  : List (Row × Nat × Bool) := []
  start    : BitVec 64 := 0
  offset   : BitVec 32 := 0
  frac     : Nat := 0
  deriving DecidableEq, Repr

/-- The load phases (VX_PLN_CTX_STATUS.PHASE). -/
inductive Phase where
  | none | queued | validating | distributing | pending | switching | unloading
  deriving DecidableEq, Repr

/-- Plan loading of one context (R316 to R325, R333), its applied plan and the plan in its pending banks, and the key of R97. `from_` and
`kib` are where the image lies as LOAD found it; `pendHash` is the hash of the program image until distribution and IMAGE_HASH after it
(R301), `pendKey` the key derived for it (R98, R317); `banks` are the pending banks written, `onNew` the units that have switched and
`owed` those whose switch flit is still on its way (R66, R67, R320). -/
structure PlanSt where
  phase    : Phase := .none
  refused  : Bool := false
  addr     : BitVec 48 := 0
  lenKib   : BitVec 16 := 0
  from_    : BitVec 48 := 0
  kib      : BitVec 16 := 0
  minor    : BitVec 8 := 0
  applied  : BitVec 32 := 0
  outcome  : BitVec 2 := 0
  atApp    : Bool := false
  event    : BitVec 16 := 0
  cause    : BitVec 8 := 0
  cls      : BitVec 4 := 0
  index    : BitVec 16 := 0
  conflict : BitVec 8 := 0xFF
  valid    : Bool := false
  hash     : List Byte := []
  active   : Option Plan := none
  pend     : Option Plan := none
  pendHash : List Byte := []
  pendKey  : Option (BitVec 61 × BitVec 16) := none
  banks    : List (UnitId × BitVec 16) := []
  onNew    : List UnitId := []
  owed     : List UnitId := []
  switched : Bool := false
  fresh    : Bool := false
  rho      : BitVec 61 := 0
  keyCheck : BitVec 16 := 0
  loaded   : Bool := false
  lastSeed : Option (List Byte) := none
  deriving DecidableEq, Repr

/-- A 48-bit timing counter with its SATURATED bit (R261 to R263). -/
structure Count48 where
  n   : BitVec 48 := 0
  sat : Bool := false
  deriving DecidableEq, Repr

/-- Barrier of one context (R271 to R275, VX_CTX_BARRIER), the two timing counters, and the commit notices received (R268). -/
structure BarSt where
  number    : BitVec 16 := 0
  state     : BitVec 3 := 0
  attempts  : BitVec 2 := 0
  armed     : List (BitVec 16) := []
  acked     : List (BitVec 16) := []
  waiting   : Bool := false
  armSeen   : Bool := false
  split     : Bool := false
  peerCheck : BitVec 16 := 0
  startAt   : Option (BitVec 64) := none
  released  : Bool := false
  notices   : List (BitVec 16 × BitVec 48) := []
  chatter   : Count48 := {}
  retry     : Count48 := {}
  deriving DecidableEq, Repr

/-- Lock-step half of one context (R281 to R287, VX_LSC_CTX_STATUS, VX_LSC_HUNT). `area` is what the output tag stages wrote into
the hunt area at a job address (R286). -/
structure LscSt where
  round      : BitVec 8 := 0
  mismatches : BitVec 16 := 0
  waiting    : Bool := false
  hunt       : Bool := false
  partner    : Option DigestFrame := none
  own        : Option (BitVec 61) := none
  equal      : Bool := false
  writes     : List (BitVec 61) := []
  sentSegs   : Bool := false
  locus      : Option (Nat × BitVec 61) := none
  segment    : Option Nat := none
  area       : List (BitVec 61) := []
  past       : Option (BitVec 48 × BitVec 8 × BitVec 61) := none
  index      : BitVec 32 := 0
  logical    : BitVec 10 := 0
  item       : Nat := 0
  outcome    : BitVec 3 := 0
  valid      : Bool := false
  deriving DecidableEq, Repr

/-- One captured tag: role, canonical position, tag, and the execution that wrote the capture slot (R293 to R295). -/
structure Capture where
  role     : Nat
  pos      : Nat
  tag      : BitVec 64
  pass     : BitVec 48 := 0
  replay   : BitVec 8 := 0
  deriving DecidableEq, Repr

/-- A provenance span (R290): open, or closed and queued for the cores. -/
structure Span where
  ctx       : Ctx := 0
  plan      : Plan := {}
  hash      : List Byte := []
  keyCheck  : BitVec 16 := 0
  result    : Nat := 0
  bank      : Nat := 0
  first     : BitVec 48 := 0
  last      : BitVec 48 := 0
  id        : Nat := 0
  caps      : List Capture := []
  hashes    : List ((Nat × Nat) × List Byte) := []
  full      : List (Nat × Nat × List (BitVec 32)) := []
  fullLost  : Bool := false
  lost      : BitVec 3 := 0
  hostWrite : Bool := false
  borrowed  : Bool := false
  fenced    : Bool := false
  reduced   : Bool := false
  window    : Nat := 0
  widths    : List (Lnk × Nat) := []
  unchased  : Nat := 0
  voids     : Nat := 0
  replays   : Nat := 0
  chatter   : Count48 := {}
  retry     : Count48 := {}
  tick      : BitVec 64 := 0
  wall      : BitVec 40 := 0
  todo      : List (Nat × Nat) := []
  busy      : List (Nat × Nat) := []
  deriving DecidableEq, Repr

/-- Provenance of one context (R306, R307, R310): sequence registers, stall state, the open span and the records that stand in its ring, each with its job address. -/
structure PrvCtx where
  nextSeq    : BitVec 32 := 0
  lastSeq    : BitVec 32 := 0xFFFFFFFF
  ackSeq     : BitVec 32 := 0xFFFFFFFF
  refused    : Bool := false
  stalled    : Bool := false
  cause      : BitVec 2 := 0
  stallFrom  : BitVec 64 := 0
  spanNo     : Nat := 0
  span       : Option Span := none
  ring       : List (BitVec 32 × Nat) := []
  deriving DecidableEq, Repr

/-- Coverage counts and samples of one context (R162, R203, R206, R219): witness verdicts, shadow counts, last clean samples, the
pairs whose comparison of this execution matched, void tiles offered and chosen for chase slots, recent chase figures. -/
structure CovSt where
  voids     : BitVec 64 := 0
  combined  : BitVec 64 := 0
  residue   : BitVec 16 := 0
  inexact   : BitVec 16 := 0
  descr     : BitVec 16 := 0
  operand   : BitVec 16 := 0
  catches   : BitVec 16 := 0
  chased    : BitVec 16 := 0
  unchased  : BitVec 16 := 0
  exposures : BitVec 16 := 0
  lastClean : List (Nat × BitVec 3 × BitVec 48) := []
  firstPass : BitVec 48 := 0
  clean     : List (Nat × BitVec 3) := []
  dirty     : List (Nat × BitVec 3) := []
  offers    : List (Row × Nat × BitVec 32) := []
  chases    : List (Row × Nat × BitVec 32) := []
  chaseLog  : List (BitVec 48 × Nat × Nat × Nat) := []
  deriving DecidableEq, Repr

/-- Tag counts of one context and the poison latches of its arrays (R117, R119, VX_CTX_TAG_STATUS). -/
structure TagSt where
  untagged : BitVec 16 := 0
  consumed : BitVec 16 := 0
  latches  : List Arr := []
  deriving DecidableEq, Repr

/-- Everything the engine holds for one context. -/
structure CtxSt where
  pass : PassSt := {}
  exec : ExecSt := {}
  pos  : PosSt := {}
  plan : PlanSt := {}
  bar  : BarSt := {}
  lsc  : LscSt := {}
  prv  : PrvCtx := {}
  cov  : CovSt := {}
  tag  : TagSt := {}
  deriving DecidableEq, Repr

end Sys2Proof.Machine
end

