-- ==== Sys2Proof/Machine/EventTypes.lean ====
section
/-! DEFINITION. What the engine reports: events on their way to the recorder (R21, R403), records in the flash (R354, R402,
R403, R412), fault signatures (R418), and everything the engine sends to the outside (completions, messages, flits, frames). -/

namespace Sys2Proof.Machine

/-- The type bytes of the messages on VC0 (R178): PARTING, TILE_VERDICT, COMMIT, REPLAY_START, PLAN_DIST. -/
def typeParting : BitVec 8 := 0x01
/-- TILE_VERDICT. -/
def typeVerdict : BitVec 8 := 0x02
/-- COMMIT. -/
def typeCommit : BitVec 8 := 0x03
/-- REPLAY_START. -/
def typeReplay : BitVec 8 := 0x04
/-- PLAN_DIST. -/
def typePlan : BitVec 8 := 0x05

/-- The code of a verdict (R178). -/
def verdictCode : Verdict → BitVec 2
  | .clean => 0 | .catch => 1 | .void => 2 | .notProduced => 3

/-- A TILE_VERDICT flit as the 128 bits of R178, most significant field first. -/
def verdictBits (f : VerdictFlit) : BitVec 128 :=
  f.passLow ++ f.replay ++ (0 : BitVec 2) ++ f.reason ++ f.voids ++ f.covers ++ verdictCode f.verdict ++ f.seq ++ f.port ++ BitVec.ofNat 8 f.ctx.val ++ typeVerdict

/-- The class of an event: a record that raises no fault, or one of the three fault classes (R21, R334). -/
inductive Cls where
  | record | c | u | f
  deriving DecidableEq, Repr

/-- The severities of a CPER record (R417). -/
inductive CperSev where
  | corrected | recoverable | fatal | informational
  deriving DecidableEq, Repr

/-- Header and section descriptor of a CPER record (R417): the section count, its severity, which of timestamp, platform ID and partition ID
are valid, the timestamp in UTC seconds with its precise bit, creator ID, notification type, Record ID; the section's type, severity and FRU
text. -/
structure CperHead where
  sections  : Nat := 1
  severity  : CperSev
  timeValid : Bool := true
  platform  : Bool := false
  partition : Bool := false
  timestamp : BitVec 40
  precise   : Bool := false
  creator   : BitVec 128
  notify    : BitVec 128
  recordId  : BitVec 64
  secType   : BitVec 128
  secSev    : CperSev
  fru       : List Byte
  deriving DecidableEq, Repr

/-- A CPER entry (R417, R418). `cls` 0 C, 1 U, 2 F, 3 REPLACE flag; `head` its header and descriptor, `body` the 64 bytes of its section. -/
structure Cper where
  cls     : BitVec 8
  code    : BitVec 16
  unit    : UnitId
  ctx     : Option Ctx
  op      : BitVec 8
  esc     : Bool
  replace : Bool
  noWall  : Bool
  halted  : Bool
  p16     : BitVec 16
  p32     : BitVec 32
  addr    : BitVec 64
  tick    : BitVec 64
  wall    : BitVec 40
  unitTemp : BitVec 16
  hottest : BitVec 16
  vcore   : BitVec 16
  vmem    : BitVec 16
  seq     : BitVec 32
  head    : Option CperHead := none
  body    : List Byte := []
  deriving DecidableEq, Repr

/-- An event as its source raises it: code, class, unit, context (none: 0xFF), parameters, the access that R339 gives, the
tick and wall time of the moment, the recorder flags, whether it follows its predecessor in one unit (R218, R374), and the signature that
MC builds once its record has a number (R417). -/
structure Ev where
  code   : BitVec 16
  cls    : Cls := .record
  unit   : UnitId
  ctx    : Option Ctx := none
  p16    : BitVec 16 := 0
  p32    : BitVec 32 := 0
  acc    : BitVec 8 := 0x00
  addr   : BitVec 64 := 0
  tick   : BitVec 64 := 0
  wall   : BitVec 40 := 0
  noWall : Bool := false
  aon    : Bool := false
  esc    : Bool := false
  glued  : Bool := false
  sig    : Option Cper := none
  deriving DecidableEq, Repr

/-- An event record of 32 bytes (R403): `reps` is REPEAT, `perm` flag [2], `aon` flag [3]; a void slot has event 0 (R410). -/
structure Rec where
  seq    : BitVec 32 := 0
  code   : BitVec 16
  cls    : Cls
  esc    : Bool := false
  noWall : Bool := false
  perm   : Bool := false
  aon    : Bool := false
  ctx    : Option Ctx := none
  tick   : BitVec 64
  wall   : BitVec 40
  reps   : BitVec 24 := 0
  unit   : UnitId
  p16    : BitVec 16 := 0
  p32    : BitVec 32 := 0
  deriving DecidableEq, Repr

/-- A slot of the permanent region or the ring: a finished record, or a slot made void (R410). -/
inductive FlashSlot where
  | entry (r : Rec)
  | void (r : Rec)
  deriving DecidableEq, Repr

/-- A unit-history record of 32 bytes (R354). `void` says that its slot was made void (R410), `bad` that its CRC fails, with the bytes from 4
on as they are stored. -/
structure HistRec where
  seq   : BitVec 32
  kind  : BitVec 8
  state : BitVec 8
  unit  : UnitId
  opsec : BitVec 40
  col   : BitVec 8 := 0xFF
  event : BitVec 16
  tick  : BitVec 64
  param : BitVec 32 := 0
  ctx   : Option Ctx := none
  void  : Bool := false
  bad   : Option (List Byte) := none
  deriving DecidableEq, Repr

/-- A persistent-configuration item record (R412); `void` and `bad` as in a history record. -/
structure ConfRec where
  seq   : BitVec 32
  item  : BitVec 16
  value : BitVec 64
  tick  : BitVec 64
  void  : Bool := false
  bad   : Option (List Byte) := none
  deriving DecidableEq, Repr

/-- A record waiting in the staging queue; it is unnumbered until MC has set the next number after a power-up (R404, R459). -/
structure Staged where
  record   : Rec
  numbered : Bool := true
  deriving DecidableEq, Repr

/-- Messages of the management port (R73, R74, R80, R416, R419, R421). -/
inductive Mctp where
  | access (off : Nat) (error : Bool) (event : BitVec 16) (data : Reg)
  | tripRelease (done : Bool)
  | tripStatus (sensor : Nat) (cool : Bool)
  | recSlots (slots : List (List Byte))
  | cper (e : Option Cper)
  | cperNotify (e : Cper)
  | ack (done : Bool)
  | health (state : BitVec 2)
  | control (command : Byte) (payload : BitVec 64)
  | numericSensor (k : Fin 3) (reading : Option (BitVec 32))
  deriving DecidableEq, Repr

/-- A request of the management port that waits while MC is RESTARTING (R74, R450). -/
inductive MgtWait where
  | request (r : MctpRequest)
  | tripRelease
  | tripStatus
  | recRead (region : BitVec 2) (first : BitVec 32) (count : Nat)
  | cperGet
  | cperAck (seq : BitVec 32)
  | cperResend
  deriving DecidableEq, Repr

/-- The outcome of a channel operation (R442). -/
inductive ChanResult where
  | ok | busy | noCredit | closed | empty | refused | waiting
  | entry (ch : Chan) (e : ChanEntry)
  deriving DecidableEq, Repr

/-- What the engine sends out, in order (a field of the model: the spec gives the messages, not a store for them). `inBand` is the I3C
in-band interrupt that signals a pending MCTP message (R73). -/
inductive Out where
  | access (src : Src) (off : Nat) (error : Bool) (data : Reg)
  | msix (vector : Fin 8)
  | inBand
  | mctp (m : Mctp)
  | parting (c : Ctx) (passLow : BitVec 16)
  | tileVerdict (f : VerdictFlit)
  | commit (c : Ctx) (pass : BitVec 48) (verdict : Bool)
  | replayStart (c : Ctx) (pass : BitVec 48) (replay : BitVec 8)
  | planDist (c : Ctx) (section_ : BitVec 16) (offset : Nat) (data : BitVec 64)
  | planKey (c : Ctx) (rho : BitVec 61) (keyCheck : BitVec 16)
  | jobData (g : Gtu) (c : Ctx) (data : List (BitVec 32)) (tag : BitVec 64)
  | hostData (g : Gtu) (error ep : Bool) (data : List (BitVec 32))
  | hostDone (g : Gtu) (error : Bool)
  | fullHashData (g : Gtu) (blank : Nat) (tag : BitVec 64)
  | frame (l : Lnk) (f : Frame)
  | deliver (l : Lnk) (c : Ctx) (data : List (BitVec 32)) (tag : BitVec 64)
  | tagRetry (l : Lnk) (c : Ctx) (seq : BitVec 32)
  | control (d : Dest) (type : Byte) (x : Ctl)
  | huntRun (c : Ctx) (spare : Arr) (item : Nat)
  | retrain (l : Lnk)
  | operandTag (a : Arr) (c : Ctx) (tag : BitVec 64)
  | substitute (row : Row) (col : Nat) (spare : Nat)
  | withdrawSubstitution (row : Row)
  | divider (pct : Nat)
  | chan (p : Proc) (r : ChanResult)
  | isolate (unit : UnitId) (pattern : BitVec 16) (on : Bool)
  | stopArrayClock
  deriving DecidableEq, Repr

end Sys2Proof.Machine
end

