-- ==== Sys2Proof/Machine/UnitTypes.lean ====
section
/-! DEFINITION. The state the spec gives each unit of the engine outside the contexts: boundary and register fabric (chapter 02),
timebase (08), grain tag units (03, 07), Calipers (04, 05), shadow scheduler (06), fault steward (11), screening (12), thermal
guard (13), recorder (14), firmware processors (15), power and reset (16). -/

namespace Sys2Proof.Machine

/-! ## Boundary -/

/-- Pins, straps and supervision of the always-on domain (R76 to R82, VX_BOUNDARY_STATUS). -/
structure Aon where
  valid    : Bool := false
  sampled  : Bool := false
  strap    : BitVec 4 := 0
  sentinel : Bool := false
  checks   : Bool := true
  refOk    : Bool := false
  pgMain   : Bool := false
  pgMem    : Bool := false
  pgIo     : Bool := false
  trip     : Bool := false
  tripBy   : Nat := 0x3FF
  alive    : Bool := false
  dynAddr  : BitVec 7 := 0
  hdr      : Bool := false
  deriving DecidableEq, Repr

/-- A register access waiting at the crossing into a stopped clock domain (R91). -/
structure XingWait where
  src      : Src
  off      : Nat
  acc      : Access
  domain   : BitVec 8
  row      : Option Row
  timedOut : Bool := false
  captured : Bool := false
  deriving DecidableEq, Repr

/-- Capture of a timed-out access (VX_XING_TIMEOUT, VX_XING_TIMEOUT_ADDR), the waiting accesses and the domains whose clock is
stopped: whole domains by code, rows of the array domain. -/
structure Xing where
  valid   : Bool := false
  write   : Bool := false
  mgt     : Bool := false
  outcome : BitVec 2 := 0
  domain  : BitVec 8 := 0
  count   : BitVec 16 := 0
  addr    : BitVec 26 := 0
  waits   : List XingWait := []
  stopped : List (BitVec 8) := []
  rows    : List Row := []
  deriving DecidableEq, Repr

/-- Interrupts and pending words of the host interface (R71, R251, R307, R435). -/
structure Irq where
  status  : BitVec 8 := 0
  enable  : BitVec 8 := 0
  pass    : BitVec 32 := 0
  prv     : BitVec 32 := 0
  mbx     : BitVec 12 := 0
  deriving DecidableEq, Repr

/-! ## Timebase and Spindle -/

/-- Fabric tick, operating time and wall time (R254, R349, R413): remainders count ticks below one second and nanoseconds. -/
structure Time where
  tick    : BitVec 64 := 0
  frac    : BitVec 4 := 0
  high    : BitVec 34 := 0
  opsec   : BitVec 40 := 0
  opRem   : Nat := 0
  wall    : BitVec 40 := 0
  wallRem : Nat := 0
  wallSet : Bool := false
  deriving DecidableEq, Repr

/-- Spindle and lock-step settings and tick alignment (VX_SPN_CFG, VX_SPN_SYNC_STATUS, VX_SPN_LINK_CTRL, VX_LSC_CFG). -/
structure Spn where
  chip      : BitVec 12 := 0xFFF
  master    : Bool := false
  up        : BitVec 5 := 31
  alt       : BitVec 5 := 31
  lead      : BitVec 8 := 0x14
  armMs     : BitVec 16 := 0x3E8
  noticeMs  : BitVec 16 := 0x64
  synced    : Bool := false
  joined    : Bool := false
  offset    : Int := 0
  base      : Int := 0
  rate      : Int := 0
  slewAcc   : Int := 0
  slewFor   : Nat := 0
  slewRest  : Nat := 0
  steps     : BitVec 16 := 0
  retries   : BitVec 16 := 0
  sentTick  : BitVec 64 := 0
  sentFrac  : BitVec 4 := 0
  lastSync  : BitVec 64 := 0
  slew      : Int := 0
  deferred  : Option (BitVec 64) := none
  linkSel   : BitVec 5 := 0
  refused   : Bool := false
  digestMs  : BitVec 10 := 0x14
  deriving DecidableEq, Repr

/-! ## Grain tag units -/

/-- A working slot holding a tag line (R104, R105): stave, and the context of the job visit (none: host or maintenance). -/
structure Visit where
  stave : Nat
  owner : Option Ctx
  deriving DecidableEq, Repr

/-- An entry of a retention table (R229), with the key its copy is tagged under (R98, log 29). -/
structure Retention where
  ctx       : Ctx
  orig      : Nat
  copy      : Nat
  committed : Bool
  rho       : Option (BitVec 61) := none
  deriving DecidableEq, Repr

/-- One memory GTU (R133, R224, R229). -/
structure Mgtu where
  ready    : Bool := false
  tagOk    : Bool := false
  visits   : List Visit := []
  readMis  : BitVec 16 := 0
  writeMis : BitVec 16 := 0
  ecc      : BitVec 16 := 0
  region   : BitVec 16 := 0
  evBlank  : BitVec 25 := 0
  evCtx    : BitVec 8 := 0xFF
  evKind   : BitVec 4 := 0
  evState  : BitVec 3 := 0
  evValid  : Bool := false
  probe    : BitVec 25 := 0
  probing  : Bool := false
  done     : Bool := false
  notServed : Bool := false
  probeTag : BitVec 64 := 0
  retained : List Retention := []
  poison   : List (Ctx × Nat) := []
  deriving DecidableEq, Repr

/-- A frame under tag retry at a receiving link GTU (R123, R132): the receiving context and its frame sequence number, the retries made
and the limit it was first received under. -/
structure Retry where
  ctx   : Ctx
  seq   : BitVec 32
  made  : Nat
  limit : Nat
  deriving DecidableEq, Repr

/-- One link GTU (R133, R224, R264, R265). `sent` is its retry buffer: the blank frames it has put onto their route, with the context
each came from (R122, R266; log 126). -/
structure Lgtu where
  width    : BitVec 4 := 0
  fenced   : Bool := false
  retired  : Bool := false
  retries  : BitVec 16 := 0
  poisoned : BitVec 16 := 0
  keyMis   : BitVec 16 := 0
  open_    : List Retry := []
  sent     : List (Ctx × Frame) := []
  delay    : Nat := 0
  poison   : List (Ctx × Nat) := []
  deriving DecidableEq, Repr

/-! ## Calipers -/

/-- Flags and residues a tile accumulates on the operand side (R149, R153): operand cycles, LOW_P, SPECIAL_P, H, the descriptor
cause (0 none) and y. -/
structure Side where
  cycles  : Nat := 0
  low     : Bool := false
  special : Bool := false
  high    : Option Int := none
  cause   : BitVec 4 := 0
  y       : List (BitVec 61) := []
  deriving DecidableEq, Repr

/-- A tile at a witness port (R146 to R173): its descriptor, its execution, its values, whether it is a group member, the slice
that checks it, and what the operand side and the operand tag check found. -/
structure Tile where
  desc    : TileDesc
  pass    : BitVec 48
  replay  : BitVec 8
  rho     : BitVec 61
  lambda  : BitVec 61
  member  : Bool
  slice   : Nat
  monitor : Bool := false
  tagBad  : Bool := false
  reading : Bool := false
  side    : Side := {}
  deriving DecidableEq, Repr

/-- The open group of a port (R157, R170). -/
structure Group where
  ctx     : Ctx
  pass    : BitVec 48
  replay  : BitVec 8
  seq     : BitVec 32
  rho     : BitVec 61
  members : Nat := 0
  read    : Nat := 0
  voids   : Nat := 0
  left    : Nat := 0
  chained : Bool := false
  closing : Bool := false
  slice   : Nat := 0
  y       : List (BitVec 61) := []
  bsum    : List (List (BitVec 61)) := []
  deriving DecidableEq, Repr

/-- An open-blank tracker (R112, R163): an operand blank of an execution, the words of it that have passed, their sum under the key, and
whether the blank has been compared. -/
structure Tracker where
  exec   : Ctx × BitVec 48 × BitVec 8
  blank  : Nat
  source : Nat := 0
  seen   : BitVec 1024 := 0
  sum    : BitVec 61 := 0
  done   : Bool := false
  deriving DecidableEq, Repr

/-- One witness port (R163, R170, R190): the tile in progress, the parked tiles oldest first, the group, the operand blanks in progress
and compared, the newest MONITOR tile that has parked (R181), the executions in which it has sent a catch, and its registers. -/
structure Port where
  cur      : Option Tile := none
  park     : List Tile := []
  group    : Option Group := none
  blanks   : List Tracker := []
  watched  : Option Tile := none
  caught   : List (Ctx × BitVec 48 × BitVec 8) := []
  maxDebt  : BitVec 4 := 0
  alone    : BitVec 16 := 0
  combined : BitVec 16 := 0
  overruns : BitVec 16 := 0
  resets   : BitVec 16 := 0
  deriving DecidableEq, Repr

/-- The states of a slice (VX_WCE_SLICE_STATUS.STATE). -/
inductive SliceState where
  | serving | idle | handover | selftest | reset | retired
  deriving DecidableEq, Repr

/-- One check slice (R182 to R190): `row` ROW_SERVED, `heldBy` HELD_BY, the executions for which it has sent PARTING (R180), and the column
its verdict arbiter served last (R177). -/
structure SliceSt where
  state    : SliceState := .serving
  row      : BitVec 5 := 31
  heldBy   : BitVec 5 := 31
  refused  : Bool := false
  alone    : BitVec 16 := 0
  groups   : BitVec 16 := 0
  catches  : BitVec 16 := 0
  handovers : BitVec 16 := 0
  result   : BitVec 2 := 0
  runs     : BitVec 8 := 0
  endTick  : BitVec 48 := 0
  parted   : List (Ctx × BitVec 48 × BitVec 8) := []
  served   : Nat := 25
  deriving DecidableEq, Repr

/-- A slice after reset (VX_WCE_SLICE_STATUS): row slices serve their own row, the standby is idle. -/
def sliceAtReset (i : Slice) : SliceSt :=
  if i.val < 24 then { row := BitVec.ofNat 5 i.val, heldBy := BitVec.ofNat 5 i.val } else { state := .idle }

/-- What a handover does when it ends (R182, R183): the row, to the standby or back, and the reason. -/
structure Handover where
  row    : Row
  away   : Bool
  reason : BitVec 3
  deriving DecidableEq, Repr

/-- The Calipers (R163 to R190): slices, ports, the standby's holding reason, the handover in progress, rows the fault steward
waits to hand over, the self-tests in progress with their kind, the test turn and the interval register. -/
structure Wce where
  slices   : Tab 25 SliceSt := Vector.ofFn sliceAtReset
  ports    : Tab 624 Port := Vector.replicate 624 {}
  reason   : BitVec 3 := 0
  handover : Option Handover := none
  orders   : List Row := []
  testing  : List (Slice × BitVec 3) := []
  nextTurn : Nat := 0
  lastTurn : BitVec 40 := 0
  turnDue  : Bool := false
  interval : BitVec 12 := 0x3C
  deriving DecidableEq, Repr

/-! ## Shadow scheduler -/

/-- One row at the shadow scheduler (R197 to R211, VX_SHD_ROW_STATUS): `place` is the physical column of each logical column;
`gone` the columns withdrawn from their role. -/
structure ShdRow where
  shadow   : BitVec 5 := 31
  reserve  : BitVec 5 := 31
  ready    : Bool := false
  borrow   : Bool := false
  donor    : BitVec 5 := 31
  lendTo   : BitVec 5 := 31
  noDonor  : Bool := false
  chased   : Nat := 23
  place    : List Nat := List.range 24
  gone     : List Nat := []
  deriving DecidableEq, Repr

/-- The shadow scheduler (R191 to R220). -/
structure Shd where
  rows    : Tab 24 ShdRow := Vector.replicate 24 {}
  selCtx  : BitVec 5 := 0
  selLog  : BitVec 10 := 0
  selCls  : BitVec 3 := 0
  valid   : Bool := false
  deriving DecidableEq, Repr

/-! ## Fault steward -/

/-- A capture slot (R338, VX_FST_CAP_*). -/
structure Slot3 where
  event    : BitVec 16 := 0
  unit     : BitVec 16 := 0
  acc      : BitVec 8 := 0
  ctx      : BitVec 8 := 0xFF
  valid    : Bool := false
  esc      : Bool := false
  addr     : BitVec 64 := 0
  tick     : BitVec 64 := 0
  reps     : BitVec 24 := 0
  overflow : BitVec 16 := 0
  deriving DecidableEq, Repr

/-- States of the engine under the fault steward (R345). -/
inductive EngState where
  | run | draining | drained | halted
  deriving DecidableEq, Repr

/-- States of a unit in the history (R351). -/
inductive HistState where
  | good | watch | lasting | retired
  deriving DecidableEq, Repr

/-- History of one unit (R350, R351): stamps (operating time, port column), oldest first, the totals, the last outcome, and
the cause under which it was declared lasting. -/
structure Hist where
  state     : HistState := .good
  stamps    : List (BitVec 40 × BitVec 8) := []
  confirmed : Nat := 0
  undecided : Nat := 0
  reports   : Nat := 0
  lastOp    : BitVec 40 := 0
  lastEvent : BitVec 16 := 0
  cause     : BitVec 8 := 0
  deriving DecidableEq, Repr

/-- What an outcome waiting for MC does to a unit's history (R350, R351). -/
inductive HistAct where
  | confirm | undecided | report
  | declare (cause : BitVec 8)
  | confirmThenDeclare (cause : BitVec 8)
  deriving DecidableEq, Repr

/-- An entry of the hardware queue to MC (R355). `with_` is the slice of a witness catch and the port's column; `ranges` the exposure
ranges that shadow catches leave on their primary: the pair, its last clean sample and the length in passes (R218). -/
structure HistEntry where
  unit  : UnitId
  act   : HistAct
  event : BitVec 16
  col   : BitVec 8 := 0xFF
  pass  : BitVec 32 := 0
  ctx   : Option Ctx := none
  tick  : BitVec 64 := 0
  opsec : BitVec 40 := 0
  with_ : Option (UnitId × BitVec 8) := none
  ranges : List (Nat × BitVec 3 × BitVec 48 × BitVec 32) := []
  deriving DecidableEq, Repr

/-- A substitution ordered for a logical column of a row (R243, R357): `caught` is the context that waits with its replay. -/
structure SubOrder where
  row    : Row
  col    : Nat
  spare  : Nat
  caught : Option Ctx := none
  issued : Bool := false
  at_    : BitVec 64 := 0
  redo   : Bool := false
  deriving DecidableEq, Repr

/-- The fault steward (R334 to R362). -/
structure Fst where
  state     : EngState := .run
  replace   : Bool := false
  replaceBy : UnitId := 0
  cause     : BitVec 3 := 0
  standby   : BitVec 2 := 0
  refused   : Bool := false
  slots     : Tab 3 Slot3 := Vector.replicate 3 {}
  cFaults   : BitVec 16 := 0
  uFaults   : BitVec 16 := 0
  fFaults   : BitVec 16 := 0
  escal     : BitVec 16 := 0
  window    : BitVec 14 := 24
  threshold : BitVec 4 := 3
  cfgRefused : Bool := false
  ceStorm   : BitVec 16 := 0x400
  unitSel   : BitVec 16 := 0
  infoValid : Bool := false
  failed    : Tab 24 (BitVec 26) := Vector.replicate 24 0
  drainFrom : BitVec 64 := 0
  faultQ    : List Ev := []
  histQ     : List HistEntry := []
  units     : List (UnitId × Hist) := []
  orders    : List SubOrder := []
  await     : List UnitId := []
  deriving DecidableEq, Repr

/-! ## Thermal guard -/

/-- States of a sensor (R384). -/
inductive SensorState where
  | live | stuck | range | ref | retired
  deriving DecidableEq, Repr

/-- One sensor (R382 to R399): latest reading, PEAK, FAILURES, the counters of its checks, and `hot`, the always-on comparator fixed at
100 °C (R80, R395). -/
structure SensorSt where
  state    : SensorState := .live
  reading  : BitVec 16 := 0
  known    : Bool := false
  peak     : BitVec 16 := 0x8000
  failures : BitVec 8 := 0
  code     : BitVec 16 := 0
  same     : Nat := 0
  good     : Nat := 0
  refBad   : Nat := 0
  crit     : Nat := 0
  maxNew   : Option Int := none
  failNew  : Bool := false
  hot      : Bool := false
  tripped  : Bool := false
  deriving DecidableEq, Repr

/-- The thermal guard (R386 to R401). `asks` are the stretch requests in force, each monitor with its steps, `stretch` the steps applied
(R390). `critNow` is the CRIT_C in force since the last update (R391). `compAt` is the temperature the trims were last computed at, `compLost` that no compensation
sensor was LIVE then (R399). -/
structure Thm where
  throttle : BitVec 8 := 95
  crit     : BitVec 8 := 115
  critNow  : BitVec 8 := 115
  trip     : BitVec 8 := 125
  refused  : Bool := false
  sensors  : Tab 640 SensorSt := Vector.replicate 640 {}
  hottest  : BitVec 16 := 0
  hotIndex : BitVec 10 := 0x3FF
  m        : Nat := 100
  stretch  : Nat := 0
  asks     : List (BitVec 32 × Nat) := []
  stopped  : Bool := false
  sel      : BitVec 10 := 0
  valid    : Bool := false
  throttledNs : Nat := 0
  stretches : BitVec 16 := 0
  fails    : BitVec 16 := 0
  lowest   : Nat := 100
  episode  : Option (BitVec 64) := none
  compAt   : Option Int := none
  compLost : Bool := false
  deriving DecidableEq, Repr

/-! ## Event recorder and management port -/

/-- The recorder flash (R354, R402, R408, R412): two history banks, two configuration banks, the permanent region, and the ring as
the slots written since slot number `base`. -/
structure Flash where
  hist0   : List HistRec := []
  hist1   : List HistRec := []
  histOne : Bool := false
  histSeq : BitVec 32 := 0
  conf0   : List ConfRec := []
  conf1   : List ConfRec := []
  confOne : Bool := false
  confSeq : BitVec 32 := 0
  perm    : List FlashSlot := []
  ring    : List FlashSlot := []
  base    : Nat := 0
  deriving DecidableEq, Repr

/-- Fetch and dump registers of the recorder (VX_REC_READ_SEL, VX_REC_READ_DATA, VX_REC_DUMP_*). -/
structure RecRead where
  region  : BitVec 2 := 0
  index   : BitVec 32 := 0
  going   : Bool := false
  done    : Bool := false
  absent  : Bool := false
  void    : Bool := false
  data    : List Byte := []
  addr    : BitVec 48 := 0
  first   : BitVec 32 := 0
  count   : BitVec 22 := 0
  dRegion : BitVec 2 := 0
  dDone   : Bool := false
  busy    : Bool := false
  refused : Bool := false
  copied  : BitVec 32 := 0
  deriving DecidableEq, Repr

/-- The event recorder and the management port's export (R402 to R424). `mergeMs` of the open record is kept with it. -/
structure RecSt where
  intake   : List Ev := []
  queue    : List Staged := []
  openTill : Option (BitVec 64) := none
  histOut  : List HistRec := []
  confOut  : List (BitVec 16 × BitVec 64 × BitVec 64) := []
  flash    : Flash := {}
  flashOk  : Bool := false
  permFull : Bool := false
  seqSet   : Bool := false
  nextSeq  : BitVec 32 := 0
  lost     : BitVec 32 := 0
  lostRep  : Nat := 0
  progFails : BitVec 12 := 0
  mergeMs  : BitVec 14 := 1000
  queueIrq : BitVec 12 := 0xC00
  codes    : List (BitVec 16) := []
  read     : RecRead := {}
  cpers    : List Cper := []
  cperLost : Bool := true
  dropped  : BitVec 16 := 0
  incomplete : Bool := false
  ackSeq   : BitVec 32 := 0xFFFFFFFF
  health   : BitVec 2 := 0
  deriving DecidableEq, Repr

/-! ## Provenance engine -/

/-- The provenance cores and the fetch registers (R298, R303, R310): each core's leaf (span, role, leaf); `made` numbers the spans. -/
structure Prv where
  cores  : Tab 8 (Option (Nat × Nat × Nat)) := Vector.replicate 8 none
  spans  : List Span := []
  made   : Nat := 0
  selCtx : BitVec 5 := 0
  selSeq : BitVec 32 := 0
  going  : Bool := false
  done   : Bool := false
  absent : Bool := false
  data   : List Byte := []
  deriving DecidableEq, Repr

/-! ## Plan loader -/

/-- A distribution in progress (R66, R67, R317): the PLAN_DIST flits still to send as (section, offset) pairs, the one sent that not every
target has taken, and the targets that have not. -/
structure Dist where
  ctx    : Ctx
  todo   : List (BitVec 16 × Nat)
  flit   : Option (BitVec 16 × Nat × BitVec 64) := none
  owing  : List UnitId := []
  deriving DecidableEq, Repr

/-- The plan loader (R317, R333): the queue of loads, the distributions and the selected resource. -/
structure Pln where
  queue      : List Ctx := []
  validating : Option Ctx := none
  dists      : List Dist := []
  selCls     : BitVec 4 := 0
  selIdx     : BitVec 16 := 0
  deriving DecidableEq, Repr

/-! ## Firmware processors, mailboxes and channels -/

/-- The states of a firmware processor (R427). -/
inductive ProcState where
  | off | loading | hold | run | restarting | failed
  deriving DecidableEq, Repr

/-- An entry of a log ring (R454). -/
structure LogEntry where
  tick : BitVec 64
  code : BitVec 16
  ctx  : BitVec 8
  hw   : Bool
  arg  : BitVec 32
  deriving DecidableEq, Repr

/-- One firmware processor (R425 to R457): `log` holds the newest 4,096 entries, newest last; `greeted` that the host side has agreed a
protocol since the image started (R427, R439), `recent` the operating time each counted restart began at (R451). Of the tightly coupled
memory `code` holds the image (`locked` once its load is complete, `entry` its entry point), `retained` and `working` the words of the two
other parts that are not 0, lowest first (R425, R426; log 163); `regs` the core's registers, `x0` among them reading 0. -/
structure ProcSt where
  state    : ProcState := .off
  greeted  : Bool := false
  latches  : Bool := false
  cause    : BitVec 4 := 0
  restarts : BitVec 16 := 0
  recent   : List (BitVec 40) := []
  ecc      : BitVec 16 := 0
  version  : BitVec 32 := 0
  major    : BitVec 8 := 0
  minor    : BitVec 8 := 0
  agreed0  : BitVec 8 := 0
  agreed1  : BitVec 8 := 0
  refused  : Bool := false
  period   : BitVec 10 := 0
  expiries : BitVec 16 := 0
  written  : BitVec 32 := 0
  log      : List LogEntry := []
  trace    : Tab 4 (BitVec 64) := Vector.replicate 4 0
  code     : List Byte := []
  table    : Nat := 0
  from_    : BitVec 64 := 0
  pc       : BitVec 32 := 0
  waitSend : Option (Chan × Bool) := none
  waitRecv : Bool := false
  served   : Nat := 31
  locked   : Bool := false
  entry    : BitVec 32 := 0
  retained : List (Nat × BitVec 32) := []
  working  : List (Nat × BitVec 32) := []
  regs     : Tab 32 (BitVec 32) := Vector.replicate 32 0
  deriving DecidableEq, Repr

/-- One side of a mailbox (R431 to R436): request and response registers, the request in progress, and the retained record. -/
structure Mbox where
  req      : MboxRegs := Vector.replicate 8 0
  rsp      : MboxRegs := Vector.replicate 8 0
  busy     : Bool := false
  done     : Bool := false
  timedOut : Bool := false
  refused  : Bool := false
  inReq    : MboxRegs := Vector.replicate 8 0
  last     : Option (BitVec 8 × BitVec 16 × MboxRegs) := none
  deriving DecidableEq, Repr

/-- The states of a channel (VX_FWP_CHAN_STATUS.STATE). -/
inductive ChanState where
  | free | open_ | draining
  deriving DecidableEq, Repr

/-- One channel (R441 to R446): entries oldest first; `told` lists partners that have still to see CLOSED once (R449), `closedAt` is the
tick it last closed at (R445). -/
structure ChanSt where
  state     : ChanState := .free
  sender    : BitVec 3 := 7
  receiver  : BitVec 3 := 7
  prio      : BitVec 2 := 0
  entries   : List ChanEntry := []
  sendWait  : Bool := false
  sent      : BitVec 16 := 0
  discarded : BitVec 16 := 0
  told      : List Proc := []
  closedAt  : Option (BitVec 64) := none
  closedBy  : BitVec 3 := 7
  openedAt  : Option (BitVec 64) := none
  deriving DecidableEq, Repr

/-- The firmware processors, mailboxes, channels and the load registers; `job` and `kib` are the targets and the length of the load in
progress as GO found them, `was` those of the targets that were FAILED before it (R430). -/
structure Fwp where
  procs   : Tab 6 ProcSt := Vector.replicate 6 {}
  mbox    : Tab 12 Mbox := Vector.replicate 12 {}
  chans   : Tab 32 ChanSt := Vector.replicate 32 {}
  addr    : BitVec 48 := 0
  lenKib  : BitVec 16 := 0
  base    : BitVec 48 := 0
  target  : BitVec 6 := 0
  job     : BitVec 6 := 0
  kib     : BitVec 16 := 0
  was     : BitVec 6 := 0
  busy    : Bool := false
  result  : BitVec 2 := 0
  cause   : BitVec 4 := 0
  refused : Bool := false
  deriving DecidableEq, Repr

/-! ## Screening -/

/-- Screening state of one unit (R371 to R374); `bringTick` is the end tick of its bring-up pattern. -/
structure ScrUnit where
  bringTick : BitVec 64 := 0
  lastTick : Option (BitVec 64) := none
  lastPass : Option (BitVec 64) := none
  lastOp   : BitVec 40 := 0
  incompl  : BitVec 8 := 0
  fails    : BitVec 16 := 0
  retest   : Option (BitVec 16 × BitVec 64) := none
  late     : Bool := false
  round    : Bool := false
  users    : BitVec 32 := 0
  deriving DecidableEq, Repr

/-- A pattern running on a unit (R363): a pattern of the field rotation or of a SCREEN plan; `held` when it began while its array's owner
ran nothing (R367). -/
structure Pattern where
  unit    : UnitId
  pattern : BitVec 16
  start   : BitVec 64
  retest  : Bool
  round   : Nat
  field   : Bool := true
  held    : Bool := false
  deriving DecidableEq, Repr

/-- Screening (R363 to R381). `ended` holds the patterns that reached their end markers while TC did not run, with their MISRs and cycle
counts: they are judged when it runs again (R450). -/
structure Scr where
  minutes  : BitVec 8 := 0x3C
  running  : List Pattern := []
  ended    : List (Pattern × BitVec 128 × BitVec 32) := []
  rotation : Nat := 0
  rotFrom  : BitVec 40 := 0
  units    : List (UnitId × ScrUnit) := []
  resUnit  : BitVec 16 := 0xFFFF
  resPat   : BitVec 16 := 0
  result   : BitVec 2 := 0
  resCause : BitVec 4 := 0
  resRetest : Bool := false
  cycles   : BitVec 32 := 0
  expected : BitVec 32 := 0
  misr     : BitVec 128 := 0
  resTick  : BitVec 64 := 0
  refused  : Bool := false
  testNow  : Option UnitId := none
  sel      : BitVec 16 := 0
  valid    : Bool := false
  flags    : BitVec 64 := 0
  deriving DecidableEq, Repr

/-! ## Power and reset -/

/-- The power states (R476). -/
inductive Vs where
  | vs0 | vs1 | vs2 | vs3 | vs4
  deriving DecidableEq, Repr

/-- A reset in progress (R471, R474). -/
structure ResetJob where
  domain  : BitVec 4
  index   : BitVec 12
  from_   : BitVec 64
  drained : Bool := false
  deriving DecidableEq, Repr

/-- An orderly shutdown in progress (R469): where it leads (3, 4, or 0xF for a reset), when it began, and whether its self-test runs. -/
structure Shutdown where
  target  : BitVec 4
  from_   : BitVec 64
  testing : Bool := false
  deriving DecidableEq, Repr

/-- Power and reset (R458 to R482). `bringUs` is the time of the bring-up so far; `waitDrv` marks step 7 in progress (R462); `resets`
holds the domain reset in progress, `whole` a whole-engine or whole-chip reset until READY; `cleanDown` that the engine was left through
an orderly shutdown whose self-test ran, with no POWER_LOSS since (R467); `lossVs4` that VS4 was entered by POWER_LOSS (R477); `tripLost`
that VDD_AON was lost while VX_TRIP_N was held (R80). -/
structure Pwr where
  vs       : Vs := .vs4
  ready    : Bool := false
  step     : BitVec 3 := 1
  path     : BitVec 2 := 0
  waitDrv  : Bool := false
  bringUs  : Nat := 0
  early    : BitVec 16 := 0
  target   : BitVec 3 := 0
  refused  : Bool := false
  domain   : BitVec 4 := 0
  index    : BitVec 12 := 0
  rRefused : Bool := false
  outcome  : BitVec 2 := 0
  absorbed : BitVec 16 := 0
  resets   : List ResetJob := []
  down     : Option Shutdown := none
  whole    : Option ResetJob := none
  cleanDown : Bool := false
  lossVs4  : Bool := false
  tripLost : Bool := false
  deriving DecidableEq, Repr

end Sys2Proof.Machine
end

