-- ==== Sys2Proof/Machine/State.lean ====
section
/-! DEFINITION. The machine's state as plain data: everything the spec gives the engine, the queue of waiting commands, the list of
what the engine has sent; the reasons a step can stop; and the state after reset. -/

namespace Sys2Proof.Machine

/-- Fuses of a T9-X of grade -A, stepping 0x00 (R4, R487). The spec gives no one variant: DESIGN CHOICE (log 3). AON_POWER_VALID
latches the fuses of the part at hand. -/
def fusesAtReset : Fuses :=
  { product := 0, gradeB := false, stepping := 0, rowCnt := 24, stackCnt := 20, linkCnt := 24, chipId := 0 }

/-- A processor after reset (chapter 17): MC in HOLD from its ROM, the others OFF. -/
def procAtReset (p : Proc) : ProcSt :=
  if p.val = 0 then { state := .hold, version := 1, major := 1, period := 20 }
  else if p.val = 5 then { period := 50 } else { period := 2 }

/-- A fixed channel of R441: sender and receiver. -/
def fixedEnds (c : Nat) : BitVec 3 × BitVec 3 :=
  if c < 4 then (0, BitVec.ofNat 3 (c + 1))
  else if c < 8 then (BitVec.ofNat 3 (c - 3), 0)
  else if c = 8 then (0, 5) else (5, 0)

/-- A channel after reset (R441, R488). -/
def chanAtReset (c : Chan) : ChanSt :=
  if c.val < 10 then { state := .open_, sender := (fixedEnds c.val).1, receiver := (fixedEnds c.val).2, prio := 3 } else {}

/-- The firmware part after reset. -/
def fwpAtReset : Fwp := { procs := Vector.ofFn procAtReset, chans := Vector.ofFn chanAtReset }

/-- The engine. `pending` is the queue of commands, `out` what the engine has sent (newest last), `free` the counter that numbers
the values the spec leaves open, `jobMap` the T9's placing of job addresses, which no command changes (log 36); all else is the spec's own state. `mem` holds the bytes of the stacks (key: stack · 2^37 + the
stack-local byte address), `tags` the stored grain tags (key: stack · 2^25 + blank). -/
structure State where
  pending : List Instr := []
  out     : List Out := []
  free    : Nat := 0
  fuses   : Fuses := fusesAtReset
  aon     : Aon := {}
  xing    : Xing := {}
  irq     : Irq := {}
  time    : Time := {}
  spn     : Spn := {}
  ctxs    : Tab 32 CtxSt := Vector.replicate 32 {}
  mem     : List Host.Cell := []
  tags    : List (Nat × BitVec 64) := []
  mgtu    : Tab 40 Mgtu := Vector.replicate 40 {}
  lgtu    : Tab 24 Lgtu := Vector.replicate 24 {}
  retryLimit : BitVec 4 := 4
  wce     : Wce := {}
  shd     : Shd := {}
  fst     : Fst := {}
  prv     : Prv := {}
  pln     : Pln := {}
  thm     : Thm := {}
  rcd     : RecSt := {}
  fwp     : Fwp := fwpAtReset
  scr     : Scr := {}
  mgt     : List MgtWait := []
  pwr     : Pwr := {}
  jobMap  : List Config.JobRange := Config.jobMap
  deriving DecidableEq, Repr

/-- The machine right after reset: every register at the Reset column of chapter 17, before VDD_AON is valid, a blank flash. -/
def State.reset : State := {}

/-- Why a command stops the model with a fault. -/
inductive Fault where
  /-- A memory command names a byte at or above the stack's capacity (R101), an address no T9 access has. Raised by the memory
  commands. Safe: the model stops where the machine has no such access. -/
  | outsideStack
  deriving DecidableEq, Repr

/-- Why the model gives a command no meaning. -/
inductive Refusal where
  /-- The command has no meaning in the model yet; raised by the arms of Dispatch. Safe: nothing can be proved of it. -/
  | notModelled (mnemonic : String)
  deriving DecidableEq, Repr

/-- The answer of a meaning. -/
abbrev Res := Host.Outcome State Fault Refusal

end Sys2Proof.Machine
end

