-- ==== Sys2Proof/Machine/Ops.lean ====
section
/-! DEFINITION. Operations every part of the engine shares: named updates of the state, what the variant has (R4, R5, R484, R494),
sending, interrupts (R71), raising an event (R21, R405), firmware logs and refusals (R454, R491). -/

namespace Sys2Proof.Machine

/-! ## Named updates -/

/-- One context changed. -/
def State.onCtx (s : State) (c : Ctx) (f : CtxSt → CtxSt) : State := { s with ctxs := s.ctxs.upd c f }

/-- A context's pass registers changed. -/
def State.onPass (s : State) (c : Ctx) (f : PassSt → PassSt) : State := s.onCtx c (fun x => { x with pass := f x.pass })

/-- A context's execution changed. -/
def State.onExec (s : State) (c : Ctx) (f : ExecSt → ExecSt) : State := s.onCtx c (fun x => { x with exec := f x.exec })

/-- A context's position changed. -/
def State.onPos (s : State) (c : Ctx) (f : PosSt → PosSt) : State := s.onCtx c (fun x => { x with pos := f x.pos })

/-- A context's plan and load changed. -/
def State.onPlan (s : State) (c : Ctx) (f : PlanSt → PlanSt) : State := s.onCtx c (fun x => { x with plan := f x.plan })

/-- A context's barrier and timing counters changed. -/
def State.onBar (s : State) (c : Ctx) (f : BarSt → BarSt) : State := s.onCtx c (fun x => { x with bar := f x.bar })

/-- A context's lock-step half changed. -/
def State.onLsc (s : State) (c : Ctx) (f : LscSt → LscSt) : State := s.onCtx c (fun x => { x with lsc := f x.lsc })

/-- A context's provenance changed. -/
def State.onPrv (s : State) (c : Ctx) (f : PrvCtx → PrvCtx) : State := s.onCtx c (fun x => { x with prv := f x.prv })

/-- A context's coverage counts changed. -/
def State.onCov (s : State) (c : Ctx) (f : CovSt → CovSt) : State := s.onCtx c (fun x => { x with cov := f x.cov })

/-- A context's tag counts and latches changed. -/
def State.onTag (s : State) (c : Ctx) (f : TagSt → TagSt) : State := s.onCtx c (fun x => { x with tag := f x.tag })

/-- One memory GTU changed. -/
def State.onMgtu (s : State) (g : Gtu) (f : Mgtu → Mgtu) : State := { s with mgtu := s.mgtu.upd g f }

/-- One link GTU changed. -/
def State.onLgtu (s : State) (l : Lnk) (f : Lgtu → Lgtu) : State := { s with lgtu := s.lgtu.upd l f }

/-- The Calipers changed. -/
def State.onWce (s : State) (f : Wce → Wce) : State := { s with wce := f s.wce }

/-- One witness port changed. -/
def State.onPort (s : State) (a : Arr) (f : Port → Port) : State := s.onWce (fun w => { w with ports := w.ports.upd a f })

/-- One check slice changed. -/
def State.onSlice (s : State) (n : Slice) (f : SliceSt → SliceSt) : State := s.onWce (fun w => { w with slices := w.slices.upd n f })

/-- One row at the shadow scheduler changed. -/
def State.onRow (s : State) (r : Row) (f : ShdRow → ShdRow) : State := { s with shd := { s.shd with rows := s.shd.rows.upd r f } }

/-- The shadow scheduler changed. -/
def State.onShd (s : State) (f : Shd → Shd) : State := { s with shd := f s.shd }

/-- The fault steward changed. -/
def State.onFst (s : State) (f : Fst → Fst) : State := { s with fst := f s.fst }

/-- The thermal guard changed. -/
def State.onThm (s : State) (f : Thm → Thm) : State := { s with thm := f s.thm }

/-- One sensor changed. -/
def State.onSensor (s : State) (n : Sensor) (f : SensorSt → SensorSt) : State :=
  s.onThm (fun t => { t with sensors := t.sensors.upd n f })

/-- The recorder changed. -/
def State.onRec (s : State) (f : RecSt → RecSt) : State := { s with rcd := f s.rcd }

/-- The recorder flash changed. -/
def State.onFlash (s : State) (f : Flash → Flash) : State := s.onRec (fun r => { r with flash := f r.flash })

/-- The firmware part changed. -/
def State.onFwp (s : State) (f : Fwp → Fwp) : State := { s with fwp := f s.fwp }

/-- One processor changed. -/
def State.onProc (s : State) (p : Proc) (f : ProcSt → ProcSt) : State := s.onFwp (fun w => { w with procs := w.procs.upd p f })

/-- One channel changed. -/
def State.onChan (s : State) (c : Chan) (f : ChanSt → ChanSt) : State := s.onFwp (fun w => { w with chans := w.chans.upd c f })

/-- One mailbox side changed. -/
def State.onMbox (s : State) (i : Fin 12) (f : Mbox → Mbox) : State := s.onFwp (fun w => { w with mbox := w.mbox.upd i f })

/-- Screening changed. -/
def State.onScr (s : State) (f : Scr → Scr) : State := { s with scr := f s.scr }

/-- Power and reset changed. -/
def State.onPwr (s : State) (f : Pwr → Pwr) : State := { s with pwr := f s.pwr }

/-- The provenance engine changed. -/
def State.onPrvEng (s : State) (f : Prv → Prv) : State := { s with prv := f s.prv }

/-- The plan loader changed. -/
def State.onPln (s : State) (f : Pln → Pln) : State := { s with pln := f s.pln }

/-- The Spindle changed. -/
def State.onSpn (s : State) (f : Spn → Spn) : State := { s with spn := f s.spn }

/-- The always-on domain changed. -/
def State.onAon (s : State) (f : Aon → Aon) : State := { s with aon := f s.aon }

/-- Every context changed. -/
def State.onAllCtx (s : State) (f : Ctx → CtxSt → CtxSt) : State := { s with ctxs := s.ctxs.mapAll f }

/-- A context. -/
def State.ctx (s : State) (c : Ctx) : CtxSt := s.ctxs.at c

/-- A step done for each member of a list in order. -/
def State.each {α : Type} (s : State) (xs : List α) (f : State → α → State) : State := xs.foldl f s

/-- All contexts. -/
def allCtx : List Ctx := List.finRange 32

/-- A next free value of the spec's open values, and the state with the counter advanced (log 8). -/
def State.fresh (s : State) : BitVec 64 × State := (Config.freeWord s.free, { s with free := s.free + 1 })

/-! ## The variant (R4, R5, R484, R494) -/

/-- An index below `n`, or none. -/
def finOf (n i : Nat) : Option (Fin n) := if h : i < n then some ⟨i, h⟩ else none

/-- Rows of the part. -/
def State.rows (s : State) : Nat := s.fuses.rowCnt

/-- Memory ports of the part. -/
def State.ports (s : State) : Nat := 2 * s.fuses.stackCnt

/-- Links of the part. -/
def State.links (s : State) : Nat := s.fuses.linkCnt

/-- The standby slice is present (grade -A). -/
def State.hasStandby (s : State) : Bool := !s.fuses.gradeB

/-- f_max in 10 MHz (R4). -/
def State.fmax (s : State) : Nat := if s.fuses.product = 1 then 140 else 160

/-- The partition of a unit with index `i` among `n` (R494). -/
def partOf (i n : Nat) : Nat := if n = 0 then 0 else 4 * i / n

/-- The row of an array. -/
def rowOf (a : Arr) : Row := ⟨a.val / 26, Nat.div_lt_of_lt_mul (by omega)⟩

/-- The column of an array. -/
def colOf (a : Arr) : Nat := a.val % 26

/-- The array of a row and a column (columns above 25 read as 25). -/
def arrOf (r : Row) (col : Nat) : Arr := ⟨r.val * 26 + min col 25, by have := r.isLt; omega⟩

/-- Row and logical column of a logical index. -/
def logRow (logical : Nat) : Option Row := finOf 24 (logical / 24)

/-- The physical array that holds a logical index now (R20, R198). -/
def State.physOf (s : State) (logical : Nat) : Option Arr :=
  (logRow logical).map (fun r => arrOf r ((s.shd.rows.at r).place.getD (logical % 24) 0))

/-- The logical index that a physical array holds now, if any. -/
def State.logicalOf (s : State) (a : Arr) : Option Nat :=
  let r := rowOf a
  ((List.range 24).find? (fun c => (s.shd.rows.at r).place.getD c 0 = colOf a)).map (fun c => r.val * 24 + c)

/-! ## Unit IDs (R19) -/

/-- A unit ID of a class and an index. -/
def unitId (cls idx : Nat) : UnitId := BitVec.ofNat 16 (cls * 4096 + idx)

/-- Array. -/
def uArr (a : Arr) : UnitId := unitId 0 a.val
/-- Witness port. -/
def uPort (a : Arr) : UnitId := unitId 1 a.val
/-- Check slice. -/
def uSlice (n : Slice) : UnitId := unitId 2 n.val
/-- Memory GTU. -/
def uMgtu (g : Gtu) : UnitId := unitId 3 g.val
/-- Link GTU. -/
def uLgtu (l : Lnk) : UnitId := unitId 4 l.val
/-- Firmware processor. -/
def uProc (p : Proc) : UnitId := unitId 5 p.val
/-- Sensor. -/
def uSensor (n : Sensor) : UnitId := unitId 6 n.val
/-- The commit unit of a partition (R221). -/
def uCommit (k : Nat) : UnitId := BitVec.ofNat 16 (0x7100 + k)
/-- The register fabric (R91). -/
def uFabric : UnitId := 0x7000
/-- The always-on clock qualifier (R92). -/
def uClock : UnitId := 0x7001
/-- Lock-step comparator, Spindle (chapter 08). -/
def uLsc : UnitId := 0x7200
/-- The Spindle. -/
def uSpn : UnitId := 0x7201
/-- PRV control (R309). -/
def uPrv : UnitId := 0x7308
/-- PLN (chapter 10). -/
def uPln : UnitId := 0x7400
/-- FST (chapter 11). -/
def uFst : UnitId := 0x7500
/-- Host interface (R336). -/
def uHost : UnitId := 0x7501
/-- SCR (chapter 12). -/
def uScr : UnitId := 0x7600
/-- THM (chapter 13). -/
def uThm : UnitId := 0x7700
/-- REC (chapter 14). -/
def uRec : UnitId := 0x7800
/-- MGT (chapter 14). -/
def uMgt : UnitId := 0x7900
/-- PWR (chapter 16). -/
def uPwr : UnitId := 0x7A00

/-- The class of a unit ID. -/
def uClass (u : UnitId) : Nat := u.toNat / 4096
/-- The index of a unit ID. -/
def uIndex (u : UnitId) : Nat := u.toNat % 4096

/-- Units of the ranges of R5 and R19 that the part has; class 7 units exist where a block names them. -/
def State.unitExists (s : State) (u : UnitId) : Bool :=
  let i := uIndex u
  match uClass u with
  | 0 => decide (i < s.rows * 26)
  | 1 => decide (i < s.rows * 26)
  | 2 => decide (i < s.rows) || (decide (i = 24) && s.hasStandby)
  | 3 => decide (i < s.ports)
  | 4 => decide (i < s.links)
  | 5 => decide (i < 6)
  | 6 => decide (i < s.rows * 26) || (decide (624 ≤ i) && decide (i < 640))
  | 7 => [0x000, 0x001, 0x100, 0x101, 0x102, 0x103, 0x200, 0x201, 0x300, 0x301, 0x302, 0x303, 0x304, 0x305, 0x306, 0x307,
          0x308, 0x400, 0x500, 0x501, 0x600, 0x700, 0x800, 0x900, 0xA00].contains i
  | _ => false

/-! ## Sending, interrupts and events -/

/-- Something sent. -/
def State.send (s : State) (o : Out) : State := { s with out := s.out ++ [o] }

/-- A link control frame sent with its TYPE. -/
def State.sendCtl (s : State) (d : Dest) (x : Ctl) : State := s.send (.control d (ctlType x) x)

/-- A message of the management port, signalled by an in-band interrupt (R73; log 146). -/
def State.sendMctp (s : State) (m : Mctp) : State := (s.send .inBand).send (.mctp m)

/-- The MSI-X messages for a set of vectors, lowest first. -/
def msixFor (mask : BitVec 8) : List Out := ((List.finRange 8).filter (fun i => mask.getLsbD i.val)).map Out.msix

/-- Set bits of VX_IRQ_STATUS; a bit that becomes set while its enable is 1 sends its message (R71). -/
def State.irqSet (s : State) (mask : BitVec 8) : State :=
  { s with irq := { s.irq with status := s.irq.status ||| mask }
           out := s.out ++ msixFor (mask &&& ~~~ s.irq.status &&& s.irq.enable) }

/-- Bits of VX_IRQ_STATUS. -/
def irqFault : BitVec 8 := 0x01
/-- MAILBOX. -/
def irqMailbox : BitVec 8 := 0x02
/-- PASS. -/
def irqPass : BitVec 8 := 0x04
/-- THERMAL. -/
def irqThermal : BitVec 8 := 0x08
/-- RECORDER. -/
def irqRecorder : BitVec 8 := 0x10
/-- PROVENANCE. -/
def irqPrv : BitVec 8 := 0x20
/-- PLAN. -/
def irqPlan : BitVec 8 := 0x40
/-- BOUNDARY. -/
def irqBoundary : BitVec 8 := 0x80

/-- Fields [9:4] of VX_BOUNDARY_STATUS, whose change sets BOUNDARY. -/
def Aon.watched (a : Aon) : List Bool := [a.refOk, a.pgMain, a.pgMem, a.pgIo, a.trip, a.alive]

/-- The always-on domain changed; a change in a watched field sets VX_IRQ_STATUS.BOUNDARY. -/
def State.setAon (s : State) (f : Aon → Aon) : State :=
  let t := s.onAon f
  if (f s.aon).watched = s.aon.watched then t else t.irqSet irqBoundary

/-- An event with the tick, the wall time and the flags of the moment (R403). -/
def State.stamp (s : State) (e : Ev) : Ev :=
  { e with tick := s.time.tick, wall := s.time.wall, noWall := !s.time.wallSet, aon := !s.aon.pgMain }

/-- An event raised: a record goes to the recorder's intake, a fault to the fault steward (R335). -/
def State.emit (s : State) (e : Ev) : State :=
  match e.cls with
  | .record => s.onRec (fun r => { r with intake := r.intake ++ [s.stamp e] })
  | _ => s.onFst (fun f => { f with faultQ := f.faultQ ++ [s.stamp e] })

/-- Bit c of VX_PASS_PENDING set, and PASS with it (R251). -/
def State.notifyPass (s : State) (c : Ctx) : State :=
  ({ s with irq := { s.irq with pass := s.irq.pass ||| (1#32 <<< c.val) } } : State).irqSet irqPass

/-- The bit of a context in a mask. -/
def ctxBit (c : Ctx) : BitVec 32 := 1#32 <<< c.val

/-- The mask of a list of contexts. -/
def ctxMask (cs : List Ctx) : BitVec 32 := cs.foldl (fun m c => m ||| ctxBit c) 0

/-- A 16-bit count that wraps, increased. -/
def bump (n : BitVec 16) : BitVec 16 := n + 1

/-- A number saturated into `w` bits. -/
def satBits (w n : Nat) : BitVec w := BitVec.ofNat w (min n (2 ^ w - 1))

/-! ## Firmware logs and refusals (R454, R491) -/

/-- An entry written to a processor's log ring: the newest 4,096 stay. -/
def State.logTo (s : State) (p : Proc) (code : BitVec 16) (ctx : Option Ctx) (hw : Bool) (arg : BitVec 32) : State :=
  s.onProc p (fun x =>
    let l := x.log ++ [{ tick := s.time.tick, code, ctx := match ctx with | some c => BitVec.ofNat 8 c.val | none => 0xFF, hw, arg }]
    { x with written := x.written + 1, log := l.drop (l.length - 4096) })

/-- MC. -/
def mc : Proc := 0

/-- The pass controller of a partition. -/
def pcOf (k : Fin 4) : Proc := ⟨k.val + 1, by omega⟩

/-- The firmware log entry of a refused write (R454): code 0x8000, the window offset and the side. -/
def State.logRefusal (s : State) (p : Proc) (ctx : Option Ctx) (src : Src) (off : Nat) : State :=
  s.logTo p 0x8000 ctx true (BitVec.ofNat 32 (off + (if src = .mgt then 2 ^ 31 else 0)))

/-! ## Contexts and plans -/

/-- The applied plan of a context. -/
def State.planOf (s : State) (c : Ctx) : Option Plan := (s.ctx c).plan.active

/-- A context has a plan loaded. -/
def State.hasPlan (s : State) (c : Ctx) : Bool := (s.ctx c).pass.st ≠ .noPlan

/-- Contexts with a plan loaded. -/
def State.loadedCtxs (s : State) : List Ctx := allCtx.filter (fun c => s.hasPlan c)

/-- The home partition of a context (R221). -/
def State.home (s : State) (c : Ctx) : Fin 4 := ((s.planOf c).map (fun p => p.core.home)).getD 0

/-- The commit unit of a context. -/
def State.commitUnit (s : State) (c : Ctx) : UnitId := uCommit (s.home c).val

/-- The integrity modes (VX_CTX_INTEGRITY.PRIMARY_MODE). -/
def Plan.isWitness (p : Plan) : Bool := p.core.primary = 1
/-- SHADOW-DENSE. -/
def Plan.isDense (p : Plan) : Bool := p.core.primary = 2
/-- DUAL. -/
def Plan.isDual (p : Plan) : Bool := p.core.primary = 3
/-- MONITOR. -/
def Plan.isMonitor (p : Plan) : Bool := p.core.primary = 4
/-- SCREEN. -/
def Plan.isScreen (p : Plan) : Bool := p.core.primary = 5

/-- Logical arrays a plan owns. -/
def Plan.owns (p : Plan) (logical : Nat) : Bool := p.core.owned.any (fun o => o.logical = logical)

/-- Rows whose logical arrays a plan owns (R243: a context uses a row). -/
def Plan.usesRow (p : Plan) (r : Row) : Bool := p.core.owned.any (fun o => o.logical / 24 = r.val)

/-- Q, the length of the pass program; at least 1. -/
def Plan.q (p : Plan) : Nat := max 1 p.core.positions.length

/-- A position of the program. -/
def Plan.pos (p : Plan) (i : Nat) : Option Position := p.core.positions[i]?

/-- The plan's claim on a port or a link. -/
def Plan.claimsOf (p : Plan) (cls idx : Nat) : BitVec 64 :=
  ((p.core.claims.filter (fun k => k.cls = cls ∧ k.index = idx)).foldl (fun m k => m ||| k.mask) 0)

/-- A plan uses a memory port: it claims slices of it. -/
def Plan.usesPort (p : Plan) (g : Nat) : Bool := p.core.claims.any (fun k => k.cls = 1 ∧ k.index = g)

/-- A plan's static routes use a link: it claims slices of it (log 18). -/
def Plan.usesLink (p : Plan) (l : Nat) : Bool := p.core.claims.any (fun k => k.cls = 2 ∧ k.index = l)

/-- Every context that uses a row. -/
def State.ctxsOfRow (s : State) (r : Row) : List Ctx :=
  allCtx.filter (fun c => match s.planOf c with | some p => s.hasPlan c && p.usesRow r | none => false)

/-- The context runs or decides an execution: RUNNING, or ended and not yet injected (R249). -/
def State.deciding (s : State) (c : Ctx) : Bool := (s.ctx c).pass.st = .running || !(s.ctx c).exec.injected

end Sys2Proof.Machine
end

