-- ==== Sys2Proof/Machine/RegMap.lean ====
section
/-! DEFINITION. The register map (R483, R484): which register an offset of the window names, which instances the part has, and the
clock domain each register lies in (R85, R91). -/

namespace Sys2Proof.Machine

/-- The registers of chapter 17, with the indices of R484. A mailbox side is numbered 2 · processor + side. -/
inductive RegAt where
  | id
  | ctxIntegrity (c : Ctx)
  | boundaryStatus
  | xingTimeout
  | xingTimeoutAddr
  | irqStatus
  | irqEnable
  | ctxPass (c : Ctx)
  | ctxCommit (c : Ctx)
  | ctxPassCounts (c : Ctx)
  | ctxStopCause (c : Ctx)
  | ctxRetention (c : Ctx)
  | ctxPassCtrl (c : Ctx)
  | passPending
  | shdRowStatus (r : Row)
  | shdCtxStatus (c : Ctx)
  | shdPairSel
  | shdPairInfo
  | shdPairLast
  | fstStatus
  | fstCounts
  | fstHistoryCfg
  | fstOptime
  | fstCfg
  | fstCapInfo (k : Fin 3)
  | fstCapAddr (k : Fin 3)
  | fstCapTick (k : Fin 3)
  | fstCapRepeat (k : Fin 3)
  | fstUnitSel
  | fstUnitInfo
  | fstUnitLast
  | fstRowFailed (r : Row)
  | wceSliceStatus (n : Slice)
  | wceSliceCtrl (n : Slice)
  | wceSliceCounts (n : Slice)
  | wceSliceSelftest (n : Slice)
  | wcePortStatus (a : Arr)
  | wcePortCounts (a : Arr)
  | wcePortCtrl (a : Arr)
  | wceCfg
  | wceCtxInexact (c : Ctx)
  | wceCtxCombined (c : Ctx)
  | wceCtxCatches (c : Ctx)
  | mgtuStatus (g : Gtu)
  | mgtuCounts (g : Gtu)
  | mgtuLastEvent (g : Gtu)
  | mgtuProbe (g : Gtu)
  | mgtuProbeTag (g : Gtu)
  | lgtuStatus (l : Lnk)
  | gtuCfg
  | ctxTagStatus (c : Ctx)
  | spnTick
  | spnCfg
  | spnSyncStatus
  | spnLinkCtrl
  | ctxPosition (c : Ctx)
  | ctxBarrier (c : Ctx)
  | ctxChatter (c : Ctx)
  | ctxLinkRetry (c : Ctx)
  | lscCfg
  | lscCtxStatus (c : Ctx)
  | lscHunt (c : Ctx)
  | prvStatus
  | prvCtxStatus (c : Ctx)
  | prvCtxAck (c : Ctx)
  | prvCtxRing (c : Ctx)
  | prvPending
  | prvReadSel
  | prvReadData (k : Fin 32)
  | thmCfg
  | thmStatus
  | thmSensorSel
  | thmSensorInfo
  | thmCounts
  | recStatus
  | recCounts
  | recCfg
  | recWall
  | recRing
  | recReadSel
  | recReadData (k : Fin 4)
  | recDumpAddr
  | recDumpFirst
  | recDumpCtrl
  | recExport
  | mbxReq (m : Fin 12) (k : Fin 8)
  | mbxRsp (m : Fin 12) (k : Fin 8)
  | mbxCtrl (m : Fin 12)
  | mbxPending
  | fwpLoadAddr
  | fwpLoadCtrl
  | fwpChanStatus (h : Chan)
  | fwpStatus (p : Proc)
  | fwpVersion (p : Proc)
  | fwpCtrl (p : Proc)
  | fwpWdt (p : Proc)
  | fwpLogHead (p : Proc)
  | fwpTraceEn (p : Proc) (k : Fin 4)
  | fwpLogData (p : Proc) (i : Nat)
  | plnCaps
  | plnStatus
  | plnResSel
  | plnResClaimed
  | plnCtxImage (c : Ctx)
  | plnCtxCtrl (c : Ctx)
  | plnCtxStatus (c : Ctx)
  | plnCtxResult (c : Ctx)
  | plnCtxImageHash (c : Ctx) (k : Fin 4)
  | scrCfg
  | scrStatus
  | scrLastResult
  | scrLastCycles
  | scrLastMisr (k : Fin 2)
  | scrCtrl
  | scrUnitSel
  | scrUnitInfo
  | scrShutdownFlags
  | pwrStatus
  | pwrCtrl
  | pwrReset
  | pwrPartMap (k : Fin 4)
  deriving DecidableEq, Repr

/-- A register of an index, where the index is in range. -/
def idx {n : Nat} (f : Fin n → RegAt) (i : Nat) : Option RegAt := (finOf n i).map f

/-- A block of instances: first offset, distance, number of instances, the instance of an index. -/
structure RegBlock where
  base   : Nat
  stride : Nat
  count  : Nat
  reg    : Nat → Option RegAt

/-- Registers with one index or none, in offset order. -/
def simpleRegs : List RegBlock :=
  [⟨0x000000, 8, 1, fun _ => some .id⟩,
   ⟨0x000100, 8, 32, idx .ctxIntegrity⟩,
   ⟨0x000200, 8, 1, fun _ => some .boundaryStatus⟩,
   ⟨0x000208, 8, 1, fun _ => some .xingTimeout⟩,
   ⟨0x000210, 8, 1, fun _ => some .xingTimeoutAddr⟩,
   ⟨0x000220, 8, 1, fun _ => some .irqStatus⟩,
   ⟨0x000228, 8, 1, fun _ => some .irqEnable⟩,
   ⟨0x000400, 8, 32, idx .ctxPass⟩,
   ⟨0x000500, 8, 32, idx .ctxCommit⟩,
   ⟨0x000600, 8, 32, idx .ctxPassCounts⟩,
   ⟨0x000700, 8, 32, idx .ctxStopCause⟩,
   ⟨0x000800, 8, 32, idx .ctxRetention⟩,
   ⟨0x000900, 8, 32, idx .ctxPassCtrl⟩,
   ⟨0x000A00, 8, 1, fun _ => some .passPending⟩,
   ⟨0x004000, 8, 24, idx .shdRowStatus⟩,
   ⟨0x004100, 8, 32, idx .shdCtxStatus⟩,
   ⟨0x004200, 8, 1, fun _ => some .shdPairSel⟩,
   ⟨0x004208, 8, 1, fun _ => some .shdPairInfo⟩] ++
  [⟨0x004210, 8, 1, fun _ => some .shdPairLast⟩,
   ⟨0x100000, 8, 1, fun _ => some .fstStatus⟩,
   ⟨0x100008, 8, 1, fun _ => some .fstCounts⟩,
   ⟨0x100010, 8, 1, fun _ => some .fstHistoryCfg⟩,
   ⟨0x100018, 8, 1, fun _ => some .fstOptime⟩,
   ⟨0x100020, 8, 1, fun _ => some .fstCfg⟩,
   ⟨0x100100, 0x000020, 3, idx .fstCapInfo⟩,
   ⟨0x100108, 0x000020, 3, idx .fstCapAddr⟩,
   ⟨0x100110, 0x000020, 3, idx .fstCapTick⟩,
   ⟨0x100118, 0x000020, 3, idx .fstCapRepeat⟩,
   ⟨0x100200, 8, 1, fun _ => some .fstUnitSel⟩,
   ⟨0x100208, 8, 1, fun _ => some .fstUnitInfo⟩,
   ⟨0x100210, 8, 1, fun _ => some .fstUnitLast⟩,
   ⟨0x100300, 8, 24, idx .fstRowFailed⟩,
   ⟨0x200000, 0x010000, 25, idx .wceSliceStatus⟩,
   ⟨0x200008, 0x010000, 25, idx .wceSliceCtrl⟩,
   ⟨0x200010, 0x010000, 25, idx .wceSliceCounts⟩,
   ⟨0x200018, 0x010000, 25, idx .wceSliceSelftest⟩] ++
  [⟨0x390000, 8, 1, fun _ => some .wceCfg⟩,
   ⟨0x390100, 8, 32, idx .wceCtxInexact⟩,
   ⟨0x390200, 8, 32, idx .wceCtxCombined⟩,
   ⟨0x390300, 8, 32, idx .wceCtxCatches⟩,
   ⟨0x400000, 0x001000, 40, idx .mgtuStatus⟩,
   ⟨0x400008, 0x001000, 40, idx .mgtuCounts⟩,
   ⟨0x400010, 0x001000, 40, idx .mgtuLastEvent⟩,
   ⟨0x400018, 0x001000, 40, idx .mgtuProbe⟩,
   ⟨0x400020, 0x001000, 40, idx .mgtuProbeTag⟩,
   ⟨0x440000, 0x001000, 24, idx .lgtuStatus⟩,
   ⟨0x460000, 8, 1, fun _ => some .gtuCfg⟩,
   ⟨0x460100, 8, 32, idx .ctxTagStatus⟩,
   ⟨0x600000, 8, 1, fun _ => some .spnTick⟩,
   ⟨0x600008, 8, 1, fun _ => some .spnCfg⟩,
   ⟨0x600010, 8, 1, fun _ => some .spnSyncStatus⟩,
   ⟨0x600018, 8, 1, fun _ => some .spnLinkCtrl⟩,
   ⟨0x600100, 8, 32, idx .ctxPosition⟩,
   ⟨0x600200, 8, 32, idx .ctxBarrier⟩] ++
  [⟨0x600300, 8, 32, idx .ctxChatter⟩,
   ⟨0x600400, 8, 32, idx .ctxLinkRetry⟩,
   ⟨0x601000, 8, 1, fun _ => some .lscCfg⟩,
   ⟨0x601100, 8, 32, idx .lscCtxStatus⟩,
   ⟨0x601200, 8, 32, idx .lscHunt⟩,
   ⟨0x700000, 8, 1, fun _ => some .prvStatus⟩,
   ⟨0x700100, 8, 32, idx .prvCtxStatus⟩,
   ⟨0x700200, 8, 32, idx .prvCtxAck⟩,
   ⟨0x700300, 8, 32, idx .prvCtxRing⟩,
   ⟨0x700400, 8, 1, fun _ => some .prvPending⟩,
   ⟨0x700408, 8, 1, fun _ => some .prvReadSel⟩,
   ⟨0x700500, 8, 32, idx .prvReadData⟩,
   ⟨0x800000, 8, 1, fun _ => some .thmCfg⟩,
   ⟨0x800008, 8, 1, fun _ => some .thmStatus⟩,
   ⟨0x800010, 8, 1, fun _ => some .thmSensorSel⟩,
   ⟨0x800018, 8, 1, fun _ => some .thmSensorInfo⟩,
   ⟨0x800020, 8, 1, fun _ => some .thmCounts⟩,
   ⟨0x900000, 8, 1, fun _ => some .recStatus⟩] ++
  [⟨0x900008, 8, 1, fun _ => some .recCounts⟩,
   ⟨0x900010, 8, 1, fun _ => some .recCfg⟩,
   ⟨0x900018, 8, 1, fun _ => some .recWall⟩,
   ⟨0x900020, 8, 1, fun _ => some .recRing⟩,
   ⟨0x900028, 8, 1, fun _ => some .recReadSel⟩,
   ⟨0x900040, 8, 4, idx .recReadData⟩,
   ⟨0x900060, 8, 1, fun _ => some .recDumpAddr⟩,
   ⟨0x900068, 8, 1, fun _ => some .recDumpFirst⟩,
   ⟨0x900070, 8, 1, fun _ => some .recDumpCtrl⟩,
   ⟨0x900078, 8, 1, fun _ => some .recExport⟩,
   ⟨0xA00080, 0x000800, 12, idx .mbxCtrl⟩,
   ⟨0xA08000, 8, 1, fun _ => some .mbxPending⟩,
   ⟨0xB00000, 8, 1, fun _ => some .fwpLoadAddr⟩,
   ⟨0xB00008, 8, 1, fun _ => some .fwpLoadCtrl⟩,
   ⟨0xB00100, 8, 32, idx .fwpChanStatus⟩,
   ⟨0xB01000, 0x000100, 6, idx .fwpStatus⟩,
   ⟨0xB01008, 0x000100, 6, idx .fwpVersion⟩,
   ⟨0xB01010, 0x000100, 6, idx .fwpCtrl⟩] ++
  [⟨0xB01018, 0x000100, 6, idx .fwpWdt⟩,
   ⟨0xB01020, 0x000100, 6, idx .fwpLogHead⟩,
   ⟨0xC00000, 8, 1, fun _ => some .plnCaps⟩,
   ⟨0xC00008, 8, 1, fun _ => some .plnStatus⟩,
   ⟨0xC00010, 8, 1, fun _ => some .plnResSel⟩,
   ⟨0xC00018, 8, 1, fun _ => some .plnResClaimed⟩,
   ⟨0xC00100, 8, 32, idx .plnCtxImage⟩,
   ⟨0xC00200, 8, 32, idx .plnCtxCtrl⟩,
   ⟨0xC00300, 8, 32, idx .plnCtxStatus⟩,
   ⟨0xC00400, 8, 32, idx .plnCtxResult⟩,
   ⟨0xD00000, 8, 1, fun _ => some .scrCfg⟩,
   ⟨0xD00008, 8, 1, fun _ => some .scrStatus⟩,
   ⟨0xD00010, 8, 1, fun _ => some .scrLastResult⟩,
   ⟨0xD00018, 8, 1, fun _ => some .scrLastCycles⟩,
   ⟨0xD00020, 8, 2, idx .scrLastMisr⟩,
   ⟨0xD00030, 8, 1, fun _ => some .scrCtrl⟩,
   ⟨0xD00100, 8, 1, fun _ => some .scrUnitSel⟩,
   ⟨0xD00108, 8, 1, fun _ => some .scrUnitInfo⟩] ++
  [⟨0xD00200, 8, 1, fun _ => some .scrShutdownFlags⟩,
   ⟨0xE00000, 8, 1, fun _ => some .pwrStatus⟩,
   ⟨0xE00008, 8, 1, fun _ => some .pwrCtrl⟩,
   ⟨0xE00010, 8, 1, fun _ => some .pwrReset⟩,
   ⟨0xE00100, 8, 4, idx .pwrPartMap⟩]

/-- The instance of a block at an offset. -/
def RegBlock.hit (b : RegBlock) (off : Nat) : Option RegAt :=
  if b.base ≤ off ∧ (off - b.base) % b.stride = 0 ∧ (off - b.base) / b.stride < b.count then b.reg ((off - b.base) / b.stride) else none

/-- Registers of the witness ports: slice block, then +0x100 + 0x20·p. -/
def portReg (off : Nat) : Option RegAt :=
  if 0x200000 ≤ off ∧ off < 0x380000 ∧ 0x100 ≤ off % 0x10000 ∧ off % 0x10000 < 0x100 + 26 * 0x20 then
    let n := (off - 0x200000) / 0x10000
    let p := (off % 0x10000 - 0x100) / 0x20
    match finOf 624 (n * 26 + p) with
    | none => none
    | some a => match off % 0x20 with
      | 0 => some (.wcePortStatus a) | 8 => some (.wcePortCounts a) | 16 => some (.wcePortCtrl a) | _ => none
  else none

/-- Request and response registers of the mailboxes. -/
def mboxReg (off : Nat) : Option RegAt :=
  if 0xA00000 ≤ off ∧ off < 0xA06000 ∧ off % 8 = 0 ∧ off % 0x800 < 0x80 then
    match finOf 12 ((off - 0xA00000) / 0x800), finOf 8 (off % 0x40 / 8) with
    | some m, some k => some (if off % 0x800 < 0x40 then .mbxReq m k else .mbxRsp m k)
    | _, _ => none
  else none

/-- Trace enables and log data of the processors. -/
def procReg (off : Nat) : Option RegAt :=
  if 0xB01000 ≤ off ∧ off < 0xB01600 ∧ off % 8 = 0 ∧ 0x40 ≤ off % 0x100 ∧ off % 0x100 < 0x60 then
    match finOf 6 ((off - 0xB01000) / 0x100), finOf 4 ((off % 0x100 - 0x40) / 8) with
    | some p, some k => some (.fwpTraceEn p k) | _, _ => none
  else if 0xB10000 ≤ off ∧ off < 0xB70000 ∧ off % 8 = 0 then
    (finOf 6 ((off - 0xB10000) / 0x10000)).map (fun p => .fwpLogData p (off % 0x10000 / 8))
  else none

/-- Image hash registers. -/
def hashReg (off : Nat) : Option RegAt :=
  if 0xC00500 ≤ off ∧ off < 0xC00900 ∧ off % 8 = 0 then
    match finOf 32 ((off - 0xC00500) / 0x20), finOf 4 (off % 0x20 / 8) with
    | some c, some k => some (.plnCtxImageHash c k) | _, _ => none
  else none

/-- The register an offset names, whether the part has the instance or not. -/
def regAt (off : Nat) : Option RegAt :=
  (simpleRegs.findSome? (fun b => b.hit off)) <|> portReg off <|> mboxReg off <|> procReg off <|> hashReg off

/-- The part has the instance (R484). -/
def RegAt.present (s : State) : RegAt → Bool
  | .shdRowStatus r => decide (r.val < s.rows)
  | .fstRowFailed r => decide (r.val < s.rows)
  | .wceSliceStatus n => decide (n.val < s.rows) || (decide (n.val = 24) && s.hasStandby)
  | .wceSliceCtrl n => decide (n.val < s.rows) || (decide (n.val = 24) && s.hasStandby)
  | .wceSliceCounts n => decide (n.val < s.rows) || (decide (n.val = 24) && s.hasStandby)
  | .wceSliceSelftest n => decide (n.val < s.rows) || (decide (n.val = 24) && s.hasStandby)
  | .wcePortStatus a => decide (a.val < s.rows * 26)
  | .wcePortCounts a => decide (a.val < s.rows * 26)
  | .wcePortCtrl a => decide (a.val < s.rows * 26)
  | .mgtuStatus g => decide (g.val < s.ports)
  | .mgtuCounts g => decide (g.val < s.ports)
  | .mgtuLastEvent g => decide (g.val < s.ports)
  | .mgtuProbe g => decide (g.val < s.ports)
  | .mgtuProbeTag g => decide (g.val < s.ports)
  | .lgtuStatus l => decide (l.val < s.links)
  | _ => true

/-- The clock domain of a register and, in the array domain, its row (R85; log 19). -/
def RegAt.domain : RegAt → BitVec 8 × Option Row
  | .wceSliceStatus n => (0x01, finOf 24 n.val)
  | .wceSliceCtrl n => (0x01, finOf 24 n.val)
  | .wceSliceCounts n => (0x01, finOf 24 n.val)
  | .wceSliceSelftest n => (0x01, finOf 24 n.val)
  | .wcePortStatus a => (0x01, some (rowOf a))
  | .wcePortCounts a => (0x01, some (rowOf a))
  | .wcePortCtrl a => (0x01, some (rowOf a))
  | .mgtuStatus g => (BitVec.ofNat 8 (0x10 + g.val), none)
  | .mgtuCounts g => (BitVec.ofNat 8 (0x10 + g.val), none)
  | .mgtuLastEvent g => (BitVec.ofNat 8 (0x10 + g.val), none)
  | .mgtuProbe g => (BitVec.ofNat 8 (0x10 + g.val), none)
  | .mgtuProbeTag g => (BitVec.ofNat 8 (0x10 + g.val), none)
  | .lgtuStatus l => (BitVec.ofNat 8 (0x40 + l.val), none)
  | _ => (0x00, none)

end Sys2Proof.Machine
end

