-- ==== Sys2Proof/Machine/Access.lean ====
section
/-! DEFINITION. How a register access is let through, and how it completes (R12 to R14, R75, R91, R460, R491): the gate every write
and read passes before its register's own rule acts. -/

namespace Sys2Proof.Machine

/-- All ones, what a read returns with an error response (R12, R13, R91, R460). -/
def allOnes : Reg := BitVec.allOnes 64

/-- A bit field of a register: `w` bits from bit `lo`. -/
def field (v : Reg) (lo w : Nat) : BitVec w := (v >>> lo).setWidth w

/-- A flag of a register. -/
def flag (v : Reg) (i : Nat) : Bool := v.getLsbD i

/-- The four registers that answer in every state (R460). -/
def alwaysAnswer : List Nat := [0x000000, 0x000200, 0xE00000, 0xE00008]

/-- Bring-up steps 1 and 2, VS3 and VS4 (R460); so too before VDD_AON is valid. -/
def State.early (s : State) : Bool :=
  !s.aon.valid || decide (s.pwr.step.toNat ≤ 2) || s.pwr.vs = .vs3 || s.pwr.vs = .vs4

/-- The clock of a domain stands still, or that of the row in the array domain (R91). -/
def State.clockStopped (s : State) (d : BitVec 8 × Option Row) : Bool :=
  s.xing.stopped.contains d.1 || (d.1 = 1 && match d.2 with | some r => s.xing.rows.contains r | none => false)

/-- A register of a slice whose reset is in progress: the access waits at its crossing (R188). -/
def State.sliceInReset (s : State) (r : RegAt) : Bool :=
  match r with
  | .wceSliceStatus n | .wceSliceCtrl n | .wceSliceCounts n | .wceSliceSelftest n => (s.wce.slices.at n).state = .reset
  | _ => false

/-- An access to the same clock domain, or row of it, is still at its crossing, be it one that timed out: a later one goes behind it (R14;
log 125). -/
def State.behindWait (s : State) (d : BitVec 8 × Option Row) : Bool :=
  s.xing.waits.any (fun w => w.domain = d.1 && w.row = d.2)

/-- The waiting accesses that the targets take now, and those that stay: one that is not taken holds back the later ones to its domain
or row (R14). -/
def splitWaits (taken : XingWait → Bool) : List XingWait → List (BitVec 8 × Option Row) → List XingWait × List XingWait
  | [], _ => ([], [])
  | w :: ws, held =>
    if taken w && !held.contains (w.domain, w.row) then
      let r := splitWaits taken ws held
      (w :: r.1, r.2)
    else
      let r := splitWaits taken ws ((w.domain, w.row) :: held)
      (r.1, w :: r.2)

/-- A slice named by a waiting access is in reset (R188). -/
def State.waitsForSlice (s : State) (w : XingWait) : Bool :=
  match regAt w.off with | some r => s.sliceInReset r | none => false

/-- What becomes of an access on arrival. -/
inductive Gate where
  | carry | early | unmapped
  | wait (domain : BitVec 8) (row : Option Row)
  deriving DecidableEq, Repr

/-- The gate at an offset (R13, R14, R91, R460, R484). -/
def State.gate (s : State) (off : Nat) : Gate :=
  if s.early then (if alwaysAnswer.contains off then .carry else .early)
  else match regAt off with
    | none => .unmapped
    | some r =>
      if !r.present s then .unmapped
      else if s.clockStopped r.domain || s.sliceInReset r || s.behindWait r.domain then .wait r.domain.1 r.domain.2 else .carry

/-- A completion to the side that asked; over the management port an error carries the event code (R75). -/
def State.complete (s : State) (src : Src) (off : Nat) (error : Bool) (event : BitVec 16) (data : Reg) : State :=
  match src with
  | .host => s.send (.access .host off error data)
  | .mgt => s.sendMctp (.access off error event data)

/-- What a failed access returns: all ones for a read. -/
def errorData : Access → Reg
  | .read => allOnes
  | .write _ => 0

/-- An event of the infrastructure, for which the spec gives no parameters: they are open values (log 8). -/
def State.emitOpen (s : State) (e : Ev) : State :=
  let (w, s) := s.fresh
  s.emit { e with p16 := w.setWidth 16, p32 := (w >>> 16).setWidth 32 }

/-- The access type of R339 for a register access. -/
def accOf : Src → BitVec 8
  | .host => 0x30
  | .mgt => 0x31

/-- An error of the register fabric: the C fault and the error response (R12, R13, R91). -/
def accessError (s : State) (code : BitVec 16) (src : Src) (off : Nat) (acc : Access) : State :=
  (s.emitOpen { code, cls := .c, unit := uFabric, acc := accOf src, addr := BitVec.ofNat 64 off }).complete src off true code (errorData acc)

/-- An access refused in bring-up or low power: counted, no fault (R460). -/
def accessEarly (s : State) (src : Src) (off : Nat) (acc : Access) : State :=
  (s.onPwr (fun w => { w with early := satBits 16 (w.early.toNat + 1) })).complete src off true 0 (errorData acc)

/-- An access that waits at a stopped crossing (R91). -/
def accessWait (s : State) (src : Src) (off : Nat) (acc : Access) (domain : BitVec 8) (row : Option Row) : State :=
  { s with xing := { s.xing with waits := s.xing.waits ++ [{ src, off, acc, domain, row }] } }

/-- A write that passes its gate takes its register's effect and completes; otherwise it ends as the gate says. -/
def gatedWrite (s : State) (src : Src) (off : Nat) (v : Reg) (eff : State → State) : State :=
  match s.gate off with
  | .carry => (eff s).complete src off false 0 0
  | .early => accessEarly s src off (.write v)
  | .unmapped => accessError s 0x0003 src off (.write v)
  | .wait d r => accessWait s src off (.write v) d r

/-- More than one command field set in a write (R491). -/
def manyCommands (v : Reg) (bits : List Nat) : Bool := decide (1 < (bits.filter (fun i => flag v i)).length)

end Sys2Proof.Machine
end

