-- ==== Sys2Proof/Machine/Service.lean ====
section
/-! DEFINITION. Units in and out of service: the roles of a row's two spares (R197, R198, R208, R216), the standby slice and the row it
holds (R182, R183), a self-test cut short (R186), and the standby withdrawn (R184, R356). -/

namespace Sys2Proof.Machine

/-! ## Spares of a row -/

/-- Physical columns of a row that serve no logical position and have not been withdrawn, lowest first (R197). -/
def ShdRow.freeCols (x : ShdRow) : List Nat := (List.range 26).filter (fun c => !x.place.contains c && !x.gone.contains c)

/-- Free spares in the sense of R208. -/
def ShdRow.freeSpares (x : ShdRow) : Nat := if x.ready then (if x.shadow = 31 then 0 else 1) + (if x.reserve = 31 then 0 else 1) else 0

/-- The spares of a row that could substitute, in the order they are taken: the reserve, then the shadow spare (R198); before bring-up
gives the roles, the higher free column first. -/
def ShdRow.candidates (x : ShdRow) : List Nat :=
  if x.ready then ([x.reserve, x.shadow].filter (· ≠ 31)).map BitVec.toNat else x.freeCols.reverse

/-- A spare serves as the row's shadow spare, bit 10 of SPARE_SUBSTITUTED; before bring-up gives the roles, the lower free column would
(R197). -/
def ShdRow.isShadow (x : ShdRow) (spare : Nat) : Bool := if x.ready then x.shadow.toNat = spare else x.freeCols.head? = some spare

/-- The roles at the end of bring-up step 6: the lower free column is the shadow spare, the other the reserve (R197). -/
def ShdRow.giveRoles (x : ShdRow) : ShdRow :=
  let col (i : Nat) : BitVec 5 := match x.freeCols[i]? with | some c => BitVec.ofNat 5 c | none => 31
  { x with ready := true, shadow := col 0, reserve := col 1 }

/-- A row whose reserve is gone lends it no longer (R210). -/
def ShdRow.noReserve (x : ShdRow) : ShdRow := { x with reserve := 31, lendTo := 31 }

/-- A spare leaves its role; the reserve takes the shadow role of a shadow spare that leaves (R216, R356). -/
def ShdRow.dropSpare (x : ShdRow) (col : Nat) : ShdRow :=
  let x := { x with gone := if x.gone.contains col then x.gone else x.gone ++ [col] }
  if x.shadow.toNat = col then ({ x with shadow := x.reserve } : ShdRow).noReserve
  else if x.reserve.toNat = col then x.noReserve else x

/-- A spare takes a logical column (R20, R198): the column it replaces has left service. -/
def ShdRow.substitute (x : ShdRow) (logicalCol spare : Nat) : ShdRow :=
  let old := x.place.getD logicalCol 0
  let x := { x with place := x.place.set logicalCol spare, gone := if x.gone.contains old then x.gone else x.gone ++ [old] }
  if x.reserve.toNat = spare then x.noReserve else if x.shadow.toNat = spare then { x with shadow := 31 } else x

/-! ## Use of units, for the exposure of a pattern failure (R374) -/

/-- The screening entry of a unit. -/
def Scr.unit (x : Scr) (u : UnitId) : ScrUnit := ((x.units.find? (fun p => p.1 = u)).map (·.2)).getD {}

/-- A unit's screening entry changed. -/
def Scr.setUnit (x : Scr) (u : UnitId) (v : ScrUnit) : Scr :=
  if x.units.any (fun p => p.1 = u) then { x with units := x.units.map (fun p => if p.1 = u then (u, v) else p) }
  else { x with units := x.units ++ [(u, v)] }

/-- A plan places rotation or chase slots on the spare of a row. -/
def Plan.onSpare (p : Plan) (r : Row) : Bool :=
  p.cover.slots.any (fun x => x.holder = 1 && x.logical / 24 = r.val) || p.cover.chase.any (fun x => x.row = r.val && decide (0 < x.slots))

/-- The units a context's plan uses now, as owner, shadow, chase, mirror, donor, referee, port or link (R374). -/
def State.unitsOf (s : State) (c : Ctx) (p : Plan) : List UnitId :=
  let spareOf (r : Row) : List UnitId :=
    let x := s.shd.rows.at r
    if x.borrow then match finOf 24 x.donor.toNat with
      | some d => [uArr (arrOf d (s.shd.rows.at d).reserve.toNat)]
      | none => []
    else if x.shadow = 31 then [] else [uArr (arrOf r x.shadow.toNat)]
  p.core.owned.filterMap (fun o => (s.physOf o.logical).map uArr) ++
  ((List.finRange 24).filter p.onSpare).flatMap spareOf ++
  (s.ctx c).exec.refRan.map (fun r => uArr (arrOf r (s.shd.rows.at r).reserve.toNat)) ++
  (p.core.claims.filter (fun k => k.cls = 1)).map (fun k => unitId 3 k.index) ++
  (p.core.claims.filter (fun k => k.cls = 2)).map (fun k => unitId 4 k.index)

/-- The contexts that use units now are noted at those units, for the mask of SCREEN_EXPOSURE (R374). -/
def noteUse (s : State) : State :=
  s.each s.loadedCtxs (fun s c => match s.planOf c with
    | some p => s.onScr (fun x => (s.unitsOf c p).foldl (fun x u => let y := x.unit u; x.setUnit u { y with users := y.users ||| ctxBit c }) x)
    | none => s)

/-- A spare leaves its role (R356); a reserve that takes its shadow role is used from then on. -/
def withdrawSpare (s : State) (a : Arr) : State := noteUse (s.onRow (rowOf a) (fun x => x.dropSpare (colOf a)))

/-! ## The standby slice -/

/-- The standby slice. -/
def standby : Slice := 24

/-- The slice of a row. -/
def rowSlice (r : Row) : Slice := ⟨r.val, by omega⟩

/-- Ports of a row. -/
def portsOf (r : Row) : List Arr := (List.range 26).map (arrOf r)

/-- The free standby of R185: present, holding no row, not under test, not RETIRED, no handover in progress. -/
def State.standbyFree (s : State) : Bool :=
  s.hasStandby && (s.wce.slices.at standby).state = .idle && s.wce.handover.isNone

/-- The row the standby holds; a RETIRED one only shows the row it held (R486). -/
def State.heldRow (s : State) : Option Row :=
  if (s.wce.slices.at standby).state = .retired then none else finOf 24 (s.wce.slices.at standby).row.toNat

/-- The open groups of a row are marked closing (R182). -/
def closeGroups (s : State) (r : Row) : State :=
  s.each (portsOf r) (fun s a => s.onPort a (fun p => { p with group := p.group.map (fun g => { g with closing := true }) }))

/-- The kind of the self-test of a slice in progress: 2 after a reset, 3 a turn, 4 on the idle slice, 5 in place. -/
def State.testOf (s : State) (n : Slice) : Option (BitVec 3) := (s.wce.testing.find? (fun t => t.1 = n)).map (·.2)

/-- A self-test of a slice begins. -/
def beginTest (s : State) (n : Slice) (why : BitVec 3) : State :=
  (s.onSlice n (fun x => { x with state := .selftest })).onWce (fun w => { w with testing := w.testing.filter (fun t => t.1 ≠ n) ++ [(n, why)] })

/-- A self-test of a slice has ended with a result: its registers (R190). -/
def SliceSt.tested (x : SliceSt) (result : BitVec 2) (tick : BitVec 64) : SliceSt :=
  { x with result, runs := x.runs + 1, endTick := (tick >>> 12).setWidth 48 }

/-- A slice is no longer under test. -/
def dropTest (s : State) (n : Slice) : State := s.onWce (fun w => { w with testing := w.testing.filter (fun t => t.1 ≠ n) })

/-- A self-test stopped early ends INCOMPLETE (R186): recorded; the tiles completed are an open value (log 8), and the standby's own test,
which has no row, shows row 31 (log 153). A slice tested in place (R187, code 5) serves its row again. -/
def cutSelftest (s : State) (n : Slice) : State :=
  match s.testOf n with
  | none => s
  | some why =>
    let (w, s) := s.fresh
    let s := s.onSlice n (fun x => { (x.tested 3 s.time.tick) with state := if why = 5 then .serving else .idle })
    (dropTest s n).emit { code := 0x2013, unit := uSlice n, p16 := BitVec.ofNat 16 (if n.val < 24 then n.val else 31), p32 := w.setWidth 32 }

/-- The self-tests of these slices are cut short. -/
def cutTestOf (s : State) (ns : List Slice) : State := s.each ns cutSelftest

/-- The state a slice takes in or after a handover; a reset in progress goes on (R188). -/
def SliceSt.unless_ (x : SliceSt) (st : SliceState) : SliceState := if x.state = .reset then .reset else st

/-- A slice gave or took a row. -/
def countHandover (x : SliceSt) : SliceSt := { x with handovers := bump x.handovers }

/-- A slice serves its own row; one whose reset is in progress does so when it ends (R188). -/
def SliceSt.serveOwn (r : Row) (x : SliceSt) : SliceSt :=
  { x with state := x.unless_ .serving, row := BitVec.ofNat 5 r.val, heldBy := BitVec.ofNat 5 r.val }

/-- A row goes back to its own slice at once, where the standby that holds it is withdrawn (R184, R356): SLICE_RELEASE with the reason
of the takeover, and both slices count the handover (R189, R190). -/
def giveBack (s : State) (m : Row) (reason : BitVec 3) : State :=
  let s := closeGroups s m
  let s := s.onSlice (rowSlice m) (fun x => countHandover (x.serveOwn m))
  let s := s.onSlice standby countHandover
  s.emit { code := 0x2011, unit := uSlice (rowSlice m), p16 := BitVec.ofNat 16 m.val, p32 := reason.setWidth 32 }

/-- A row that has lost its slice (R184): SLICE_LOST with the contexts stopped; no slice holds it. -/
def rowLost (s : State) (r : Row) (cs : List Ctx) : State :=
  (s.onSlice (rowSlice r) (fun x => { x with row := 31, heldBy := 31 })).emit
    { code := 0x2014, cls := .u, unit := uSlice (rowSlice r), p16 := BitVec.ofNat 16 r.val, p32 := ctxMask cs }

/-- The standby slice withdrawn (R184, R356): a row it holds goes back to its own slice, or is lost with it, as rows that wait for it
are. -/
def withdrawStandby (lose : State → Row → State) (s : State) : State :=
  let held : Option Row := match s.wce.handover with | some h => some h.row | none => s.heldRow
  let reason := s.wce.reason
  let waiting := s.wce.orders
  let s := cutTestOf s (standby :: (held.map rowSlice).toList)
  let s := s.onSlice standby (fun x => { x with state := .retired })
  let s := s.onWce (fun w => { w with handover := none, reason := 0, orders := [] })
  let s := match held with
    | none => s
    | some m => if (s.wce.slices.at (rowSlice m)).state = SliceState.retired then lose s m else giveBack s m reason
  s.each waiting lose

end Sys2Proof.Machine
end

