-- ==== Sys2Proof/Machine/EngineOps.lean ====
section
/-! DEFINITION. What several blocks do to the whole engine: cutting patterns short (R370), power moves (R476, R477), the persistent
configuration (R412), cancelling loads (R316, R322), stops (R249, R492), the end of a drain (R346), hard stop (R347). -/

namespace Sys2Proof.Machine

/-! ## Screening: patterns cut short (R370) -/

/-- Cycles or steps of a pattern from its start to its end marker (R363). -/
def patternCycles (pattern : BitVec 16) : BitVec 32 := if pattern.toNat < 0x100 then 2880000 else 4096

/-- One running pattern ends INCOMPLETE: the cycles completed and the partial MISR are open values (log 8). -/
def cutOne (cause : BitVec 4) (s : State) (p : Pattern) : State :=
  let (w, s) := s.fresh
  let (m, s) := s.fresh
  let (n, s) := s.fresh
  let done := (w.setWidth 24).setWidth 32
  let u := s.scr.unit p.unit
  let s := s.onScr (fun x => ({ x with
    running := x.running.filter (fun q => q.unit ≠ p.unit), resUnit := p.unit, resPat := p.pattern, result := 3,
    resCause := cause, resRetest := p.retest, cycles := done, expected := patternCycles p.pattern, misr := m ++ n, resTick := s.time.tick } : Scr).setUnit p.unit
      { u with incompl := satBits 8 (u.incompl.toNat + 1) })
  (s.emit { code := 0xD002, unit := p.unit, p16 := p.pattern, p32 := cause.setWidth 32 ||| (done <<< 4) }).send
    (.isolate p.unit p.pattern false)

/-- An array is under a pattern: it is taken out of the job (R365). -/
def State.isolated (s : State) (a : Arr) : Bool := s.scr.running.any (fun q => q.unit = uArr a)

/-- Every running pattern that satisfies a condition is cut short. -/
def cutPatterns (s : State) (which : Pattern → Bool) (cause : BitVec 4) : State :=
  s.each (s.scr.running.filter which) (cutOne cause)

/-! ## Persistent configuration (R412) -/

/-- The active bank. -/
def Flash.conf (f : Flash) : List ConfRec := if f.confOne then f.conf1 else f.conf0

/-- A record that counts: not void, its CRC good. -/
def ConfRec.ok (r : ConfRec) : Bool := !r.void && r.bad.isNone

/-- The newest record of an item, if any. -/
def Flash.newest (f : Flash) (item : BitVec 16) : Option ConfRec := (f.conf.filter (fun r => r.ok && r.item = item)).getLast?

/-- The newest value of an item, if any. -/
def Flash.item (f : Flash) (item : BitVec 16) : Option (BitVec 64) := (f.newest item).map (·.value)

/-- The blank-flash value of an item, as its register states it. -/
def blankItem (item : BitVec 16) : BitVec 64 :=
  if item = 4 then BitVec.ofNat 64 (24 + 16384 * 3) else if item = 7 then 0x7D735F else if item = 9 then 1000 else if item = 10 then 0xFFFFFFFF else 0

/-- The present value of an item. -/
def Flash.present (f : Flash) (item : BitVec 16) : BitVec 64 := (f.item item).getD (blankItem item)

/-- An item record appended; at 480 KiB (15,360 records) the present value of every item is written into the other bank and the old one is
erased. -/
def Flash.putItem (f : Flash) (item : BitVec 16) (value tick : BitVec 64) : Flash :=
  let r : ConfRec := { seq := f.confSeq, item, value, tick }
  let f := if f.confOne then { f with conf1 := f.conf1 ++ [r] } else { f with conf0 := f.conf0 ++ [r] }
  let f := { f with confSeq := f.confSeq + 1 }
  if f.conf.length < 15360 then f
  else
    let keep := (List.range 10).map (fun i => ({ seq := f.confSeq + BitVec.ofNat 32 i, item := BitVec.ofNat 16 (i + 1)
                                                 value := f.present (BitVec.ofNat 16 (i + 1)), tick } : ConfRec))
    let f := { f with confSeq := f.confSeq + BitVec.ofNat 32 keep.length }
    if f.confOne then { f with conf0 := keep, conf1 := [], confOne := false }
    else { f with conf1 := keep, conf0 := [], confOne := true }

/-- An item written to the persistent configuration; while the flash does not answer it waits (R410). -/
def State.putItem (s : State) (item : BitVec 16) (value : BitVec 64) : State :=
  s.onRec (fun r => if r.flashOk then { r with flash := r.flash.putItem item value s.time.tick }
    else { r with confOut := r.confOut ++ [(item, value, s.time.tick)] })

/-- The flash answers: the items that wait are written in their order (R410). -/
def flashAnswers (s : State) : State :=
  s.onRec (fun r => { r with flashOk := true, confOut := [], flash := r.confOut.foldl (fun f x => f.putItem x.1 x.2.1 x.2.2) r.flash })

/-- 28 bytes of a slot whose CRC fails: what stands there is an open value (log 8). -/
def State.spoiled (s : State) : List Byte × State :=
  let (a, s) := s.fresh
  let (b, s) := s.fresh
  let (c, s) := s.fresh
  let (d, s) := s.fresh
  (leBytes 8 a.toNat ++ leBytes 8 b.toNat ++ leBytes 8 c.toNat ++ leBytes 4 d.toNat, s)

/-- Item records found with a bad CRC, named by bank and number: none of them counts from then on (R412). -/
def confBad (s : State) (bad : List (Nat × BitVec 32)) : State :=
  s.each bad (fun s b =>
    let (bytes, s) := s.spoiled
    let mark (l : List ConfRec) : List ConfRec := l.map (fun r => if r.seq = b.2 ∧ r.ok then { r with bad := some bytes } else r)
    s.onFlash (fun f => if b.1 = 0 then { f with conf0 := mark f.conf0 } else { f with conf1 := mark f.conf1 }))

/-- History records found with a bad CRC (R354). -/
def histBad (s : State) (bad : List (Nat × BitVec 32)) : State :=
  s.each bad (fun s b =>
    let (bytes, s) := s.spoiled
    let mark (l : List HistRec) : List HistRec := l.map (fun r => if r.seq = b.2 ∧ !r.void ∧ r.bad = none then { r with bad := some bytes } else r)
    s.onFlash (fun f => if b.1 = 0 then { f with hist0 := mark f.hist0 } else { f with hist1 := mark f.hist1 }))

/-- Operating time and wall time stored together (R349, R412). -/
def State.storeTimes (s : State) : State :=
  (s.putItem 2 (s.time.opsec.setWidth 64)).putItem 3 (s.time.wall.setWidth 64)

/-! ## Power moves (R476, R477) -/

/-- The code of a power state. -/
def Vs.code : Vs → Nat
  | .vs0 => 0 | .vs1 => 1 | .vs2 => 2 | .vs3 => 3 | .vs4 => 4

/-- The power state of a code. -/
def vsOf (n : Nat) : Option Vs := [Vs.vs0, .vs1, .vs2, .vs3, .vs4][n]?

/-- Clock domains that stand still in a power state (R476): the array clock below VS0, the memory ports and links below VS1. -/
def stoppedIn : Vs → List (BitVec 8)
  | .vs0 => []
  | .vs1 => [1]
  | _ => 1 :: ((List.range 40).map (fun n => BitVec.ofNat 8 (0x10 + n)) ++ (List.range 24).map (fun n => BitVec.ofNat 8 (0x40 + n)))

/-- What is kept of MC when the rest of the engine is reset or loses power: in VS3 MC is in retention (R419, R476), but for its waits on the
other processors, which are OFF; otherwise it starts from its ROM. -/
def keptProc (s : State) (mcKept : Bool) (p : Proc) : ProcSt :=
  let x := s.fwp.procs.at p
  if p.val = 0 ∧ mcKept then { x with waitSend := none, waitRecv := false, served := 31 }
  else { procAtReset p with log := x.log, written := x.written
                            version := if p.val = 0 then (if s.fuses.stepping = 0 then 1 else Config.romVersion s.fuses.stepping) else 0 }

/-- A sensor over a reset: its failure with the reading that failed it, its comparators and its run of good samples are held in the always-on
domain (R384, R395, R401). -/
def SensorSt.kept (x : SensorSt) : SensorSt :=
  { state := x.state, same := x.same, good := x.good, hot := x.hot, tripped := x.tripped, reading := if x.state = .live then 0 else x.reading }

/-- What is kept when the engine is reset or loses power (R83, R254, R384, R399, R413, R454, R473, R476): pins, time, recorder queue and flash,
sensor failures, trip settings and trims, firmware logs, the last completed ticks of the arrays (R375), the health state last sent (R421), MC
where it is in retention; and the substitutions in the T9's row controllers (R358). Faults not yet taken are recorded with their class
(log 24). Everything else returns to its reset value. -/
def clearEngine (s : State) (mcKept : Bool) : State :=
  { pending := s.pending, out := s.out, free := s.free, fuses := s.fuses, aon := s.aon, time := s.time,
    mem := s.mem, tags := s.tags, jobMap := s.jobMap,
    thm := { sensors := s.thm.sensors.mapAll (fun _ x => x.kept), compAt := s.thm.compAt, compLost := s.thm.compLost
             throttle := s.thm.throttle, crit := s.thm.crit, critNow := s.thm.crit, trip := s.thm.trip },
    rcd := { s.rcd with intake := s.rcd.intake ++ s.fst.faultQ, read := {}, lost := 0, progFails := 0, queueIrq := 0xC00
                        cpers := if mcKept then s.rcd.cpers else [], cperLost := s.rcd.cperLost || !mcKept
                        dropped := if mcKept then s.rcd.dropped else 0, incomplete := mcKept && s.rcd.incomplete },
    fwp := { fwpAtReset with procs := Vector.ofFn (keptProc s mcKept), mbox := s.fwp.mbox.mapAll (fun m x => if mcKept ∧ m.val < 2 then x else {}) },
    mgt := if mcKept then s.mgt else [],
    scr := { units := (s.scr.units.filter (fun x => uClass x.1 = 0)).map (fun x =>
      (x.1, { bringTick := x.2.bringTick, lastTick := x.2.lastTick, lastPass := x.2.lastPass, lastOp := x.2.lastOp, users := x.2.users })) },
    shd := { rows := s.shd.rows.mapAll (fun _ x => { place := x.place }) },
    pwr := { cleanDown := s.pwr.cleanDown, lossVs4 := s.pwr.lossVs4, tripLost := s.pwr.tripLost } }

/-- A reset of the row, its partition or its compute die is in progress (R471). -/
def State.rowInReset (s : State) (r : Row) : Bool :=
  s.pwr.resets.any (fun j =>
    (j.domain = 9 && decide (j.index.toNat = r.val)) || ((j.domain = 3 || j.domain = 10) && decide (j.index.toNat = partOf r.val s.rows)))

/-- A reset of the array or of a domain that contains it is in progress (R471). -/
def State.arrayInReset (s : State) (a : Arr) : Bool :=
  s.rowInReset (rowOf a) || s.pwr.resets.any (fun j => j.domain = 8 && decide (j.index.toNat = a.val))

/-- A reset of a domain that contains the slice is in progress, that of the whole engine until it is applied among them (R474). -/
def State.sliceHeld (s : State) (n : Slice) : Bool :=
  (s.pwr.whole.isSome && s.pwr.down.isSome) || (match finOf 24 n.val with | some r => s.rowInReset r | none => false) || s.pwr.resets.any (fun j => j.domain = 2 && decide (j.index.toNat = n.val))

/-- A change of power state recorded as POWER_STATE (R477) with its cause. -/
def recordMove (s : State) (dest : Vs) (cause : BitVec 32) : State :=
  if s.pwr.vs = dest then s
  else s.emit { code := 0xE006, unit := uPwr, p16 := BitVec.ofNat 16 (s.pwr.vs.code + 8 * dest.code), p32 := cause }

/-- The open record closes (R406). -/
def closeRecord (s : State) : State := s.onRec (fun r => { r with openTill := none })

/-- A slice's self-test ends as the engine leaves VS0, and a row that the standby holds for it goes back to its slice (R186; log 164). -/
def stopTest (s : State) (n : Slice) : State :=
  match s.testOf n, finOf 24 n.val with
  | some why, some r =>
    let t := cutSelftest s n
    if (why = 2 ∨ why = 3) ∧ (t.wce.slices.at n).heldBy = 24 then
      (giveBack (t.onSlice standby (fun x => { x with state := .idle, row := 31 })) r why).onWce (fun w => { w with reason := 0 })
    else t
  | _, _ => cutSelftest s n

/-- The engine leaves VS0 for VS1 or VS2, or moves between them: patterns end (R370), READY reads 0 (R478), clocks stop (R476). -/
def moveWithin (s : State) (dest : Vs) (cause : BitVec 32) : State :=
  let s := if s.pwr.vs = .vs0 ∧ dest ≠ .vs0 then closeRecord (cutPatterns (s.each (List.finRange 25) stopTest) (fun _ => true) 4) else s
  let s := recordMove s dest cause
  let s := s.onPwr (fun w => { w with vs := dest, ready := dest = .vs0 ∧ w.step = 7 ∧ !w.waitDrv ∧ s.fst.state = .run })
  { s with xing := { s.xing with stopped := stoppedIn dest } }


/-! ## Loads cancelled (R316, R322) -/

/-- The outcome of a load in VX_PLN_CTX_RESULT; every outcome sets VX_IRQ_STATUS.PLAN (R333). -/
def loadOutcome (s : State) (c : Ctx) (outcome : BitVec 2) (event : BitVec 16) (atApp : Bool) (cause : BitVec 8) (cls : BitVec 4)
    (index : BitVec 16) (conflict : BitVec 8) : State :=
  (s.onPlan c (fun p => { p with outcome, event, atApp, cause, cls, index, conflict, valid := true })).irqSet irqPlan

/-- The code of a load phase. -/
def Phase.code : Phase → Nat
  | .none => 0 | .queued => 1 | .validating => 2 | .distributing => 3 | .pending => 4 | .switching => 5 | .unloading => 6

/-- A load discarded: pending banks cleared, reservations released, PLAN_CANCELLED. -/
def discardLoad (s : State) (c : Ctx) : State :=
  let ph := (s.ctx c).plan.phase
  let s := s.onPlan c (fun p => { p with phase := .none, pend := none, pendHash := [], pendKey := none, banks := [], switched := false })
  let s := s.onPln (fun x => { x with
    queue := x.queue.filter (· ≠ c), dists := x.dists.filter (fun d => decide (d.ctx ≠ c)), validating := if x.validating = some c then none else x.validating })
  let s := loadOutcome s c 3 0xC006 false 0 0 0 0xFF
  s.emit { code := 0xC006, unit := uPln, ctx := some c, p16 := BitVec.ofNat 16 ph.code }

/-- PLAN_APPLIED (R332) and the outcome applied. -/
def planApplied (s : State) (c : Ctx) : State :=
  let p := (s.planOf c).getD {}
  let w := p.core.level.toNat + 256 * p.core.primary.toNat + (if p.core.lockstep then 2048 else 0) + (if p.core.relaxed then 4096 else 0)
  let s := s.onPlan c (fun x => { x with phase := .none, switched := false, applied := x.applied + 1 })
  let s := loadOutcome s c 1 0xC001 false 0 0 0 0xFF
  s.emit { code := 0xC001, unit := uPln, ctx := some c, p16 := BitVec.ofNat 16 w, p32 := (s.ctx c).pass.index.setWidth 32 }

/-- What a drain, a stop of the whole chip or a shutdown does to a context's load (R79, R322, R346, R394, R469): a pending load is
cancelled; one in SWITCHING is abandoned before its switch flit and otherwise ends at once. -/
def endLoad (s : State) (c : Ctx) : State :=
  match (s.ctx c).plan.phase with
  | .queued | .validating | .distributing | .pending => discardLoad s c
  | .switching => if (s.ctx c).plan.switched then planApplied s c else discardLoad s c
  | .none | .unloading => s

/-! ## Links in the provenance of open spans (R264, R305) -/

/-- A link as it stands enters an open span: the lowest width, and whether it is fenced or reduced. -/
def noteLink (l : Lnk) (x : Lgtu) (sp : Span) : Span :=
  let w := if x.fenced then 0 else x.width.toNat
  let low := match sp.widths.find? (fun e => e.1 = l) with | some e => min e.2 w | none => w
  { sp with widths := sp.widths.filter (fun e => e.1 ≠ l) ++ [(l, low)], fenced := sp.fenced || x.fenced,
            reduced := sp.reduced || (!x.fenced && (decide (w = 2) || decide (w = 4))) }

/-- The links a plan routes over, as they stand, enter its open span. -/
def noteLinksOf (s : State) (sp : Span) : Span :=
  ((List.finRange 24).filter (fun l => sp.plan.usesLink l.val)).foldl (fun y l => noteLink l (s.lgtu.at l) y) sp

/-- The links as they stand enter every open span. -/
def noteLinks (s : State) : State :=
  s.onAllCtx (fun _ x => { x with prv := { x.prv with span := x.prv.span.map (noteLinksOf s) } })

/-! ## History entries queued for MC (R355) -/

/-- An outcome into the hardware queue with the tick and operating time of the moment. -/
def State.histPut (s : State) (e : HistEntry) : State :=
  s.onFst (fun f => { f with histQ := f.histQ ++ [{ e with tick := s.time.tick, opsec := s.time.opsec }] })

/-- A pair in a 16-bit field (R218). -/
def pairField (logical : Nat) (cls : BitVec 3) : BitVec 16 := BitVec.ofNat 16 (logical % 1024 + 1024 * cls.toNat)

/-- The last clean sample of a pair: before the first under any plan, the first pass of the first plan (R203). -/
def CovSt.last (x : CovSt) (logical : Nat) (cls : BitVec 3) : BitVec 48 :=
  ((x.lastClean.find? (fun e => e.1 = logical ∧ e.2.1 = cls)).map (·.2.2)).getD x.firstPass

/-- The exposure range of a shadow catch of the present pass: from the pair's last clean sample to the pass before the catch (R49, R218). -/
def rangeOf (s : State) (c : Ctx) (x : Compare) : Nat × BitVec 3 × BitVec 48 × BitVec 32 :=
  let last := (s.ctx c).cov.last x.logical x.cls
  (x.logical, x.cls, last, ((s.ctx c).pass.index - last).setWidth 32)

/-- EXPOSURE_RANGE and EXPOSURE_RANGE_HI, queued as one unit (R218). -/
def exposure (s : State) (c : Ctx) (unit : UnitId) (r : Nat × BitVec 3 × BitVec 48 × BitVec 32) : State :=
  let e : Ev := { code := 0x5108, unit, ctx := some c, p16 := pairField r.1 r.2.1, p32 := r.2.2.1.setWidth 32 }
  let hi : Ev := { e with code := 0x5109, p16 := (r.2.2.1 >>> 32).setWidth 16, p32 := r.2.2.2, glued := true }
  ((s.emit e).emit hi).onCov c (fun x => { x with exposures := bump x.exposures })

/-- The entries of one outcome of a catch (R350): the unit caught, with a witness catch also the slice with the port's column. -/
def histCatch (s : State) (c : Ctx) (k : OpenCatch) (act : HistAct) (event : BitVec 16) (sliceAct : HistAct) : State :=
  let e : HistEntry := { unit := k.unit, act, event, pass := (s.ctx c).pass.index.setWidth 32, ctx := some c }
  let e1 : HistEntry := { e with ranges := k.shadows.map (rangeOf s c) }
  let s := s.histPut (match k.slice with
    | some (n, col) => { e1 with with_ := some (unitId 2 n.toNat, col) } | none => e1)
  match k.slice with
  | some (n, col) => s.histPut { e with unit := unitId 2 n.toNat, act := sliceAct, col }
  | none => s

/-! ## Drain and stops -/

/-- Every context is STOPPED or NO_PLAN. -/
def State.allStopped (s : State) : Bool :=
  allCtx.all (fun c => (s.ctx c).pass.st = .stopped || (s.ctx c).pass.st = .noPlan)

/-- The history entry of a unit. -/
def Fst.unit (f : Fst) (u : UnitId) : Hist := ((f.units.find? (fun p => p.1 = u)).map (·.2)).getD {}

/-- A unit's history entry changed. -/
def Fst.setUnit (f : Fst) (u : UnitId) (v : Hist) : Fst :=
  if f.units.any (fun p => p.1 = u) then { f with units := f.units.map (fun p => if p.1 = u then (u, v) else p) }
  else { f with units := f.units ++ [(u, v)] }

/-- The unit whose history a unit's outcomes enter: a witness port's are its array's (R356). -/
def histUnit (u : UnitId) : UnitId := if uClass u = 1 then unitId 0 (uIndex u) else u

/-- Stamps of a unit inside the window (R351). -/
def Fst.stampsIn (f : Fst) (now : BitVec 40) (u : UnitId) : List (BitVec 40 × BitVec 8) :=
  (f.unit u).stamps.filter (fun p => decide ((now - p.1).toNat < f.window.toNat * 3600))

/-- The state of a unit now (R351): GOOD or WATCH goes by the stamps inside the window; a processor's is as R451 leaves it. -/
def Fst.stateNow (f : Fst) (now : BitVec 40) (u : UnitId) : HistState :=
  let st := (f.unit u).state
  match st with
  | .lasting | .retired => st
  | .good | .watch => if uClass u = 5 then st else if f.stampsIn now u = [] then .good else .watch

/-- The code of a history state. -/
def HistState.code : HistState → Nat
  | .good => 0 | .watch => 1 | .lasting => 2 | .retired => 3

/-- A history record goes to the append machine, ahead of event records (R354), and is the newest outcome of its unit. -/
def State.histRecord (s : State) (u : UnitId) (kind : BitVec 8) (col : BitVec 8) (event : BitVec 16) (param : BitVec 32)
    (ctx : Option Ctx) : State :=
  let h := s.fst.unit u
  let s := s.onFst (fun f => f.setUnit u { h with lastOp := s.time.opsec, lastEvent := event })
  let r : HistRec := { seq := s.rcd.flash.histSeq, kind, state := BitVec.ofNat 8 (s.fst.stateNow s.time.opsec u).code, unit := u, opsec := s.time.opsec, col,
                       event, tick := s.time.tick, param, ctx }
  s.onRec (fun x => { x with histOut := x.histOut ++ [r], flash := { x.flash with histSeq := x.flash.histSeq + 1 } })

/-- The unit exists, is screened and is not RETIRED (VX_SCR_UNIT_INFO.ELIGIBLE). -/
def State.eligible (s : State) (u : UnitId) : Bool :=
  [0, 3, 4].contains (uClass u) && s.unitExists u && decide ((s.fst.unit u).state ≠ .retired)

/-- Every eligible unit. -/
def State.screened (s : State) : List UnitId :=
  ((List.range 624).map (unitId 0) ++ (List.range 40).map (unitId 3) ++ (List.range 24).map (unitId 4)).filter s.eligible

/-- The rotation ends when every eligible unit has completed a pattern that started in it: SCREEN_ROTATION_DONE (R372). -/
def rotationCheck (s : State) : State :=
  if s.screened.all (fun u => (s.scr.unit u).round) then
    let len := s.time.opsec - s.scr.rotFrom
    let s := s.onScr (fun x => { x with rotation := x.rotation + 1, rotFrom := s.time.opsec,
                                        units := x.units.map (fun e => (e.1, { e.2 with round := false })) })
    s.emit { code := 0xD006, unit := uScr, p16 := BitVec.ofNat 16 s.scr.rotation, p32 := satBits 32 len.toNat }
  else s

/-- The free spares of a row in the order they are taken: one declared lasting is free no longer, though it keeps its role until the chip
has drained (R357, R359). -/
def State.sparesOf (s : State) (r : Row) : List Nat :=
  (s.shd.rows.at r).candidates.filter (fun c => let h := (s.fst.unit (uArr (arrOf r c))).state; decide (h ≠ .lasting) && decide (h ≠ .retired))

/-- A unit that becomes RETIRED stands last, so that the units keep the order of their retirement. -/
def Fst.retire (f : Fst) (u : UnitId) (v : Hist) : Fst :=
  if (f.unit u).state = .retired then f.setUnit u v else { f with units := f.units.filter (fun p => p.1 ≠ u) ++ [(u, v)] }

/-- A unit becomes RETIRED in the history (R356); the record names the outcome and the cause that condemned it (R350, R354). -/
def retireUnit (s : State) (u : UnitId) : State :=
  let h := s.fst.unit u
  let s := s.onFst (fun f => f.retire u { h with state := .retired })
  let s := s.histRecord u 4 0xFF h.lastEvent (h.cause.setWidth 32) none
  if [0, 3, 4].contains (uClass u) then rotationCheck s else s

/-- A unit out of service at once: an array that is no logical position leaves its spare's role, a slice is RETIRED, the standby gives
back the row it holds (R356, R359); then its history says so. -/
def leaveService (s : State) (u : UnitId) : State :=
  let s := match uClass u with
    | 0 => match finOf 624 (uIndex u) with
      | some a => if (s.logicalOf a).isNone then withdrawSpare s a else s
      | none => s
    | 2 => match finOf 24 (uIndex u) with
      | some r => s.onSlice (rowSlice r) (fun x => { x with state := .retired })
      | none => withdrawStandby (fun s r => rowLost s r []) s
    | _ => s
  retireUnit s u

/-- VX_ALIVE may toggle: the Sentinel functions work and no F fault is pending (R77, R348); the watchdog condition is the caller's
(log 148). -/
def State.mayToggle (s : State) : Bool := s.aon.sentinel && !(s.fst.slots.at 2).valid && decide (s.fst.state ≠ .halted)

/-- A drain completes (R346): CHIP_DRAINED; the units it was for leave service (R359). -/
def endDrain (s : State) : State :=
  let us := (s.time.tick.toNat - s.fst.drainFrom.toNat) / 1000
  let s := s.onFst (fun f => { f with state := .drained })
  let s := s.onPwr (fun w => { w with ready := false })
  let s := s.emit { code := 0x1008, unit := uFst, p16 := s.fst.cause.setWidth 16, p32 := satBits 32 us }
  (s.each s.fst.await leaveService).onFst (fun f => { f with await := [] })

/-- The engine enters VS3 or VS4: every context is NO_PLAN, which completes a drain, PC0 to PC3 and TC are OFF, the tick moves to the
always-on domain (R476). Sensors keep their states; the trip comparators go on, and VX_ALIVE runs under the always-on supervisor (R77).
VX_PWR_STATUS, which answers there (R460), keeps what it tells of the last bring-up. DRAINED, HALTED and an orderly thermal stop last: only a
whole reset leaves them (R473). -/
def enterLow (s : State) (dest : Vs) (cause : BitVec 32) : State :=
  let s := cutPatterns (cutTestOf (if s.fst.state = .draining then endDrain s else s) (List.finRange 25)) (fun _ => true) 4
  let s := recordMove (closeRecord s) dest cause
  let t := clearEngine s (dest = .vs3)
  let t := t.onFst (fun f => { f with state := s.fst.state, cause := s.fst.cause })
  let t := t.onThm (fun x => { x with stopped := s.thm.stopped, m := if s.thm.stopped then 40 else 100 })
  let t := t.onPwr (fun w => { w with vs := dest, step := 7, path := s.pwr.path, bringUs := s.pwr.bringUs, early := s.pwr.early })
  t.setAon (fun a => { a with alive := a.sentinel && a.checks })

/-- When every context has stopped: a drain completes (R346), an orderly thermal stop moves to VS2 (R394), a lost reference clock to
VS4 (R79). -/
def afterStop (s : State) : State :=
  if !s.allStopped then s
  else
    let s := if s.fst.state = .draining then endDrain s else s
    let s := if s.thm.stopped ∧ s.pwr.vs.code < 2 then (moveWithin s .vs2 2).send .stopArrayClock else s
    if s.pwr.vs.code ≤ 2 ∧ !s.aon.refOk ∧ s.pwr.step = 7 then enterLow s .vs4 5 else s

/-- The pair's frames use the alternate route: the designated link is fenced (R265, R281). -/
def State.pairOnAlt (s : State) (pr : Pair) : Bool := match finOf 24 pr.link with | some l => (s.lgtu.at l).fenced | none => false

/-- A wait of R304 ends: PRV_STALL with the cause and the wait. -/
def endStall (s : State) (c : Ctx) : State :=
  let x := (s.ctx c).prv
  if x.stalled then
    (s.onPrv c (fun y => { y with stalled := false, cause := 0 })).emit
      { code := 0x7002, unit := uPrv, ctx := some c, p16 := x.cause.setWidth 16, p32 := satBits 32 ((s.time.tick - x.stallFrom).toNat / 1000) }
  else s

/-- A context enters STOPPED (R248): the stop cause, CATCH_UNDECIDED for each open catch (R242), the driver's bit (R251), PAIR_STOP to
a lock-step partner (R285). -/
def enterStopped (s : State) (c : Ctx) (event : BitVec 16) : State :=
  let x := s.ctx c
  let undecided (s : State) (k : OpenCatch) : State :=
    if k.repeated then s else
    let s := s.emit { code := 0x5005, unit := k.unit, ctx := some c, p16 := k.replay.setWidth 16, p32 := x.pass.index.setWidth 32 }
    histCatch s c k .undecided 0x5005 .undecided
  let s := s.each x.exec.catches undecided
  let s := s.onPass c (fun p => { p with st := .stopped, stopEvent := event, stopPass := p.index, driverHold := false
                                         holdSub := false, holdFw := false, holdDigest := false })
  let s := s.onExec c (fun e => { e with catches := [], caught := [], stopAfter := none, replayDue := false, replaySent := false, fenced := []
                                         tokenWait := false, injected := true })
  let s := s.onBar c (fun b => { b with waiting := false, startAt := none, released := false })
  let s := s.onLsc c (fun l => { l with waiting := false })
  let s := (endStall s c).notifyPass c
  let s := match (s.planOf c).bind (fun p => p.extra.pair) with
    | some pr => s.sendCtl (.partner (BitVec.ofNat 16 pr.chip) (BitVec.ofNat 8 pr.ctx) (s.pairOnAlt pr)) .pairStop
    | none => s
  afterStop s

/-- The first abort cause of an execution is kept (R240). -/
def noteCause (s : State) (c : Ctx) (reason : BitVec 4) (unit : UnitId) : State :=
  s.onExec c (fun e => match e.cause with | some _ => e | none => { e with cause := some { reason, unit } })

/-- STOP as the engine or the driver gives it (R249, R492); not issued to a context that is STOPPED or in NO_PLAN. While the context
decides an execution it acts after its COMMIT, in ABORTING at the end of the drain, otherwise at once. -/
def stopCtx (s : State) (c : Ctx) (event : BitVec 16) : State :=
  match (s.ctx c).pass.st with
  | .noPlan | .stopped => s
  | .aborting => s.onExec c (fun e => { e with stopAfter := e.stopAfter <|> some event })
  | .running | .boundary | .held =>
    if s.deciding c then s.onExec c (fun e => { e with stopAfter := e.stopAfter <|> some event }) else enterStopped s c event

/-- ABORT_STOP (R249, R492): a deciding execution is aborted with reason 7 and the context stops at the end of the drain. -/
def abortStopCtx (s : State) (c : Ctx) (event : BitVec 16) : State :=
  if s.deciding c ∧ (s.ctx c).pass.st ≠ .noPlan ∧ (s.ctx c).pass.st ≠ .stopped then
    noteCause (s.onExec c (fun e => { e with stopAfter := e.stopAfter <|> some event })) c 7 (s.commitUnit c)
  else stopCtx s c event

/-- The start of a drain (R346): CHIP_DRAIN, stops to every context with a plan, pending loads cancelled. A second cause does not start
it again; an escaped catch in a drain still aborts every execution in progress (R51; log 151). -/
def startDrain (s : State) (cause : BitVec 3) : State :=
  let todo := s.loadedCtxs.filter (fun c => (s.ctx c).pass.st ≠ .stopped)
  if s.fst.state = .draining ∧ cause = 4 then afterStop (s.each todo (fun s c => abortStopCtx s c 0x1007))
  else if s.fst.state ≠ .run then s
  else
    let s := s.onFst (fun f => { f with state := .draining, cause, drainFrom := s.time.tick })
    let s := s.onPwr (fun w => { w with ready := false })
    let s := s.emit { code := 0x1007, unit := uFst, p16 := cause.setWidth 16, p32 := ctxMask todo }
    let s := s.irqSet irqFault
    let s := s.each allCtx endLoad
    afterStop (s.each todo (fun s c => if cause = 4 then abortStopCtx s c 0x1007 else stopCtx s c 0x1007))

/-- REPLACE, its record queued before: the flag in the persistent configuration (R360). -/
def setReplace (s : State) (cause : BitVec 3) (unit : UnitId) : State :=
  if s.fst.replace then s
  else
  let s := s.onFst (fun f => { f with replace := true, replaceBy := unit })
  s.putItem 5 (BitVec.ofNat 64 (1 + 2 * cause.toNat + 65536 * unit.toNat))

/-- A hard stop (R347): PARTING for every context with a plan, executions aborted with no replay, HALTED, HARD_STOP recorded. -/
def hardStop (s : State) (slotF : BitVec 16) (second : BitVec 16) (unit : UnitId) : State :=
  if s.fst.state = .halted then s
  else
    let cs := s.loadedCtxs
    let s := s.each cs (fun s c => s.send (.parting c ((s.ctx c).pass.index.setWidth 16)))
    let s := s.onFst (fun f => { f with state := .halted })
    let s := s.onPwr (fun w => { w with ready := false })
    let s := s.setAon (fun a => { a with alive := false })
    let s := s.emit { code := 0x100A, unit := uFst, p16 := slotF, p32 := (unit.setWidth 32 <<< 16) ||| second.setWidth 32 }
    let s := s.each allCtx endLoad
    s.each cs (fun s c => abortStopCtx s c 0x100A)

end Sys2Proof.Machine
end

