-- ==== Sys2Proof/Machine/Memory.lean ====
section
/-! DEFINITION. The stacks' bytes and stored grain tags (R93, R94, R101, R102): sparse lists in one canonical form, blanks as 1,024
words, the parts of a tag. -/

namespace Sys2Proof.Machine

/-! ## Sparse lists: keys strictly rising, no entry equal to the default -/

/-- The value at a key; an unlisted key holds the default. -/
def alGet {α : Type} (d : α) : List (Nat × α) → Nat → α
  | [], _ => d
  | (k, v) :: rest, n => if n = k then v else alGet d rest n

/-- Every key of a list is above `n`. -/
def alAbove {α : Type} (n : Nat) (l : List (Nat × α)) : Bool := l.all (fun x => decide (n < x.1))

/-- The canonical form. -/
def alWf {α : Type} [DecidableEq α] (d : α) : List (Nat × α) → Bool
  | [] => true
  | (k, v) :: rest => decide (v ≠ d) && alAbove k rest && alWf d rest

/-- A value written; the default removes the entry. -/
def alPut {α : Type} [DecidableEq α] (d : α) : List (Nat × α) → Nat → α → List (Nat × α)
  | [], n, v => if v = d then [] else [(n, v)]
  | (k, w) :: rest, n, v =>
    if n < k then (if v = d then (k, w) :: rest else (n, v) :: (k, w) :: rest)
    else if n = k then (if v = d then rest else (k, v) :: rest)
    else (k, w) :: alPut d rest n v

/-! ## Addresses -/

/-- Key of a byte of a stack. -/
def memKey (stack addr : Nat) : Nat := stack * 2 ^ 37 + addr

/-- Key of a blank's tag. -/
def tagKey (stack blank : Nat) : Nat := stack * 2 ^ 25 + blank

/-- The stack of a memory GTU (R19). -/
def stackOf (g : Gtu) : Nat := g.val / 2

/-- Bytes of a stack (R101). -/
def stackSize : Nat := 80000000000

/-- Blanks of a job region (R101). -/
def jobRegionBlanks : Nat := 19493096

/-- Staves of a job region (R101). -/
def jobRegionStaves : Nat := 2436637

/-- The memory GTU serves a stave of its stack (R103). -/
def serves (g stave : Nat) : Bool := Config.portOfStave (g / 2) stave == decide (g % 2 = 1)

/-- The first `n` staves from stave `s` on that a GTU serves; the first operand bounds the search. -/
def servedStaves (g : Nat) : Nat → Nat → Nat → List Nat
  | 0, _, _ => []
  | _, _, 0 => []
  | fuel + 1, s, n + 1 => if serves g s then s :: servedStaves g fuel (s + 1) n else servedStaves g fuel (s + 1) (n + 1)

/-- The run of staves of a retention area: `n` staves that the port serves, from the plan's first stave up, inside the job region
(R234; DEDUCED, log 31: where staves alternate between the ports, a run of staves of one port leaves out those between). -/
def areaStaves (g first n : Nat) : List Nat := servedStaves g (jobRegionStaves - first) first n

/-- A byte above the job region: the gap or the tag region (R60, R101). -/
def outsideJob (addr : Nat) : Bool := decide (jobRegionBlanks * 4096 ≤ addr)

/-- Stack-local address of a stave's tag line (R102). -/
def tagLineAddr (stave : Nat) : Nat := 0x12970EF040 + 64 * stave

/-- Stack-local address of a blank's tag slot: slot b & 7 of its stave's line (R102). -/
def tagSlotAddr (blank : Nat) : Nat := tagLineAddr (blank / 8) + 8 * (blank % 8)

/-! ## Bytes and blanks -/

/-- What an unlisted byte reads as (log 6). -/
def emptyByte : Byte := 0

/-- One byte of a stack. -/
def State.byteAt (s : State) (stack addr : Nat) : Byte := alGet emptyByte s.mem (memKey stack addr)

/-- One byte of a memory list written. -/
def putByte (m : List Host.Cell) (stack addr : Nat) (b : Byte) : List Host.Cell := alPut emptyByte m (memKey stack addr) b

/-- Word i of a blank, little-endian (R94). -/
def State.wordAt (s : State) (stack blank i : Nat) : BitVec 32 :=
  let a := blank * 4096 + 4 * i
  BitVec.ofNat 32 (leNat [s.byteAt stack a, s.byteAt stack (a + 1), s.byteAt stack (a + 2), s.byteAt stack (a + 3)])

/-- A word of a blank written. -/
def putWord (m : List Host.Cell) (stack blank i : Nat) (w : BitVec 32) : List Host.Cell :=
  let a := blank * 4096 + 4 * i
  putByte (putByte (putByte (putByte m stack a (w.setWidth 8)) stack (a + 1) ((w >>> 8).setWidth 8)) stack (a + 2) ((w >>> 16).setWidth 8))
    stack (a + 3) ((w >>> 24).setWidth 8)

/-- Listed words of a blank written in order. -/
def putWords (m : List Host.Cell) (stack blank : Nat) (ws : List (Nat × BitVec 32)) : List Host.Cell :=
  ws.foldl (fun m w => putWord m stack blank w.1 w.2) m

/-- The 1,024 words of a blank. -/
def State.blankWords (s : State) (stack blank : Nat) : List (BitVec 32) := (List.range 1024).map (s.wordAt stack blank)

/-- The 1,024 words of a full write, missing words zero, with their indices. -/
def fullWords (data : List (BitVec 32)) : List (Nat × BitVec 32) := (List.range 1024).map (fun i => (i, data.getD i 0))

/-- The change the memory makes to word i as it delivers it. -/
def noiseAt (n : Noise) (i : Nat) : BitVec 32 := ((n.find? (fun x => x.1 = i)).map (·.2)).getD 0

/-- Word i of a blank as delivered. -/
def State.delivered (s : State) (stack blank : Nat) (n : Noise) (i : Nat) : BitVec 32 := s.wordAt stack blank i ^^^ noiseAt n i

/-- A blank as delivered. -/
def State.deliveredBlank (s : State) (stack blank : Nat) (n : Noise) : List (BitVec 32) :=
  (List.range 1024).map (s.delivered stack blank n)

/-- Words of a blank stored. -/
def State.store (s : State) (stack blank : Nat) (ws : List (Nat × BitVec 32)) : State := { s with mem := putWords s.mem stack blank ws }

/-! ## Retention tables: where an access goes (R229) -/

/-- The committed entry of an original: every access to it is served from its slot. -/
def Mgtu.committedOf (m : Mgtu) (blank : Nat) : Option Retention := m.retained.find? (fun r => r.committed && r.orig = blank)

/-- The provisional entry of a context for an original. -/
def Mgtu.provisionalOf (m : Mgtu) (c : Ctx) (blank : Nat) : Option Retention :=
  m.retained.find? (fun r => !r.committed && r.ctx = c && r.orig = blank)

/-- The blank that serves an access of any source (R229). -/
def Mgtu.place (m : Mgtu) (blank : Nat) : Nat := match m.committedOf blank with | some r => r.copy | none => blank

/-- The blank that serves a read of a context (R127, R229). -/
def Mgtu.readPlace (m : Mgtu) (c : Ctx) (blank : Nat) : Nat :=
  match m.provisionalOf c blank with | some r => r.copy | none => m.place blank

/-- The blank that serves an access to a blank of a stack, whichever of the stack's two ports holds its entry. -/
def State.placeIn (s : State) (stack blank : Nat) : Nat :=
  match (List.finRange 40).findSome? (fun g => if stackOf g = stack then (s.mgtu.at g).committedOf blank else none) with
  | some r => r.copy
  | none => blank

/-! ## Tags (R93) -/

/-- A tag of a state and a fingerprint. -/
def mkTag (st : BitVec 3) (fp : BitVec 61) : BitVec 64 := st ++ fp

/-- FINGERPRINT. -/
def tagFp (t : BitVec 64) : BitVec 61 := t.setWidth 61

/-- STATE. -/
def tagState (t : BitVec 64) : BitVec 3 := (t >>> 61).setWidth 3

/-- CLEAN. -/
def tClean : BitVec 3 := 0
/-- POISON_MEM. -/
def tMem : BitVec 3 := 1
/-- POISON_DERIVED. -/
def tDerived : BitVec 3 := 2
/-- POISON_LINK. -/
def tLink : BitVec 3 := 3
/-- UNTAGGED. -/
def tUntagged : BitVec 3 := 4

/-- Any POISON state. -/
def isPoison (st : BitVec 3) : Bool := st = 1 || st = 2 || st = 3

/-- The stored state where a POISON_MEM arises: the first cause stays (R116). -/
def poisonOver (st : BitVec 3) : BitVec 3 := if isPoison st then st else tMem

/-- An unlisted tag: UNTAGGED, fingerprint 0 (log 7). -/
def emptyTag : BitVec 64 := mkTag tUntagged 0

/-- The stored tag of a blank. -/
def State.tagOf (s : State) (stack blank : Nat) : BitVec 64 := alGet emptyTag s.tags (tagKey stack blank)

/-- The 8 bytes of a tag slot, little-endian (R102). -/
def tagBytes (t : BitVec 64) : List Byte := leBytes 8 t.toNat

/-- The 64 bytes of a stave's tag line as it stands in the stack (R102). -/
def State.tagLine (s : State) (stack stave : Nat) : List Byte := (List.range 8).flatMap (fun i => tagBytes (s.tagOf stack (8 * stave + i)))

/-- A stored tag written. -/
def State.setTag (s : State) (stack blank : Nat) (t : BitVec 64) : State :=
  { s with tags := alPut emptyTag s.tags (tagKey stack blank) t }

/-- The key of a context, if one is loaded (R97, R98). -/
def State.keyOf (s : State) (c : Ctx) : Option (BitVec 61) :=
  let p := (s.ctx c).plan
  if p.loaded then some p.rho else none

/-- The key of an access that may name no context (R113). -/
def State.keyFor (s : State) (c : Option Ctx) : Option (BitVec 61) := c.bind s.keyOf

/-- The fingerprint of words under a key (R94). -/
def fpOf (rho : BitVec 61) (ws : List (BitVec 32)) : BitVec 61 := res61 (fingerprint rho.toNat ws)

/-- A carried tag holds for words: its fingerprint is theirs and its state is none of the reserved ones (R95, R96). -/
def tagMatches (rho : BitVec 61) (ws : List (BitVec 32)) (t : BitVec 64) : Bool :=
  tagFp t = fpOf rho ws && decide ((tagState t).toNat ≤ 4)

/-! ## Job addresses: what the engine reads and writes without a context (R101, R297, R315, R415) -/

/-- The stack and the byte in it where a job address lies (log 36). -/
def State.jobPlace (s : State) (a : Nat) : Option (Nat × Nat) :=
  (s.jobMap.find? (fun r => decide (r.job ≤ a) && decide (a < r.job + r.size))).map (fun r => (r.stack, r.addr + (a - r.job)))

/-- The memory port that holds a byte of a stack (R103). -/
def portAt (stack addr : Nat) : Nat := 2 * stack + (if Config.portOfStave stack (addr / 32768) then 1 else 0)

/-- The byte of a stack that serves a job address: in the retained copy where its blank has one (R229). -/
def State.enginePlace (s : State) (a : Nat) : Option (Nat × Nat) :=
  (s.jobPlace a).bind (fun x => if outsideJob x.2 then none else some (x.1, s.placeIn x.1 (x.2 / 4096) * 4096 + x.2 % 4096))

/-- A byte at a job address as it is stored; an address that lies nowhere reads as an unlisted byte (log 36). -/
def State.engineByte (s : State) (a : Nat) : Byte :=
  match s.enginePlace a with | some (st, b) => s.byteAt st b | none => emptyByte

/-- The bits of a byte that differ from what is stored. -/
def JobRead.flip (r : JobRead) (i : Nat) : Byte := ((r.flips.find? (fun x => x.1 = i)).map (·.2)).getD 0

/-- The bytes of a run of job addresses as the memory delivers them. -/
def State.engineBytes (s : State) (a n : Nat) (r : JobRead) : List Byte := (List.range n).map (fun i => s.engineByte (a + i) ^^^ JobRead.flip r i)

/-- The memory met an uncorrectable error within the first `n` bytes of a run. -/
def JobRead.ecc (r : JobRead) (n : Nat) : Bool := r.errors.any (fun i => decide (i < n))

/-- The tag of a blank after a write that names no context: UNTAGGED after a full one, after a partial one where it was CLEAN (R115). -/
def unkeyedTag (full : Bool) (t : BitVec 64) : BitVec 64 := if full || tagState t = tClean then mkTag tUntagged 0 else t

/-- Bytes written from a job address on, as writes that name no context (R115, R297, R415). -/
def State.engineWrite (s : State) (a : Nat) (bytes : List Byte) : State :=
  let at_ := bytes.zipIdx.filterMap (fun x => (s.enginePlace (a + x.2)).map (fun y => (x.1, y)))
  let blanks := at_.map (fun x => (x.2.1, x.2.2 / 4096))
  let s := { s with mem := at_.foldl (fun m (x : Byte × Nat × Nat) => putByte m x.2.1 x.2.2 x.1) s.mem }
  s.each blanks.eraseDups (fun s b => s.setTag b.1 b.2 (unkeyedTag (decide (blanks.count b = 4096)) (s.tagOf b.1 b.2)))

end Sys2Proof.Machine
end

