-- ==== Sys2Proof/Machine/Recorder.lean ====
section
/-! DEFINITION. The event recorder and the export of signatures (chapter 14): intake and merging (R405, R406), the staging queue
(R84, R404), the append machine (R406 to R410), reading (R414 to R416), the CPER queue (R417 to R420), wall time (R413). -/

namespace Sys2Proof.Machine

/-! ## Slots as bytes (R354, R403, R412) -/

/-- A context byte. -/
def ctxByte : Option Ctx → Nat
  | some c => c.val
  | none => 0xFF

/-- The class code of record byte 6 (R403). -/
def Cls.code : Cls → Nat
  | .record => 0 | .c => 1 | .u => 2 | .f => 3

/-- A flag as a number. -/
def b2n (b : Bool) : Nat := if b then 1 else 0

/-- The 32 bytes of an event record (R403). -/
def Rec.bytes (r : Rec) : List Byte :=
  leBytes 4 r.seq.toNat ++ leBytes 2 r.code.toNat ++
  leBytes 1 (r.cls.code * 64 + b2n r.esc + 2 * b2n r.noWall + 4 * b2n r.perm + 8 * b2n r.aon) ++ leBytes 1 (ctxByte r.ctx) ++
  leBytes 8 r.tick.toNat ++ leBytes 5 r.wall.toNat ++ leBytes 3 r.reps.toNat ++ leBytes 2 r.unit.toNat ++ leBytes 2 r.p16.toNat ++
  leBytes 4 r.p32.toNat

/-- Bytes of a slot; a void slot has bytes 0 to 5 zero (R410). -/
def FlashSlot.bytes : FlashSlot → List Byte
  | .entry r => r.bytes
  | .void r => List.replicate 6 0 ++ r.bytes.drop 6

/-- A slot is void. -/
def FlashSlot.isVoid : FlashSlot → Bool
  | .entry _ => false
  | .void _ => true

/-- A record closed with its CRC-16 over 30 bytes. -/
def withCrc16 (b : List Byte) : List Byte := b ++ leBytes 2 (crc16 b).toNat

/-- The 32 bytes of a history record (R354). -/
def HistRec.bytes (r : HistRec) : List Byte :=
  withCrc16 (leBytes 4 r.seq.toNat ++ leBytes 1 r.kind.toNat ++ leBytes 1 r.state.toNat ++ leBytes 2 r.unit.toNat ++
    leBytes 5 r.opsec.toNat ++ leBytes 1 r.col.toNat ++ leBytes 2 r.event.toNat ++ leBytes 8 r.tick.toNat ++ leBytes 4 r.param.toNat ++
    leBytes 1 (ctxByte r.ctx) ++ [0])

/-- The 32 bytes of a configuration item (R412). -/
def ConfRec.bytes (r : ConfRec) : List Byte :=
  withCrc16 (leBytes 4 r.seq.toNat ++ leBytes 2 r.item.toNat ++ [0, 0] ++ leBytes 8 r.value.toNat ++ leBytes 8 r.tick.toNat ++
    List.replicate 6 0)

/-! ## Intake (R405, R406, R84, R404) -/

/-- The codes whose records are priority records whatever their class (R84): THERMAL_STOP, THERMAL_TRIP, HARD_STOP, REPLACE_FLAG. -/
def priorityCodes : List (BitVec 16) := [0x8006, 0x8007, 0x100A, 0x1009]

/-- A priority record (R84). -/
def Rec.priority (r : Rec) : Bool := r.cls = .f || priorityCodes.contains r.code

/-- The record an event makes (R403). -/
def Ev.toRec (e : Ev) : Rec :=
  { code := e.code, cls := e.cls, esc := e.esc, noWall := e.noWall, aon := e.aon, ctx := e.ctx, tick := e.tick, wall := e.wall,
    unit := e.unit, p16 := e.p16, p32 := e.p32 }

/-- An event matches a record: code, unit, context, class and flags (R406). -/
def Rec.sameAs (r : Rec) (e : Ev) : Bool :=
  r.code = e.code && r.unit = e.unit && r.ctx = e.ctx && r.cls = e.cls && r.esc = e.esc && r.noWall = e.noWall && r.aon = e.aon

/-- MC runs and counts repeats: not restarting, not without main power (R450; log 20). -/
def State.merges (s : State) : Bool :=
  let st := (s.fwp.procs.at mc).state
  (st = .hold || st = .run) && decide (2 ≤ s.pwr.step.toNat) && s.pwr.vs.code ≤ 2

/-- The newest staged record changed. -/
def onLast (f : Staged → Staged) : List Staged → List Staged
  | [] => []
  | [x] => [f x]
  | x :: y :: rest => x :: onLast f (y :: rest)

/-- The number after `n`; 0xFFFF_FFFF is skipped (R404). -/
def nextNumber (n : BitVec 32) : BitVec 32 := if n + 1 = 0xFFFFFFFF then 0 else n + 1

/-- Index of the newest staged record of a class that is not a priority record. -/
def newestOf (q : List Staged) (cls : Cls) : Option Nat :=
  ((List.range q.length).reverse).find? (fun i => match q[i]? with
    | some x => x.record.cls = cls && !x.record.priority | none => false)

/-- Which staged record a priority record displaces (R84). -/
def displaced (q : List Staged) : Option Nat := newestOf q .c <|> newestOf q .record <|> newestOf q .u

/-- One record counted as lost (R84). -/
def countLost (s : State) : State := s.onRec (fun r => { r with lost := r.lost + 1, lostRep := r.lostRep + 1 })

/-- A record put into the staging queue with its number, opened for merging; its number if it has one (R404, R406). -/
def queueRecord (s : State) (x : Rec) : State × Option (BitVec 32) :=
  let r := s.rcd
  let numbered := r.seqSet
  let y : Rec := { x with seq := if numbered then r.nextSeq else 0 }
  let till := if r.mergeMs = 0 ∨ !s.merges then none else some (x.tick + BitVec.ofNat 64 (r.mergeMs.toNat * 1000000))
  let s := s.onRec (fun r => { r with
    queue := r.queue ++ [{ record := y, numbered }], openTill := till, nextSeq := if numbered then nextNumber r.nextSeq else r.nextSeq })
  let full := s.rcd.queue.length = s.rcd.queueIrq.toNat
  (if full ∨ [0x9001, 0x9003, 0x9005].contains x.code then s.irqSet irqRecorder else s, if numbered then some y.seq else none)

/-- An event taken by the intake: merged with the open record, queued, or lost (R406, R84). Gives the number of its record. -/
def takeEvent (s : State) (e : Ev) : State × Option (BitVec 32) :=
  let r := s.rcd
  let merge : Option Staged := match r.openTill, r.queue.getLast? with
    | some t, some x => if s.merges && decide (e.tick.toNat < t.toNat) && x.record.sameAs e then some x else none
    | _, _ => none
  match merge with
  | some x =>
    let n := x.record.reps + 1
    (s.onRec (fun r => { r with queue := onLast (fun x => { x with record := { x.record with reps := n } }) r.queue,
                                openTill := if n = 0xFFFFFF then none else r.openTill }), if x.numbered then some x.record.seq else none)
  | none =>
    if r.queue.length < 4096 then queueRecord s e.toRec
    else
      let s := countLost s
      match (if e.toRec.priority then displaced r.queue else none) with
      | some i => queueRecord (s.onRec (fun r => { r with queue := r.queue.eraseIdx i })) e.toRec
      | none => (s, none)

/-! ## Signatures (R417 to R422) -/

/-- The Birmund Veraux GUID (R417). -/
def verauxGuid : BitVec 128 := 0x7B3E0C419D2A4F6BA8E51C6D2F90B437

/-- The product name with its grade suffix (R4, R417). -/
def productName (f : Fuses) : List Byte :=
  ascii (["T9-X", "T9", "T9-L", "T9-M"].getD f.product.toNat "T9") ++ ascii (if f.gradeB then "-B" else "-A")

/-- Header and section descriptor of an entry (R417). -/
def Cper.header (e : Cper) (f : Fuses) : CperHead :=
  let sev : CperSev := if e.cls = 0 then .corrected else if e.cls = 1 then .recoverable else if e.cls = 2 then .fatal else .informational
  { severity := sev, timestamp := e.wall, creator := verauxGuid, notify := verauxGuid, secType := verauxGuid, secSev := sev, fru := productName f
    recordId := ((e.tick >>> 32) <<< 32) ||| e.seq.setWidth 64 }

/-- The 64 bytes of the Birmund vendor section (R418), with their CRC-32C. -/
def Cper.section_ (e : Cper) (f : Fuses) : List Byte :=
  let b := leBytes 2 1 ++ leBytes 2 e.code.toNat ++ leBytes 2 e.unit.toNat ++ leBytes 1 e.cls.toNat ++ leBytes 1 (ctxByte e.ctx) ++
    leBytes 1 e.op.toNat ++ leBytes 1 (b2n e.esc + 2 * b2n e.replace + 4 * b2n e.noWall + 8 * b2n e.halted) ++ leBytes 2 e.p16.toNat ++
    leBytes 4 e.p32.toNat ++ leBytes 8 e.addr.toNat ++ leBytes 8 e.tick.toNat ++ leBytes 5 e.wall.toNat ++
    leBytes 1 (f.product.toNat + 16 * b2n f.gradeB) ++ leBytes 2 e.unitTemp.toNat ++ leBytes 2 e.hottest.toNat ++ leBytes 2 e.vcore.toNat ++
    leBytes 2 e.vmem.toNat ++ [0, 0] ++ leBytes 4 e.seq.toNat ++ leBytes 8 f.chipId.toNat
  b ++ leBytes 4 (crc32c b).toNat

/-- An entry completed as a CPER record. -/
def Cper.close (e : Cper) (f : Fuses) : Cper := { e with head := some (e.header f), body := e.section_ f }

/-- An entry leaves the queue: CPER_DROPPED (R419). -/
def cperDropped (s : State) (e : Cper) : State :=
  (s.onRec (fun r => { r with dropped := bump r.dropped })).emit { code := 0xF001, unit := uMgt, p16 := e.cls.setWidth 16, p32 := e.seq }

/-- CPER_NOTIFY for an entry of class U, F or REPLACE (R419). -/
def cperNotify (s : State) (e : Cper) : State := if e.cls = 0 then s else s.sendMctp (.cperNotify e)

/-- An entry appended to the queue and, unless of class C, sent at once. -/
def cperQueue (s : State) (e : Cper) : State := cperNotify (s.onRec (fun r => { r with cpers := r.cpers ++ [e] })) e

/-- An entry built for a fault or a REPLACE flag: completed, then queued under the rules for a full queue; nothing with VX_STRAP[3] at 1 (R419, R422). -/
def cperPut (s : State) (e : Cper) : State :=
  if s.aon.strap.getLsbD 3 then s
  else
    let e := e.close s.fuses
    let q := s.rcd.cpers
    if q.length < 64 then cperQueue s e
    else match q.find? (fun x => x.cls = 0) <|> q.find? (fun x => x.cls = 1) with
      | some old => cperQueue (cperDropped (s.onRec (fun r => { r with cpers := r.cpers.erase old })) old) e
      | none =>
        if e.cls = 0 ∨ e.cls = 1 then cperDropped s e
        else s.onRec (fun r => { r with incomplete := true })

/-! ## The order of the intake (R405) -/

/-- Order in which the intake takes two events (R405). -/
def Ev.before (a b : Ev) : Bool := decide (a.tick.toNat < b.tick.toNat) || (a.tick = b.tick && decide (a.unit.toNat < b.unit.toNat))

/-- Position of the event the intake takes next: one glued to the event taken before it, else the first in order of R405. -/
def nextEvent (evs : List Ev) : Option Nat :=
  match evs with
  | [] => none
  | e :: _ =>
    if e.glued then some 0
    else (List.range evs.length).foldl (fun best i => match evs[i]?, best with
      | some x, some j => if x.glued then best else match evs[j]? with | some y => if x.before y then some i else best | none => best
      | some x, none => if x.glued then none else some i
      | none, b => b) none

/-- The signature of an event whose record has been taken, with the record's number; of a record that got none the number is an open value
(R404, R418; log 21). -/
def signEvent (s : State) (e : Ev) (number : Option (BitVec 32)) : State :=
  match e.sig, number with
  | none, _ => s
  | some c, some n => cperPut s { c with seq := n }
  | some c, none => let (w, s) := s.fresh; cperPut s { c with seq := w.setWidth 32 }

/-- The intake takes one event; the events glued to it come next (R405), and its signature is built (R417). -/
def intakeOne (s : State) : State :=
  match nextEvent s.rcd.intake with
  | none => s
  | some i =>
    match s.rcd.intake[i]? with
    | none => s
    | some e =>
      let after := s.rcd.intake.drop (i + 1)
      let glued := after.takeWhile (·.glued)
      let x := takeEvent (s.onRec (fun r => { r with intake := glued ++ r.intake.take i ++ after.drop glued.length })) e
      signEvent x.1 e x.2

/-- RECORD_INTAKE. -/
def execRecordIntake (s : State) : Res := .next (intakeOne s)

/-- MERGE_WINDOW_EXPIRY (R406). -/
def execMergeWindowExpiry (s : State) : Res := .next (closeRecord s)

/-! ## The append machine (R406 to R410, R354) -/

/-- Slots of the ring. -/
def ringSlots : Nat := 3670016

/-- A slot written at the write point of the ring; entering a sector erases the next one (R408). -/
def Flash.ringPut (f : Flash) (x : FlashSlot) : Flash :=
  let w := f.base + f.ring.length
  let first := if w % 128 = 0 then (w / 128 + 2 - 28672) * 128 else f.base
  let d := first - f.base
  { f with ring := f.ring.drop d ++ [x], base := f.base + min d f.ring.length }

/-- The flash address of the next ring slot, in units of 32 bytes. -/
def Flash.ringAddr (f : Flash) : Nat := 0x80000 + (f.base + f.ring.length) % ringSlots

/-- The active history bank. -/
def Flash.hist (f : Flash) : List HistRec := if f.histOne then f.hist1 else f.hist0

/-- A record appended to the active history bank. -/
def Flash.histAppend (f : Flash) (r : HistRec) : Flash :=
  if f.histOne then { f with hist1 := f.hist1 ++ [r] } else { f with hist0 := f.hist0 ++ [r] }

/-- REC_PROGRAM_FAIL (R410). -/
def programFail (s : State) (region : BitVec 16) (addr : Nat) : State :=
  (s.onRec (fun r => { r with progFails := r.progFails + 1 })).emit
    { code := 0x9004, cls := .c, unit := uRec, p16 := region, p32 := BitVec.ofNat 32 addr }

/-- A record goes to the permanent region (R407). -/
def permDue (s : State) (r : Rec) : Bool := r.cls = .f || priorityCodes.contains r.code || !s.rcd.codes.contains r.code

/-- The permanent copy of a record, after a program that failed where `bad`; PERMANENT_FULL when the region is full (R407). -/
def permCopy (s : State) (r : Rec) (bad : Bool) : State :=
  let copy : Rec := { r with perm := true }
  let s := if bad ∧ s.rcd.flash.perm.length < 262144 then
      programFail (s.onFlash (fun f => { f with perm := f.perm ++ [.void copy] })) 2 (0x40000 + s.rcd.flash.perm.length)
    else s
  if s.rcd.flash.perm.length < 262144 then
    s.onRec (fun x => { x with flash := { x.flash with perm := x.flash.perm ++ [.entry copy] }, codes := if x.codes.contains r.code then x.codes else x.codes ++ [r.code] })
  else if s.rcd.permFull then s
  else (s.onRec (fun x => { x with permFull := true })).emit { code := 0x9003, unit := uRec, p32 := r.seq }

/-- A snapshot of a unit and one confirmed catch for each of its stamps (R354). The records that still wait to be appended are in it, and
their lower numbers put them before it when the history is rebuilt. -/
def histSnapshot (s : State) (u : UnitId) (h : Hist) : List HistRec :=
  let st := BitVec.ofNat 8 (s.fst.stateNow s.time.opsec u).code
  { seq := 0, kind := 5, state := st, unit := u, opsec := h.lastOp, event := h.lastEvent, tick := s.time.tick,
    param := BitVec.ofNat 32 h.confirmed } ::
  h.stamps.map (fun p => { seq := 0, kind := 1, state := st, unit := u, opsec := p.1, col := p.2, event := h.lastEvent, tick := s.time.tick })

/-- Compaction at 3 MiB (98,304 records): snapshots into the other bank, the seal, the old bank erased (R354). -/
def histCompact (s : State) : State :=
  let f := s.rcd.flash
  if f.hist.length < 98304 then s
  else
    let keep := s.fst.units.filter (fun p => p.2.state ≠ .good ∨ p.2.confirmed ≠ 0 ∨ p.2.undecided ≠ 0 ∨ p.2.reports ≠ 0)
    let rs := keep.flatMap (fun p => histSnapshot s p.1 p.2)
    let last : HistRec := { seq := 0, kind := 6, state := 0, unit := uFst, opsec := s.time.opsec, event := 0x100B, tick := s.time.tick,
                            param := BitVec.ofNat 32 rs.length }
    let rs := (rs ++ [last]).zipIdx.map (fun p => { p.1 with seq := f.histSeq + BitVec.ofNat 32 p.2 })
    let bank : BitVec 16 := if f.histOne then 0 else 1
    let s := s.onFlash (fun f =>
      let f := { f with histSeq := f.histSeq + BitVec.ofNat 32 rs.length }
      if f.histOne then { f with hist0 := rs, hist1 := [], histOne := false } else { f with hist1 := rs, hist0 := [], histOne := true })
    s.emit { code := 0x100B, unit := uFst, p16 := bank, p32 := BitVec.ofNat 32 rs.length }

/-- The RECORDS_LOST record, once the queue has room again (R84). -/
def reportLost (s : State) : State :=
  if s.rcd.lostRep = 0 ∨ 4096 ≤ s.rcd.queue.length then s
  else
    let n := s.rcd.lostRep
    (s.onRec (fun r => { r with lostRep := 0 })).emit { code := 0x9001, unit := uRec, p32 := BitVec.ofNat 32 n }

/-- A program of the newest configuration item that failed: the slot void, the item again in the next one (R410, R412). -/
def confFail (s : State) : State :=
  let f := s.rcd.flash
  match f.conf.getLast? with
  | none => s
  | some r =>
    let again (l : List ConfRec) : List ConfRec := l.dropLast ++ [{ r with void := true }, r]
    let addr := 0x38000 + (if f.confOne then 0x4000 else 0) + f.conf.length - 1
    programFail (s.onFlash (fun f => if f.confOne then { f with conf1 := again f.conf1 } else { f with conf0 := again f.conf0 })) 1 addr

/-- The oldest history record waiting is programmed (R354). -/
def appendHistory (s : State) (r : HistRec) (bad : Bool) : State :=
  let f := s.rcd.flash
  let addr := (if f.histOne then 0x1C000 else 0) + f.hist.length
  if bad then programFail (s.onFlash (fun f => f.histAppend { r with void := true })) 0 addr
  else histCompact (s.onRec (fun x => { x with histOut := x.histOut.drop 1, flash := x.flash.histAppend r }))

/-- The oldest closed record is programmed into the ring, and its copy into the permanent region (R406, R407, R410). -/
def appendRecord (s : State) (r : Rec) (fail : Option (BitVec 2)) : State :=
  if fail = some 3 then programFail (s.onFlash (fun f => f.ringPut (.void r))) 3 s.rcd.flash.ringAddr
  else
    let s := s.onRec (fun x => { x with queue := x.queue.drop 1, flash := x.flash.ringPut (.entry r) })
    reportLost (if permDue s r then permCopy s r (fail = some 2) else s)

/-- RECORD_APPEND: history records first, then closed records in order (an orderly shutdown empties the queue, R406); `fail` names the region whose program fails its read-back. -/
def execRecordAppend (fail : Option (BitVec 2)) (s : State) : Res :=
  let r := s.rcd
  if !r.flashOk then .next s
  else if fail = some 1 then .next (confFail s)
  else match r.histOut, r.queue with
    | h :: _, _ => .next (appendHistory s h (fail = some 0))
    | [], q :: rest =>
      if !r.seqSet ∨ !q.numbered ∨ (rest = [] ∧ r.openTill.isSome ∧ s.pwr.down.isNone) then .next s else .next (appendRecord (if rest = [] then closeRecord s else s) q.record fail)
    | [], [] => .next s

/-- REC_FLASH_LOST (R410). -/
def execRecFlashLost (eraseFailed : Bool) (s : State) : Res :=
  if !s.rcd.flashOk then .next s
  else .next ((s.onRec (fun r => { r with flashOk := false })).emit
    { code := 0x9005, cls := .u, unit := uRec, p16 := if eraseFailed then 1 else 0, p32 := BitVec.ofNat 32 s.rcd.queue.length })

/-- FLASH_RETRY (R410). -/
def execFlashRetry (answers : Bool) (s : State) : Res :=
  .next (if answers then flashAnswers s else s)

/-! ## Wall time and settings (R413, R406, R424) -/

/-- A write to VX_REC_WALL (R413). -/
def wallWrite (src : Src) (v : Reg) (s : State) : State :=
  let old := s.time.wall
  let new : BitVec 40 := field v 0 40
  let first := !s.time.wallSet
  let s := { s with time := { s.time with wall := new, wallRem := 0, wallSet := true } }
  if new = old ∧ !first then s
  else s.emit { code := 0x9002, unit := uRec, p32 := old.setWidth 32,
                p16 := (old >>> 32).setWidth 16 ||| (if src = .mgt then 0x100 else 0) ||| (if first then 0x200 else 0) }

/-- REC_WALL_WRITE. -/
def execRecWallWrite (src : Src) (v : Reg) (s : State) : Res := .next (gatedWrite s src 0x900018 v (wallWrite src v))

/-- A write to VX_REC_CFG: MERGE_MS up to 10,000 and stored, QUEUE_IRQ at least 1. The open record keeps its window (R406). -/
def recCfgWrite (v : Reg) (s : State) : State :=
  let m : BitVec 14 := if 10000 < (field v 0 14 : BitVec 14).toNat then 10000 else field v 0 14
  let q : BitVec 12 := if (field v 16 12 : BitVec 12) = 0 then 1 else field v 16 12
  (s.onRec (fun r => { r with mergeMs := m, queueIrq := q })).putItem 9 (m.setWidth 64)

/-- REC_CFG_WRITE. -/
def execRecCfgWrite (src : Src) (v : Reg) (s : State) : Res := .next (gatedWrite s src 0x900010 v (recCfgWrite v))

/-! ## Reading (R414 to R416) -/

/-- Signed difference of two record numbers (R404). -/
def seqDiff (a b : BitVec 32) : Int := (a - b).toInt

/-- The records of the ring, oldest first. -/
def Flash.entries (f : Flash) : List Rec := f.ring.filterMap (fun x => match x with | .entry r => some r | .void _ => none)

/-- A slot of two banks of `n` slots: its bytes, all ones for an erased slot, none beyond the last written slot (R414; log 22). -/
def bankSlot {α : Type} (n : Nat) (b0 b1 : List α) (bytes : α → List Byte) (isVoid : α → Bool) (i : Nat) : Option (List Byte × Bool) :=
  let last := if b1 = [] then b0.length else n + b1.length
  if last ≤ i then none
  else match (if i < n then b0[i]? else b1[i - n]?) with
    | some x => some (bytes x, isVoid x)
    | none => some (List.replicate 32 0xFF, false)

/-- A slot of two banks as it is stored: made void, bytes 0 to 5 are zero (R410); with a bad CRC its bytes are those found. -/
def storedBytes (bytes : List Byte) (void : Bool) (bad : Option (List Byte)) : List Byte :=
  let b := match bad with | some x => bytes.take 4 ++ x | none => bytes
  if void then List.replicate 6 0 ++ b.drop 6 else b

/-- A history slot as stored. -/
def HistRec.slotBytes (r : HistRec) : List Byte := storedBytes r.bytes r.void r.bad

/-- A configuration slot as stored. -/
def ConfRec.slotBytes (r : ConfRec) : List Byte := storedBytes r.bytes r.void r.bad

/-- The 32 bytes of a slot of a region and whether it is void, or none where it is ABSENT (R414). -/
def Flash.slot (f : Flash) (region : BitVec 2) (index : BitVec 32) : Option (List Byte × Bool) :=
  if region = 0 then (f.entries.find? (fun r => r.seq = index)).map (fun r => (r.bytes, false))
  else if region = 1 then (f.perm[index.toNat]?).map (fun x => (x.bytes, x.isVoid))
  else if region = 2 then bankSlot 114688 f.hist0 f.hist1 HistRec.slotBytes (·.void) index.toNat
  else bankSlot 16384 f.conf0 f.conf1 ConfRec.slotBytes (·.void) index.toNat

/-- Slots in order from a first index, ABSENT ones as 32 zero bytes (R415, R416). -/
def Flash.slotsFrom (f : Flash) (region : BitVec 2) (first : BitVec 32) (count : Nat) : List (List Byte) :=
  (List.range count).map (fun i => ((f.slot region (first + BitVec.ofNat 32 i)).map (·.1)).getD (List.replicate 32 0))

/-- A write to VX_REC_READ_SEL (R414). -/
def recReadSel (v : Reg) (s : State) : State :=
  s.onRec (fun r => { r with read := { r.read with
    region := field v 0 2, index := field v 2 32
    going := r.read.going || flag v 34, done := r.read.done && !flag v 34 } })

/-- REC_READ_GO. -/
def execRecReadGo (src : Src) (v : Reg) (s : State) : Res := .next (gatedWrite s src 0x900028 v (recReadSel v))

/-- REC_READ_DONE: the slot is presented (R414). -/
def execRecReadDone (s : State) : Res :=
  let q := s.rcd.read
  if !q.going then .next s
  else
    let got := s.rcd.flash.slot q.region q.index
    .next (s.onRec (fun r => { r with read := { r.read with
      going := false, done := true, absent := got.isNone, void := (got.map (·.2)).getD false, data := (got.map (·.1)).getD [] } }))

/-- A write to VX_REC_DUMP_CTRL (R415, R424): the fields are stored; GO is refused while BUSY or with COUNT 0. -/
def recDumpCtrl (src : Src) (v : Reg) (s : State) : State :=
  let n : BitVec 22 := field v 0 22
  let s := s.onRec (fun r => { r with read := { r.read with count := n, dRegion := field v 22 2 } })
  if !flag v 24 then s
  else if s.rcd.read.busy ∨ n = 0 then
    (s.onRec (fun r => { r with read := { r.read with refused := true } })).logRefusal mc none src 0x900070
  else s.onRec (fun r => { r with read := { r.read with busy := true, dDone := false, refused := false, copied := 0 } })

/-- REC_DUMP_GO. -/
def execRecDumpGo (src : Src) (v : Reg) (s : State) : Res := .next (gatedWrite s src 0x900070 v (recDumpCtrl src v))

/-- REC_DUMP_DONE: the slots copied to the job address, 32 bytes each, DONE and RECORDER set (R415). -/
def execRecDumpDone (s : State) : Res :=
  let q := s.rcd.read
  if !q.busy then .next s
  else
    let s := s.engineWrite q.addr.toNat (s.rcd.flash.slotsFrom q.dRegion q.first q.count.toNat).flatten
    .next ((s.onRec (fun r => { r with read := { r.read with busy := false, dDone := true, copied := q.count.setWidth 32 } })).irqSet irqRecorder)

/-- The management bus is up: a controller is strapped, the pins are driven, no HDR mode (R73, R76, R81). -/
def State.busUp (s : State) : Bool :=
  s.aon.valid && s.aon.sentinel && !s.aon.strap.getLsbD 3 && !s.aon.hdr && s.pwr.vs ≠ .vs4 && decide (2 ≤ s.pwr.step.toNat)

/-- MC serves the management port: the bus is up and MC runs (R74, R452). -/
def State.mgtUp (s : State) : Bool :=
  let st := (s.fwp.procs.at mc).state
  (st = .hold || st = .run) && s.busUp

/-- A request of the management port: served, or while MC is RESTARTING left waiting for it (R74, R450); otherwise nobody answers. -/
def State.mgtServe (s : State) (w : MgtWait) (f : State → State) : State :=
  if s.mgtUp then f s
  else if s.busUp ∧ (s.fwp.procs.at mc).state = .restarting then { s with mgt := s.mgt ++ [w] }
  else s

/-- 1 to 4 slots of a region in one response (R416). -/
def recRead (region : BitVec 2) (first : BitVec 32) (count : Nat) (s : State) : State :=
  s.sendMctp (.recSlots (s.rcd.flash.slotsFrom region first (min count 4)))

/-- REC_READ. -/
def execRecRead (region : BitVec 2) (first : BitVec 32) (count : Nat) (s : State) : Res :=
  .next (s.mgtServe (.recRead region first count) (recRead region first count))

/-! ## The signature queue (R419 to R422) -/

/-- The fields of an entry rebuilt from its record: what only a live capture provides reads 0x00, 0, 0x8000, 0x8000, 0 and 0 (R420). -/
def Rec.rebuilt (s : State) (r : Rec) : Cper :=
  Cper.close
  { cls := if r.code = 0x1009 then 3 else match r.cls with | .f => 2 | .u => 1 | _ => 0
    code := r.code, unit := r.unit, ctx := r.ctx, op := 0, esc := r.esc, replace := s.fst.replace, noWall := r.noWall
    halted := s.fst.state = .halted, p16 := r.p16, p32 := r.p32, addr := 0, tick := r.tick, wall := r.wall, unitTemp := 0x8000
    hottest := 0x8000, vcore := 0, vmem := 0, seq := r.seq } s.fuses

/-- Records of class F and REPLACE_FLAG, and for a rebuild also U, newer than a number (R419, R420). -/
def exportable (withU : Bool) (after : BitVec 32) (r : Rec) : Bool :=
  (r.cls = .f || (withU && r.cls = .u) || r.code = 0x1009) && (after = 0xFFFFFFFF || decide (0 < seqDiff r.seq after))

/-- The queue rebuilt from the ring: records of class U and F and REPLACE_FLAG newer than CPER_ACK, up to 64 (R420). -/
def cperRebuild (s : State) : State :=
  if s.aon.strap.getLsbD 3 then s
  else
    let rs := (s.rcd.flash.entries.filter (exportable true s.rcd.ackSeq)).map (Rec.rebuilt s)
    let s := s.onRec (fun r => { r with cpers := rs.take 64, cperLost := false, incomplete := (rs.drop 64).any (fun e => decide (e.cls ≠ 1)) })
    s.each (rs.take 64) cperNotify

/-- Freed places filled from the ring while INCOMPLETE is set (R419). -/
def cperRefill (s : State) (newest : BitVec 32) : State :=
  if !s.rcd.incomplete then s
  else
    let room := 64 - s.rcd.cpers.length
    let rs := (s.rcd.flash.entries.filter (exportable false newest)).map (Rec.rebuilt s)
    let staged := s.rcd.queue.any (fun x => exportable false newest x.record)
    let s := s.onRec (fun r => { r with cpers := r.cpers ++ rs.take room, incomplete := decide (room < rs.length) || staged })
    s.each (rs.take room) cperNotify

/-- The oldest unacknowledged entry (R419). -/
def cperGet (s : State) : State := s.sendMctp (.cper s.rcd.cpers.head?)

/-- CPER_GET. -/
def execCperGet (s : State) : Res :=
  .next (s.mgtServe .cperGet cperGet)

/-- The CPER_ACK item, stored at most once per second (R412; log 23). -/
def storeAck (s : State) : State :=
  let waiting := ((s.rcd.confOut.filter (fun x => x.1 = 10)).getLast?).map (·.2.2)
  match waiting <|> (s.rcd.flash.newest 10).map (·.tick) with
  | some t => if s.time.tick.toNat < t.toNat + 1000000000 then s else s.putItem 10 (s.rcd.ackSeq.setWidth 64)
  | none => s.putItem 10 (s.rcd.ackSeq.setWidth 64)

/-- Every entry up to the number is acknowledged, the item stored, freed places refilled (R419, R412). -/
def cperAck (seq : BitVec 32) (s : State) : State :=
  let newest := match s.rcd.cpers.getLast? with | some e => e.seq | none => seq
  let s := s.onRec (fun r => { r with cpers := r.cpers.filter (fun e => decide (0 < seqDiff e.seq seq)), ackSeq := seq })
  (cperRefill (storeAck s) newest).sendMctp (.ack true)

/-- CPER_ACK. -/
def execCperAck (seq : BitVec 32) (s : State) : Res := .next (s.mgtServe (.cperAck seq) (cperAck seq))

/-- Each unacknowledged entry of class U, F or REPLACE is sent again (R419). -/
def cperResend (s : State) : State := s.each s.rcd.cpers cperNotify

/-- CPER_RESEND. -/
def execCperResend (s : State) : Res := .next (s.mgtServe .cperResend cperResend)

/-- The health state of R421: 2 Fatal, 1 Critical, 0 Normal. -/
def State.healthNow (s : State) : BitVec 2 :=
  if (s.fst.slots.at 2).valid ∨ s.fst.state = .halted then 2 else if s.fst.replace then 1 else 0

/-- A change of the health state is sent as a PLDM sensor event (R421, R422). -/
def healthEvent (s : State) : State :=
  if s.aon.strap.getLsbD 3 ∨ s.healthNow = s.rcd.health then s
  else (s.onRec (fun r => { r with health := s.healthNow })).sendMctp (.health s.healthNow)

end Sys2Proof.Machine
end

