-- ==== Sys2Proof/Machine/Export.lean ====
section
/-! DEFINITION. Signatures of faults and of REPLACE flags (R417, R418, R360): a record is taken at the intake for its number, and the
signature is queued for the management controller. -/

namespace Sys2Proof.Machine

/-- An event that is already stamped goes to the recorder with its class (R342). -/
def recordAs (s : State) (e : Ev) : State := s.onRec (fun r => { r with intake := r.intake ++ [e] })

/-- The class code of R418. -/
def Cls.cper : Cls → BitVec 8
  | .f => 2 | .u => 1 | _ => 0

/-- The hottest reading of a LIVE sensor, 0x8000 for none (R387, R418). -/
def Thm.hottestLive (t : Thm) : BitVec 16 :=
  (List.finRange 640).foldl (fun m i => let x := t.sensors.at i
    if x.state = .live ∧ x.known ∧ m.toInt < x.reading.toInt then x.reading else m) 0x8000

/-- The reading of a unit's own sensor: an array's, or a sensor itself (R418). -/
def State.unitTemp (s : State) (u : UnitId) : BitVec 16 :=
  if uClass u = 0 ∨ uClass u = 6 then match finOf 640 (uIndex u) with
    | some n => let x := s.thm.sensors.at n; if x.state = .live ∧ x.known then x.reading else 0x8000
    | none => 0x8000
  else 0x8000

/-- The event of a fault or of a REPLACE flag recorded with its signature (R417, R418), which is built when the intake has given the record
its number (log 21); the rail voltages are open values (log 15). -/
def exportSig (s : State) (e : Ev) (cls : BitVec 8) : State :=
  let (w, s) := s.fresh
  let c : Cper := {
    cls, code := e.code, unit := e.unit, ctx := e.ctx, op := if cls = 3 then 0 else e.acc, esc := e.esc,
    replace := s.fst.replace, noWall := e.noWall, halted := s.fst.state = .halted, p16 := e.p16, p32 := e.p32,
    addr := if cls = 3 then 0 else e.addr, tick := e.tick, wall := e.wall, unitTemp := s.unitTemp e.unit,
    hottest := s.thm.hottestLive, vcore := w.setWidth 16, vmem := (w >>> 16).setWidth 16, seq := 0 }
  recordAs s { e with sig := some c }

/-- A fault recorded and exported at its first event (R334, R417). -/
def recordFault (s : State) (e : Ev) : State := exportSig s e e.cls.cper

/-- REPLACE with its signature: the record first (R360, R417), then the drain (R359). -/
def replaceAndDrain (s : State) (cause : BitVec 3) (unit : UnitId) : State :=
  let e := s.stamp { code := 0x1009, unit := uFst, p16 := cause.setWidth 16, p32 := unit.setWidth 32 }
  healthEvent (startDrain (setReplace (exportSig s e 3) cause unit) cause)

end Sys2Proof.Machine
end

