-- ==== Sys2Proof/Machine/SliceOps.lean ====
section
/-! DEFINITION. The witness crossbar: verdicts and the slices' arbiters (R177 to R179), handovers between the row slices and the standby
(R182, R183), a row that has lost its slice and a slice withdrawn (R184), and verdicts "not produced" for a port's open tiles (R174,
R184, R188). -/

namespace Sys2Proof.Machine

/-! ## A port's tiles and its debt -/

/-- Open tiles of a port: in progress or parked. -/
def Port.open_ (p : Port) : List Tile := p.cur.toList ++ p.park

/-- The execution a tile belongs to. -/
def Tile.exec (t : Tile) : Ctx × BitVec 48 × BitVec 8 := (t.desc.ctx, t.pass, t.replay)

/-- The tile whose single read starts now: the oldest parked tile checked alone, when no single read is running (R168). -/
def Port.dueSingle (p : Port) : Option Tile :=
  if p.park.any (fun t => t.reading && !t.member) then none else p.park.find? (fun t => !t.reading && !t.member)

/-- A parked tile whose read has begun, by the end of the array cycle (R168, R169). -/
def Port.begun (p : Port) (t : Tile) : Bool := t.reading || p.dueSingle = some t

/-- The drain debt: parked tiles whose read has not begun (R169). -/
def Port.debt (p : Port) : Nat := (p.park.filter (fun t => !p.begun t)).length

/-- The highest debt kept since the last port reset. -/
def Port.noteDebt (p : Port) : Port := { p with maxDebt := satBits 4 (max p.maxDebt.toNat p.debt) }

/-- A group open and not closing closes when the debt reaches 0 (R170). -/
def Port.closeAtZero (p : Port) : Port :=
  if p.debt = 0 then { p with group := p.group.map (fun g => { g with closing := true }) } else p

/-! ## Verdicts (R177 to R179) -/

/-- The slice's verdict arbiter has served a port (R177). -/
def noteServed (s : State) (a : Arr) (slice : Nat) : State :=
  match finOf 25 slice with
  | some n => s.onSlice n (fun x => { x with served := colOf a })
  | none => s

/-- A TILE_VERDICT of a port through the arbiter of the slice that checks the tile, unless the port has already sent a catch for the
execution (R177, R179). -/
def sendVerdict (s : State) (a : Arr) (slice : Nat) (e : Ctx × BitVec 48 × BitVec 8) (seq : BitVec 32) (v : Verdict) (covers voids : Nat)
    (reason : BitVec 4) : State :=
  if (s.wce.ports.at a).caught.contains e then s
  else
    let s := (noteServed s a slice).send (.tileVerdict { ctx := e.1, port := uPort a, seq, verdict := v, covers := BitVec.ofNat 8 covers
                                                         voids := BitVec.ofNat 8 voids, reason, replay := e.2.2, passLow := e.2.1.setWidth 32 })
    if v = .catch then s.onPort a (fun p => { p with caught := p.caught ++ [e] }) else s

/-- The ports of a row in the order a slice's arbiter takes them: in rotation by column, starting after the port served last (R177). -/
def State.rotation (s : State) (n : Slice) (r : Row) : List Arr :=
  (List.range 26).map (fun i => arrOf r (((s.wce.slices.at n).served + 1 + i) % 26))

/-- A tile is checked by a slice; no slice named takes every tile. -/
def Tile.checkedBy (only : Option Nat) (t : Tile) : Bool := only.isNone || only = some t.slice

/-- What a port owes for tiles it has lost: for each execution its slice, the execution, the first sequence number and the number of
tiles. -/
def Port.owed (only : Option Nat) (p : Port) : List (Nat × (Ctx × BitVec 48 × BitVec 8) × BitVec 32 × Nat) :=
  let tiles := p.open_.filter (fun t => t.checkedBy only && !t.monitor)
  (tiles.map Tile.exec).eraseDups.map (fun e =>
    let mine := tiles.filter (fun t => t.exec = e)
    ((mine.head?.map (·.slice)).getD 31, e, (mine.head?.map (fun t => t.desc.seq)).getD 0, mine.length))

/-- A port without the tiles and the group that a slice checks; without a slice named it is empty. -/
def Port.lose (only : Option Nat) (p : Port) : Port :=
  { p with cur := p.cur.filter (fun t => !t.checkedBy only), park := p.park.filter (fun t => !t.checkedBy only),
           group := p.group.filter (fun g => !(only.isNone || only = some g.slice)), watched := p.watched.filter (fun t => !t.checkedBy only),
           blanks := if only.isNone then [] else p.blanks }

/-- Ports lose their open tiles together: one verdict "not produced" for each execution of each port, COVERS equal to its open tiles; the
arbiter takes the ports in the order given, a port's second verdict after every port's first (R177, R184, R188). Tiles under MONITOR send
none (log 27). -/
def loseTiles (s : State) (ps : List Arr) (only : Option Nat) (reason : BitVec 4) : State :=
  let owed := ps.map (fun a => (a, (s.wce.ports.at a).owed only))
  let s := s.each ps (fun s a => s.onPort a (Port.lose only))
  s.each (List.range ((owed.map (fun o => o.2.length)).foldl max 0)) (fun s i => s.each owed (fun s o => match o.2[i]? with
    | some (n, e, seq, k) => sendVerdict s o.1 n e seq .notProduced k 0 reason
    | none => s))

/-! ## Handovers -/

/-- The slice that checks tiles of a row that start now (R182): the new one from a handover on; 31 for none. -/
def State.sliceFor (s : State) (r : Row) : Nat :=
  match s.wce.handover with
  | some h => if h.row = r then (if h.away then 24 else r.val) else (s.wce.slices.at (rowSlice r)).heldBy.toNat
  | none => (s.wce.slices.at (rowSlice r)).heldBy.toNat

/-- The slice whose arbiter sends the verdicts of a row. -/
def State.arbiterOf (s : State) (r : Row) : Slice := (finOf 25 (s.sliceFor r)).getD (rowSlice r)

/-- A handover of a row to the standby begins (R182, R183): SLICE_TAKEOVER. -/
def startTakeover (s : State) (r : Row) (reason : BitVec 3) : State :=
  let s := s.onSlice (rowSlice r) (fun x => { x with state := x.unless_ .handover })
  let s := s.onSlice standby (fun x => { x with state := x.unless_ .handover })
  let s := s.onWce (fun w => { w with handover := some { row := r, away := true, reason }, reason := reason })
  (closeGroups s r).emit { code := 0x2010, unit := uSlice (rowSlice r), p16 := BitVec.ofNat 16 r.val, p32 := reason.setWidth 32 }

/-- A handover of a row back to its own slice begins: SLICE_RELEASE with the reason of the takeover. -/
def startRelease (s : State) (r : Row) : State :=
  let reason := s.wce.reason
  let s := s.onSlice (rowSlice r) (fun x => { x with state := x.unless_ .handover })
  let s := s.onSlice standby (fun x => { x with state := x.unless_ .handover })
  let s := s.onWce (fun w => { w with handover := some { row := r, away := false, reason } })
  (closeGroups s r).emit { code := 0x2011, unit := uSlice (rowSlice r), p16 := BitVec.ofNat 16 r.val, p32 := reason.setWidth 32 }

/-! ## Withdrawal (R184, R359) -/

/-- A unit that met the fault that ends the chip stays in place until the drain completes, and leaves at once where that is over
(R359). -/
def awaitRetire (s : State) (u : UnitId) : State :=
  if s.fst.state = .draining ∨ s.fst.state = .run then s.onFst (fun f => { f with await := if f.await.contains u then f.await else f.await ++ [u] })
  else leaveService s u

/-- A row loses its slice (R184, R359): SLICE_LOST, not produced for the row's open tiles, its contexts stopped, the chip drained; the
slice is RETIRED when the drain completes. A row already lost stays so. -/
def sliceLost (s : State) (r : Row) : State :=
  if (s.wce.slices.at (rowSlice r)).heldBy = 31 then s
  else
    let cs := (s.ctxsOfRow r).filter (fun c => (s.ctx c).pass.st ≠ .stopped)
    let s := rowLost (loseTiles s (s.rotation (s.arbiterOf r) r) none 8) r cs
    let s := s.each cs (fun s c => abortStopCtx s c 0x2014)
    replaceAndDrain (awaitRetire s (uSlice (rowSlice r))) 2 (uSlice (rowSlice r))

/-- The standby keeps a row whose slice is withdrawn (R184). -/
def keepRow (s : State) (r : Row) : State :=
  let s := s.onSlice (rowSlice r) (fun x => { x with state := .retired, heldBy := 24 })
  retireUnit (s.onWce (fun w => { w with reason := 1 })) (uSlice (rowSlice r))

/-- An order for a row waits for the end of a reset: of the row, of its slice, or of the standby that is to take it (R183, R188, R475). -/
def State.orderWaits (s : State) (r : Row) : Bool :=
  s.rowInReset r || (s.wce.slices.at (rowSlice r)).state = .reset || (s.heldRow.isNone && (s.wce.slices.at standby).state = .reset)

/-- A fault steward order to withdraw a row slice (R183, R184); where a reset is in progress it waits for the reset's end (R475). -/
def orderSlice (s : State) (r : Row) : State :=
  let me := s.wce.slices.at (rowSlice r)
  if me.state = .retired then retireUnit s (uSlice (rowSlice r))
  else if me.heldBy = 31 ∨ s.wce.orders.contains r then s
  else if !s.hasStandby ∨ (s.wce.slices.at standby).state = SliceState.retired then sliceLost (cutTestOf s [rowSlice r]) r
  else if s.orderWaits r then s.onWce (fun w => { w with orders := w.orders ++ [r] })
  else match s.wce.handover with
    | some h =>
      if h.row = r then
        if h.away then s.onWce (fun w => { w with handover := some { h with reason := 1 }, reason := 1 })
        else s.onWce (fun w => { w with orders := w.orders ++ [r] })
      else if s.wce.orders ≠ [] ∨ (h.away ∧ h.reason = 1) then sliceLost s r
      else s.onWce (fun w => { w with orders := w.orders ++ [r] })
    | none =>
      match s.heldRow with
      | none => startTakeover (cutTestOf s [standby, rowSlice r]) r 1
      | some m =>
        if m = r then keepRow (cutTestOf s [rowSlice r]) r
        else if s.wce.reason = 1 ∨ s.wce.orders ≠ [] then sliceLost s r
        else
          let s := s.onWce (fun w => { w with orders := w.orders ++ [r] })
          if (s.wce.slices.at (rowSlice m)).state = .reset then s else startRelease (cutTestOf s [rowSlice m]) m

/-- The standby slice withdrawn (R184, R356): a row it holds goes back to its own slice, or is lost with it. -/
def retireStandby (s : State) : State := withdrawStandby sliceLost s

end Sys2Proof.Machine
end

