-- ==== Sys2Proof/Machine/RoleOps.lean ====
section
/-! DEFINITION. Holds: the substitutions ordered for a row (R243) and the other hold causes of a context that stands at a boundary
(R248, R249, VX_CTX_PASS.HOLD_CAUSE). -/

namespace Sys2Proof.Machine

/-! ## Holds at a boundary -/

/-- The context decides the execution that has ended: its COMMIT is not yet injected (R249). -/
def State.undecided (s : State) (c : Ctx) : Bool := !(s.ctx c).exec.injected

/-- An array's declaration on its way to MC for a catch of this context: its substitution is about to be ordered. -/
def HistEntry.declares (e : HistEntry) (c : Ctx) : Bool :=
  e.ctx = some c && decide (uClass e.unit = 0) && (match e.act with | .declare _ | .confirmThenDeclare _ => true | _ => false)

/-- A substitution is ordered, or about to be, for a row the context uses, or a catch of it found the queue to MC full (R243, R355). -/
def State.subWait (s : State) (c : Ctx) : Bool :=
  (match s.planOf c with | some p => s.fst.orders.any (fun o => p.usesRow o.row) | none => false) ||
  s.fst.histQ.any (fun e => e.declares c) || (s.fst.histQ.drop 4096).any (fun e => e.ctx = some c)

/-- A context at a boundary reads HELD while a hold cause is in force, BOUNDARY otherwise (R248). The driver's hold and a
substitution act once the COMMIT is injected; the firmware and the digest hold the COMMIT itself. Entry to HELD is reported to the driver
(R251). -/
def settle (s : State) (c : Ctx) : State :=
  let x := (s.ctx c).pass
  if x.st = .boundary ∨ x.st = .held then
    let sub := s.subWait c && !s.undecided c
    let held := x.holdFw || x.holdDigest || sub || (x.driverHold && !s.undecided c)
    let t := s.onPass c (fun p => { p with st := if held then .held else .boundary, holdSub := sub })
    if held ∧ x.st ≠ .held then t.notifyPass c else t
  else s

/-- Every context's holds formed again. -/
def settleAll (s : State) : State := s.each allCtx settle

/-- Every context that uses the row stands at a boundary (R243). -/
def State.rowAtBoundary (s : State) (r : Row) : Bool :=
  (s.ctxsOfRow r).all (fun c => match (s.ctx c).pass.st with
    | .boundary | .held => !s.undecided c
    | .stopped | .noPlan => true
    | .running | .aborting => false)

end Sys2Proof.Machine
end

