-- ==== Sys2Proof/Machine/Borrow.lean ====
section
/-! DEFINITION. Borrowing across rows (R208 to R211): the donors of a row, the take-over of a donor, and a row that has none. -/

namespace Sys2Proof.Machine

/-- WITNESS or SHADOW-DENSE. -/
def Plan.rotates (p : Plan) : Bool := p.isWitness || p.isDense

/-- The candidates of a borrowing row, in order (R208). -/
def State.donors (s : State) (r : Row) : List Row :=
  ([if 0 < r.val then some (r.val - 1) else none, some (r.val + 1), if 1 < r.val then some (r.val - 2) else none, some (r.val + 2)].filterMap
    (fun x => x.bind (finOf 24))).filter (fun d => decide (d.val < s.rows))

/-- The first candidate with a reserve that it lends to no row. -/
def State.donorFor (s : State) (r : Row) : Option Row :=
  (s.donors r).find? (fun d => (s.shd.rows.at d).reserve ≠ 31 && (s.shd.rows.at d).lendTo = 31)

/-- The row's own donor still serves it. -/
def State.donorHolds (s : State) (r : Row) : Bool :=
  match finOf 24 (s.shd.rows.at r).donor.toNat with
  | some d => (s.shd.rows.at d).lendTo = BitVec.ofNat 5 r.val
  | none => false

/-- Contexts with a plan, not yet stopped, whose plan satisfies a condition. -/
def State.runningWith (s : State) (p : Plan → Bool) : List Ctx :=
  allCtx.filter (fun c => match s.planOf c with
    | some q => s.hasPlan c && decide ((s.ctx c).pass.st ≠ .stopped) && p q | none => false)

/-- No candidate qualifies (R211): the row borrows all the same, having no free spare (R208); SHADOW_NO_DONOR stops the contexts whose
slots have nowhere to run. -/
def noDonor (s : State) (r : Row) : State :=
  let cs := s.runningWith (fun p => p.rotates && p.onSpare r)
  let s := s.onRow r (fun x => { x with noDonor := true, borrow := true, donor := 31 })
  let s := s.emit { code := 0x5105, cls := .u, unit := uSlice (rowSlice r), p16 := BitVec.ofNat 16 r.val, p32 := ctxMask cs }
  s.each cs (fun s c => abortStopCtx s c 0x5105)

/-- A row served by a donor: SHADOW_BORROW at first, SHADOW_DONOR_CHANGE after. A pattern on the reserve so called ends (R370). -/
def takeDonor (s : State) (r d : Row) : State :=
  let x := s.shd.rows.at r
  let lent := uArr (arrOf d (s.shd.rows.at d).reserve.toNat)
  let s := cutPatterns s (fun q => q.unit = lent) 2
  let s := s.onRow r (fun y => { y with borrow := true, donor := BitVec.ofNat 5 d.val })
  let s := noteUse (s.onRow d (fun y => { y with lendTo := BitVec.ofNat 5 r.val }))
  if x.borrow then
    s.emit { code := 0x5104, unit := uSlice (rowSlice r), p16 := BitVec.ofNat 16 r.val, p32 := BitVec.ofNat 32 (d.val + 65536 * x.donor.toNat) }
  else s.emit { code := 0x5103, unit := uSlice (rowSlice r), p16 := BitVec.ofNat 16 r.val, p32 := BitVec.ofNat 32 d.val }

/-- At a boundary: a row without a free spare takes a donor, or changes one that has left (R209, R210). -/
def borrowCheck (s : State) (r : Row) : State :=
  let x := s.shd.rows.at r
  if !x.ready || decide (0 < x.freeSpares) || x.noDonor || (x.borrow && s.donorHolds r) then s
  else match s.donorFor r with
    | some d => takeDonor s r d
    | none => noDonor s r

/-- A row that no loaded context uses borrows as soon as it has no free spare: there is no boundary to wait for (R208, R209; DEDUCED,
log 38). -/
def idleBorrow (s : State) (r : Row) : State := if (s.ctxsOfRow r).isEmpty then borrowCheck s r else s

end Sys2Proof.Machine
end

