-- ==== Sys2Proof/Machine/FaultSteward.lean ====
section
/-! DEFINITION. The fault steward (chapter 11): first capture and escalation (R337 to R348), export (R417, R418), unit history
(R349 to R355), lasting units and spares (R356 to R360), forwarded errors of the T9 (R336). -/

namespace Sys2Proof.Machine

/-! ## Taking faults (R337 to R342) -/

/-- Order in which two waiting faults are taken: by arrival, then F, U, C, then unit ID (R337). -/
def Ev.takenBefore (a b : Ev) : Bool :=
  decide (a.tick.toNat < b.tick.toNat) ||
  (a.tick = b.tick && (decide (b.cls.code < a.cls.code) || (a.cls = b.cls && decide (a.unit.toNat < b.unit.toNat))))

/-- Position of the fault taken next. -/
def nextFault (q : List Ev) : Option Nat :=
  (List.range q.length).foldl (fun best i => match q[i]?, best with
    | some x, some j => match q[j]? with | some y => if x.takenBefore y then some i else best | none => best
    | some _, none => some i
    | none, b => b) none

/-- A fault captured in slot k (R338) with the tick of its taking: FAULT is set. -/
def capture (s : State) (k : Fin 3) (e : Ev) : State :=
  (s.onFst (fun f => { f with slots := f.slots.upd k (fun _ =>
    { event := e.code, unit := e.unit, acc := e.acc, ctx := BitVec.ofNat 8 (ctxByte e.ctx), valid := true, esc := e.esc,
      addr := e.addr, tick := s.time.tick }) })).irqSet irqFault

/-- The slot holds an identical fault: same unit and code (R340). -/
def Slot3.sameAs (x : Slot3) (e : Ev) : Bool := x.valid && x.unit = e.unit && x.event = e.code

/-- A repeat counted in its slot, up to 0xFF_FFFF, and recorded (R340). -/
def repeated (s : State) (k : Fin 3) (e : Ev) : State :=
  recordAs (s.onFst (fun f => { f with slots := f.slots.upd k (fun x => { x with reps := satBits 24 (x.reps.toNat + 1) }) })) e

/-- An escalation counted (R340); it sets FAULT. -/
def escalated (s : State) : State := (s.onFst (fun f => { f with escal := bump f.escal })).irqSet irqFault

/-- A fault taken as F (R334, R340, R341). -/
def takeF (s : State) (e : Ev) : State :=
  let s := s.onFst (fun f => { f with fFaults := bump f.fFaults })
  let x := s.fst.slots.at 2
  if s.fst.state = .halted then recordFault s e
  else if !x.valid then
    startDrain ((recordFault (capture s 2 e) e).setAon (fun a => { a with alive := false })) 1
  else if x.sameAs e then repeated s 2 e
  else hardStop (recordFault s e) x.event e.code e.unit

/-- A fault taken as U. -/
def takeU (s : State) (e : Ev) : State :=
  let s := s.onFst (fun f => { f with uFaults := bump f.uFaults })
  let x := s.fst.slots.at 1
  if s.fst.state = .halted then recordFault s e
  else if !x.valid then recordFault (capture s 1 e) e
  else if x.sameAs e then repeated s 1 e
  else if e.esc then
    recordFault (s.onFst (fun f => { f with slots := f.slots.upd 1 (fun x => { x with overflow := satBits 16 (x.overflow.toNat + 1) }) })) e
  else takeF (escalated s) { e with cls := .f, esc := true }

/-- A fault taken as C. -/
def takeC (s : State) (e : Ev) : State :=
  let s := s.onFst (fun f => { f with cFaults := bump f.cFaults })
  let x := s.fst.slots.at 0
  if s.fst.state = .halted then recordFault s e
  else if !x.valid then recordFault (capture s 0 e) e
  else if x.sameAs e then repeated s 0 e
  else takeU (escalated s) { e with cls := .u, esc := true }

/-- One fault taken. Where the fault steward does not run, in bring-up steps 1 and 2, VS3 and VS4, it is recorded with its class and
not captured (R460, R461; log 24). -/
def takeFault (s : State) (e : Ev) : State :=
  if s.early then recordAs s e
  else healthEvent (match e.cls with | .f => takeF s e | .u => takeU s e | _ => takeC s e)

/-- FAULT_TAKEN. -/
def execFaultTaken (s : State) : Res :=
  match nextFault s.fst.faultQ with
  | none => .next s
  | some i => match s.fst.faultQ[i]? with
    | none => .next s
    | some e => .next (takeFault (s.onFst (fun f => { f with faultQ := f.faultQ.eraseIdx i })) e)

/-- Writing 1 to a slot's VALID (R343, R348). -/
def slotAck (src : Src) (k : Fin 3) (s : State) : State :=
  if k = 2 ∧ (s.fst.state = .draining ∨ s.fst.state = .halted) then
    (s.onFst (fun f => { f with refused := true })).logRefusal mc none src 0x100140
  else
    let s := s.onFst (fun f => { f with slots := f.slots.upd k (fun x => { x with valid := false }), refused := f.refused && k ≠ 2 })
    let mcUp : Bool := match (s.fwp.procs.at mc).state with | .hold | .run => true | _ => false
    healthEvent (if k = 2 ∧ mcUp then s.setAon (fun a => { a with alive := a.sentinel }) else s)

/-- FST_SLOT_ACK. -/
def execFstSlotAck (src : Src) (k : Fin 3) (s : State) : Res :=
  .next (gatedWrite s src (0x100100 + 0x20 * k.val) 0x0001000000000000 (slotAck src k))

/-! ## REPLACE, drains and lasting units (R356 to R360) -/

/-- A fault of a standby resource (R356, R359): counted and stored. The first is carried out by `out`; a second one stays in place until
the chip, drained for it, has stopped. A later one is carried out at once, unless a drain is in progress (log 158). -/
def standbyFault (s : State) (u : UnitId) (out : State → State) : State :=
  let n := s.fst.standby
  let m := satBits 2 (min 2 (n.toNat + 1))
  let s := (s.onFst (fun f => { f with standby := m })).putItem 6 (m.setWidth 64)
  let s := s.emit { code := 0x1005, unit := u, p16 := m.setWidth 16 }
  if n = 1 then replaceAndDrain (awaitRetire s u) 3 u else if n = 0 ∨ s.fst.state ≠ .draining then out s else awaitRetire s u

/-- The row has no free spare left for a unit (R359). -/
def sparesExhausted (s : State) (u : UnitId) (r : Row) : State :=
  let s := s.emit { code := 0x1004, unit := uSlice (rowSlice r), p16 := BitVec.ofNat 16 r.val, p32 := (s.fst.failed.at r).setWidth 32 }
  replaceAndDrain (awaitRetire s u) 2 u

/-- A row has a free spare beyond those its waiting substitutions take. -/
def State.spareFor (s : State) (r : Row) : Bool :=
  decide ((s.fst.orders.filter (fun o => o.row = r)).length < (s.sparesOf r).length)

/-- An array that serves a logical position is replaced: the substitution is ordered, or the spares are exhausted (R243, R359). -/
def orderSubstitution (s : State) (a : Arr) (logical : Nat) : State :=
  let r := rowOf a
  if !s.spareFor r then sparesExhausted s (uArr a) r
  else settleAll (s.onFst (fun f => { f with orders := f.orders ++ [{ row := r, col := logical % 24, spare := 31 }] }))

/-- A memory GTU or commit unit lost (R356): UNIT_LOST and ABORT_STOP to the contexts that depend on it (R492). -/
def unitLost (s : State) (u : UnitId) (p : Plan → Bool) : State :=
  let cs := s.runningWith p
  let s := s.emit { code := 0x100E, cls := .u, unit := u, p16 := BitVec.ofNat 16 (uClass u), p32 := ctxMask cs }
  retireUnit (s.each cs (fun s c => abortStopCtx s c 0x100E)) u

/-- A link fenced (R264 to R266, R356): LINK_FENCED; control traffic to alternate routes; STRICT contexts with static routes over it
are stopped with LINK_ROUTE_LOST. A pattern on its GTU is cut short (R370). -/
def fenceLink (s : State) (l : Lnk) (why : BitVec 16) : State :=
  let users := s.runningWith (fun p => p.usesLink l.val)
  let strict := users.filter (fun c => match s.planOf c with | some p => !p.core.relaxed | none => false)
  let s := cutPatterns s (fun p => p.unit = uLgtu l) 5
  let s := noteLinks (s.onLgtu l (fun x => { x with width := 0, fenced := true, open_ := [] }))
  let s := s.emit { code := 0x6004, cls := .c, unit := uLgtu l, p16 := why,
                    p32 := ctxMask (allCtx.filter (fun c => match s.planOf c with | some p => s.hasPlan c && p.usesLink l.val | none => false)) }
  if strict = [] then s
  else
    let s := s.emit { code := 0x6005, cls := .u, unit := uLgtu l, p16 := BitVec.ofNat 16 l.val, p32 := ctxMask strict }
    s.each strict (fun s c => abortStopCtx s c 0x6005)

/-- What the fault steward does for a unit declared lasting (R356), by class. -/
def actOnLasting (s : State) (u : UnitId) : State :=
  match uClass u with
  | 0 => match finOf 624 (uIndex u) with
    | none => s
    | some a => match s.logicalOf a with
      | some l => orderSubstitution s a l
      | none => standbyFault s u (fun s => idleBorrow (leaveService s u) (rowOf a))
  | 2 => match finOf 24 (uIndex u) with
    | some r => orderSlice s r
    | none => standbyFault s u (fun s => retireUnit (retireStandby s) u)
  | 3 => unitLost s u (fun p => p.usesPort (uIndex u))
  | 4 => match finOf 24 (uIndex u) with
    | none => s
    | some l => retireUnit ((fenceLink s l 2).onLgtu l (fun x => { x with retired := true })) u
  | 6 => match finOf 640 (uIndex u) with
    | none => s
    | some n => retireUnit (s.onSensor n (fun x => { x with state := .retired })) u
  | 5 => s
  | _ => if 0x7100 ≤ u.toNat ∧ u.toNat < 0x7104 then unitLost s u (fun p => p.core.home.val = u.toNat - 0x7100)
         else retireUnit s u

/-- Stamps inside the window; for a slice, distinct port columns (R351, R352). -/
def Fst.inWindow (f : Fst) (now : BitVec 40) (u : UnitId) : Nat :=
  if uClass u = 2 then ((f.stampsIn now u).map (·.2)).eraseDups.length else (f.stampsIn now u).length

/-- The unit needs no declaration: it is LASTING, or RETIRED; but a slice retired by its failed self-test is still to be declared (R184,
R350). -/
def Fst.declared (f : Fst) (u : UnitId) : Bool :=
  let h := f.unit u
  h.state = .lasting || (h.state = .retired && !(uClass u = 2 && h.cause = 0))

/-- A unit declared lasting (R356): UNIT_LASTING, its history record, its bit in the row's mask (R362), and its class's action. A
witness port is handled as its array. -/
def declareLasting (s : State) (u0 : UnitId) (cause : BitVec 8) (event : BitVec 16) : State :=
  let u := histUnit u0
  if s.fst.declared u then s
  else
    let n := (s.fst.stampsIn s.time.opsec u).length
    let s := s.onFst (fun f => f.setUnit u { (f.unit u) with state := .lasting, cause })
    let s := s.emit { code := 0x1001, unit := u, p16 := cause.setWidth 16, p32 := BitVec.ofNat 32 n }
    let s := s.histRecord u 4 0xFF event (cause.setWidth 32) none
    let s := match uClass u, finOf 624 (uIndex u) with
      | 0, some a => s.onFst (fun f => { f with failed := f.failed.upd (rowOf a) (fun m => m ||| (1#26 <<< colOf a)) })
      | _, _ => s
    actOnLasting s u

/-- A catch that names an execution already committed (R226, R359): LATE_REPORT, ESCAPED_CATCH, REPLACE and a drain with cause 4. -/
def lateReport (s : State) (c : Ctx) (unit : UnitId) (kind : BitVec 16) (pass : BitVec 48) : State :=
  let e : Ev := { code := 0x500A, cls := .u, unit, ctx := some c, p16 := kind, p32 := pass.setWidth 32, acc := 0x12, addr := pass.setWidth 64 }
  let s := (s.emit e).emit { e with code := 0x1006 }
  replaceAndDrain (awaitRetire s (histUnit unit)) 4 unit

/-! ## Unit history (R350 to R355) -/

/-- confirm() of R351: the stamps after a confirmed catch at operating time t on a port column. -/
def confirmStamps (st : List (BitVec 40 × BitVec 8)) (t : BitVec 40) (col : BitVec 8) (win : Nat) : List (BitVec 40 × BitVec 8) :=
  let kept := st.filter (fun p => decide ((t - p.1).toNat < win))
  (if kept.length = 8 then kept.drop 1 else kept) ++ [(t, col)]

/-- The count confirm() compares with the threshold: stamps, or distinct ports for a slice. -/
def stampCount (u : UnitId) (st : List (BitVec 40 × BitVec 8)) : Nat :=
  if uClass u = 2 then (st.map (·.2)).eraseDups.length else st.length

/-- A confirmed catch on this unit would reach the threshold. -/
def Fst.wouldMeet (f : Fst) (u : UnitId) (t : BitVec 40) (col : BitVec 8) : Bool :=
  let h := f.unit u
  h.state ≠ .lasting && h.state ≠ .retired &&
  decide (f.threshold.toNat ≤ stampCount u (confirmStamps h.stamps t col (f.window.toNat * 3600)))

/-- A confirmed catch entered (R350, R351); a unit already lasting counts it in its total only. -/
def enterConfirmed (s : State) (e : HistEntry) : State :=
  let h := s.fst.unit e.unit
  if h.state = .lasting ∨ h.state = .retired then s.onFst (fun f => f.setUnit e.unit { h with confirmed := h.confirmed + 1 })
  else
    let st := confirmStamps h.stamps e.opsec e.col (s.fst.window.toNat * 3600)
    (s.onFst (fun f => f.setUnit e.unit { h with stamps := st, confirmed := h.confirmed + 1, state := .watch })).histRecord
      e.unit 1 e.col e.event e.pass e.ctx

/-- The unit is declared lasting by the window rule, unless the slice of the same catch reaches its threshold too (R351, R352); each
pair of it that a shadow catch found then leaves its exposure range (R49, R218). -/
def enterAndJudge (s : State) (e : HistEntry) : State :=
  let meets := s.fst.wouldMeet e.unit e.opsec e.col
  let sliceToo := match e.with_ with | some (n, col) => s.fst.wouldMeet n e.opsec col | none => false
  let s := enterConfirmed s e
  if meets ∧ !(sliceToo && decide (uClass e.unit ≤ 1)) then
    let s := declareLasting s e.unit 2 e.event
    match e.ctx with
    | some c => s.each e.ranges (fun s r => exposure s c e.unit r)
    | none => s
  else s

/-- A repeated catch, or a suspect of the divergence hunt, on an array whose row has no free spare: the context stops at once (R243, R246,
R287). -/
def stopIfNoSpare (s : State) (e : HistEntry) : State :=
  match uClass e.unit, finOf 624 (uIndex e.unit), e.ctx with
  | 0, some a, some c =>
    if (s.logicalOf a).isSome ∧ s.spareFor (rowOf a) = false then stopCtx s c 0x5004 else s
  | _, _, _ => s

/-- One entry of the queue to MC carried out (R350). -/
def takeHistory (s : State) (e0 : HistEntry) : State :=
  let e := { e0 with unit := histUnit e0.unit }
  let h := s.fst.unit e.unit
  match e.act with
  | .confirm => enterAndJudge s e
  | .undecided => (s.onFst (fun f => f.setUnit e.unit { h with undecided := h.undecided + 1 })).histRecord e.unit 2 e.col e.event e.pass e.ctx
  | .report => (s.onFst (fun f => f.setUnit e.unit { h with reports := h.reports + 1 })).histRecord e.unit 3 e.col e.event e.pass e.ctx
  | .declare cause => declareLasting (if e.event = 0x600F then stopIfNoSpare s e else s) e.unit cause e.event
  | .confirmThenDeclare cause => declareLasting (stopIfNoSpare (enterConfirmed s e) e) e.unit cause e.event

/-- HISTORY_ENTRY: MC takes the oldest entry; while MC restarts or is FAILED they wait (R355, R450). -/
def execHistoryEntry (s : State) : Res :=
  match s.fst.histQ with
  | [] => .next s
  | e :: rest =>
    match (s.fwp.procs.at mc).state with
    | .hold | .run => .next (settleAll (takeHistory (s.onFst (fun f => { f with histQ := rest })) e))
    | _ => .next s

/-- The stamps outside the window dropped from every unit (R351, R353). -/
def Fst.prune (f : Fst) (now : BitVec 40) : Fst := { f with units := f.units.map (fun p => (p.1, { p.2 with stamps := f.stampsIn now p.1 })) }

/-- A write to VX_FST_HISTORY_CFG (R353): stored and recorded, then R351 applied to every unit with no new stamp. -/
def historyCfg (src : Src) (v : Reg) (s : State) : State :=
  if s.loadedCtxs ≠ [] then (s.onFst (fun f => { f with cfgRefused := true })).logRefusal mc none src 0x100010
  else
    let w := max 1 (min 8760 (field v 0 14 : BitVec 14).toNat)
    let t := max 1 (min 8 (field v 14 4 : BitVec 4).toNat)
    let s := s.onFst (fun f => { f with window := BitVec.ofNat 14 w, threshold := BitVec.ofNat 4 t, cfgRefused := false })
    let s := s.putItem 4 (BitVec.ofNat 64 (w + 16384 * t))
    let s := s.emit { code := 0x100D, unit := uFst, p16 := BitVec.ofNat 16 t, p32 := BitVec.ofNat 32 w }
    let s := s.onFst (fun f => f.prune s.time.opsec)
    let met := s.fst.units.filter (fun p => p.2.state ≠ .lasting ∧ p.2.state ≠ .retired ∧ t ≤ s.fst.inWindow s.time.opsec p.1)
    s.each met (fun s p => declareLasting s p.1 2 p.2.lastEvent)

/-- FST_HISTORY_CFG_WRITE. -/
def execFstHistoryCfgWrite (src : Src) (v : Reg) (s : State) : Res := .next (gatedWrite s src 0x100010 v (historyCfg src v))

/-- OPTIME_STORE (R349, R412). -/
def execOptimeStore (s : State) : Res := .next s.storeTimes

/-! ## Errors of the T9 (R336) -/

/-- Pass index [31:0] of a context. -/
def State.passLow (s : State) (c : Option Ctx) : BitVec 32 :=
  match c with | some c => (s.ctx c).pass.index.setWidth 32 | none => 0

/-- An array's report forwarded and counted in its history (R336, R350). -/
def arrayReport (s : State) (a : Arr) (code : BitVec 16) (cls : Cls) (t9 : BitVec 16) (c : Option Ctx) : State :=
  let s := s.emit { code, cls, unit := uArr a, ctx := c, p16 := t9, p32 := s.passLow c }
  s.histPut { unit := uArr a, act := .report, event := code, pass := s.passLow c, ctx := c }

/-- ARRAY_PARITY. -/
def execArrayParity (a : Arr) (code : BitVec 16) (c : Option Ctx) (s : State) : Res := .next (arrayReport s a 0x3001 .c code c)

/-- ARRAY_SEQUENCER: every open tile of the array is not produced; the flit's reason is 0, none (log 25). -/
def execArraySequencer (a : Arr) (code : BitVec 16) (c : Option Ctx) (s : State) : Res :=
  .next (arrayReport (loseTiles s [a] none 0) a 0x3002 .u code c)

/-- MEM_CE_STORM: raised when the second's count has reached CE_STORM. -/
def execMemCeStorm (g : Gtu) (count : Nat) (addr : Nat) (s : State) : Res :=
  if count < s.fst.ceStorm.toNat then .next s
  else .next (s.emit { code := 0x3003, cls := .c, unit := uMgtu g, p16 := satBits 16 count, p32 := BitVec.ofNat 32 (addr / 4096) })

/-- PCIE_CORRECTABLE. -/
def execPcieCorrectable (bit : BitVec 16) (s : State) : Res := .next (s.emit { code := 0x3005, cls := .c, unit := uHost, p16 := bit })

/-- PCIE_UNCORRECTABLE. -/
def execPcieUncorrectable (bit : BitVec 16) (s : State) : Res := .next (s.emit { code := 0x3006, cls := .u, unit := uHost, p16 := bit })

/-! ## The selected unit (R362) -/

/-- A write to VX_FST_UNIT_SEL. -/
def unitSel (v : Reg) (s : State) : State := s.onFst (fun f => { f with unitSel := field v 0 16, infoValid := false })

/-- FST_UNIT_SEL_WRITE. -/
def execFstUnitSelWrite (src : Src) (v : Reg) (s : State) : Res := .next (gatedWrite s src 0x100200 v (unitSel v))

/-- UNIT_INFO_READY. -/
def execUnitInfoReady (s : State) : Res := .next (s.onFst (fun f => { f with infoValid := true }))

end Sys2Proof.Machine
end

