-- ==== Sys2Proof/Machine/Timebase.lean ====
section
/-! DEFINITION. Time: what happens when a step finds no command waiting (log 2). The tick of R254 advances, with it the operating
time (R349), the wall time (R413), the cycle offsets of running contexts (R259) and THROTTLED_MS (R401). -/

namespace Sys2Proof.Machine

/-- A clock stretch is requested (R390). -/
def Thm.stretchOn (t : Thm) : Bool := !t.asks.isEmpty

/-- The largest request in force. -/
def Thm.asked (t : Thm) : Nat := t.asks.foldl (fun m a => max m a.2) 0

/-- More steps are applied than any request asks for: they are released by 1 step per update (R390). -/
def Thm.releasing (t : Thm) : Bool := decide (t.asked < t.stretch)

/-- CLOCK_PCT: the divider setting in effect, min(m, m_stretch), never below 40 (R390). -/
def Thm.pct (t : Thm) : Nat := if t.stretchOn || t.releasing then max 40 (min t.m (100 - t.stretch)) else t.m

/-- A count of seconds and the ticks below one second, advanced by `n` ticks. -/
def addTicks (sec : BitVec 40) (rem n : Nat) : BitVec 40 × Nat :=
  (sec + BitVec.ofNat 40 ((rem + n) / 1000000000), (rem + n) % 1000000000)

/-- Operating and wall time advanced by `n` counted ticks: operating time in VS0 and VS1 (R349), wall time always (R413). A TICK_STEP counts
none (log 156). -/
def Time.advance (t : Time) (n : Nat) (operating : Bool) : Time :=
  let w := addTicks t.wall t.wallRem n
  let o := if operating then addTicks t.opsec t.opRem n else (t.opsec, t.opRem)
  { t with wall := w.1, wallRem := w.2, opsec := o.1, opRem := o.2 }

/-- Four-cycle groups between two exchanges, 1 ms apart (R254, R256). -/
def slewGroups : Nat := 200000

/-- What the correction in force asks for by this group, in 1/16 tick over `slewGroups`: for the first interval after an exchange the
measured rate and the offset, from then on the rate alone (R257). -/
def Spn.slewDue (x : Spn) : Int := x.slewAcc + (if x.slewFor < slewGroups then x.slew else x.rate)

/-- The correction in 1/16 tick of this four-cycle group: at most one in 16 groups (R257). -/
def slewNow (x : Spn) : Int :=
  if 0 < x.slewRest then 0
  else if (slewGroups : Int) ≤ x.slewDue then 1
  else if x.slewDue ≤ -(slewGroups : Int) then -1
  else 0

/-- One group of the correction: what was asked for and applied is kept, and 15 groups rest after a group adjusted. -/
def Spn.slewGroup (x : Spn) : Spn :=
  { x with base := x.base + slewNow x, slewAcc := x.slewDue - slewNow x * slewGroups, slewFor := min slewGroups (x.slewFor + 1),
           slewRest := if slewNow x = 0 then x.slewRest - 1 else 15 }

/-- End marker of the position a context stands at. -/
def State.endOf (s : State) (c : Ctx) : Option Nat :=
  ((s.planOf c).bind (fun p => p.pos (s.ctx c).pos.position)).map (fun x => x.e)

/-- The offset of a running context advanced by 5 ns of array clock at the divider's setting, held at E (R222, R259). -/
def advanceOffset (s : State) (c : Ctx) (x : CtxSt) : CtxSt :=
  if x.pass.st = .running then
    let f := x.pos.frac + s.fmax * s.thm.pct
    let o := x.pos.offset.toNat + f / 2000
    let e := (s.endOf c).getD o
    { x with pos := { x.pos with offset := BitVec.ofNat 32 (min o e), frac := f % 2000 } }
  else x

/-- An action that the plan places at a cycle offset: the count stands there at least, and never beyond E (R259). -/
def reachOffset (s : State) (c : Ctx) (n : Nat) : State :=
  if (s.ctx c).pass.st = .running then
    s.onPos c (fun q => if q.offset.toNat < n then { q with offset := BitVec.ofNat 32 (min n ((s.endOf c).getD n)), frac := 0 } else q)
  else s

/-- A START of a barrier is pending on the chip (R257). -/
def State.startPending (s : State) : Bool := allCtx.any (fun c => (s.ctx c).bar.startAt.isSome)

/-- The tick stepped forward by a number of 1/16 ticks: TICK_STEP with its cause and its size in µs (R257). What was left of the slew is
dropped, but for the rate; a step is no time passed since the last exchange (R288). -/
def stepTick (s : State) (cause : BitVec 16) (by16 : Nat) : State :=
  let total := s.time.tick.toNat * 16 + s.time.frac.toNat + by16
  let s := { s with time := { s.time with tick := BitVec.ofNat 64 (total / 16), frac := BitVec.ofNat 4 (total % 16) } }
  let s := s.onSpn (fun x => { x with steps := bump x.steps, slew := x.rate, slewAcc := 0, base := x.base + by16, lastSync := x.lastSync + BitVec.ofNat 64 (by16 / 16) })
  s.emit { code := 0x6001, unit := uSpn, p16 := cause, p32 := satBits 32 (by16 / 16000) }

/-- A step is deferred while a START is pending (R257). -/
def stepOrDefer (s : State) (cause : BitVec 16) (by16 : Nat) : State :=
  if s.startPending then s.onSpn (fun x => { x with deferred := some (BitVec.ofNat 64 (by16 * 4 + cause.toNat)) }) else stepTick s cause by16

/-- A deferred step taken once no START is pending, however it ended. -/
def takeDeferred (s : State) : State :=
  match s.spn.deferred with
  | none => s
  | some d =>
    if s.startPending then s
    else stepTick (s.onSpn (fun x => { x with deferred := none })) (BitVec.ofNat 16 (d.toNat % 4)) (d.toNat / 4)

/-- Four control cycles in VS0 to VS2: five ticks, give or take 1/16 while a slew is applied; a deferred step is taken once no START
is pending, however it ended (R254, R257). -/
def controlTick (s : State) : State :=
  let f : Int := s.time.frac.toNat + slewNow s.spn
  let n : Nat := (5 + f / 16).toNat
  let time := { (s.time.advance n (s.pwr.vs = .vs0 || s.pwr.vs = .vs1)) with
    tick := s.time.tick + BitVec.ofNat 64 n, frac := BitVec.ofInt 4 (f % 16) }
  let t := s.onAllCtx (advanceOffset s)
  takeDeferred { t with time := time
                        spn := s.spn.slewGroup
                        thm := { s.thm with throttledNs := s.thm.throttledNs + (if s.thm.pct < 100 then n else 0) } }

/-- One always-on cycle in VS3 and VS4: ten ticks (R254). -/
def aonTick (s : State) : State :=
  { s with time := { (s.time.advance 10 false) with tick := s.time.tick + 10 } }

/-- What a step does when no command waits (log 2): nothing while VDD_AON is not valid. -/
def idleTick (s : State) : State :=
  if !s.aon.valid then s
  else match s.pwr.vs with
    | .vs0 | .vs1 | .vs2 => controlTick s
    | .vs3 | .vs4 => aonTick s

end Sys2Proof.Machine
end

