-- ==== Sys2Proof/Machine/Thermal.lean ====
section
/-! DEFINITION. The thermal guard (chapter 13): sensors and their checks (R382 to R385), the throttle law and the clock stretch (R386 to
R392), the orderly stop and the trip (R393 to R397), compensation (R398, R399), limits and selection (R401). -/

namespace Sys2Proof.Machine

/-- A reading in 1/16 °C as a 32-bit parameter. -/
def tempParam (r : BitVec 16) : BitVec 32 := r.signExtend 32

/-- Events of R400 that set THERMAL. -/
def thermalEvent (s : State) (e : Ev) : State := (s.emit e).irqSet irqThermal

/-! ## The orderly stop (R393, R394) -/

/-- THERMAL_STOP: every context is stopped at once, the divider goes to 40. -/
def thermalStop (s : State) (unit : UnitId) (cause : BitVec 16) (reading : BitVec 16) : State :=
  if s.thm.stopped then s
  else
    let s := thermalEvent s { code := 0x8006, cls := .f, unit, p16 := cause, p32 := if cause = 1 then tempParam reading else 0,
                              acc := 0x40, addr := reading.setWidth 64 }
    let s := s.onThm (fun t => { t with stopped := true, m := 40 })
    let s := s.each allCtx endLoad
    afterStop (s.each s.loadedCtxs (fun s c => abortStopCtx s c 0x8006))

/-! ## Sensors (R383, R384) -/

/-- SENSOR_FAILED: the sensor is failed from this sample. -/
def sensorFail (s : State) (n : Sensor) (st : SensorState) (cause reading : BitVec 16) : State :=
  let s := s.onSensor n (fun x => { x with state := st, failures := satBits 8 (x.failures.toNat + 1), reading := reading, good := 0, crit := 0,
                                           failNew := true })
  let s := s.onThm (fun t => { t with fails := bump t.fails })
  thermalEvent s { code := 0x8004, cls := .c, unit := uSensor n, p16 := cause, p32 := tempParam reading, acc := 0x40, addr := reading.setWidth 64 }

/-- A reading outside −40.0 to 150.0 °C, or a conversion that is not delivered (R384). -/
def outOfRange (x : Sample) : Bool := !x.delivered || decide (x.reading.toInt < -640) || decide (2400 < x.reading.toInt)


/-- The hottest LIVE sensor, lowest index first. -/
def State.hottest (s : State) : Option (Sensor × BitVec 16) :=
  (List.finRange 640).foldl (fun best n =>
    let x := s.thm.sensors.at n
    if x.state = .live ∧ x.known ∧ s.unitExists (uSensor n) then match best with
      | some (_, r) => if r.toInt < x.reading.toInt then some (n, x.reading) else best
      | none => some (n, x.reading)
    else best) none

/-- The sample of a LIVE sensor that passes every check: peak, and in VS0 to VS2 the throttle input and the count toward the orderly stop,
which names the hottest LIVE sensor (R383, R386, R393, R400). -/
def liveSample (s : State) (n : Sensor) (r : BitVec 16) : State :=
  let y := s.thm.sensors.at n
  let k := if (s.thm.critNow.toNat : Int) * 16 ≤ r.toInt then y.crit + 1 else 0
  let s := s.onSensor n (fun y => { y with peak := if y.peak.toInt < r.toInt then r else y.peak })
  if 3 ≤ s.pwr.vs.code then s
  else
    let s := s.onSensor n (fun y => { y with maxNew := some (match y.maxNew with | some m => max m r.toInt | none => r.toInt), crit := k })
    if 3 ≤ k then match s.hottest with
      | some (h, t) => thermalStop s (uSensor h) 1 t
      | none => thermalStop s (uSensor n) 1 r
    else s

/-- A sample slot of a sensor that has failed its stuck or range check: 10,000 in a row that pass every check make it LIVE again. -/
def recoverySample (s : State) (n : Sensor) (ok : Bool) (r : BitVec 16) : State :=
  let y := s.thm.sensors.at n
  let k := if ok ∧ y.same ≤ 64 then y.good + 1 else 0
  if k < 10000 then s.onSensor n (fun y => { y with good := k, failNew := true })
  else thermalEvent (s.onSensor n (fun y => { y with state := .live, good := 0 })) { code := 0x8005, unit := uSensor n, p32 := tempParam r }

/-- A reference conversion (R384): two in a row more than 1.5 °C off fail a LIVE sensor; a failed one counts the slot toward its recovery. -/
def referenceSample (s : State) (n : Sensor) (x : Sample) (diff : BitVec 16) : State :=
  let bad := decide (24 < diff.toInt.natAbs)
  let y := s.thm.sensors.at n
  let k := if bad then y.refBad + 1 else 0
  let s := s.onSensor n (fun y => { y with refBad := k })
  match y.state with
  | .live => if 2 ≤ k then sensorFail s n .ref 3 x.reading else s
  | .stuck | .range => recoverySample s n (!bad) x.reading
  | .ref | .retired => s

/-- A temperature sample. The stuck check runs in VS0 to VS2, the range check everywhere. -/
def temperatureSample (s : State) (n : Sensor) (x : Sample) : State :=
  let y := s.thm.sensors.at n
  let run := if !x.delivered then y.same else if y.known && y.code = x.code then y.same + 1 else 1
  let stuck := decide (s.pwr.vs.code ≤ 2) && x.delivered && decide (1024 ≤ run)
  let r := if x.delivered then x.reading else y.reading
  let s := s.onSensor n (fun y => { y with same := run, code := if x.delivered then x.code else y.code, known := y.known || x.delivered })
  match y.state with
  | .live =>
    if stuck then sensorFail s n .stuck 1 r
    else if outOfRange x then sensorFail s n .range 2 r
    else liveSample (s.onSensor n (fun y => { y with reading := r })) n r
  | .stuck | .range =>
    let s := recoverySample s n (!stuck && !outOfRange x) r
    if (s.thm.sensors.at n).state = .live then liveSample (s.onSensor n (fun y => { y with reading := r })) n r else s
  | .ref => s.onSensor n (fun y => { y with failNew := true })
  | .retired => s

/-- A sample in VS4, where only the always-on comparators and the range check see the sensors (R383, R384): a sample out of range fails a
LIVE sensor and breaks the run of a failed one; samples in range do not lengthen it there (log 160). -/
def sentinelSample (s : State) (n : Sensor) (x : Sample) : State :=
  let y := s.thm.sensors.at n
  let r := if x.delivered then x.reading else y.reading
  if y.state = .live then
    if outOfRange x then sensorFail s n .range 2 r else s.onSensor n (fun y => { y with reading := r, known := true })
  else if outOfRange x then s.onSensor n (fun y => { y with good := 0 })
  else s

/-- The comparators at 100 °C and at TRIP_C follow a temperature sample (R395). -/
def compareHot (s : State) (n : Sensor) (x : Sample) : State :=
  if x.delivered ∧ x.refDiff = none then
    s.onSensor n (fun y => { y with hot := decide (1600 ≤ x.reading.toInt), tripped := y.tripped && decide ((s.thm.trip.toNat : Int) * 16 ≤ x.reading.toInt) })
  else s

/-- SENSOR_SAMPLE. Reference slots exist in VS0 to VS2 (R383, R384). -/
def execSensorSample (n : Sensor) (x : Sample) (s : State) : Res :=
  if !s.unitExists (uSensor n) || !s.aon.valid then .next s
  else
  let s := compareHot s n x
  if s.pwr.vs = .vs4 then .next (if x.delivered ∧ x.refDiff.isSome then s else sentinelSample s n x)
  else if !x.delivered then .next (temperatureSample s n x)
  else match x.refDiff with
    | some d => .next (if s.pwr.vs.code ≤ 2 then referenceSample s n x d else s)
    | none => .next (temperatureSample s n x)

/-! ## The throttle law (R386 to R392) -/

/-- Base-die sensors. -/
def baseDie (n : Sensor) : Bool := decide (624 ≤ n.val)

/-- What a sensor contributes to T_eff, in 1/16 °C (R386). -/
def Thm.contribution (t : Thm) (full : Int) (n : Sensor) : Option Int :=
  let x := t.sensors.at n
  match x.state with
  | .live => if x.failNew then some (match x.maxNew with | some m => max m full | none => full)
             else match x.maxNew with | some m => some m | none => if x.known then some x.reading.toInt else none
  | .stuck | .range | .ref => some (match x.maxNew with | some m => max m full | none => full)
  | .retired => if baseDie n then some full else none

/-- T_eff in 1/16 °C; none while no sensor has been read. -/
def State.tEff (s : State) : Option Int :=
  greatestInt (((List.finRange 640).filter (fun n => s.unitExists (uSensor n))).filterMap
    (s.thm.contribution ((s.thm.throttle.toNat + 15) * 16)))

/-- m_target: 100 − ⌈4 × (T_eff − THROTTLE_C)⌉, clamped to 40 to 100 (R388). -/
def mTarget (tEff : Int) (throttle : Nat) : Nat :=
  let above := tEff - throttle * 16
  if above ≤ 0 then 100 else max 40 (100 - ((above + 3) / 4).toNat)

/-- The new m: down at once, up by at most 2 (R388). -/
def nextM (m target : Nat) : Nat := if target < m then target else min target (m + 2)

/-- m set by an update in VS0, with THROTTLE_START and THROTTLE_END (R392). An orderly stop holds m at 40 (R394). -/
def setM (s : State) (tEff : Int) : State :=
  if s.thm.stopped then s
  else
    let old := s.thm.m
    let m := nextM old (mTarget tEff s.thm.throttle.toNat)
    let s := s.onThm (fun t => { t with m := m, lowest := if old = 100 then m else min t.lowest m })
    if old = 100 ∧ m < 100 then
      thermalEvent (s.onThm (fun t => { t with episode := some s.time.tick }))
        { code := 0x8001, unit := uThm, p16 := BitVec.ofNat 16 m, p32 := BitVec.ofInt 32 tEff }
    else if old < 100 ∧ m = 100 then
      let us := match s.thm.episode with | some t => (s.time.tick - t).toNat / 1000 | none => 0
      thermalEvent (s.onThm (fun t => { t with episode := none }))
        { code := 0x8002, unit := uThm, p16 := BitVec.ofNat 16 s.thm.lowest, p32 := satBits 32 us }
    else s

/-! ## Compensation (R398, R399) -/

/-- LIVE readings of the compensation sensors 624 to 627. -/
def State.compReadings (s : State) : List Int :=
  ([624, 625, 626, 627].filterMap (finOf 640)).filterMap (fun n => let x := s.thm.sensors.at n
    if x.state = .live ∧ x.known then some x.reading.toInt else none)

/-- The median, the higher of two middle values: the element that as many values lie below as half their number. -/
def medianHigh (xs : List Int) : Option Int :=
  xs.find? (fun x => decide ((xs.filter (fun y => decide (y < x))).length ≤ xs.length / 2) &&
    decide (xs.length / 2 < (xs.filter (fun y => decide (y ≤ x))).length))

/-- Every trim recomputed; with no compensation sensor LIVE the last trims are held and SENSOR_FAILED is raised with cause 4, when that
begins. While one is LIVE but not yet read they are held too. -/
def compensate (s : State) : State :=
  match medianHigh s.compReadings with
  | some t => s.onThm (fun x => { x with compAt := some t, compLost := false })
  | none =>
    if s.thm.compLost ∨ !(([624, 625, 626, 627].filterMap (finOf 640)).all (fun n => decide ((s.thm.sensors.at n).state ≠ .live))) then s
    else
      let n : Sensor := 624
      let r := (s.thm.sensors.at n).reading
      let s := s.onThm (fun x => { x with compLost := true, fails := bump x.fails })
      let s := s.onSensor n (fun x => { x with failures := satBits 8 (x.failures.toNat + 1) })
      thermalEvent s { code := 0x8004, cls := .c, unit := uSensor n, p16 := 4, p32 := tempParam r, acc := 0x40, addr := r.setWidth 64 }

/-- A table read at a temperature in 1/16 °C: its 16 points stand 11 °C apart and are interpolated linearly, rounded down (R398; log 14). -/
def trimAt (table : Fin 3) (t : Int) : Int :=
  match finOf 15 ((t + 640) / 176).toNat with
  | some i =>
    let a := Config.trimTable table ⟨i.val, by omega⟩
    let b := Config.trimTable table ⟨i.val + 1, by omega⟩
    if t < -640 then Config.trimOutside table (some t) else a + (b - a) * ((t + 640) % 176) / 176
  | none => if t = 2000 then Config.trimTable table 15 else Config.trimOutside table (some t)

/-- The trim of a table in force (R398): that of the last compensation temperature. -/
def Thm.trim (t : Thm) (table : Fin 3) : Int :=
  match t.compAt with | some x => trimAt table x | none => Config.trimOutside table none

/-- COMPENSATION_UPDATE: every 10 ms in VS3 and VS4. -/
def execCompensationUpdate (s : State) : Res :=
  .next (if s.aon.valid && decide (3 ≤ s.pwr.vs.code) then compensate s else s)

/-- THROTTLE_UPDATE: with no LIVE sensor the hottest reading is an open value (log 8). It comes every 100 µs in VS0 to VS2. A stretch that has ended is released by one step (R390). -/
def execThrottleUpdate (s : State) : Res :=
  if 3 ≤ s.pwr.vs.code then .next s
  else
    let t := s.tEff
    let s : State := match s.hottest with
      | some (n, r) => s.onThm (fun x => { x with hottest := r, hotIndex := BitVec.ofNat 10 n.val })
      | none => let (w, s) := s.fresh; s.onThm (fun x => { x with hottest := w.setWidth 16, hotIndex := 0x3FF })
    let s : State := match t with | some v => if s.pwr.vs = .vs0 then setM s v else s | none => s
    let s := s.onThm (fun x => { x with
      sensors := x.sensors.mapAll (fun _ y => { y with maxNew := none, failNew := false })
      critNow := x.crit
      stretch := if x.releasing then x.stretch - 1 else x.stretch })
    .next (compensate s)

/-! ## Clock stretch (R390) -/

/-- A monitor's request takes the place of the one it had; the largest request in force is applied at once, never less than the stretch
that is still being released. -/
def Thm.ask (t : Thm) (monitor : BitVec 32) (steps : Nat) : Thm :=
  { t with asks := t.asks.filter (fun a => a.1 ≠ monitor) ++ [(monitor, steps)], stretch := max t.stretch steps }

/-- CLOCK_STRETCH: a monitor asks for s steps; the stretch begins when no request was in force. -/
def execClockStretch (steps : Fin 17) (monitor : BitVec 32) (s : State) : Res :=
  if steps.val = 0 ∨ s.pwr.vs ≠ .vs0 then .next s
  else
    let begins := !s.thm.stretchOn
    let s := s.onThm (fun t => t.ask monitor steps.val)
    if begins then
      .next ((s.onThm (fun t => { t with stretches := bump t.stretches })).emit
        { code := 0x8003, unit := uThm, p16 := BitVec.ofNat 16 steps.val, p32 := monitor })
    else .next s

/-- CLOCK_STRETCH_END: one monitor's request ends; what no other request holds is released step by step. -/
def execClockStretchEnd (s : State) (monitor : BitVec 32 := 0) : Res :=
  .next (s.onThm (fun t => { t with asks := t.asks.filter (fun a => a.1 ≠ monitor) }))

/-- MARGIN_VIOLATION_TIMEOUT: 1 ms of violation at a full stretch of 16 steps, or at 40, makes an orderly stop with cause 2. -/
def execMarginViolationTimeout (s : State) : Res :=
  .next (if s.pwr.vs = Vs.vs0 ∧ (s.thm.asks.any (fun a => a.2 = 16) ∨ s.thm.pct = 40) then thermalStop s uThm 2 0 else s)

/-! ## Hardware trip (R395, R396) -/

/-- THERMAL_TRIP as a fault in VS0 to VS2: taken, then a hard stop whatever slot F holds. -/
def tripFault (s : State) (e : Ev) : State :=
  let s := s.onFst (fun f => { f with fFaults := bump f.fFaults })
  let x := s.fst.slots.at 2
  let s := if !x.valid && decide (s.fst.state ≠ .halted) then capture s 2 e else s
  let s := recordFault s e
  healthEvent (hardStop s (s.fst.slots.at 2).event e.code e.unit)

/-- THERMAL_TRIP: an unmasked comparator that is asserted drives VX_TRIP_N low and records it, another sensor's also while the pin is held.
The comparators run from the moment the Sentinel functions work; before it the pin is high-impedance (R76, R458). -/
def execThermalTrip (n : Sensor) (s : State) : Res :=
  let x := s.thm.sensors.at n
  if !s.aon.sentinel || !s.unitExists (uSensor n) || decide (x.state ≠ .live) || (s.aon.trip && x.tripped) then .next s
  else
    let s := (s.setAon (fun a => { a with trip := true, tripBy := if a.trip then a.tripBy else n.val })).irqSet irqThermal
    let s := s.onSensor n (fun y => { y with hot := true, tripped := true })
    let e := s.stamp { code := 0x8007, cls := .f, unit := uSensor n, p32 := tempParam x.reading, acc := 0x40, addr := x.reading.setWidth 64 }
    .next (if s.pwr.vs.code ≤ 2 ∧ !s.early then tripFault s e else recordAs s e)

/-! ## Limits and selection (R401) -/

/-- A write to VX_THM_CFG: whole, or refused. -/
def thermalConfig (src : Src) (v : Reg) (s : State) : State :=
  let t := (field v 0 8).toNat
  let c := (field v 8 8).toNat
  let r := (field v 16 8).toNat
  if 70 ≤ t ∧ t ≤ 105 ∧ t + 20 ≤ c ∧ c + 5 ≤ r ∧ r ≤ 125 ∧ !s.thm.stopped ∧ !s.aon.trip then
    let s := s.onThm (fun x => { x with throttle := field v 0 8, crit := field v 8 8, trip := field v 16 8, refused := false })
    let s := s.putItem 7 ((v.setWidth 24).setWidth 64)
    s.emit { code := 0x8009, unit := uThm, p16 := BitVec.ofNat 16 t, p32 := BitVec.ofNat 32 (c + 256 * r) }
  else (s.onThm (fun x => { x with refused := true })).logRefusal mc none src 0x800000

/-- THERMAL_CONFIG. -/
def execThermalConfig (src : Src) (v : Reg) (s : State) : Res := .next (gatedWrite s src 0x800000 v (thermalConfig src v))

/-- A write to VX_THM_SENSOR_SEL. -/
def sensorSel (v : Reg) (s : State) : State := s.onThm (fun t => { t with sel := field v 0 10, valid := false })

/-- THM_SENSOR_SEL_WRITE. -/
def execThmSensorSelWrite (src : Src) (v : Reg) (s : State) : Res := .next (gatedWrite s src 0x800010 v (sensorSel v))

/-- SENSOR_INFO_READY. -/
def execSensorInfoReady (s : State) : Res := .next (s.onThm (fun t => { t with valid := true }))

end Sys2Proof.Machine
end

