-- ==== Sys2Proof/Machine/Boundary.lean ====
section
/-! DEFINITION. The always-on domain and the management bus (R73 to R82, R458): what the pins, the reference clock, the supplies and the
I3C bus do to the engine. -/

namespace Sys2Proof.Machine

/-! ## From VDD_AON to the Sentinel functions (R255, R413, R458) -/

/-- What lasts without VDD_AON: the fuses, the flash, what the memory holds, and the model's own fields. -/
def withoutPower (s : State) : State :=
  { pending := s.pending, out := s.out, free := s.free, fuses := s.fuses, mem := s.mem, tags := s.tags, jobMap := s.jobMap,
    rcd := { flash := s.rcd.flash }, pwr := { tripLost := s.pwr.tripLost } }

/-- The tick at a power-up: past everything counted under the stored mark; 0 on a blank flash (R255). -/
def tickAtPowerUp (f : Flash) : BitVec 64 :=
  match f.item 1 with
  | some v => BitVec.ofNat 64 ((v.toNat + 1) * 2 ^ 30)
  | none => 0

/-- MC's ROM build number (VX_FWP_VERSION). -/
def romBuild (stepping : BitVec 8) : BitVec 32 := if stepping = 0 then 1 else Config.romVersion stepping

/-- AON_POWER_VALID: the fuses are latched, the tick loaded from the mark, the wall time restarted from its item (R413); item records whose
CRC fails give no value (R412). -/
def execAonPowerValid (fuses : Fuses) (pgMain pgMem pgIo : Bool) (s : State) (crcBad : List (Nat × BitVec 32) := []) : Res :=
  if s.aon.valid then .next s
  else
    let t := confBad (withoutPower s) crcBad
    let f := t.rcd.flash
    let t := { t with fuses := fuses, aon := { t.aon with valid := true, pgMain, pgMem, pgIo }
                      time := { t.time with tick := tickAtPowerUp f, wall := ((f.item 3).getD 0).setWidth 40 } }
    .next (t.onProc mc (fun x => { x with version := romBuild fuses.stepping }))

/-- STRAP_SAMPLE (R81). -/
def execStrapSample (pins : BitVec 4) (s : State) : Res :=
  .next (if s.aon.valid ∧ !s.aon.sampled then s.onAon (fun a => { a with strap := pins, sampled := true }) else s)

/-- SENTINEL_READY (R77, R458): VX_ALIVE toggles, the flash is tried, records are taken; a trip that ended with VDD_AON is recorded
released (R80, R400). `checks` tells whether the always-on supervisor completes its own check every 1 ms; the command given again tells
a change of that (log 148). -/
def execSentinelReady (s : State) (checks : Bool := true) : Res :=
  let s := s.setAon (fun a => { a with checks })
  if !s.aon.valid then .next s
  else if s.aon.sentinel then .next (if 3 ≤ s.pwr.vs.code then s.setAon (fun a => { a with alive := checks }) else s)
  else
    let s := flashAnswers (s.setAon (fun a => { a with sentinel := true, alive := checks }))
    if s.pwr.tripLost then
      .next ((s.onPwr (fun w => { w with tripLost := false })).emit { code := 0x8008, unit := uThm, p16 := 3, p32 := 0x8000 })
    else .next s

/-- VDD_AON_LOSS (R80, R411): everything but the flash and the fuses is gone. -/
def execVddAonLoss (s : State) : Res :=
  if !s.aon.valid then .next s
  else .next ((withoutPower s).onPwr (fun w => { w with tripLost := w.tripLost || s.aon.trip }))

/-! ## The reference clock (R79) -/

/-- REFCLK_FALLBACK: in VS0 to VS2 every context is stopped, loads end, and the engine moves to VS4;
in bring-up steps 1 and 2 no PLL runs, as in VS3 and VS4. -/
def execRefclkFallback (s : State) : Res :=
  if !s.aon.valid ∨ !s.aon.refOk then .next s
  else
    let main := decide (s.pwr.vs.code ≤ 2) && decide (3 ≤ s.pwr.step.toNat)
    let s := s.setAon (fun a => { a with refOk := false })
    let s := s.emitOpen { code := 0x0004, cls := if main then .u else .c, unit := uClock }
    if main then
      let s := s.each allCtx endLoad
      let s := s.each s.loadedCtxs (fun s c => abortStopCtx s c 0x0004)
      .next (if s.pwr.vs.code ≤ 2 ∧ s.allStopped then enterLow s .vs4 5 else s)
    else .next s

/-- REFCLK_RESTORED. -/
def execRefclkRestored (s : State) : Res :=
  .next (if s.aon.valid then s.setAon (fun a => { a with refOk := true }) else s)

/-! ## Power-good (R82, R477) -/

/-- The levels of the power-good inputs after some have fallen. -/
def Aon.fall (a : Aon) (main mem io : Bool) : Aon :=
  { a with pgMain := a.pgMain && !main, pgMem := a.pgMem && !mem, pgIo := a.pgIo && !io }

/-- POWER_LOSS: VS4 at once; every falling input is recorded, also one that had come back for less than the 10 ms of R477. The row
controllers lose their substitutions (R358). Before the Sentinel functions work only the levels follow the pins (R76, R458; log 149). -/
def execPowerLoss (main mem io : Bool) (s : State) : Res :=
  if !s.aon.valid ∨ !(main || mem || io) then .next s
  else if !s.aon.sentinel then .next (s.setAon (fun x => x.fall main mem io))
  else
    let s := s.setAon (fun x => x.fall main mem io)
    let s := s.emit { code := 0xE007, unit := uPwr, p16 := BitVec.ofNat 16 (b2n main + 2 * b2n mem + 4 * b2n io) }
    let s := if s.pwr.vs = .vs4 then s else enterLow s .vs4 3
    let s := s.onShd (fun x => { x with rows := x.rows.mapAll (fun _ _ => {}) })
    .next (s.onPwr (fun w => { w with step := 7, lossVs4 := true, cleanDown := false, whole := none }))

/-- Bring-up starts with step 2 (R461, R477): the state reads VS2, the counts of the bring-up start again. -/
def beginBringup (s : State) (cause : BitVec 32) : State :=
  let s := s.emit { code := 0xE006, unit := uPwr, p16 := BitVec.ofNat 16 s.pwr.vs.code, p32 := cause }
  let s := s.onThm (fun t => { t with sensors := t.sensors.mapAll (fun _ x => { x with reading := if x.state = .live then 0 else x.reading, known := false, peak := 0x8000, failures := 0 }) })
  s.onPwr (fun w => { w with vs := .vs2, step := 2, path := 0, bringUs := 0, early := 0, ready := false, waitDrv := false, lossVs4 := false })

/-- The bring-up that follows a POWER_LOSS: all three inputs high, VX_TRIP_N not held low (R477). -/
def returnFromLoss (s : State) : State :=
  if s.pwr.lossVs4 ∧ s.pwr.vs = .vs4 ∧ s.aon.pgMain ∧ s.aon.pgMem ∧ s.aon.pgIo ∧ !s.aon.trip then beginBringup s 3 else s

/-- POWER_GOOD_RETURN: inputs read high, at a first power-up as after a loss; with all three named they have stayed so for 10 ms, and the
engine returns (R82, R461, R477). An input that rises alone only shows its level. -/
def execPowerGoodReturn (s : State) (main : Bool := true) (mem : Bool := true) (io : Bool := true) : Res :=
  if s.aon.valid then
    let s := s.setAon (fun a => { a with pgMain := a.pgMain || main, pgMem := a.pgMem || mem, pgIo := a.pgIo || io })
    .next (if main && mem && io then returnFromLoss s else s)
  else .next s

/-! ## The management bus (R73, R80) -/

/-- Every LIVE sensor is below 100 °C, as its always-on comparator last showed; a failed or RETIRED sensor's is masked (R80, R395). One
not sampled since VDD_AON became valid counts as below (DESIGN CHOICE, log 99). -/
def State.allCool (s : State) : Bool :=
  (List.finRange 640).all (fun n =>
    let x := s.thm.sensors.at n
    !s.unitExists (uSensor n) || decide (x.state ≠ .live) || !x.hot)

/-- The trip responder answers: in VS4, while the trip is held, unless strapped without a controller. -/
def State.responder (s : State) : Bool := s.aon.sentinel && s.pwr.vs = .vs4 && s.aon.trip && !s.aon.strap.getLsbD 3 && !s.aon.hdr

/-- A trip release carried out when every live sensor reads below 100 °C, refused otherwise. -/
def tripRelease (s : State) : State :=
  if !s.aon.trip || !s.allCool then s.sendMctp (.tripRelease false)
  else
    let source : BitVec 16 := if s.pwr.vs = .vs4 then 2 else 1
    let hottest : BitVec 32 := match s.hottest with | some (_, r) => tempParam r | none => 0x8000
    let s := s.setAon (fun a => { a with trip := false, tripBy := 0x3FF })
    let s := s.onThm (fun t => { t with sensors := t.sensors.mapAll (fun _ x => { x with tripped := false }) })
    let s := s.emit { code := 0x8008, unit := uThm, p16 := source, p32 := if source = 1 then hottest else 0x8000 }
    returnFromLoss (s.sendMctp (.tripRelease true))

/-- TRIP_RELEASE: MC serves it, in VS4 the trip responder. -/
def execTripRelease (s : State) : Res :=
  .next (if s.responder then tripRelease s else s.mgtServe .tripRelease tripRelease)

/-- The tripping sensor and whether every live sensor is below 100 °C. -/
def tripStatus (s : State) : State := s.sendMctp (.tripStatus s.aon.tripBy s.allCool)

/-- TRIP_STATUS. -/
def execTripStatus (s : State) : Res :=
  .next (if s.responder then tripStatus s else s.mgtServe .tripStatus tripStatus)

/-- I3C_DAA: ENTDAA, or SETDASA from the static address of the straps. The bus answers also while MC is RESTARTING. -/
def execI3cDaa (how : Daa) (s : State) : Res :=
  if !s.busUp then .next s
  else match how with
    | .entdaa addr => .next (s.onAon (fun a => { a with dynAddr := addr }))
    | .setdasa static addr =>
      .next (if static.toNat = 0x30 + s.aon.strap.toNat % 4 then s.onAon (fun a => { a with dynAddr := addr }) else s)

/-- I3C_HDR_ENTRY: the bus is ignored until the exit pattern. -/
def execI3cHdrEntry (s : State) : Res := .next (if s.aon.valid then s.onAon (fun a => { a with hdr := true }) else s)

/-- I3C_HDR_EXIT. -/
def execI3cHdrExit (s : State) : Res := .next (s.onAon (fun a => { a with hdr := false }))

end Sys2Proof.Machine
end

