-- ==== Sys2Proof/Machine/Flags.lean ====
section
/-! DEFINITION. Flags and verdicts of a witnessed tile: the port's own flags (R152, R153), the descriptor causes (R155), the two
residue vectors (R149 to R151) and the verdict table (R154). -/

namespace Sys2Proof.Machine

/-- ⌈log₂ k⌉. -/
def ceilLog2 (k : Nat) : Nat := if k ≤ 1 then 0 else Nat.log2 (k - 1) + 1

/-- One operand cycle taken into a tile's side (R149, R153). `mult` is λ_t for a group member and 1 for a tile alone (R172). -/
def takeCycle (d : TileDesc) (v : List Nat) (mult : Nat) (s : Side) (op : OpCycle) : Side :=
  let seg := segAt d.segs s.cycles
  let a := decodeLanes seg.fa op.a op.sa
  let b := decodeLanes seg.fb op.b op.sb
  let lowSum := match leastInt (exponents 0 a), leastInt (exponents 0 b) with
    | some x, some y => some (x + y) | _, _ => none
  let highSum := match greatestInt (exponents (sigWidth seg.fa) a), greatestInt (exponents (sigWidth seg.fb) b) with
    | some x, some y => some (x + y) | _, _ => none
  let w := mul61 (rowResidue b v) mult
  { s with
    cycles := s.cycles + 1
    low := s.low || (match lowSum with | some x => decide (x < tileAnchor d) | none => false)
    special := s.special || (a ++ b).any (· = .special) || op.sa.any (· = 0xFF) || op.sb.any (· = 0xFF)
    high := match highSum, s.high with
      | some x, some y => some (max x y) | some x, none => some x | none, h => h
    y := (a.zip (s.y ++ List.replicate (64 - s.y.length) 0)).map (fun x => res61 (add61 x.2.toNat (phiMul x.1 w))) }

/-- HIGH_P: H − a + ⌈log₂ K⌉ > 159 (R153). -/
def highP (d : TileDesc) (s : Side) : Bool :=
  match s.high with
  | some h => decide (h - tileAnchor d + (ceilLog2 (tileK d) : Int) > 159)
  | none => false

/-- The descriptor cause of a tile's descriptor alone: 4 a format not listed, 2 an anchor that differs in the chain (R155). Where
several apply the first of 4, 2, 1 is taken: the spec gives no order (DESIGN CHOICE, log 137). -/
def descCause (d : TileDesc) : BitVec 4 :=
  if d.segs.any (fun s => s.fa = .unlisted ∨ s.fb = .unlisted) then 4
  else if d.segs.any (fun s => s.anchor ≠ tileAnchor d) then 2 else 0

/-- The descriptor cause at the end of the operand cycles: also 1, the count of cycles differs from K (R155). -/
def sideCause (d : TileDesc) (s : Side) : BitVec 4 :=
  if descCause d ≠ 0 then descCause d else if s.cycles ≠ tileK d then 1 else 0

/-- z[i] = Σ φ(C[i,j])·v[j] for the 64 rows (R150). -/
def tapRows (acc : Accs) (anchor : Int) (v : List Nat) : List Nat :=
  (List.range 64).map (fun i =>
    (((List.range 64).map (fun j => accResidue ((acc.getD i []).getD j 0) anchor)).zip v).foldl
      (fun z x => add61 z (mul61 x.1 x.2)) 0)

/-- Rows that differ between two vectors of 64 residues: the first, and how many (R151, R161). -/
def rowDiffs (y : List (BitVec 61)) (z : List Nat) : List Nat :=
  (List.range 64).filter (fun i => (y.getD i 0).toNat ≠ z.getD i 0)

/-- What a tile's verdict is and why (R154): the reason codes are those of R178. -/
inductive Judged where
  | clean | void
  | catch (reason : BitVec 4)
  deriving DecidableEq, Repr

/-- The verdict table of R154 with its precedence: descriptor, operand tag, inexact, residue. `differ` says that some row differs. -/
def judge (cause : BitVec 4) (tagBad inexact low special high differ : Bool) : Judged :=
  if cause ≠ 0 then .catch 4
  else if tagBad then .catch 5
  else if inexact then (if low || special || high then .void else .catch 3)
  else if low || special then .catch 2
  else if differ then .catch 1 else .clean

end Sys2Proof.Machine
end

