-- ==== Sys2Proof/Machine/IdleRuns.lean ====
section
/-! DEFINITION. Idle runs (R187, R367, R368): what is left of a declared run, and whether an array or a row has an idle run of a given
length. -/

namespace Sys2Proof.Machine

/-- Cycles from cycle 0 of the program position `first` to cycle 0 of the position `j` places after it: each pass to its end marker, each
boundary gap 2,560 cycles (R368). -/
def Plan.cyclesOver (p : Plan) (first j : Nat) : Nat :=
  ((List.range j).map (fun i => ((p.pos ((first + i) % p.q)).map (·.e)).getD 0 + 2560)).sum

/-- Cycles of a declared run that are left at a cycle offset of a program position; 0 outside the run (R368). Before the offset at which
the run begins anew, the one begun a whole program earlier may still last. -/
def Plan.runLeft (p : Plan) (x : IdleRun) (position offset : Nat) : Nat :=
  let now := p.cyclesOver x.position ((position + p.q - x.position % p.q) % p.q) + offset
  x.start + x.length - (if now < x.start then now + p.cyclesOver x.position p.q else now)

/-- The cycle offset a context stands at: in an execution that is not decided its own, before the next one 0 (log 127). -/
def CtxSt.cycleNow (x : CtxSt) : Nat := if x.pass.st = .running ∨ !x.exec.injected then x.pos.offset.toNat else 0

/-- The context works under its plan: a declared run of its plan holds (R367). A hold only lengthens the gap it falls into (R368). -/
def State.works (s : State) (c : Ctx) : Bool :=
  match (s.ctx c).pass.st with | .running | .boundary | .held => true | _ => false

/-- What is left of the longest run that the context's plan declares for a holder, where it stands. -/
def State.declaredLeft (s : State) (c : Ctx) (holder index : Nat) : Nat :=
  match s.planOf c with
  | some p =>
    let x := s.ctx c
    if s.works c then (((p.extra.idle.filter (fun y => y.holder = holder && y.index = index)).map (fun y => p.runLeft y x.pos.position x.cycleNow))).foldl max 0
    else 0
  | none => 0

/-- Contexts with a claim on a resource of a row: class 3 its shadow time, 4 its reserve time. -/
def State.claimers (s : State) (cls : Nat) (r : Row) : List Ctx :=
  s.loadedCtxs.filter (fun c => match s.planOf c with | some p => decide (p.claimsOf cls r.val ≠ 0) | none => false)

/-- The context that owns a logical array. -/
def State.ownerOf (s : State) (logical : Nat) : Option Ctx :=
  s.loadedCtxs.find? (fun c => match s.planOf c with | some p => p.owns logical | none => false)

/-- The context runs nothing. -/
def State.atRest (s : State) (c : Ctx) : Bool :=
  match (s.ctx c).pass.st with | .noPlan | .stopped | .held => true | .running | .boundary | .aborting => false

/-- Every context with a claim on a row's shadow time declares an idle run with `n` cycles left. -/
def State.shadowIdle (s : State) (r : Row) (n : Nat) : Bool := (s.claimers 3 r).all (fun c => decide (n ≤ s.declaredLeft c 1 r.val))

/-- The array has an idle run with `n` cycles left, by its kind (R367). -/
def State.idleArray (s : State) (a : Arr) (n : Nat) : Bool :=
  let x := s.shd.rows.at (rowOf a)
  let h := (s.fst.unit (uArr a)).state
  if h = .lasting ∨ h = .retired then false
  else match s.logicalOf a with
    | some l => match s.ownerOf l with
      | none => true
      | some c => s.atRest c || decide (n ≤ s.declaredLeft c 0 l)
    | none =>
      if x.shadow.toNat = colOf a then s.shadowIdle (rowOf a) n
      else match finOf 24 x.lendTo.toNat with
        | some b => if x.reserve.toNat = colOf a then s.shadowIdle b n else true
        | none => true

/-- The array's owner ran nothing when a pattern began. -/
def State.ownerRests (s : State) (a : Arr) : Bool :=
  match (s.logicalOf a).bind s.ownerOf with | some c => s.atRest c | none => false

/-- The plans of every context declare the whole row idle for `n` cycles (R187): every logical array of it that a plan owns, its shadow
spare, and its reserve for itself and for the row it lends it to. -/
def State.rowDeclaredIdle (s : State) (r : Row) (n : Nat) : Bool :=
  (List.range 24).all (fun k => match s.ownerOf (r.val * 24 + k) with
    | some c => decide (n ≤ s.declaredLeft c 0 (r.val * 24 + k))
    | none => true) &&
  s.shadowIdle r n && (s.claimers 4 r).all (fun c => decide (n ≤ s.declaredLeft c 2 r.val)) &&
  (match finOf 24 (s.shd.rows.at r).lendTo.toNat with | some b => s.shadowIdle b n | none => true)

end Sys2Proof.Machine
end

