-- ==== Sys2Proof/Machine/Keccak.lean ====
section
/-! DEFINITION. SHA3-256 and SHAKE128. The spec names them by FIPS 202 and gives no more: PRESUMED (log 16). Lanes are natural
numbers below 2^64, a state is a list of 25 lanes. -/

namespace Sys2Proof.Machine

/-- Rotation of a 64-bit lane to the left. -/
def rotl64 (x n : Nat) : Nat := ((x <<< n) ||| (x >>> (64 - n))) % 2 ^ 64

/-- Round constants of Keccak-f[1600]. -/
def keccakRc : List Nat :=
  [0x0000000000000001, 0x0000000000008082, 0x800000000000808A, 0x8000000080008000, 0x000000000000808B,
   0x0000000080000001, 0x8000000080008081, 0x8000000000008009, 0x000000000000008A, 0x0000000000000088,
   0x0000000080008009, 0x000000008000000A] ++
  [0x000000008000808B, 0x800000000000008B, 0x8000000000008089, 0x8000000000008003, 0x8000000000008002,
   0x8000000000000080, 0x000000000000800A, 0x800000008000000A, 0x8000000080008081, 0x8000000000008080,
   0x0000000080000001, 0x8000000080008008]

/-- Rotation offsets by lane x + 5y. -/
def keccakRot : List Nat :=
  [0, 1, 62, 28, 27, 36, 44, 6, 55, 20, 3, 10, 43, 25, 39, 41, 45, 15, 21, 8, 18, 2, 61, 56, 14]

/-- One round. -/
def keccakRound (a : List Nat) (rc : Nat) : List Nat :=
  let c := (List.range 5).map (fun x =>
    a.getD x 0 ^^^ a.getD (x + 5) 0 ^^^ a.getD (x + 10) 0 ^^^ a.getD (x + 15) 0 ^^^ a.getD (x + 20) 0)
  let d := (List.range 5).map (fun x => c.getD ((x + 4) % 5) 0 ^^^ rotl64 (c.getD ((x + 1) % 5) 0) 1)
  let t := (List.range 25).map (fun i => rotl64 (a.getD i 0 ^^^ d.getD (i % 5) 0) (keccakRot.getD i 0))
  -- lane (x, y) of the next state comes from lane (x', y') with x = y', y = 2x' + 3y'
  let b := (List.range 25).map (fun i => let x := i % 5; let y := i / 5; t.getD ((x + 3 * y) % 5 + 5 * x) 0)
  let e := (List.range 25).map (fun i =>
    let x := i % 5; let y := i / 5 * 5
    b.getD i 0 ^^^ ((2 ^ 64 - 1 - b.getD ((x + 1) % 5 + y) 0) &&& b.getD ((x + 2) % 5 + y) 0))
  (e.headD 0 ^^^ rc) :: e.drop 1

/-- Keccak-f[1600]. -/
def keccakF (a : List Nat) : List Nat := keccakRc.foldl keccakRound a

/-- A block of `rate` bytes xored into the state, then the permutation. -/
def absorb (rate : Nat) (a : List Nat) (block : List Byte) : List Nat :=
  keccakF (((List.range 25).map (fun i =>
    a.getD i 0 ^^^ (if 8 * i < rate then leNat ((block.drop (8 * i)).take 8) else 0))))

/-- Blocks of `rate` bytes; `fuel` bounds their number. -/
def absorbAll (rate : Nat) : Nat → List Nat → List Byte → List Nat
  | 0, a, _ => a
  | fuel + 1, a, bytes =>
    if bytes.length < rate then a else absorbAll rate fuel (absorb rate a (bytes.take rate)) (bytes.drop rate)

/-- pad10*1 with the domain bits in the first byte. -/
def keccakPad (rate : Nat) (dom : Nat) (len : Nat) : List Byte :=
  let room := rate - len % rate
  if room = 1 then [BitVec.ofNat 8 (dom + 0x80)]
  else BitVec.ofNat 8 dom :: (List.replicate (room - 2) 0 ++ [0x80#8])

/-- The sponge's first output block of a message, as a state. -/
def sponge (rate dom : Nat) (msg : List Byte) : List Nat :=
  let m := msg ++ keccakPad rate dom msg.length
  absorbAll rate (m.length / rate) (List.replicate 25 0) m

/-- SHA3-256, 32 bytes. -/
def sha3 (msg : List Byte) : List Byte := ((sponge 136 0x06 msg).take 4).flatMap (leBytes 8)

/-- The first `blocks` output blocks of SHAKE128 as 64-bit little-endian words, 21 to a block. -/
def shakeFrom : Nat → List Nat → List Nat
  | 0, _ => []
  | n + 1, a => a.take 21 ++ shakeFrom n (keccakF a)

/-- Words of SHAKE128 of a message. -/
def shake128 (blocks : Nat) (msg : List Byte) : List Nat := shakeFrom blocks (sponge 168 0x1F msg)

/-- Bits [hi:lo] of an output read as a little-endian number (R490). -/
def hashBits (h : List Byte) (lo width : Nat) : Nat := leNat h / 2 ^ lo % 2 ^ width

end Sys2Proof.Machine
end

