-- ==== Sys2Proof/Machine/Calipers.lean ====
section
/-! DEFINITION. The Calipers (chapters 04 and 05): tiles at a witness port from start to verdict, the operand tag check (R112), combined
groups, the slices' commands, resets and self-tests. -/

namespace Sys2Proof.Machine

/-! ## Draws (R147) -/

/-- The first two residues kept from SHAKE128 words: r = W mod 2^61 kept when r < p − 1, each plus 1. -/
def drawTwo (words : List Nat) : BitVec 61 × BitVec 61 :=
  let kept := (words.map (fun w => w % 2 ^ 61)).filter (fun r => decide (r < p61 - 1))
  (BitVec.ofNat 61 (kept.getD 0 0 + 1), BitVec.ofNat 61 (kept.getD 1 0 + 1))

/-- ρ_t and λ_t of a tile (R147). -/
def drawTile (seed : List Byte) (a : Arr) (seq : BitVec 32) : BitVec 61 × BitVec 61 :=
  drawTwo (shake128 1 (ascii "WT" ++ seed ++ leBytes 2 (uPort a).toNat ++ leBytes 4 seq.toNat))

/-! ## Port helpers -/

/-- The event of a tile at a port (R161, R339). -/
def tileEvent (a : Arr) (t : Tile) (code : BitVec 16) (p32 : BitVec 32) : Ev :=
  { code, cls := .c, unit := uPort a, ctx := some t.desc.ctx, p16 := t.desc.seq.setWidth 16, p32, acc := 0x10,
    addr := t.desc.seq.setWidth 64 ||| (((t.pass.setWidth 32 : BitVec 32).setWidth 64) <<< 32) }

/-- PARTING for the tile's context at the moment of detection, once per slice and execution (R180). -/
def partingSend (s : State) (slice : Nat) (e : Ctx × BitVec 48 × BitVec 8) : State :=
  match finOf 25 slice with
  | none => s
  | some n =>
    if (s.wce.slices.at n).parted.contains e then s
    else (s.onSlice n (fun x => { x with parted := x.parted ++ [e] })).send (.parting e.1 (e.2.1.setWidth 16))

/-- A catch counted in the slice that checks the tile. -/
def countSliceCatch (s : State) (slice : Nat) : State :=
  match finOf 25 slice with
  | some n => s.onSlice n (fun x => { x with catches := bump x.catches })
  | none => s

/-- A catch detected: counted in the slice, PARTING, the event (R176, R180). -/
def detect (s : State) (a : Arr) (t : Tile) (code : BitVec 16) (p32 : BitVec 32) : State :=
  (partingSend (countSliceCatch s t.slice) t.slice t.exec).emit (tileEvent a t code p32)

/-- A descriptor mismatch detected (R155). -/
def detectDescriptor (s : State) (a : Arr) (t : Tile) (cause : BitVec 4) : State :=
  detect (s.onCov t.desc.ctx (fun x => { x with descr := bump x.descr })) a t 0x2004 (cause.setWidth 32)

/-- The event of an inexact or residue catch (R161); a descriptor or operand tag catch was raised when it was detected. -/
def detectVerdict (s : State) (a : Arr) (t : Tile) (reason : BitVec 4) (low special high : Bool) (diffs : List Nat) : State :=
  if reason = 1 then
    detect (s.onCov t.desc.ctx (fun x => { x with residue := bump x.residue })) a t 0x2001
      (BitVec.ofNat 32 (diffs.headD 0 + (if t.desc.segs.length > 1 then 128 else 0) + 256 + 65536 * diffs.length))
  else if reason = 2 then
    detect (s.onCov t.desc.ctx (fun x => { x with inexact := bump x.inexact })) a t 0x2002
      (BitVec.ofNat 32 ((if low then 1 else 0) + (if special then 2 else 0) + (if high then 4 else 0)))
  else if reason = 3 then
    detect (s.onCov t.desc.ctx (fun x => { x with inexact := bump x.inexact })) a t 0x2003
      (((BitVec.ofInt 11 (tileAnchor t.desc)).setWidth 32))
  else s

/-- A void verdict counted for its context (R156, R162) and for its open span (R305). -/
def countVoid (s : State) (c : Ctx) : State :=
  (s.onCov c (fun x => { x with voids := x.voids + 1 })).onPrv c (fun p => { p with span := p.span.map (fun y => { y with voids := y.voids + 1 }) })

/-! ## Tiles -/

/-- The place R170 gives a tile at its first operand cycle. -/
inductive Place where
  | joins | opens | alone
  deriving DecidableEq, Repr

/-- R170, first lines: an open group is marked closing by a tile that cannot join it. -/
def closeFor (g : Group) (d : TileDesc) (pass : BitVec 48) (replay : BitVec 8) : Group :=
  if 256 ≤ tileLength d ∨ d.ctx ≠ g.ctx ∨ pass ≠ g.pass ∨ replay ≠ g.replay then { g with closing := true } else g

/-- R170: where the tile goes, given the group after `closeFor`. -/
def placeOf (g : Option Group) (debt : Nat) (d : TileDesc) : Place :=
  match g with
  | some g => if g.closing then .alone else .joins
  | none => if tileLength d < 256 ∧ 8 < debt then .opens else .alone

/-- TILE_START (R144 to R148, R155, R170). A port whose tile in progress has not parked starts no other (log 4); the port of an array
under a pattern ignores it (R365). -/
def execTileStart (a : Arr) (d : TileDesc) (s : State) : Res :=
  let p := s.wce.ports.at a
  if p.cur.isSome ∨ s.isolated a then .next s
  else
    let x := s.ctx d.ctx
    let (rho, lambda) := drawTile x.exec.seed a d.seq
    let monitor := match s.planOf d.ctx with | some q => q.isMonitor | none => false
    let slice := s.sliceFor (rowOf a)
    let g := p.group.map (fun g => closeFor g d x.pass.index x.pass.replay)
    let place := if monitor then Place.alone else placeOf g p.debt d
    let t : Tile := { desc := d, pass := x.pass.index, replay := x.pass.replay, rho, lambda, member := place ≠ .alone, slice, monitor,
                      side := { cause := if monitor then 0 else descCause d } }
    let g := match place with
      | .alone => g
      | .joins => g.map (fun g => { g with members := g.members + 1, chained := g.chained || decide (1 < d.segs.length),
                                           closing := decide (g.members + 1 = 255) || d.lastOnPort })
      | .opens => some { ctx := d.ctx, pass := x.pass.index, replay := x.pass.replay, seq := d.seq, rho, members := 1,
                         chained := decide (1 < d.segs.length), closing := d.lastOnPort, slice }
    let s := s.onPort a (fun p => { p with cur := some t, group := g })
    .next (if t.side.cause = 0 then s else detectDescriptor s a t t.side.cause)

/-- The vector a tile's operand side uses: its own, or its group's (R148, R157). -/
def sideVector (p : Port) (t : Tile) : List Nat :=
  vector64 (match t.member, p.group with | true, some g => g.rho.toNat | _, _ => t.rho.toNat)

/-! ## The operand tag check (R112, R117, R163) -/

/-- The poison latch of an array for a context, set at the consumption of a poisoned operand blank (R117). -/
def setLatch (s : State) (a : Arr) (c : Ctx) : State :=
  s.onTag c (fun t => { t with consumed := bump t.consumed, latches := if t.latches.contains a then t.latches else t.latches ++ [a] })

/-- One word of a blank passes: counted at its first passage of the execution only. -/
def Tracker.take (key : Option (BitVec 61)) (k : Tracker) (w : Nat × BitVec 32) : Tracker :=
  if 1024 ≤ w.1 ∨ k.seen.getLsbD w.1 = true then k
  else { k with seen := k.seen ||| (1#1024 <<< w.1), sum := match key with | some rho => res61 (k.sum.toNat + partialFp rho.toNat [w]) | none => k.sum }

/-- The tracker of an operand blank of an execution. -/
def Port.tracked (p : Port) (e : Ctx × BitVec 48 × BitVec 8) (blank : Nat) (source : Nat := 0) : Option Tracker :=
  p.blanks.find? (fun k => k.exec = e && k.blank = blank && k.source = source)

/-- Operand blanks in progress (VX_WCE_PORT_STATUS.OPEN_BLANKS). -/
def Port.openBlanks (p : Port) : Nat := (p.blanks.filter (fun k => !k.done)).length

/-- A tracker of a blank changed. -/
def Port.onBlank (p : Port) (e : Ctx × BitVec 48 × BitVec 8) (blank source : Nat) (f : Tracker → Tracker) : Port :=
  { p with blanks := p.blanks.map (fun k => if k.exec = e ∧ k.blank = blank ∧ k.source = source then f k else k) }

/-- Words of an operand blank pass the port (R112): the first of them opens a tracker, where one of the 16 is free (log 128), and consumes
the blank (R117). Trackers of the context's earlier executions are over. -/
def passWords (s : State) (a : Arr) (e : Ctx × BitVec 48 × BitVec 8) (blank source : Nat) (tag : BitVec 64) (words : WordWrites) : State :=
  let s := s.onPort a (fun p => { p with blanks := p.blanks.filter (fun k => k.exec.1 ≠ e.1 || k.exec = e) })
  let key := s.keyOf e.1
  match (s.wce.ports.at a).tracked e blank source with
  | some _ => s.onPort a (fun p => p.onBlank e blank source (fun k => if k.done then k else words.foldl (Tracker.take key) k))
  | none =>
    let s := if isPoison (tagState tag) then setLatch s a e.1 else s
    if 16 ≤ (s.wce.ports.at a).openBlanks then s
    else s.onPort a (fun p => { p with blanks := p.blanks ++ [words.foldl (Tracker.take key) { exec := e, blank, source }] })

/-- A tile of a port marked with an operand tag mismatch. -/
def markTag (c : Ctx) (seq : BitVec 32) (t : Tile) : Tile := if t.desc.ctx = c ∧ t.desc.seq = seq then { t with tagBad := true } else t

/-- The tile of a context and a sequence number that a blank can still be checked for: an open one, or the newest MONITOR tile. -/
def Port.tileOf (p : Port) (c : Ctx) (seq : BitVec 32) : Option Tile :=
  (p.open_ ++ p.watched.toList).find? (fun t => t.desc.ctx = c && t.desc.seq = seq)

/-- An operand tag mismatch (R112, R154, R176, R181): a catch of the tile, one event for a tile; a MONITOR tile that has parked gets its
verdict now. -/
def operandCatch (s : State) (a : Arr) (t : Tile) (blank : Nat) : State :=
  let first := t.side.cause = 0 && !t.tagBad
  let late := (s.wce.ports.at a).watched = some t
  let mark := markTag t.desc.ctx t.desc.seq
  let s := s.onPort a (fun p => { p with cur := p.cur.map mark, park := p.park.map mark, watched := p.watched.map mark })
  if !first then s
  else
    let s := detect (s.onCov t.desc.ctx (fun x => { x with operand := bump x.operand })) a t 0x2040 (BitVec.ofNat 32 blank)
    if late then sendVerdict s a t.slice t.exec t.desc.seq .catch 1 0 5 else s

/-- A blank whose words have all passed agrees with the tag it brought; a reserved state is a mismatch under any key (R95, R112). -/
def Tracker.agrees (k : Tracker) (key : Option (BitVec 61)) (tag : BitVec 64) : Bool :=
  decide ((tagState tag).toNat ≤ 4) && (key.isNone || tagFp tag = k.sum)

/-- OPERAND_BLANK_COMPLETE (R112): the last words of an operand blank pass in a tile; with all 1,024 counted the sum is compared with the
tag, once in the execution. -/
def execOperandBlankComplete (a : Arr) (c : Ctx) (tileSeq : BitVec 32) (blank : Nat) (tag : BitVec 64) (words : WordWrites)
    (s : State) (source : Nat := 0) : Res :=
  match (s.wce.ports.at a).tileOf c tileSeq with
  | none => .next s
  | some t =>
    let s := passWords s a t.exec blank source tag words
    match (s.wce.ports.at a).tracked t.exec blank source with
    | none => .next s
    | some k =>
      if k.done ∨ k.seen ≠ BitVec.allOnes 1024 then .next s
      else
        let s := s.onPort a (fun p => p.onBlank t.exec blank source (fun k => { k with done := true }))
        .next (if k.agrees (s.keyOf c) tag then s else operandCatch s a t blank)

/-! ## Parking and reading (R167 to R169, R174) -/

/-- A parked set overwritten before its read (R174): not produced, reason drain overrun. -/
def overrun (s : State) (a : Arr) : State :=
  let p := s.wce.ports.at a
  match p.park.find? (fun t => !p.begun t) with
  | none => s
  | some t =>
    let debt := p.debt
    let s := s.onPort a (fun p => { p with park := p.park.erase t, overruns := bump p.overruns
                                           group := if t.member then p.group.map (fun g => { g with members := g.members - 1 }) else p.group })
    let s := s.emit { code := 0x2017, cls := .c, unit := uPort a, ctx := some t.desc.ctx, p16 := t.desc.seq.setWidth 16,
                      p32 := BitVec.ofNat 32 debt, acc := 0x10, addr := (tileEvent a t 0 0).addr }
    sendVerdict s a t.slice t.exec t.desc.seq .notProduced 1 0 6

/-- A drain begins: the K count is checked (R155); a tile that has raised its event raises no second (R154). -/
def drainCheck (s : State) (a : Arr) (t : Tile) : State × Tile :=
  if t.side.cause = 0 ∧ sideCause t.desc t.side ≠ 0 then
    let u := { t with side := { t.side with cause := sideCause t.desc t.side } }
    (if t.tagBad then s else detectDescriptor s a u u.side.cause, u)
  else (s, t)

/-- The tap begins to read a parked tile. -/
def beginRead (s : State) (a : Arr) (t : Tile) : State :=
  let (s, u) := drainCheck s a t
  s.onPort a (fun p => ({ p with park := p.park.map (fun x => if x = t then { u with reading := true } else x) } : Port).closeAtZero)

/-- A member read starts in the first cycle in which a member is parked and no member read is running, members in parking order (R168). -/
def memberStart (s : State) (a : Arr) : State :=
  let p := s.wce.ports.at a
  if p.park.any (fun t => t.reading && t.member) then s
  else match p.park.find? (fun t => t.member) with
    | some t => beginRead s a t
    | none => s

/-- Operand words of blanks that the tile did not complete have passed the port (R112). -/
def snoopAll (s : State) (a : Arr) (t : Tile) (snoop : List Snoop) : State := s.each snoop (fun s w => passWords s a t.exec w.blank w.source w.tag w.words)

/-- TILE_PARK (R149, R153, R167, R169): the operand cycles of the tile, then its accumulators into the park, and what its reads and the
debt are at the end of the cycle. A MONITOR tile's set is marked read at once; it gives a verdict only for an operand tag catch (R181). -/
def execTilePark (a : Arr) (ops : List OpCycle) (s : State) (snoop : List Snoop := []) : Res :=
  match (s.wce.ports.at a).cur with
  | none => .next s
  | some t =>
    if s.isolated a then .next s
    else
      let s := snoopAll s a t snoop
      if t.monitor then
        let s := s.onPort a (fun p => { p with cur := none, watched := some t })
        .next (if t.tagBad then sendVerdict s a t.slice t.exec t.desc.seq .catch 1 0 5 else s)
      else
        let mult := if t.member then t.lambda.toNat else 1
        let side := ops.foldl (takeCycle t.desc (sideVector (s.wce.ports.at a) t) mult) t.side
        let s := if 12 ≤ (s.wce.ports.at a).park.length then overrun s a else s
        let s := memberStart (s.onPort a (fun p => { p with cur := none, park := p.park ++ [{ t with side }] })) a
        .next (s.onPort a (fun p => p.closeAtZero.noteDebt))

/-- SINGLE_READ_START (R155, R168, R170): the read of the oldest tile checked alone. A drain for a sequence number that has no open tile at
the port is a descriptor mismatch, cause 3, of the execution of the port's newest tile, or of none where the port has no tile (log 26). The
port of an array under a pattern ignores it (R365). -/
def execSingleReadStart (a : Arr) (seq : BitVec 32) (s : State) : Res :=
  let p := s.wce.ports.at a
  if s.isolated a then .next s
  else if p.open_.any (fun t => t.desc.seq = seq) then match p.dueSingle with
    | some t => .next (if t.desc.seq = seq then beginRead s a t else s)
    | none => .next s
  else match p.open_.getLast? with
    | some t =>
      let bad : Tile := { t with desc := { t.desc with seq } }
      .next (sendVerdict (detectDescriptor s a bad 3) a t.slice t.exec seq .catch 1 0 4)
    | none => .next (s.emit { code := 0x2004, cls := .c, unit := uPort a, p16 := seq.setWidth 16, p32 := 3, acc := 0x10, addr := seq.setWidth 64 })

/-- SINGLE_READ_END (R150, R151, R154): the verdict of a tile checked alone; the next single read starts, and with it the debt may reach 0
(R168, R170). -/
def execSingleReadEnd (a : Arr) (inexact : Bool) (acc : Accs) (s : State) : Res :=
  match (s.wce.ports.at a).park.find? (fun t => t.reading && !t.member) with
  | none => .next s
  | some t =>
    let x := t.side
    let diffs := rowDiffs x.y (tapRows acc (tileAnchor t.desc) (vector64 t.rho.toNat))
    let high := highP t.desc x
    let j := judge x.cause t.tagBad inexact x.low x.special high (diffs ≠ [])
    let s := s.onPort a (fun p => ({ p with park := p.park.erase t, alone := bump p.alone } : Port).closeAtZero)
    let s := match finOf 25 t.slice with | some n => s.onSlice n (fun y => { y with alone := bump y.alone }) | none => s
    .next (match j with
      | .clean => sendVerdict s a t.slice t.exec t.desc.seq .clean 1 0 0
      | .void => sendVerdict (countVoid s t.desc.ctx) a t.slice t.exec t.desc.seq .void 1 0 0
      | .catch r => sendVerdict (detectVerdict s a t r x.low x.special high diffs) a t.slice t.exec t.desc.seq .catch 1 0 r)

/-- 64 rows of 64 residues added entry by entry. -/
def addRows (x : List (List (BitVec 61))) (y : List (List Nat)) : List (List (BitVec 61)) :=
  (List.range 64).map (fun i => (List.range 64).map (fun j => res61 (((x.getD i []).getD j 0).toNat + (y.getD i []).getD j 0)))

/-- λ_t·φ(C) for every accumulator of a member (R157). -/
def memberRows (acc : Accs) (anchor : Int) (lambda : Nat) : List (List Nat) :=
  (List.range 64).map (fun i => (List.range 64).map (fun j => mul61 lambda (accResidue ((acc.getD i []).getD j 0) anchor)))

/-- What a member read gives its group: the member enters Bsum and Y, or leaves the group with its own verdict (R157, R158). -/
def readMember (s : State) (a : Arr) (t : Tile) (g : Group) (inexact : Bool) (acc : Accs) : State :=
  let x := t.side
  let high := highP t.desc x
  let put (s : State) (g : Group) : State := s.onPort a (fun p => { p with group := some { g with read := g.read + 1 } })
  match judge x.cause t.tagBad inexact x.low x.special high false with
  | .clean => put s { g with
      y := ((List.range 64).map (fun i => res61 ((g.y.getD i 0).toNat + (x.y.getD i 0).toNat)))
      bsum := addRows g.bsum (memberRows acc (tileAnchor t.desc) t.lambda.toNat) }
  | .void => put (countVoid s t.desc.ctx) { g with voids := g.voids + 1 }
  | .catch r => put (sendVerdict (detectVerdict s a t r x.low x.special high []) a t.slice t.exec t.desc.seq .catch 1 0 r) { g with left := g.left + 1 }

/-- MEMBER_READ (R157, R158, R167, R168): the member read that is running ends; its set leaves the park, and the next member read
starts. -/
def execMemberRead (a : Arr) (inexact : Bool) (acc : Accs) (s : State) : Res :=
  match (s.wce.ports.at a).park.find? (fun t => t.reading && t.member) with
  | none => .next s
  | some t =>
    let s := s.onPort a (fun p => { p with park := p.park.erase t })
    let s := match (s.wce.ports.at a).group with
      | some g => readMember s a t g inexact acc
      | none => s
    .next (memberStart s a)

/-- Z[i] of a group (R157). -/
def groupZ (g : Group) : List Nat :=
  let v := vector64 g.rho.toNat
  (List.range 64).map (fun i => ((List.range 64).map (fun j => ((g.bsum.getD i []).getD j 0).toNat)).zip v |>.foldl (fun z x => add61 z (mul61 x.1 x.2)) 0)

/-- GROUP_CLOSE (R158, R171): one verdict for the members, after the last member read of a closing group. The chained bit of CATCH_WITNESS
is set where any tile that joined was chained (DESIGN CHOICE, log 138). -/
def execGroupClose (a : Arr) (s : State) : Res :=
  let p := s.wce.ports.at a
  match p.group with
  | none => .next s
  | some g =>
    if !g.closing ∨ g.read ≠ g.members then .next s
    else
      let diffs := rowDiffs g.y (groupZ g)
      let inGroup := g.members - g.voids - g.left
      let e := (g.ctx, g.pass, g.replay)
      let s := s.onPort a (fun p => { p with group := none, combined := p.combined + BitVec.ofNat 16 inGroup })
      let s := match finOf 25 g.slice with | some n => s.onSlice n (fun y => { y with groups := bump y.groups }) | none => s
      let s := s.onCov g.ctx (fun x => { x with combined := x.combined + BitVec.ofNat 64 inGroup })
      if diffs = [] then .next (sendVerdict s a g.slice e g.seq .clean (g.members - g.left) g.voids 0)
      else
        let s := s.onCov g.ctx (fun x => { x with residue := bump x.residue })
        let s := partingSend (countSliceCatch s g.slice) g.slice e
        let s := s.emit { code := 0x2001, cls := .c, unit := uPort a, ctx := some g.ctx, p16 := g.seq.setWidth 16,
                          p32 := BitVec.ofNat 32 (diffs.headD 0 + 64 + (if g.chained then 128 else 0) + 256 * inGroup + 65536 * diffs.length),
                          acc := 0x10, addr := g.seq.setWidth 64 ||| (((g.pass.setWidth 32 : BitVec 32).setWidth 64) <<< 32) }
        .next (sendVerdict s a g.slice e g.seq .catch (g.members - g.left) g.voids 1)

/-! ## Slices (R182 to R190) -/

/-- The offset of a slice's control register. -/
def sliceCtrlOff (n : Slice) : Nat := 0x200008 + 0x10000 * n.val

/-- A command of VX_WCE_SLICE_CTRL refused (R190, R491). -/
def sliceRefuse (s : State) (src : Src) (n : Slice) : State :=
  (s.onSlice n (fun x => { x with refused := true })).logRefusal mc none src (sliceCtrlOff n)

/-- A command accepted clears REFUSED. -/
def sliceAccept (s : State) (n : Slice) : State := s.onSlice n (fun x => { x with refused := false })

/-- TAKEOVER. -/
def takeoverCmd (src : Src) (n : Slice) (s : State) : State :=
  match finOf 24 n.val with
  | some r => if (s.wce.slices.at n).state = .serving ∧ s.standbyFree then startTakeover (sliceAccept s n) r 4 else sliceRefuse s src n
  | none => sliceRefuse s src n

/-- SLICE_TAKEOVER. -/
def execSliceTakeover (src : Src) (n : Slice) (s : State) : Res := .next (gatedWrite s src (sliceCtrlOff n) 2 (takeoverCmd src n))

/-- RELEASE: legal only while IDLE and held by slice 24. -/
def releaseCmd (src : Src) (n : Slice) (s : State) : State :=
  let x := s.wce.slices.at n
  match finOf 24 n.val with
  | some r => if x.state = .idle ∧ x.heldBy = 24 ∧ s.wce.handover.isNone then startRelease (sliceAccept s n) r else sliceRefuse s src n
  | none => sliceRefuse s src n

/-- SLICE_RELEASE. -/
def execSliceRelease (src : Src) (n : Slice) (s : State) : Res := .next (gatedWrite s src (sliceCtrlOff n) 4 (releaseCmd src n))

/-- A waiting fault steward order goes on after a handover or a reset (R183, R475); a self-test in its way is cut short (R186). -/
def nextOrder (s : State) : State :=
  match s.wce.orders with
  | [] => s
  | r :: rest =>
    if s.orderWaits r ∨ s.wce.handover.isSome then s
    else
      let taken := s.onWce (fun w => { w with orders := rest })
      match s.heldRow with
      | none => startTakeover (cutTestOf taken [standby, rowSlice r]) r 1
      | some m =>
        if m = r then keepRow (cutTestOf taken [rowSlice r]) r
        else if (s.wce.slices.at (rowSlice m)).state = .reset then s
        else if s.wce.reason = 1 then sliceLost taken r
        else startRelease (cutTestOf s [rowSlice m]) m

/-- HANDOVER_COMPLETE (R182, R183). -/
def execHandoverComplete (r : Row) (s : State) : Res :=
  match s.wce.handover with
  | none => .next s
  | some h =>
    if h.row ≠ r then .next s
    else
      let n := rowSlice r
      let s := s.onWce (fun w => { w with handover := none })
      if h.away then
        let st : SliceState := (s.wce.slices.at n).unless_ (if h.reason = 1 then .retired else if h.reason = 2 then .reset else if h.reason = 3 then .selftest else .idle)
        let s := s.onSlice n (fun x => countHandover { x with state := st, row := 31, heldBy := 24 })
        let s := s.onSlice standby (fun x => countHandover { x with state := x.unless_ .serving, row := BitVec.ofNat 5 r.val })
        let s := s.onWce (fun w => { w with reason := h.reason })
        let s := if st = .selftest then beginTest s n 3 else s
        .next (nextOrder (if h.reason = 1 ∧ (s.fst.unit (uSlice n)).state ≠ .retired then retireUnit s (uSlice n) else s))
      else
        let s := s.onSlice n (fun x => countHandover (x.serveOwn r))
        let s := s.onSlice standby (fun x => countHandover { x with state := x.unless_ .idle, row := 31 })
        .next (nextOrder (s.onWce (fun w => { w with reason := 0 })))

/-- Contexts in MONITOR that decide an execution and own the logical array the port serves: their execution counts the reset as not
produced (R224). -/
def monitorsAt (s : State) (a : Arr) : List Ctx :=
  allCtx.filter (fun c => match s.planOf c, s.logicalOf a with
    | some p, some l => s.deciding c && p.isMonitor && p.owns l
    | _, _ => false)

/-- A port after its reset (R188): the reset counted, PORT_RESET with the tiles dropped. For tiles under MONITOR no verdict is sent; the
reset itself ends the execution's tile condition (R224, log 27). -/
def portResetDone (s : State) (a : Arr) (tiles : List Tile) : State :=
  let s := s.each (monitorsAt s a) (fun s c => s.onExec c (fun e => { e with badPorts := e.badPorts ++ [a] }))
  let s := s.onPort a (fun p => ({ p with maxDebt := 0, resets := bump p.resets } : Port).closeAtZero.noteDebt)
  s.emit { code := 0x2015, unit := uPort a, p16 := BitVec.ofNat 16 ((tiles.map (·.desc.ctx)).eraseDups).length, p32 := BitVec.ofNat 32 tiles.length }

/-- Ports reset together (R188): not produced for each context with open tiles, sets marked read, group and debt cleared; with a slice
named, of that slice's tiles only. -/
def resetPorts (s : State) (ps : List Arr) (only : Option Nat) : State :=
  let lost := ps.map (fun a => (a, (s.wce.ports.at a).open_.filter (Tile.checkedBy only)))
  (loseTiles s ps only 7).each lost (fun s l => portResetDone s l.1 l.2)

/-- A port reset. -/
def resetPort (s : State) (a : Arr) : State := resetPorts s [a] none

/-- The ports of a row reset at once. -/
def resetRow (s : State) (r : Row) : State := resetPorts s (s.rotation (s.arbiterOf r) r) none

/-- Offset of VX_WCE_PORT_CTRL. -/
def portCtrlOff (a : Arr) : Nat := 0x200110 + 0x10000 * (a.val / 26) + 0x20 * (a.val % 26)

/-- A reset of a domain that contains the port is BUSY: of the port, its array, its slice or its row (R474). -/
def State.portInReset (s : State) (a : Arr) : Bool :=
  s.sliceHeld (rowSlice (rowOf a)) || s.pwr.resets.any (fun j => (j.domain = 1 || j.domain = 8) && decide (j.index.toNat = a.val))

/-- RESET of a port: refused while a reset of a domain that contains it is BUSY (R474). -/
def portResetCmd (src : Src) (a : Arr) (s : State) : State :=
  if s.portInReset a then s.logRefusal mc none src (portCtrlOff a) else resetPort s a

/-- PORT_RESET. -/
def execPortReset (src : Src) (a : Arr) (s : State) : Res :=
  .next (gatedWrite s src (portCtrlOff a) 1 (portResetCmd src a))

/-- SLICE_RESET recorded: 0 drain, 1 absorb. -/
def recordSliceReset (s : State) (n : Slice) (how : BitVec 16) : State := s.emit { code := 0x2016, unit := uSlice n, p16 := how }

/-- A slice goes into reset. -/
def enterReset (s : State) (n : Slice) : State := s.onSlice n (fun x => { x with state := .reset })

/-- A slice reset (R188): by handover to a free standby, or all its ports at once; in a handover, on the tiles the slice owns; of the
standby: at once, absorbing the row it holds; a slice that serves no row has no ports to absorb (log 60). -/
def resetSlice (s : State) (n : Slice) : State :=
  let s := cutTestOf s [n]
  let x := s.wce.slices.at n
  match s.wce.handover, finOf 24 n.val with
  | some h, r =>
    if x.state = .handover then enterReset (resetPorts (recordSliceReset s n 1) (s.rotation n h.row) (some n.val)) n
    else match r with
      | some r => if x.state = .serving then enterReset (resetRow (recordSliceReset s n 1) r) n else enterReset (recordSliceReset s n 0) n
      | none => enterReset (recordSliceReset s n 0) n
  | none, none => match s.heldRow with
    | some m => enterReset (resetRow (recordSliceReset s n 1) m) n
    | none => enterReset (recordSliceReset s n 0) n
  | none, some r =>
    if x.state = .serving ∧ s.standbyFree then startTakeover (recordSliceReset s n 0) r 2
    else if x.state = .serving then enterReset (resetRow (recordSliceReset s n 1) r) n
    else enterReset (recordSliceReset s n (if s.standbyFree then 0 else 1)) n

/-- A slice may be reset: not RETIRED, not in reset, no reset of a domain that contains it BUSY (R190, R474). -/
def State.mayResetSlice (s : State) (n : Slice) : Bool :=
  (s.wce.slices.at n).state ≠ .retired && (s.wce.slices.at n).state ≠ .reset && !s.sliceHeld n

/-- RESET of a slice (R188). -/
def sliceResetCmd (src : Src) (n : Slice) (s : State) : State :=
  if s.mayResetSlice n then resetSlice (sliceAccept s n) n else sliceRefuse s src n

/-- SLICE_RESET. -/
def execSliceReset (src : Src) (n : Slice) (s : State) : Res := .next (gatedWrite s src (sliceCtrlOff n) 1 (sliceResetCmd src n))

/-- A slice's reset is over (R183, R188): it goes on in its handover, serves on if it still holds a row, and after a drain its self-test
begins; a slice whose row the standby holds for another reason is idle again, and one whose turn the reset ended takes its row back. A
waiting fault steward order acts at once. -/
def afterReset (s : State) (n : Slice) : State :=
  let x := s.wce.slices.at n
  let become (st : SliceState) : State := s.onSlice n (fun x => { x with state := st })
  let moves : Bool := match s.wce.handover with | some h => n = standby || rowSlice h.row = n | none => false
  if moves then become .handover
  else match finOf 24 n.val with
    | none => nextOrder (if x.row ≠ 31 then become .serving else beginTest s n 2)
    | some r =>
      if x.heldBy ≠ 24 then nextOrder (become .serving)
      else if s.wce.reason = 2 then nextOrder (beginTest s n 2)
      else if s.wce.reason = 3 ∧ s.wce.handover.isNone then startRelease (become .idle) r
      else nextOrder (become (if s.wce.reason = 1 then .retired else .idle))

/-- A self-test turn of a slice begins (R185): by handover to the free standby, or on the idle slice itself. -/
def startTest (s : State) (n : Slice) : State :=
  match finOf 24 n.val with
  | some r =>
    if (s.wce.slices.at n).state = .serving then startTakeover s r 3 else beginTest s n 4
  | none => beginTest s n 4

/-- SELFTEST_NOW: legal in VS0, while SERVING with a free standby, or while IDLE (R190, R478). -/
def selftestCmd (src : Src) (n : Slice) (s : State) : State :=
  let x := s.wce.slices.at n
  if s.pwr.vs = .vs0 ∧ ((x.state = .serving ∧ n ≠ standby ∧ s.standbyFree) ∨ x.state = .idle) then startTest (sliceAccept s n) n
  else sliceRefuse s src n

/-- SELFTEST_NOW. -/
def execSelftestNow (src : Src) (n : Slice) (s : State) : Res := .next (gatedWrite s src (sliceCtrlOff n) 8 (selftestCmd src n))

/-- A slice that keeps its row is tested in place (R187). -/
def testInPlace (s : State) (n : Slice) : State := beginTest s n 5

/-- Slices that take turns: the part's row slices in order, then its standby (R185). -/
def State.turns (s : State) : Nat := s.rows + (if s.hasStandby then 1 else 0)

/-- The next turn is over or taken. -/
def advanceTurn (s : State) : State := s.onWce (fun w => { w with nextTurn := (w.nextTurn % s.turns + 1) % s.turns })

/-- A self-test turn begins, if the standby is free; a turn of a slice out of service passes to the next (R185; log 28). With no standby
free the slice is tested in place, where the plans declare its row idle for the 3,200,000 cycles of the test; else the turn moves to the
next interval (R185, R187; log 129). -/
def turnNow (s : State) : State :=
  let k := s.wce.nextTurn % s.turns
  let s := s.onWce (fun w => { w with lastTurn := s.time.opsec, turnDue := false })
  match finOf 25 (if k < s.rows then k else 24) with
  | none => s
  | some n =>
    if s.standbyFree then
      let s := advanceTurn s
      if (s.wce.slices.at n).state = .serving ∨ n = standby then startTest s n else s
    else match finOf 24 n.val with
      | some r => if (s.wce.slices.at n).state = .serving ∧ s.rowDeclaredIdle r 3200000 then testInPlace (advanceTurn s) n else s
      | none => s

/-- SELFTEST_TURN_DUE (R185, R187): the next turn, if TC runs; outside VS0 it waits for VS0. -/
def execSelftestTurnDue (s : State) : Res :=
  let tcUp : Bool := match (s.fwp.procs.at 5).state with | .run => true | _ => false
  if s.wce.interval = 0 ∨ !tcUp then .next s
  else if s.pwr.vs ≠ .vs0 then .next (s.onWce (fun w => { w with turnDue := true }))
  else .next (turnNow s)

/-- SLICE_SELFTEST_END (R186): passed when no port position failed and the MISR equals the stored signature. A slice that fails is
withdrawn, the standby keeping its row or taking it, or the row loses its slice (R184). -/
def execSliceSelftestEnd (n : Slice) (failPos : Option (Fin 26)) (misr : BitVec 128) (s : State) : Res :=
  match s.testOf n with
  | none => .next s
  | some why =>
    let pass := failPos.isNone && misr = Config.sliceSignature s.fuses.stepping
    let s := (dropTest s n).onSlice n (fun x => x.tested (if pass then 1 else 2) s.time.tick)
    if pass then
      let s := s.onSlice n (fun x => { x with state := if why = 5 then .serving else .idle })
      .next (match finOf 24 n.val with
        | some r => if why = 4 ∨ why = 5 then nextOrder s else startRelease s r
        | none => nextOrder s)
    else
      let (w, s) := s.fresh
      let pos : BitVec 16 := match failPos with | some p => BitVec.ofNat 16 p.val | none => w.setWidth 16
      let s := s.emit { code := 0x2012, cls := .c, unit := uSlice n, p16 := pos, p32 := misr.setWidth 32 }
      let s := s.histPut { unit := uSlice n, act := .declare 4, event := 0x2012 }
      .next (match finOf 24 n.val with
        | some r =>
          if (s.wce.slices.at n).heldBy = 24 then (s.onSlice n (fun x => { x with state := .retired })).onWce (fun w => { w with reason := 1 })
          else orderSlice (s.onSlice n (fun x => { x with state := .serving })) r
        | none => s.onSlice n (fun x => { x with state := .retired }))

end Sys2Proof.Machine
end

