-- ==== Sys2Proof/Machine/CatchOps.lean ====
section
/-! DEFINITION. Catches of the present pass (R240 to R242): a first catch stays open until the pass is decided, a second on the same unit
is repeated; reports that reach the commit unit (R226). -/

namespace Sys2Proof.Machine

/-- An event of pass level: unit the commit unit, 32-bit parameter the pass index (R252, R339). -/
def passEv (s : State) (c : Ctx) (code : BitVec 16) (cls : Cls) (unit : UnitId) (p16 : BitVec 16) : Ev :=
  { code, cls, unit, ctx := some c, p16, p32 := (s.ctx c).pass.index.setWidth 32, acc := 0x12, addr := (s.ctx c).pass.index.setWidth 64 }

/-! ## The execution a report names (R226) -/

/-- What a report's pass index and replay number name. -/
inductive Named where
  | current
  | committed (pass : BitVec 48)
  | aborted
  deriving DecidableEq, Repr

/-- The replay number that committed a pass. -/
def ExecSt.doneAt (e : ExecSt) (pass : BitVec 48) : BitVec 8 := ((e.done.find? (fun d => d.1 = pass)).map (·.2)).getD 0

/-- The execution that a pass index and a replay number name: the one the context decides, one that committed, or one that aborted. -/
def State.named (s : State) (c : Ctx) (pass : BitVec 48) (replay : BitVec 8) : Named :=
  let x := s.ctx c
  if pass = x.pass.index ∧ replay = x.pass.replay ∧ s.deciding c then .current
  else if pass.toNat < x.pass.index.toNat ∧ replay = x.exec.doneAt pass then .committed pass
  else .aborted

/-- The newest pass of a context with these low 32 bits (R178). -/
def State.passOf (s : State) (c : Ctx) (low : BitVec 32) : BitVec 48 :=
  let n := (s.ctx c).pass.index
  n - (n.setWidth 32 - low).setWidth 48

/-! ## Catches -/

/-- The catch on a unit in the present pass, if there is one. -/
def ExecSt.catchOn (e : ExecSt) (u : UnitId) : Option OpenCatch := e.catches.find? (fun k => k.unit = u)

/-- The pair of a shadow catch is not among these. -/
def newPair (l : List Compare) (x : Compare) : Bool := !l.any (fun y => y.logical = x.logical && y.cls = x.cls)

/-- The shadow catches on a unit, one for each pair (R49). -/
def addPair (l : List Compare) : Option Compare → List Compare
  | some x => if newPair l x then l ++ [x] else l
  | none => l

/-- A catch on a unit in the execution in progress (R242). The second catch of a pass on the same unit, in a later execution, is
CATCH_REPEATED: the unit goes to the fault steward as lasting, and each pair on it that a shadow catch found leaves its exposure range at
once; so does a further pair that is caught on the unit after that (R49, R218). -/
def noteCatch (s : State) (c : Ctx) (unit : UnitId) (slice : Option (BitVec 8 × BitVec 8)) (shadow : Option Compare) : State :=
  let now := (s.ctx c).pass.replay
  match (s.ctx c).exec.catchOn unit with
  | none => s.onExec c (fun e => { e with catches := e.catches ++ [{ unit, replay := now, slice, shadows := addPair [] shadow }] })
  | some k =>
    let pairs := addPair k.shadows shadow
    let s := s.onExec c (fun e => { e with catches := e.catches.map (fun y => if y.unit = unit then { y with shadows := pairs } else y) })
    if k.repeated then s.each (pairs.drop k.shadows.length) (fun s x => exposure s c unit (rangeOf s c x))
    else if k.replay = now then s
    else
      let s := s.onExec c (fun e => { e with catches := e.catches.map (fun y => if y.unit = unit then { y with repeated := true } else y) })
      let s := s.onPass c (fun p => { p with repeats := bump p.repeats })
      let s := s.emit (passEv s c 0x5004 .c unit (k.replay.setWidth 16 ||| (now.setWidth 16 <<< 8)))
      let s := settle (histCatch s c { k with slice := slice <|> k.slice } (.confirmThenDeclare 1) 0x5004 .confirm) c
      s.each pairs (fun s x => exposure s c unit (rangeOf s c x))

/-- A report to the commit unit (R118, R124, R226): an abort cause of the execution in progress and a catch on its unit, a late report
of an execution already committed, discarded for an aborted one. A report that names no execution is of the one the context decides, or
else of the one that has committed last (log 154). -/
def reportCause (s : State) (c : Ctx) (reason : BitVec 4) (unit : UnitId) (ex : Option ExecName := none) : State :=
  let now (s : State) : State := noteCatch (noteCause s c reason unit) c unit none none
  match ex with
  | some e => match s.named c e.1 e.2 with
    | .current => now s
    | .committed n => lateReport s c unit (reason.setWidth 16) n
    | .aborted => s
  | none =>
    if s.deciding c then now s
    else if (s.ctx c).exec.committed then lateReport s c unit (reason.setWidth 16) ((s.ctx c).pass.index - 1)
    else s

end Sys2Proof.Machine
end

