-- ==== Sys2Proof/Machine/Shadow.lean ====
section
/-! DEFINITION. The shadow scheduler (chapter 06): the slots a pass runs, comparisons and their decision, void tiles
and chase slots, the registers of the selected pair. -/

namespace Sys2Proof.Machine

/-! ## The borrowing of a context (R200, R209) -/

/-- Rows of the part. -/
def State.rowList (s : State) : List Row := (List.finRange 24).filter (fun r => decide (r.val < s.rows))

/-- The context begins to borrow on its rows that borrow: from then on their own step counters govern the slots (R200, R209). -/
def beginBorrow (s : State) (c : Ctx) (p : Plan) : State :=
  let rows := s.rowList.filter (fun r => p.usesRow r && (s.shd.rows.at r).borrow)
  s.onPos c (fun x => { x with rowStep := x.rowStep ++ (rows.filter (fun r => !x.rowStep.any (fun e => e.1 = r))).map (fun r => (r, x.step, false)) })

/-- The context's window is doubled: a slot of it lies on the spare of a row on which it borrows (R48, R209). -/
def CtxSt.doubled (x : CtxSt) (p : Plan) : Bool := p.rotates && x.pos.rowStep.any (fun e => p.onSpare e.1)

/-- W_eff, WINDOW_MAX of VX_CTX_INTEGRITY. -/
def CtxSt.windowMax (x : CtxSt) (p : Plan) : Nat := if x.doubled p then 2 * p.core.window else p.core.window

/-! ## The slots of a pass (R200, R208) -/

/-- The members of a list of slots that a pass of a borrowed step runs: the first half in its first pass, the rest in its second. -/
def halfOf {α : Type} (second : Bool) (xs : List α) : List α :=
  let h := (xs.length + 1) / 2
  if second then xs.drop h else xs.take h

/-- A slot lies on the spare of a row. -/
def Slot.onSpareOf (y : Slot) (r : Row) : Bool := y.holder = 1 && y.logical / 24 = r.val

/-- The slots of a step of the rotation on the spare of a row, with their entry numbers, in the order of the table. -/
def Plan.stepSlots (p : Plan) (r : Row) (step : Nat) : List (Slot × Nat) :=
  p.cover.slots.zipIdx.filter (fun y => y.1.onSpareOf r && y.1.step = step % max 1 p.core.window)

/-- The slots that a borrowing row runs in a pass: the half of its step, whatever the program position (R200, R208; log 140). -/
def Plan.borrowedSlots (p : Plan) (e : Row × Nat × Bool) : List (Slot × Nat) := halfOf e.2.2 (p.stepSlots e.1 e.2.1)

/-- The slots that the execution of a context runs, with their entry numbers (R200): those of the context's step at its position, and on
each row where it borrows those of the row's own step. -/
def CtxSt.slotsRun (x : CtxSt) (p : Plan) : List (Slot × Nat) :=
  p.cover.slots.zipIdx.filter (fun y => y.1.position = x.pos.position && y.1.step = x.pos.step % max 1 p.core.window &&
    !x.pos.rowStep.any (fun e => y.1.onSpareOf e.1)) ++ x.pos.rowStep.flatMap p.borrowedSlots

/-- The slots that the execution of a context runs. -/
def CtxSt.slots (x : CtxSt) (p : Plan) : List Slot := (x.slotsRun p).map (·.1)

/-- The output blanks of a slot's work item, each compared (R192, R194). -/
def Plan.slotBlanks (p : Plan) (y : Slot × Nat) : Nat := (p.work.blanks[y.2]?).getD 1

/-- The array that runs the shadow slots of a row now: its shadow spare, or its donor's reserve (R197, R208). -/
def State.shadowRunner (s : State) (r : Row) : Option Arr :=
  let x := s.shd.rows.at r
  if x.borrow then (finOf 24 x.donor.toNat).map (fun d => arrOf d (s.shd.rows.at d).reserve.toNat)
  else if x.shadow = 31 then none else some (arrOf r x.shadow.toNat)

/-- The array that runs a row's shadow slots in the execution of a context: the one that did at its cycle 0, whatever roles have changed
since (R210, R216). -/
def State.runnerIn (s : State) (c : Ctx) (r : Row) : Option Arr :=
  match (s.ctx c).exec.runners.find? (fun e => e.1 = r) with | some e => e.2 | none => s.shadowRunner r

/-- The array that runs a slot in the execution of a context: the dense shadow or mirror, or the spare of the primary's row. -/
def State.slotArray (s : State) (c : Ctx) (y : Slot) : Option Arr :=
  if y.holder = 0 then s.physOf y.index else (logRow y.logical).bind (s.runnerIn c)

/-! ## Comparisons (R194, R195, R214 to R216) -/

/-- A comparison recorded for the execution; the pair stays clean unless it differed. -/
def recordCompare (s : State) (c : Ctx) (x : Compare) (ok : Bool) : State :=
  let s := s.onExec c (fun e => { e with compares := e.compares ++ [(x.logical, x.cls, x.kind)] })
  s.onCov c (fun y => if ok then { y with clean := y.clean ++ [(x.logical, x.cls)] } else { y with dirty := y.dirty ++ [(x.logical, x.cls)] })

/-- The primary array of a pair, in its class 0 unit ID. -/
def State.primaryOf (s : State) (logical : Nat) : UnitId := match s.physOf logical with | some a => uArr a | none => unitId 0 logical

/-- An event of a comparison (R219, R339). -/
def compareEv (s : State) (c : Ctx) (code : BitVec 16) (cls : Cls) (logical : Nat) (k : BitVec 3) (p32 : Nat) : Ev :=
  { code, cls, unit := s.primaryOf logical, ctx := some c, p16 := pairField logical k, p32 := BitVec.ofNat 32 p32, acc := 0x11,
    addr := (s.ctx c).pass.index.setWidth 64 }

/-- A shadow catch (R215): CATCH_SHADOW on the primary, an abort cause, and a catch of the pass. -/
def catchShadow (s : State) (c : Ctx) (x : Compare) (refereeRun : Bool) : State :=
  let dual : Bool := match s.planOf c with | some p => p.isDual | none => false
  let s := s.emit (compareEv s c 0x5101 .c x.logical x.cls
    (x.shadow.val + (if x.kind = .chase then 1024 else 0) + (if refereeRun then 2048 else 0) + (if dual then 4096 else 0)))
  let s := s.onCov c (fun y => { y with catches := bump y.catches })
  let u := s.primaryOf x.logical
  let s := if refereeRun then s else s.onExec c (fun e => { e with caught := e.caught ++ [{ slot := x, replay := x.replay }] })
  noteCatch (noteCause s c 2 u) c u none (some x)

/-- Two comparisons of the same slot. -/
def sameSlot (x y : Compare) : Bool := x.logical = y.logical && x.cls = y.cls && x.kind = y.kind

/-- The replay decided the slot's catch otherwise than transient, so that the commit does not enter its shadow into the history (R216,
R350). -/
def settleShadow (s : State) (c : Ctx) (x : Compare) : State :=
  s.onExec c (fun e => { e with caught := e.caught.map (fun k => if sameSlot k.slot x then { k with settled := true } else k) })

/-- The slot's catch has been decided. -/
def ExecSt.settledSlot (e : ExecSt) (x : Compare) : Bool := e.caught.any (fun k => sameSlot k.slot x && k.settled)

/-- A suspect shadow (R216): SHADOW_SPARE_WITHDRAWN; a spare leaves its role, a dense shadow or mirror keeps it on the array that will
take its place. The array is declared lasting. -/
def withdrawShadow (s : State) (c : Ctx) (x : Compare) : State :=
  let r := rowOf x.shadow
  let wasShadow := (s.shd.rows.at r).shadow.toNat = colOf x.shadow
  let s := if (s.logicalOf x.shadow).isNone then withdrawSpare s x.shadow else s
  let now := (s.shd.rows.at r).shadow
  let p32 : BitVec 32 := if wasShadow ∧ now ≠ 31 then BitVec.ofNat 32 (arrOf r now.toNat).val else 0xFFFFFFFF
  let s := s.emit { code := 0x5106, cls := .c, unit := uArr x.shadow, ctx := some c, p16 := BitVec.ofNat 16 r.val, p32, acc := 0x11,
                    addr := (s.ctx c).pass.index.setWidth 64 }
  settleShadow (s.histPut { unit := uArr x.shadow, act := .declare 3, event := 0x5106, pass := (s.ctx c).pass.index.setWidth 32, ctx := some c }) c x

/-- An unresolved shadow catch (R216): SHADOW_UNRESOLVED, and the context stops. -/
def unresolved (s : State) (c : Ctx) (x : Compare) (ref : Nat) : State :=
  let s := s.emit (compareEv s c 0x5107 .u x.logical x.cls (x.shadow.val + 1024 * ref))
  noteCause (s.onExec c (fun e => { e with stopAfter := e.stopAfter <|> some 0x5107 })) c 2 (s.primaryOf x.logical)

/-- The replay runs the slot with its referee: the first execution after the slot's catch (R216). -/
def CtxSt.refereeRun (x : CtxSt) (y : Compare) : Bool := x.exec.caught.any (fun k => k.replay + 1 = x.pass.replay && sameSlot k.slot y)

/-- The decision table of R216 with a referee; a slot writes several output blanks, and what one of them has decided is not done twice. -/
def refereeDecision (s : State) (c : Ctx) (x : Compare) (a : Arr) (fp : BitVec 61) : State :=
  let told := (s.ctx c).exec.settledSlot x
  if x.primaryFp = x.shadowFp then
    let s := recordCompare s c x true
    if fp = x.primaryFp ∨ told then s
    else settleShadow (s.histPut { unit := uArr a, act := .confirm, event := 0x5101, pass := (s.ctx c).pass.index.setWidth 32, ctx := some c }) c x
  else
    let s := recordCompare s c x false
    if fp = x.shadowFp then catchShadow s c x true
    else if told then s
    else if fp = x.primaryFp then withdrawShadow s c x
    else settleShadow (unresolved s c x a.val) c x

/-- Primary and shadow differ in the replay and the row has no referee (R216): a shadow spare takes no further slots. -/
def noReferee (s : State) (c : Ctx) (x : Compare) : State :=
  let told := (s.ctx c).exec.settledSlot x
  let s := recordCompare s c x false
  if told then s
  else
    let s := settleShadow (unresolved s c x 0x3FF) c x
    if (s.shd.rows.at (rowOf x.shadow)).shadow.toNat = colOf x.shadow then withdrawSpare s x.shadow else s

/-- A comparison of the execution the context decides. -/
def compareNow (s : State) (c : Ctx) (x : Compare) : State :=
  if (s.ctx c).refereeRun x then
    match x.referee with
    | some (a, fp) => refereeDecision s c x a fp
    | none => if x.primaryFp = x.shadowFp then recordCompare s c x true else noReferee s c x
  else if x.primaryFp = x.shadowFp then recordCompare s c x true
  else catchShadow (recordCompare s c x false) c x false

/-- Where the candidate that serves a borrowing row stands among R208's four. -/
def State.candidateOf (s : State) (r : Row) : Option Nat :=
  let d := (s.shd.rows.at r).donor.toNat
  if d + 1 = r.val then some 0 else if d = r.val + 1 then some 1 else if d + 2 = r.val then some 2 else if d = r.val + 2 then some 3 else none

/-- The compare point of a slot: its own, or the one it has over the alternate route from the row's donor (R208). -/
def State.slotPoint (s : State) (c : Ctx) (p : Plan) (y : Slot × Nat) : Nat :=
  match logRow y.1.logical with
  | some r =>
    if y.1.holder = 1 ∧ (s.ctx c).pos.rowStep.any (fun e => e.1 = r) then
      ((p.cover.altSlots.find? (fun a => a.slot = y.2 && s.candidateOf r = some a.candidate)).map (·.compare)).getD y.1.compare
    else y.1.compare
  | none => y.1.compare

/-- The cycle offset at which the plan places a comparison (R259): its slot's compare point, for a chase the start of the row's window. -/
def State.comparePoint (s : State) (c : Ctx) (x : Compare) : Nat :=
  match s.planOf c with
  | none => 0
  | some p =>
    if x.kind = .chase then ((p.cover.chase.find? (fun k => k.row = x.logical / 24)).map (·.begin_)).getD 0
    else
      let run := (s.ctx c).slots p
      ((p.cover.slots.zipIdx.find? (fun y => y.1.logical = x.logical && y.1.cls = x.cls.toNat && run.contains y.1)).map (s.slotPoint c p)).getD 0

/-- SHADOW_COMPARE (R195, R215, R216, R226, R259): taken into the decision where it names the execution the context decides; a mismatch that
names a committed execution is late, anything else is discarded. -/
def execShadowCompare (c : Ctx) (x : Compare) (s : State) : Res :=
  .next (match s.named c x.pass x.replay with
    | .current => compareNow (reachOffset s c (s.comparePoint c x)) c x
    | .committed n => if x.primaryFp ≠ x.shadowFp then lateReport s c (s.primaryOf x.logical) 2 n else s
    | .aborted => s)

/-- A comparison not produced (R214). -/
def compareMissing (s : State) (c : Ctx) (logical : Nat) (cls : BitVec 3) (shadow : Nat) : State :=
  let s := s.emit (compareEv s c 0x5102 .c logical cls shadow)
  let u := s.primaryOf logical
  noteCatch (noteCause s c 3 u) c u none none

/-- SHADOW_MISSING (R214, R226). -/
def execShadowMissing (c : Ctx) (logical : Nat) (cls : BitVec 3) (shadow : Arr) (s : State) (pass : BitVec 48 := 0) (replay : BitVec 8 := 0) : Res :=
  .next (match s.named c pass replay with
    | .current => compareMissing s c logical cls shadow.val
    | .committed n => lateReport s c (s.primaryOf logical) 3 n
    | .aborted => s)

/-! ## Void tiles and chase slots (R204 to R207) -/

/-- VOID_TILE_OFFER: a void tile of a logical position, in WITNESS and SHADOW-DENSE. -/
def execVoidTileOffer (a : Arr) (c : Ctx) (pass : BitVec 48) (seq : BitVec 32) (s : State) : Res :=
  match s.planOf c, s.logicalOf a with
  | some p, some l =>
    if s.deciding c ∧ pass = (s.ctx c).pass.index ∧ p.rotates = true ∧ p.core.owned.any (fun o => o.logical = l ∧ o.role = 0) = true ∧
        (s.ctx c).cov.offers.contains (rowOf a, l, seq) = false then
      .next (s.onCov c (fun x => { x with offers := x.offers ++ [(rowOf a, l, seq)] }))
    else .next s
  | _, _ => .next s

/-- A tile the plan marks chase-eligible at the context's position (R205). -/
def Plan.chaseable (p : Plan) (position logical : Nat) (seq : BitVec 32) : Bool :=
  p.cover.chaseTiles.any (fun t => t.position = position && t.logical = logical && t.seq = seq.toNat)

/-- Chase slots the plan reserves on a row. -/
def Plan.chaseSlots (p : Plan) (r : Row) : Nat := ((p.cover.chase.find? (fun x => x.row = r.val)).map (·.slots)).getD 0

/-- The void tile the next chase slot of a row takes: the logical arrays are visited in order after the one chased last (R206). -/
def chaseNext (p : Plan) (position : Nat) (x : CovSt) (r : Row) (last : Nat) : Option (Row × Nat × BitVec 32) :=
  let free := x.offers.filter (fun o => o.1 = r && p.chaseable position o.2.1 o.2.2 && !x.chases.contains o)
  (((List.range 24).map (fun i => r.val * 24 + (last + 1 + i) % 24)).filterMap (fun l => free.find? (fun o => o.2.1 = l))).head?

/-- The chase window of a row lies behind the context's count (R205, R259). -/
def Plan.chaseOver (p : Plan) (r : Row) (offset : Nat) : Bool := p.cover.chase.any (fun x => x.row = r.val && decide (x.end_ ≤ offset))

/-- CHASE_SLOT_FILL (R206): in the row's chase window, at the earliest where it begins (R259). -/
def execChaseSlotFill (c : Ctx) (r : Row) (s : State) : Res :=
  match s.planOf c with
  | none => .next s
  | some p =>
    let x := (s.ctx c).cov
    if (s.ctx c).pass.st ≠ .running ∨ p.rotates = false ∨ p.chaseOver r (s.ctx c).pos.offset.toNat = true ∨
        p.chaseSlots r ≤ (x.chases.filter (fun o => o.1 = r)).length then .next s
    else match chaseNext p (s.ctx c).pos.position x r (s.shd.rows.at r).chased with
      | none => .next s
      | some o =>
        let s := reachOffset s c (((p.cover.chase.find? (fun k => k.row = r.val)).map (·.begin_)).getD 0)
        .next ((s.onCov c (fun x => { x with chases := x.chases ++ [o], chased := bump x.chased })).onRow r (fun y => { y with chased := o.2.1 % 24 }))

/-- Void tiles of the execution that were not chased, counted at its end marker (R206). -/
def countUnchased (s : State) (c : Ctx) : State :=
  let x := (s.ctx c).cov
  let n := x.offers.length - x.chases.length
  let s := s.onCov c (fun y => { y with unchased := y.unchased + BitVec.ofNat 16 n })
  s.onPrv c (fun p => { p with span := p.span.map (fun y => { y with unchased := y.unchased + n }) })

/-- The chase figures of a committed pass kept for the fraction of class 5, for the last W passes (R207). -/
def CovSt.logChases (x : CovSt) (pass : BitVec 48) (w : Nat) : CovSt :=
  let ls := ((x.offers.map (fun o => o.2.1)).eraseDups).map (fun l =>
    (pass, l, (x.chases.filter (fun o => o.2.1 = l)).length, (x.offers.filter (fun o => o.2.1 = l)).length))
  { x with chaseLog := (x.chaseLog ++ ls).filter (fun e => decide (pass.toNat < e.1.toNat + w)) }

/-! ## The selected pair (R220) -/

/-- A write to VX_SHD_PAIR_SEL. -/
def pairSel (v : Reg) (s : State) : State :=
  s.onShd (fun x => { x with selCtx := field v 0 5, selLog := field v 5 10, selCls := field v 15 3, valid := false })

/-- SHD_PAIR_SEL_WRITE. -/
def execShdPairSelWrite (src : Src) (v : Reg) (s : State) : Res := .next (gatedWrite s src 0x004200 v (pairSel v))

/-- PAIR_INFO_READY. -/
def execPairInfoReady (s : State) : Res := .next (s.onShd (fun x => { x with valid := true }))

/-- The slots of a pair that run: a slot runs in the passes of its step, so its position is that of the step (R200, R201). -/
def Plan.pairSlots (p : Plan) (logical cls : Nat) : List Slot :=
  p.cover.slots.filter (fun y => y.logical = logical && y.cls = cls && y.position = y.step % p.q)

/-- The pair is executed and sampled: by slots, or in class 5 by the chase slots of a work array, or by a mirror (R201, R207, R213). -/
def Plan.samples (p : Plan) (logical cls : Nat) : Bool :=
  if cls = 5 then
    (p.rotates && decide (0 < p.core.cChase) && p.core.owned.any (fun o => o.logical = logical && o.role = 0)) ||
    (p.isDual && p.cover.slots.any (fun y => y.logical = logical))
  else p.pairSlots logical cls ≠ []

/-- The largest gap between consecutive samples of a cycle of `w` steps (R201): from each sample to the next one. -/
def largestGap (w : Nat) (steps : List Nat) : Nat :=
  (steps.map (fun x => (((List.range w).find? (fun d => steps.contains ((x + d + 1) % w))).map (· + 1)).getD w)).foldl max 0

/-- The pair's slots run on a donor (R209). -/
def CtxSt.pairBorrowed (x : CtxSt) (p : Plan) (logical cls : Nat) : Bool :=
  p.rotates && x.pos.rowStep.any (fun e => e.1.val = logical / 24) && (cls = 5 || (p.pairSlots logical cls).any (fun y => y.holder = 1))

/-- The present period (VX_SHD_PAIR_INFO.PERIOD). -/
def CtxSt.pairPeriod (x : CtxSt) (p : Plan) (logical cls : Nat) : Nat :=
  let one := if p.isDual then 1 else if cls = 5 then (24 + p.core.cChase - 1) / max 1 p.core.cChase
    else largestGap p.core.window ((p.pairSlots logical cls).map (·.step)).eraseDups
  if x.pairBorrowed p logical cls then 2 * one else one

/-- The fraction in units of 2^-16, rounded down (R202, R207, R213): the executions are those the program image tells (log 34). -/
def CtxSt.pairFraction (x : CtxSt) (p : Plan) (logical cls : Nat) : Nat :=
  if p.isDual then 65536
  else if cls = 5 then
    let es := x.cov.chaseLog.filter (fun e => e.2.1 = logical)
    let void := (es.map (fun e => e.2.2.2)).sum
    if void = 0 then 65536 else 65536 * (es.map (fun e => e.2.2.1)).sum / void
  else
    let e := ((p.work.executions.find? (fun y => y.1 = logical && y.2.1 = cls)).map (·.2.2)).getD 0
    min 65536 (65536 * (p.pairSlots logical cls).length / (if x.pairBorrowed p logical cls then 2 * e else e))

/-- VX_SHD_PAIR_INFO; 0 while the selection is not yet described. -/
def State.pairInfo (s : State) : Reg :=
  let c : Ctx := Fin.ofNat 32 s.shd.selCtx.toNat
  let x := s.ctx c
  let l := s.shd.selLog.toNat
  let k := s.shd.selCls.toNat
  if !s.shd.valid then 0
  else match s.planOf c with
    | some p =>
      if p.samples l k then
        let b := x.pairBorrowed p l k
        BitVec.ofNat 64 (3 + (if b then 4 else 0) + (if p.isDual then 8 else 0) + 16 * (x.pairPeriod p l k) +
          65536 * (if b then 2 * p.core.window else p.core.window) + 2 ^ 28 * (x.pairFraction p l k))
      else 1
    | none => 1

/-- VX_SHD_PAIR_LAST. -/
def State.pairLast (s : State) : Reg :=
  let c : Ctx := Fin.ofNat 32 s.shd.selCtx.toNat
  match s.planOf c with
  | some p => if p.samples s.shd.selLog.toNat s.shd.selCls.toNat then ((s.ctx c).cov.last s.shd.selLog.toNat s.shd.selCls).setWidth 64
              else 0xFFFFFFFFFFFF
  | none => 0xFFFFFFFFFFFF

end Sys2Proof.Machine
end

