-- ==== Sys2Proof/Machine/Tags.lean ====
section
/-! DEFINITION. The memory grain tag units (chapter 03): accesses of jobs and of the host under the state table of R115, tag-line
visits (R104 to R106), retained writes and copy-backs (R126 to R130, R229, R230, R235), captures for provenance (R294, R296), and the
probe (R133). -/

namespace Sys2Proof.Machine

/-! ## Events, counts and reports -/

/-- Which count of VX_MGTU_COUNTS an event increases. -/
def countGtu (code : BitVec 16) (m : Mgtu) : Mgtu :=
  if code = 0x4001 then { m with readMis := bump m.readMis }
  else if code = 0x4002 then { m with writeMis := bump m.writeMis }
  else if code = 0x4005 then { m with region := bump m.region }
  else { m with ecc := bump m.ecc }

/-- VX_MGTU_LAST_EVENT keeps the first unacknowledged event (R133). -/
def keepFirst (c : Option Ctx) (code : BitVec 16) (index : Nat) (st : BitVec 3) (m : Mgtu) : Mgtu :=
  if m.evValid then m
  else { m with evBlank := BitVec.ofNat 25 index, evCtx := BitVec.ofNat 8 (ctxByte c), evKind := code.setWidth 4, evState := st, evValid := true }

/-- A tag event at a memory GTU: counted, captured, raised (R132, R133); the registers of a RETIRED one stay as they were (R486). `st` is the
stored state after it. -/
def mgtuEvent (s : State) (g : Gtu) (c : Option Ctx) (code : BitVec 16) (cls : Cls) (index : Nat) (st : BitVec 3) (p16 : BitVec 16)
    (p32 : Nat) (acc : BitVec 8) (addr : Nat) : State :=
  (if (s.fst.unit (uMgtu g)).state = .retired then s else s.onMgtu g (fun m => keepFirst c code index st (countGtu code m))).emit
    { code, cls, unit := uMgtu g, ctx := c, p16, p32 := BitVec.ofNat 32 p32, acc, addr := BitVec.ofNat 64 addr }

/-- A 48-bit timing counter increased, saturating (R263). -/
def Count48.add (x : Count48) (k : Nat) : Count48 :=
  { n := BitVec.ofNat 48 (min (x.n.toNat + k) (2 ^ 48 - 1)), sat := x.sat || decide (2 ^ 48 - 1 ≤ x.n.toNat + k) }

/-- The plan of a context is RELAXED. -/
def State.relaxed (s : State) (c : Ctx) : Bool := match s.planOf c with | some p => p.core.relaxed | none => false

/-- One packet or frame routed off its static route: the chatter counter of a RELAXED context (R32, R261). -/
def countChatter (s : State) (c : Ctx) (adaptive : Bool) : State :=
  if adaptive && s.relaxed c then s.onBar c (fun b => { b with chatter := b.chatter.add 1 }) else s

/-- A count of a context in a list, increased. -/
def bumpCtx : List (Ctx × Nat) → Ctx → List (Ctx × Nat)
  | [], c => [(c, 1)]
  | (d, n) :: rest, c => if d = c then (d, n + 1) :: rest else (d, n) :: bumpCtx rest c

/-- A write of the context stored in a POISON state (R224). -/
def countPoison (s : State) (g : Gtu) (c : Ctx) (st : BitVec 3) : State :=
  if isPoison st then s.onMgtu g (fun m => { m with poison := bumpCtx m.poison c }) else s

/-! ## Tag lines (R104 to R106) -/

/-- An uncorrectable error in a tag line: its eight tags POISON_MEM with fingerprint 0, TAG_LINE_ECC (R106). -/
def lineError (s : State) (g : Gtu) (c : Option Ctx) (stave : Nat) : State :=
  let s := s.each (List.range 8) (fun s i => s.setTag (stackOf g) (stave * 8 + i) (mkTag tMem 0))
  mgtuEvent s g c 0x4004 .u stave tMem 0 stave 0x06 (tagLineAddr stave)

/-- A job visit at a stave, as it stands after an access (R104, R105): the first access opens it, the marked last access of the context
that opened it ends it; where a line serves two contexts the other's last access does not (log 132). With 14 job visits open an access is
a visit of its own (log 30). -/
def visitAfter (vs : List Visit) (stave : Nat) (c : Ctx) (visitEnd : Bool) : List Visit :=
  if vs.any (fun v => v.stave = stave) then
    if visitEnd then vs.filter (fun v => !(v.stave = stave && v.owner = some c)) else vs
  else if visitEnd || decide (14 ≤ vs.length) then vs
  else vs ++ [{ stave, owner := some c }]

/-- The tag line of a blank is fetched unless it is held; an error in the fetch poisons the line. -/
def fetchLine (s : State) (g : Gtu) (c : Option Ctx) (blank : Nat) (lineEcc : Bool) : State :=
  if !((s.mgtu.at g).visits.any (fun v => v.stave = blank / 8)) && lineEcc then lineError s g c (blank / 8) else s

/-- The tag line of a job access. -/
def jobVisit (s : State) (g : Gtu) (c : Ctx) (blank : Nat) (lineEcc visitEnd : Bool) : State :=
  (fetchLine s g (some c) blank lineEcc).onMgtu g (fun m => { m with visits := visitAfter m.visits (blank / 8) c visitEnd })

/-! ## Retention tables (R126 to R129, R229) -/

/-- The plan retains a blank at the position the context stands at (R126). -/
def State.retains (s : State) (g : Gtu) (c : Ctx) (blank : Nat) : Bool :=
  match s.planOf c with
  | some p => p.cover.retained.any (fun r => r.position = (s.ctx c).pos.position && r.gtu = g.val && r.blank = blank)
  | none => false

/-- The lowest free slot of the context's area at the port (R235; log 31). -/
def State.freeSlot (s : State) (g : Gtu) (c : Ctx) : Option Nat :=
  ((s.planOf c).bind (fun p => p.cover.areas.find? (fun a => a.gtu = g.val))).bind (fun a =>
    ((areaStaves a.gtu a.first a.staves).flatMap (fun st => (List.range 8).map (fun i => 8 * st + i))).find? (fun b => !((s.mgtu.at g).retained.any (fun r => r.copy = b))))

/-- Slots of a context in use at a port. -/
def State.slotsInUse (s : State) (g : Gtu) (c : Ctx) : Nat := ((s.mgtu.at g).retained.filter (fun r => r.ctx = c)).length

/-- A provisional entry made (R126), the highest number of slots in use kept; the slot's tag starts as no tag (log 54). -/
def addSlot (s : State) (g : Gtu) (c : Ctx) (blank slot : Nat) : State :=
  let s := (s.setTag (stackOf g) slot emptyTag).onMgtu g (fun m => { m with retained := m.retained ++ [{ ctx := c, orig := blank, copy := slot, committed := false, rho := s.keyOf c }] })
  s.onPass c (fun p => { p with peakSlots := satBits 16 (max p.peakSlots.toNat (s.slotsInUse g c)) })

/-- RETENTION_OVERFLOW (R235): the write is not carried out; the context is aborted with reason 9 and stopped. -/
def retentionOverflow (s : State) (g : Gtu) (c : Ctx) (blank : Nat) : State :=
  let s := s.emit { code := 0x5008, cls := .u, unit := uMgtu g, ctx := some c, p16 := satBits 16 (s.slotsInUse g c),
                    p32 := BitVec.ofNat 32 blank, acc := 0x12, addr := (s.ctx c).pass.index.setWidth 64 }
  noteCause (s.onExec c (fun e => { e with stopAfter := e.stopAfter <|> some 0x5008 })) c 9 (uMgtu g)

/-! ## The state table (R115, R116) -/

/-- What a whole-blank read does: the stored tag after, the delivered tag, and the event it raises with its class. -/
structure ReadRow where
  stored    : BitVec 64
  delivered : BitVec 64
  event     : Option (BitVec 16)
  deriving DecidableEq, Repr

/-- The read rows of R115: `fpNow` is the fingerprint of the data as delivered, `keyed` says that the access names a loaded key. -/
def readRow (keyed ecc : Bool) (stored : BitVec 64) (fpNow : BitVec 61) : ReadRow :=
  let st := tagState stored
  let bad := poisonOver st
  if ecc then { stored := mkTag bad (tagFp stored), delivered := mkTag bad fpNow, event := some 0x4003 }
  else if !keyed then { stored, delivered := stored, event := none }
  else if st = tUntagged then { stored, delivered := mkTag tUntagged fpNow, event := none }
  else if tagFp stored = fpNow then { stored, delivered := stored, event := none }
  else { stored := mkTag bad (tagFp stored), delivered := mkTag bad fpNow, event := some 0x4001 }

/-- A full write from the mesh: the stored tag after, and whether the carried tag mismatched (R95, R109, R115, R116). -/
def fullRow (key : Option (BitVec 61)) (stored carried : BitVec 64) (data : List (BitVec 32)) : BitVec 64 × Bool :=
  let st := tagState stored
  let cs := tagState carried
  match key with
  | some rho =>
    if tagMatches rho data carried then (mkTag (if isPoison st && isPoison cs then st else cs) (tagFp carried), false)
    else (mkTag (poisonOver st) (fpOf rho data), true)
  | none =>
    if 4 < cs.toNat then (mkTag (poisonOver st) 0, true)
    else if isPoison cs then (mkTag (poisonOver st) 0, false) else (mkTag tUntagged 0, false)

/-- F_new of R110 from the received words and the old words as delivered. -/
def deltaOf (rho : BitVec 61) (stored : BitVec 64) (new old : WordWrites) : BitVec 61 :=
  res61 (deltaFp (tagFp stored).toNat (partialFp rho.toNat new) (partialFp rho.toNat old))

/-- A partial write from the mesh: the stored tag after, and whether G mismatched the received words (R110, R115, R116). -/
def partialRow (key : Option (BitVec 61)) (ecc : Bool) (stored : BitVec 64) (carried : BitVec 3) (g : BitVec 61) (new old : WordWrites) :
    BitVec 64 × Bool :=
  let st := tagState stored
  match key with
  | some rho =>
    let fp := deltaOf rho stored new old
    if g ≠ res61 (partialFp rho.toNat new) ∨ 4 < carried.toNat then (mkTag (poisonOver st) fp, true)
    else if ecc then (mkTag (poisonOver st) fp, false)
    else if st = tUntagged then (stored, false)
    else (mkTag (if st = tClean then carried else st) fp, false)
  | none =>
    if 4 < carried.toNat then (mkTag (poisonOver st) 0, true)
    else if ecc || isPoison carried then (mkTag (poisonOver st) 0, false)
    else if st = tClean then (mkTag tUntagged 0, false) else (stored, false)

/-- A host full write (R113 to R115). -/
def hostFullRow (key : Option (BitVec 61)) (ep : Bool) (stored : BitVec 64) (data : List (BitVec 32)) : BitVec 64 :=
  let fp := match key with | some rho => fpOf rho data | none => 0
  if ep then mkTag (poisonOver (tagState stored)) fp
  else if key.isSome then mkTag tClean fp else mkTag tUntagged 0

/-- A host partial write (R113 to R115). -/
def hostPartialRow (key : Option (BitVec 61)) (ep ecc : Bool) (stored : BitVec 64) (new old : WordWrites) : BitVec 64 :=
  let st := tagState stored
  match key with
  | some rho =>
    let fp := deltaOf rho stored new old
    if ep then (if st = tUntagged then mkTag tMem 0 else mkTag (poisonOver st) fp)
    else if ecc then mkTag (poisonOver st) fp
    else if st = tUntagged then stored else mkTag st fp
  | none =>
    if ep || ecc then mkTag (poisonOver st) 0
    else if st = tClean then mkTag tUntagged 0 else stored

/-! ## Reads -/

/-- The fingerprint a read computes; without a key none is kept by the spec, and the value is open (log 32). -/
def readFp (s : State) (key : Option (BitVec 61)) (ecc : Bool) (data : List (BitVec 32)) : BitVec 61 × State :=
  match key with
  | some rho => (fpOf rho data, s)
  | none => if ecc then let (w, s) := s.fresh; (w.setWidth 61, s) else (0, s)

/-- A whole-blank read at a memory GTU checked under R115: the state with its event, the words, and what the read does to the tag. An
event names the blank that serves the access (log 130). -/
def checkRead (s : State) (g : Gtu) (c : Option Ctx) (key : Option (BitVec 61)) (blank : Nat) (noise : Noise) (ecc : Bool) (acc : BitVec 8) :
    State × List (BitVec 32) × ReadRow :=
  let data := s.deliveredBlank (stackOf g) blank noise
  let (fpNow, s) := readFp s key ecc data
  let stored := s.tagOf (stackOf g) blank
  let r := readRow key.isSome ecc stored fpNow
  let s := match r.event with
    | some code => mgtuEvent s g c code .u blank (tagState r.stored) ((tagState stored).setWidth 16) blank acc (blank * 4096)
    | none => s
  (s, data, r)

/-- A whole-blank read at a memory GTU (R61, R108, R115): the state after, the words and the tag delivered. -/
def gtuRead (s : State) (g : Gtu) (c : Option Ctx) (key : Option (BitVec 61)) (blank : Nat) (noise : Noise) (ecc : Bool) (acc : BitVec 8) :
    State × List (BitVec 32) × BitVec 64 :=
  let (s, data, r) := checkRead s g c key blank noise ecc acc
  (s.setTag (stackOf g) blank r.stored, data, r.delivered)

/-- A run of job bytes read without a context (R297, R315, R495): the bytes delivered; where the memory met an uncorrectable error the
blank is handled as any read of it is (R61, R115). The access type is that of the engine's own reads (R339; log 141). -/
def engineRead (s : State) (a n : Nat) (r : JobRead) : List Byte × State :=
  let bad := (r.errors.filter (fun i => decide (i < n))).filterMap (fun i => (s.enginePlace (a + i)).bind (fun x =>
    (finOf 40 (portAt x.1 x.2)).map (fun g => (g, x.2 / 4096))))
  (s.engineBytes a n r, s.each bad.eraseDups (fun s x => (gtuRead s x.1 none none x.2 [] true 0x06).1))

/-- The canonical positions of a blank in a role's list of a result (R291). -/
def listedAt (p : Plan) (result role : Nat) (g : Gtu) (blank : Nat) : List Nat :=
  (((p.extra.lists.filter (fun l => l.result = result ∧ l.role = role)).zipIdx).filter (fun x => x.1.gtu = g.val ∧ x.1.blank = blank)).map (·.2)

/-- A capture slot of the span is written: W and I keep the first read of an execution, O the last write (R294). -/
def takesCapture (x : Capture) (cs : List Capture) : Bool :=
  match cs.find? (fun y => y.role = x.role ∧ y.pos = x.pos) with
  | none => true
  | some y => x.role = 2 || (y.pass = x.pass && y.replay ≠ x.replay)

/-- The captures of a span with one slot written. -/
def putCapture (x : Capture) (cs : List Capture) : List Capture := cs.filter (fun z => !(z.role = x.role && z.pos = x.pos)) ++ [x]

/-- The job address of a role's capture bank. -/
def Plan.bankAddr (p : Plan) (role bank : Nat) : Nat := ((p.extra.banks.find? (fun b => b.role = role && b.bank = bank)).map (·.addr)).getD 0

/-- A tag goes to its slot in the span's bank (R293). -/
def writeCapture (s : State) (c : Ctx) (sp : Span) (k : Capture) : State :=
  if takesCapture k (((s.ctx c).prv.span.map (·.caps)).getD []) then
    (s.onPrv c (fun p => { p with span := p.span.map (fun y => { y with caps := putCapture k y.caps }) })).engineWrite
      (sp.plan.bankAddr k.role sp.bank + 8 * k.pos) (tagBytes k.tag)
  else s

/-- PRV_CAPTURE: the tag of a listed blank of the open span (R293, R294). -/
def captureTag (s : State) (g : Gtu) (c : Ctx) (blank : Nat) (roles : List Nat) (tag : BitVec 64) : State :=
  match (s.ctx c).prv.span with
  | none => s
  | some sp =>
    let x := (s.ctx c).pass
    let mine := roles.flatMap (fun r => (listedAt sp.plan sp.result r g blank).map (fun pos =>
      ({ role := r, pos, tag, pass := x.index, replay := x.replay } : Capture)))
    s.each mine (fun s k => writeCapture s c sp k)

/-- A job access to the gap or the tag region (R60): not carried out, TAG_REGION_ACCESS, the pass aborted with reason 4. No stored tag is
concerned: VX_MGTU_LAST_EVENT takes STATE 0 and BLANK the address over 4,096 (log 133). -/
def jobRegion (s : State) (g : Gtu) (c : Ctx) (acc : BitVec 8) (addr : Nat) (ex : Option ExecName := none) : State :=
  reportCause (mgtuEvent s g (some c) 0x4005 .c (addr / 4096) 0 1 (addr / 64) acc (addr / 4096 * 4096)) c 4 (uMgtu g) ex

/-- A host access to the gap or the tag region (R60); VX_MGTU_LAST_EVENT as for a job (log 133). -/
def hostRegion (s : State) (g : Gtu) (c : Option Ctx) (acc : BitVec 8) (addr : Nat) : State :=
  mgtuEvent s g c 0x4005 .c (addr / 4096) 0 0 (addr / 64) acc (addr / 4096 * 4096)

/-- The tag that goes with delivered data to the array that consumes it (R112). -/
def sendOperandTag (s : State) (a : Option Arr) (c : Ctx) (tag : BitVec 64) : State :=
  match a with | some a => s.send (.operandTag a c tag) | none => s

/-- JOB_READ (R58 to R61, R108, R115, R119, R127, R261, R294). -/
def jobRead (s : State) (g : Gtu) (c : Ctx) (addr : Nat) (noise : Noise) (ecc lineEcc : Bool) (consumer : Option Arr) (visitEnd adaptive : Bool)
    (ex : Option ExecName) : State :=
  let s := countChatter s c adaptive
  if outsideJob addr then
    let s := jobRegion s g c 0x01 addr ex
    sendOperandTag (s.send (.jobData g c (List.replicate 1024 0) (mkTag tMem 0))) consumer c (mkTag tMem 0)
  else
    let blank := addr / 4096
    let place := (s.mgtu.at g).readPlace c blank
    let s := jobVisit s g c place lineEcc visitEnd
    let untagged := tagState (s.tagOf (stackOf g) place) = tUntagged && !ecc && (s.keyOf c).isSome
    let (s, data, tag) := gtuRead s g (some c) (s.keyOf c) place noise ecc 0x01
    let s := if untagged then s.onTag c (fun t => { t with untagged := bump t.untagged }) else s
    let s := if (s.keyOf c).isSome then captureTag s g c blank [0, 1] tag else s
    sendOperandTag (s.send (.jobData g c data tag)) consumer c tag

/-- The GTU receives an access to a byte of its stack: one outside the job region, or to a stave that it serves (R103). -/
def accepts (g addr : Nat) : Bool := outsideJob addr || serves g (addr / 4096 / 8)

/-- A memory GTU the part has, a byte the stack has, a stave the GTU serves: no other access comes to it. -/
def memAccess (s : State) (g : Gtu) (addr : Nat) (f : State) : Res :=
  if stackSize ≤ addr then .fault .outsideStack
  else if g.val < s.ports ∧ accepts g.val addr = true then .next f else .next s

/-- JOB_READ. -/
def execJobRead (g : Gtu) (c : Ctx) (addr : Nat) (noise : Noise) (ecc lineEcc : Bool) (consumer : Option Arr)
    (visitEnd : Bool) (s : State) (adaptive : Bool := false) (ex : Option ExecName := none) : Res :=
  memAccess s g addr (jobRead s g c addr noise ecc lineEcc consumer visitEnd adaptive ex)

/-! ## Writes from the mesh -/

/-- The state an array's output tag stage attaches: POISON_DERIVED while its latch for the context is set (R111, R117). -/
def stageState (s : State) (c : Ctx) (a : Arr) : BitVec 3 := if (s.ctx c).tag.latches.contains a then tDerived else tClean

/-- The tag that goes with a full write: an array's output tag stage makes it from the words as the array writes them, under the key of the
tile's context (R111; without a key it holds no fingerprint); any other writer brings the tag it was given (R107). -/
def carriedTag (s : State) (c : Ctx) (writer : Option Arr) (words : List (BitVec 32)) (tag : BitVec 64) : BitVec 64 :=
  match writer with
  | some a => mkTag (stageState s c a) (match s.keyOf c with | some rho => fpOf rho words | none => 0)
  | none => tag

/-- The partial fingerprint and the state that go with a partial write (R110, R111). -/
def carriedPartial (s : State) (c : Ctx) (writer : Option Arr) (words : WordWrites) (pfp : BitVec 61) (st : BitVec 3) : BitVec 61 × BitVec 3 :=
  match writer with
  | some a => (match s.keyOf c with | some rho => res61 (partialFp rho.toNat words) | none => 0, stageState s c a)
  | none => (pfp, st)

/-- The words of a full write, missing ones zero, as its writer sends them. -/
def sentWords (data : List (BitVec 32)) : List (BitVec 32) := (List.range 1024).map (fun i => data.getD i 0)

/-- Words as they arrive: what changed in flight over the mesh. -/
def arrived (flight : Noise) (words : List (BitVec 32)) : List (BitVec 32) := words.zipIdx.map (fun x => x.1 ^^^ noiseAt flight x.2)

/-- Listed words as they arrive. -/
def arrivedAt (flight : Noise) (words : WordWrites) : WordWrites := words.map (fun w => (w.1, w.2 ^^^ noiseAt flight w.1))

/-- The GTU drops the writes of a context whose execution it has fenced (R236). -/
def State.fencedAt (s : State) (c : Ctx) (u : UnitId) : Bool := (s.ctx c).exec.fenced.contains u

/-- The tag stored by a write of a job: poison counted, an output captured (R224, R294). -/
def storeTag (s : State) (g : Gtu) (c : Ctx) (blank place : Nat) (t : BitVec 64) : State :=
  captureTag (countPoison (s.setTag (stackOf g) place t) g c (tagState t)) g c blank [2] t

/-- A write found changed in flight: TAG_MISMATCH_WRITE, and the report of R118. -/
def writeMismatch (s : State) (g : Gtu) (c : Ctx) (place : Nat) (st : BitVec 3) (partial_ : BitVec 16) (acc : BitVec 8)
    (ex : Option ExecName := none) : State :=
  reportCause (mgtuEvent s g (some c) 0x4002 .c place st partial_ place acc (place * 4096)) c 4 (uMgtu g) ex

/-- A full write carried out at its place. -/
def fullAt (s : State) (g : Gtu) (c : Ctx) (blank place : Nat) (data : List (BitVec 32)) (tag : BitVec 64) (lineEcc visitEnd : Bool)
    (ex : Option ExecName := none) : State :=
  let s := jobVisit s g c place lineEcc visitEnd
  let r := fullRow (s.keyOf c) (s.tagOf (stackOf g) place) tag (sentWords data)
  let s := storeTag (s.store (stackOf g) place (fullWords data)) g c blank place r.1
  if r.2 then writeMismatch s g c place (tagState r.1) 0 0x02 ex else s

/-- JOB_FULL_WRITE (R109, R111, R115, R116, R126, R235, R236). An array under a pattern sends none (R365). -/
def jobFullWrite (s : State) (g : Gtu) (c : Ctx) (addr : Nat) (data : List (BitVec 32)) (tag : BitVec 64) (lineEcc visitEnd : Bool)
    (writer : Option Arr) (adaptive : Bool) (flight : Noise) (ex : Option ExecName) : State :=
  if s.fencedAt c (uMgtu g) ∨ writer.any s.isolated = true then s
  else
    let s := countChatter s c adaptive
    if outsideJob addr then jobRegion s g c 0x02 addr ex
    else
      let blank := addr / 4096
      let tag := carriedTag s c writer (sentWords data) tag
      let data := arrived flight (sentWords data)
      if !s.retains g c blank then fullAt s g c blank ((s.mgtu.at g).place blank) data tag lineEcc visitEnd ex
      else match (s.mgtu.at g).provisionalOf c blank with
        | some r => fullAt s g c blank r.copy data tag lineEcc visitEnd ex
        | none => match s.freeSlot g c with
          | some slot => fullAt (addSlot s g c blank slot) g c blank slot data tag lineEcc visitEnd ex
          | none => retentionOverflow s g c blank

/-- JOB_FULL_WRITE. -/
def execJobFullWrite (g : Gtu) (c : Ctx) (addr : Nat) (data : List (BitVec 32)) (tag : BitVec 64) (lineEcc visitEnd : Bool)
    (writer : Option Arr) (adaptive : Bool) (s : State) (flight : Noise := []) (ex : Option ExecName := none) : Res :=
  memAccess s g addr (jobFullWrite s g c addr data tag lineEcc visitEnd writer adaptive flight ex)

/-- The old values of the words a partial write names, as delivered (R110). -/
def oldWords (s : State) (stack blank : Nat) (ws : WordWrites) (noise : Noise) : WordWrites :=
  ws.map (fun w => (w.1, s.delivered stack blank noise w.1))

/-- POISON_MEM_ECC raised for a blank whose stored state was `before` (R61, R115). -/
def eccEvent (s : State) (g : Gtu) (c : Option Ctx) (blank : Nat) (before after : BitVec 3) (acc : BitVec 8) : State :=
  mgtuEvent s g c 0x4003 .u blank after (before.setWidth 16) blank acc (blank * 4096)

/-- A partial write carried out at its place. -/
def partialAt (s : State) (g : Gtu) (c : Ctx) (blank place : Nat) (words : WordWrites) (pfp : BitVec 61) (carried : BitVec 3)
    (noise : Noise) (ecc lineEcc visitEnd : Bool) (ex : Option ExecName := none) : State :=
  let s := jobVisit s g c place lineEcc visitEnd
  let stored := s.tagOf (stackOf g) place
  let r := partialRow (s.keyOf c) ecc stored carried pfp words (oldWords s (stackOf g) place words noise)
  let s := storeTag (s.store (stackOf g) place words) g c blank place r.1
  let s := if r.2 then writeMismatch s g c place (tagState r.1) 1 0x03 ex else s
  if ecc then eccEvent s g (some c) place (tagState stored) (tagState r.1) 0x03 else s

/-- RETENTION_COPY (R128): the whole original, checked as a whole-blank read, goes into the slot with its tag and any state R115 gives to
that read; the original and its tag are not touched (R126). No UNTAGGED_READS is counted: it is no job read (log 131). -/
def retentionCopy (s : State) (g : Gtu) (c : Ctx) (blank slot : Nat) (noise : Noise) (ecc lineEcc : Bool) : State :=
  let src := (s.mgtu.at g).place blank
  let s := fetchLine s g (some c) src lineEcc
  let (s, data, r) := checkRead s g (some c) (s.keyOf c) src noise ecc 0x03
  (s.store (stackOf g) slot (fullWords data)).setTag (stackOf g) slot r.stored

/-- JOB_PARTIAL_WRITE (R110, R111, R115, R126, R128, R365). Where it is the first to a retained blank, `lineEcc` is the fetch of the original's
line and `slotEcc` that of the slot's (R104). -/
def jobPartialWrite (s : State) (g : Gtu) (c : Ctx) (addr : Nat) (words : WordWrites) (pfp : BitVec 61) (carried : BitVec 3)
    (noise : Noise) (ecc lineEcc visitEnd : Bool) (writer : Option Arr) (adaptive : Bool) (flight : Noise) (slotEcc : Bool)
    (ex : Option ExecName) : State :=
  if s.fencedAt c (uMgtu g) ∨ writer.any s.isolated = true then s
  else
    let s := countChatter s c adaptive
    if outsideJob addr then jobRegion s g c 0x03 addr ex
    else
      let blank := addr / 4096
      let (pfp, carried) := carriedPartial s c writer words pfp carried
      let words := arrivedAt flight words
      if !s.retains g c blank then partialAt s g c blank ((s.mgtu.at g).place blank) words pfp carried noise ecc lineEcc visitEnd ex
      else match (s.mgtu.at g).provisionalOf c blank with
        | some r => partialAt s g c blank r.copy words pfp carried noise ecc lineEcc visitEnd ex
        | none => match s.freeSlot g c with
          | none => retentionOverflow s g c blank
          | some slot =>
            let s := retentionCopy (addSlot s g c blank slot) g c blank slot noise ecc lineEcc
            partialAt s g c blank slot words pfp carried [] false slotEcc visitEnd ex

/-- JOB_PARTIAL_WRITE. -/
def execJobPartialWrite (g : Gtu) (c : Ctx) (addr : Nat) (words : WordWrites) (pfp : BitVec 61) (carried : BitVec 3)
    (noise : Noise) (ecc lineEcc visitEnd : Bool) (writer : Option Arr) (adaptive : Bool) (s : State) (flight : Noise := []) (slotEcc : Bool := false)
    (ex : Option ExecName := none) : Res :=
  memAccess s g addr (jobPartialWrite s g c addr words pfp carried noise ecc lineEcc visitEnd writer adaptive flight slotEcc ex)

/-! ## Host accesses (R113, R114) -/

/-- HOST_READ: the completion carries EP where the blank is in a POISON state. -/
def hostRead (s : State) (g : Gtu) (c : Option Ctx) (addr : Nat) (noise : Noise) (ecc lineEcc : Bool) : State :=
  if outsideJob addr then (hostRegion s g c 0x04 addr).send (.hostData g true false [])
  else
    let place := (s.mgtu.at g).place (addr / 4096)
    let s := fetchLine s g c place lineEcc
    let (s, data, tag) := gtuRead s g c (s.keyFor c) place noise ecc 0x04
    s.send (.hostData g false (isPoison (tagState tag)) data)

/-- HOST_READ. -/
def execHostRead (g : Gtu) (c : Option Ctx) (addr : Nat) (noise : Noise) (ecc lineEcc : Bool) (s : State) : Res :=
  memAccess s g addr (hostRead s g c addr noise ecc lineEcc)

/-- A context whose open span has captured the blank as W or I (R296). -/
def capturedRole (x : CtxSt) (g : Gtu) (blank : Nat) : Option Nat :=
  x.prv.span.bind (fun sp => [0, 1].find? (fun r =>
    (listedAt sp.plan sp.result r g blank).any (fun pos => sp.caps.any (fun k => k.role = r ∧ k.pos = pos))))

/-- PRV_HOST_WRITE for each open span that captured the blank (R296). -/
def hostWriteNote (s : State) (g : Gtu) (blank : Nat) : State :=
  s.each allCtx (fun s c => match capturedRole (s.ctx c) g blank with
    | none => s
    | some r => (s.onPrv c (fun p => { p with span := p.span.map (fun y => { y with hostWrite := true }) })).emit
        { code := 0x7005, unit := uMgtu g, ctx := some c, p16 := BitVec.ofNat 16 r, p32 := BitVec.ofNat 32 blank })

/-- HOST_POISONED_WRITE where EP was set (R114). -/
def poisonedWrite (s : State) (g : Gtu) (c : Option Ctx) (ep : Bool) (place : Nat) (st : BitVec 3) : State :=
  if ep then mgtuEvent s g c 0x4008 .u place st 0 place 0x05 (place * 4096) else s

/-- HOST_FULL_WRITE: written as received, not retained (R130). -/
def hostFullWrite (s : State) (g : Gtu) (c : Option Ctx) (addr : Nat) (data : List (BitVec 32)) (ep lineEcc : Bool) : State :=
  if outsideJob addr then (hostRegion s g c 0x05 addr).send (.hostDone g true)
  else
    let place := (s.mgtu.at g).place (addr / 4096)
    let s := fetchLine s g c place lineEcc
    let t := hostFullRow (s.keyFor c) ep (s.tagOf (stackOf g) place) (sentWords data)
    let s := (s.store (stackOf g) place (fullWords data)).setTag (stackOf g) place t
    (hostWriteNote (poisonedWrite s g c ep place (tagState t)) g (addr / 4096)).send (.hostDone g false)

/-- HOST_FULL_WRITE. -/
def execHostFullWrite (g : Gtu) (c : Option Ctx) (addr : Nat) (data : List (BitVec 32)) (ep lineEcc : Bool) (s : State) : Res :=
  memAccess s g addr (hostFullWrite s g c addr data ep lineEcc)

/-- HOST_PARTIAL_WRITE. -/
def hostPartialWrite (s : State) (g : Gtu) (c : Option Ctx) (addr : Nat) (words : WordWrites) (ep : Bool) (noise : Noise)
    (ecc lineEcc : Bool) : State :=
  if outsideJob addr then (hostRegion s g c 0x05 addr).send (.hostDone g true)
  else
    let place := (s.mgtu.at g).place (addr / 4096)
    let s := fetchLine s g c place lineEcc
    let stored := s.tagOf (stackOf g) place
    let t := hostPartialRow (s.keyFor c) ep ecc stored words (oldWords s (stackOf g) place words noise)
    let s := (s.store (stackOf g) place words).setTag (stackOf g) place t
    let s := poisonedWrite s g c ep place (tagState t)
    let s := if ecc then eccEvent s g c place (tagState stored) (tagState t) 0x05 else s
    (hostWriteNote s g (addr / 4096)).send (.hostDone g false)

/-- HOST_PARTIAL_WRITE. -/
def execHostPartialWrite (g : Gtu) (c : Option Ctx) (addr : Nat) (words : WordWrites) (ep : Bool) (noise : Noise) (ecc lineEcc : Bool)
    (s : State) : Res :=
  memAccess s g addr (hostPartialWrite s g c addr words ep noise ecc lineEcc)

/-! ## Maintenance accesses -/

/-- A write to VX_MGTU_PROBE (R133). While a probe waits for its slot a write replaces BLANK, which the probe reads when it runs
(log 134). -/
def probeCmd (g : Gtu) (v : Reg) (s : State) : State :=
  s.onMgtu g (fun m =>
    let m := { m with probe := field v 0 25 }
    if flag v 25 then { m with probing := true, done := false, notServed := false } else m)

/-- MGTU_PROBE. -/
def execMgtuProbe (src : Src) (g : Gtu) (v : Reg) (s : State) : Res := .next (gatedWrite s src (0x400018 + 0x1000 * g.val) v (probeCmd g v))

/-- A blank is served by this port of its stack (R103). -/
def servedBy (g : Gtu) (blank : Nat) : Bool :=
  decide (blank < jobRegionBlanks) && serves g.val (blank / 8)

/-- MGTU_PROBE_RUN: the probe in its maintenance slot (R133, R229). -/
def execMgtuProbeRun (g : Gtu) (lineEcc : Bool) (s : State) : Res :=
  let m := s.mgtu.at g
  if !m.probing then .next s
  else if !servedBy g m.probe.toNat then
    .next (s.onMgtu g (fun m => { m with probing := false, done := true, notServed := true, probeTag := 0 }))
  else
    let place := m.place m.probe.toNat
    let s := fetchLine s g none place lineEcc
    .next (s.onMgtu g (fun m => { m with probing := false, done := true, notServed := false, probeTag := s.tagOf (stackOf g) place }))

/-- COPYBACK (R230, R232): a checked read of the slot, a full write of the original with the copy's tag, the entry freed. The copy's key
is the one it was committed under (log 29). `lineEcc` is the fetch of the slot's tag line, `origEcc` that of the original's (R104). -/
def execCopyback (g : Gtu) (c : Ctx) (blank : Nat) (noise : Noise) (ecc lineEcc : Bool) (s : State) (origEcc : Bool := false) : Res :=
  match (s.mgtu.at g).retained.find? (fun r => r.committed && r.ctx = c && r.orig = blank) with
  | none => .next s
  | some r =>
    let s := fetchLine s g (some c) r.copy lineEcc
    let (s, data, tag) := gtuRead s g (some c) r.rho r.copy noise ecc 0x06
    let s := fetchLine s g (some c) blank origEcc
    let w := fullRow r.rho (s.tagOf (stackOf g) blank) tag data
    let s := (s.store (stackOf g) blank (fullWords data)).setTag (stackOf g) blank w.1
    let s := if w.2 then mgtuEvent s g (some c) 0x4002 .c blank (tagState w.1) 0 blank 0x06 (blank * 4096) else s
    .next (s.onMgtu g (fun m => { m with retained := m.retained.erase r }))

end Sys2Proof.Machine
end

