-- ==== Sys2Proof/Machine/Provenance.lean ====
section
/-! DEFINITION. The provenance engine (chapter 09): spans, the hashing of their captures and of full-hashed data, records and their
rings, stalls, and the registers of the driver's fetch. -/

namespace Sys2Proof.Machine

/-! ## Spans (R290, R304) -/

/-- The plan has a provenance section. -/
def Plan.tracks (p : Plan) : Bool := p.extra.results ≠ []

/-- The result point that ends the span of a position: the next one in program order. -/
def Plan.nextResult (p : Plan) (position : Nat) : Option Nat :=
  ((List.range p.q).filterMap (fun i => (p.pos ((position + i) % p.q)).bind (fun x => if x.result then some x.resultNo else none))).head?

/-- The span of a context opened at the start of an execution, unless one is open. -/
def openSpan (s : State) (c : Ctx) (p : Plan) : State :=
  let x := s.ctx c
  match x.prv.span, p.nextResult x.pos.position with
  | none, some r =>
    if p.tracks then
      let sp : Span := { ctx := c, plan := p, hash := x.plan.hash, keyCheck := x.plan.keyCheck, result := r, bank := x.prv.spanNo % 2, first := x.pass.index }
      s.onPrv c (fun v => { v with span := some (noteLinksOf s sp) })
    else s
  | _, _ => s

/-- Canonical positions of a role: N_role. -/
def Span.count (sp : Span) (role : Nat) : Nat :=
  (sp.plan.extra.lists.filter (fun l => l.result = sp.result ∧ l.role = role)).length

/-- The tensors of role F in list order, with their blanks in order. -/
def Span.tensors (sp : Span) : List (Nat × List (Nat × Nat)) :=
  let fs := sp.plan.extra.lists.filter (fun l => l.result = sp.result ∧ l.role = 3)
  ((fs.map (·.tensor)).eraseDups).map (fun t => (t, (fs.filter (fun l => l.tensor = t)).map (fun l => (l.gtu, l.blank))))

/-- Leaves of `n` items, `per` to a leaf. -/
def leafCount (n per : Nat) : Nat := (n + per - 1) / per

/-- Leaves of role F, as (tensor, leaf within the tensor). -/
def Span.fLeaves (sp : Span) : List (Nat × Nat) :=
  sp.tensors.flatMap (fun t => (List.range (leafCount t.2.length 256)).map (fun i => (t.1, i)))

/-- Every leaf of a span in the order of R303: W, I, O, F, then by index. -/
def Span.leaves (sp : Span) : List (Nat × Nat) :=
  ([0, 1, 2].flatMap (fun r => (List.range (leafCount (sp.count r) 131072)).map (fun i => (r, i)))) ++
  (List.range sp.fLeaves.length).map (fun i => (3, i))

/-- The blanks of an F leaf. -/
def Span.leafBlanks (sp : Span) (i : Nat) : List (Nat × Nat × Nat) :=
  match sp.fLeaves[i]? with
  | some (t, k) =>
    match sp.tensors.find? (fun x => x.1 = t) with
    | some x => ((x.2.drop (256 * k)).take 256).map (fun b => (t, b.1, b.2))
    | none => []
  | none => []

/-- The data read for a blank of an F tensor. -/
def Span.dataOf (sp : Span) (t g b : Nat) : Option (List (BitVec 32)) :=
  (sp.full.find? (fun x => x.1 = t ∧ x.2.1 = g * 2 ^ 25 + b)).map (·.2.2)

/-- A leaf can go to a core: an F leaf once its data has arrived. -/
def Span.ready (sp : Span) (leaf : Nat × Nat) : Bool :=
  leaf.1 ≠ 3 || (sp.leafBlanks leaf.2).all (fun x => (sp.dataOf x.1 x.2.1 x.2.2).isSome)

/-! ## Cores (R298, R303) -/

/-- The next leaf for a free core: the first leaf of the first span that has any left, once it is ready; nothing goes out before it. -/
def nextLeaf (spans : List Span) : Option (Span × (Nat × Nat)) :=
  (spans.find? (fun sp => sp.todo ≠ [])).bind (fun sp => sp.todo.head?.bind (fun l => if sp.ready l then some (sp, l) else none))

/-- One free core takes the next leaf. -/
def feedCore (s : State) (k : Fin 8) : State :=
  match s.prv.cores.at k with
  | some _ => s
  | none =>
    match nextLeaf s.prv.spans with
    | none => s
    | some (sp, l) =>
      s.onPrvEng (fun e => { e with
        cores := e.cores.upd k (fun _ => some (sp.id, l.1, l.2))
        spans := e.spans.map (fun y => if y.id = sp.id then { y with todo := y.todo.erase l, busy := y.busy ++ [l] } else y) })

/-- Every free core takes a leaf while there are any. -/
def feedCores (s : State) : State := s.each (List.finRange 8) feedCore

/-! ## The record (R295, R298, R299, R305) -/

/-- The slots of a leaf of captures: its first canonical position and their number. -/
def Span.leafSlots (sp : Span) (role leaf : Nat) : Nat × Nat := (131072 * leaf, min 131072 (sp.count role - 131072 * leaf))

/-- The bytes of captured tags with the state fields cleared, bits [63:61] of each (R295). -/
def clearStates (b : List Byte) : List Byte := b.zipIdx.map (fun x => if x.2 % 8 = 7 then x.1 &&& 0x1F else x.1)

/-- role_digest of R298: the root over the leaf hashes. -/
def rootOf (role n : Nat) (leaves : List (List Byte)) : List Byte :=
  sha3 (ascii "PV" ++ leBytes 1 role ++ leBytes 4 n ++ leaves.flatten)

/-- The hash that a core formed of a leaf. -/
def Span.hashOf (sp : Span) (leaf : Nat × Nat) : List Byte := ((sp.hashes.find? (fun h => h.1 = leaf)).map (·.2)).getD []

/-- The digest of a role of captures. -/
def Span.roleDigest (sp : Span) (role : Nat) : List Byte :=
  rootOf role (sp.count role) ((List.range (leafCount (sp.count role) 131072)).map (fun i => sp.hashOf (role, i)))

/-- FULL_HASH of R299. -/
def Span.fullHash (sp : Span) : List Byte :=
  let digest (t : Nat × List (Nat × Nat)) : List Byte :=
    rootOf 3 t.2.length (((sp.fLeaves.zipIdx).filter (fun x => x.1.1 = t.1)).map (fun x => sp.hashOf (3, x.2)))
  sha3 (ascii "FH" ++ leBytes 2 sp.tensors.length ++ sp.tensors.flatMap digest)

/-- A number saturated into bytes. -/
def satBytes (n v : Nat) : List Byte := leBytes n (min v (2 ^ (8 * n) - 1))

/-- LINK_WIDTHS: two bits per link. -/
def widthBits (ws : List (Lnk × Nat)) : Nat :=
  (ws.map (fun e => (if e.2 = 2 then 1 else if e.2 = 4 then 2 else if e.2 = 8 then 3 else 0) * 4 ^ e.1.val)).sum

/-- The 256 bytes of a span's record (R305). -/
def recordBytes (s : State) (sp : Span) (seq : BitVec 32) : List Byte :=
  let p := sp.plan.core
  let f := sp.tensors.length
  let untagged := (sp.caps.filter (fun k => k.role ≤ 1 ∧ tagState k.tag = tUntagged)).length
  let head := leBytes 2 1 ++ leBytes 1 sp.ctx.val ++
    leBytes 1 (p.primary.toNat + 8 * b2n p.lockstep + 16 * b2n p.relaxed + 32 * b2n (decide (0 < f)) + 64 * b2n sp.chatter.sat + 128 * b2n sp.retry.sat) ++
    leBytes 4 seq.toNat ++ leBytes 6 sp.first.toNat ++ leBytes 6 sp.last.toNat ++ leBytes 2 sp.result ++ leBytes 1 p.level.toNat ++ leBytes 1 p.densePct ++
    leBytes 2 sp.window ++ leBytes 2 sp.keyCheck.toNat ++ leBytes 6 sp.chatter.n.toNat ++ leBytes 6 sp.retry.n.toNat ++ leBytes 8 sp.tick.toNat ++
    leBytes 5 sp.wall.toNat ++ leBytes 1 (s.fuses.product.toNat + 16 * b2n s.fuses.gradeB) ++ leBytes 1 s.fuses.stepping.toNat ++
    leBytes 1 (b2n sp.borrowed + 2 * b2n sp.fenced + 4 * b2n sp.reduced + 8 * b2n sp.hostWrite + 16 * (sp.lost.toNat) + 128 * b2n sp.fullLost) ++
    leBytes 6 (widthBits sp.widths) ++ satBytes 2 untagged ++ satBytes 4 sp.unchased ++ satBytes 4 sp.voids ++ satBytes 4 sp.replays ++
    leBytes 4 (sp.count 0) ++ leBytes 4 (sp.count 1) ++ leBytes 4 (sp.count 2) ++ leBytes 2 f ++ leBytes 2 0
  let role (r : Nat) : List Byte := if sp.lost.getLsbD r then List.replicate 32 0 else sp.roleDigest r
  let tail := role 0 ++ role 1 ++ role 2 ++ sp.hash ++ (if f = 0 ∨ sp.fullLost then List.replicate 32 0 else sp.fullHash)
  head ++ leBytes 4 (crc32c (head ++ tail)).toNat ++ tail

/-! ## Record rings (R306, R307) -/

/-- RING_ENTRIES of a plan. -/
def Plan.ringEntries (p : Plan) : Nat := (p.extra.ring.map (·.2)).getD 0

/-- Sequence numbers after `a` up to `b`; 0xFFFF_FFFF is none of them (R306). -/
def seqsAfter (a b : BitVec 32) : Nat := if b.toNat < a.toNat then (b - a).toNat - 1 else (b - a).toNat

/-- UNACKED: the records written that are newer than ACK_SEQ. -/
def PrvCtx.unacked (x : PrvCtx) : Nat :=
  if x.lastSeq = 0xFFFFFFFF then 0 else if x.ackSeq = 0xFFFFFFFF then x.lastSeq.toNat + 1 else seqsAfter x.ackSeq x.lastSeq

/-- The job address of the ring entry of a record: RECORD_SEQ mod RING_ENTRIES. -/
def Plan.ringAddr (p : Plan) (seq : BitVec 32) : Nat := (p.extra.ring.map (fun r => r.1 + 256 * (seq.toNat % max 1 r.2))).getD 0

/-- A record written at a ring entry; the one that stood there is overwritten. -/
def PrvCtx.put (x : PrvCtx) (addr : Nat) (seq : BitVec 32) : PrvCtx :=
  { x with ring := x.ring.filter (fun e => e.2 ≠ addr) ++ [(seq, addr)], lastSeq := seq, nextSeq := nextNumber seq }

/-- A span's record written into the ring in memory: PRV_RECORD, the context's pending bit, PROVENANCE (R297, R307). -/
def writeRecord (s : State) (sp : Span) : State :=
  let seq := (s.ctx sp.ctx).prv.nextSeq
  let addr := sp.plan.ringAddr seq
  let s := s.engineWrite addr (recordBytes s sp seq)
  let s := s.onPrvEng (fun e => { e with spans := e.spans.filter (fun y => y.id ≠ sp.id) })
  let s := s.onPrv sp.ctx (fun x => x.put addr seq)
  let s := s.emit { code := 0x7001, unit := uPrv, ctx := some sp.ctx, p16 := BitVec.ofNat 16 sp.result, p32 := seq }
  ({ s with irq := { s.irq with prv := s.irq.prv ||| ctxBit sp.ctx } } : State).irqSet irqPrv

/-- The first span whose leaves are done and before which no span of its context waits (R303). -/
def doneSpan (spans : List Span) : Option Span :=
  (spans.zipIdx.find? (fun x => x.1.todo = [] && x.1.busy = [] && !(spans.take x.2).any (fun y => y.ctx = x.1.ctx))).map (·.1)

/-- Records formed for every span that is done. -/
def writeRecords : Nat → State → State
  | 0, s => s
  | n + 1, s => match doneSpan s.prv.spans with
    | some sp => writeRecords n (writeRecord s sp)
    | none => s

/-! ## Stalls (R304) -/

/-- N_role: the largest number of blanks that any result point lists in a role. -/
def Plan.listMax (p : Plan) (role : Nat) : Nat :=
  p.extra.results.foldl (fun m r => max m (p.extra.lists.filter (fun l => l.result = r.number ∧ l.role = role)).length) 0

/-- The bytes a plan gives a bank number, per role: base and length 8·N_role (R293). -/
def Plan.bankRuns (p : Plan) (bank : Nat) : List (Nat × Nat) :=
  (p.extra.banks.filter (fun b => b.bank = bank)).map (fun b => (b.addr, 8 * p.listMax b.role))

/-- Two runs of bytes, each a base and a length, share a byte. -/
def runsMeet (x y : Nat × Nat) : Bool := decide (max x.1 y.1 < min (x.1 + x.2) (y.1 + y.2))

/-- What the context's next span would wait for: 1 a capture bank still being hashed, 2 no free ring entry. -/
def State.stallCause (s : State) (c : Ctx) : BitVec 2 :=
  match s.planOf c with
  | none => 0
  | some p =>
    let x := (s.ctx c).prv
    if !p.tracks ∨ x.span.isSome then 0
    else
      let runs := p.bankRuns (x.spanNo % 2)
      if s.prv.spans.any (fun sp => (sp.plan.bankRuns sp.bank).any (fun r => runs.any (runsMeet r))) then 1
      else if p.ringEntries ≤ x.unacked + (s.prv.spans.filter (fun sp => sp.ctx = c)).length then 2 else 0

/-- A context begins to wait. -/
def stall (s : State) (c : Ctx) : State :=
  let k := s.stallCause c
  if k = 0 then s else s.onPrv c (fun x => { x with stalled := true, cause := k, stallFrom := s.time.tick })

/-- Contexts whose wait has ended are released: PRV_STALL with the cause and the wait. -/
def unstall (s : State) (c : Ctx) : State :=
  if s.stallCause c = 0 then endStall s c
  else if (s.ctx c).prv.stalled then s.onPrv c (fun y => { y with cause := s.stallCause c }) else s

/-- Work of the cores carried on: leaves handed out, finished spans recorded, waits ended. -/
def provAdvance (s : State) : State :=
  let s := feedCores s
  let s := writeRecords s.prv.spans.length s
  s.each allCtx unstall

/-! ## Commits and spans -/

/-- What a commit notes in the open span: the window in force, borrowing, the links (R264, R305). -/
def noteCommit (s : State) (c : Ctx) (p : Plan) : State :=
  let x := s.ctx c
  s.onPrv c (fun v => { v with span := v.span.map (fun sp =>
    noteLinksOf s { sp with window := max sp.window (x.windowMax p), borrowed := sp.borrowed || x.pos.rowStep ≠ [] }) })

/-- The commit of a result point closes its span: its record begins, and the context may wait for its next span (R290, R304). -/
def closeSpan (s : State) (c : Ctx) : State :=
  let x := s.ctx c
  match x.prv.span with
  | none => s
  | some sp =>
    let sp := { sp with last := x.pass.index, chatter := x.bar.chatter, retry := x.bar.retry, tick := s.time.tick, wall := s.time.wall }
    let s := s.onPrv c (fun v => { v with span := none, spanNo := v.spanNo + 1 })
    let s := s.onPrvEng (fun e => { e with spans := e.spans ++ [{ sp with id := e.made, todo := sp.leaves }], made := e.made + 1 })
    stall (provAdvance s) c

/-- A plan load or an unload drops the open span: PRV_SPAN_DROPPED (R292). -/
def dropSpan (s : State) (c : Ctx) (report : Bool) : State :=
  match (s.ctx c).prv.span with
  | none => s
  | some sp =>
    let s := s.onPrv c (fun v => { v with span := none })
    if report then s.emit { code := 0x7004, unit := uPrv, ctx := some c, p16 := BitVec.ofNat 16 sp.result, p32 := sp.first.setWidth 32 } else s

/-! ## Commands -/

/-- The canonical position of a leaf's first slot. -/
def Span.firstSlot (sp : Span) (role leaf : Nat) : Nat :=
  if role = 3 then ((List.range leaf).map (fun i => (sp.leafBlanks i).length)).sum else leaf * 131072

/-- The bytes a core hashes for a leaf: captured tags as they stand in the bank, read without a key (R297), or the data of an F leaf as its
full-hash reads delivered it (R299). -/
def leafBytes (s : State) (sp : Span) (role leaf : Nat) (read : JobRead) : List Byte × Bool × State :=
  if role = 3 then
    ((sp.leafBlanks leaf).flatMap (fun b => ((sp.dataOf b.1 b.2.1 b.2.2).getD []).flatMap (fun w => leBytes 4 w.toNat)), read.errors ≠ [], s)
  else
    let k := sp.leafSlots role leaf
    let (b, s) := engineRead s (sp.plan.bankAddr role sp.bank + 8 * k.1) (8 * k.2) read
    (clearStates b, JobRead.ecc read (8 * k.2), s)

/-- A leaf done: its hash kept; a read error loses the role (R297, R298). -/
def Span.finish (sp : Span) (role leaf : Nat) (hash : List Byte) (bad : Bool) : Span :=
  let y := { sp with busy := sp.busy.erase (role, leaf), hashes := sp.hashes ++ [((role, leaf), hash)] }
  if !bad then y else if role = 3 then { y with fullLost := true } else { y with lost := y.lost ||| (1#3 <<< role) }

/-- PRV_LEAF_DONE (R297, R298, R303): a core's leaf ends; a bank read error loses the role. -/
def execPrvLeafDone (core : Fin 8) (read : JobRead) (s : State) : Res :=
  match s.prv.cores.at core with
  | none => .next s
  | some (id, role, leaf) =>
    let s := s.onPrvEng (fun e => { e with cores := e.cores.upd core (fun _ => none) })
    match s.prv.spans.find? (fun sp => sp.id = id) with
    | none => .next s
    | some sp =>
      let (bytes, bad, s) := leafBytes s sp role leaf read
      let s := s.onPrvEng (fun e => { e with spans := e.spans.map (fun y => if y.id = id then y.finish role leaf (sha3 bytes) bad else y) })
      let s := if bad then s.emit { code := 0x7003, cls := .c, unit := BitVec.ofNat 16 (0x7300 + core.val), ctx := some sp.ctx,
                                    p16 := BitVec.ofNat 16 role, p32 := BitVec.ofNat 32 (sp.firstSlot role leaf) } else s
      .next (provAdvance s)

/-- The data of a full-hash read taken into a span (R299). -/
def addFull (tensor key : Nat) (data : List (BitVec 32)) (bad : Bool) (sp : Span) : Span :=
  { sp with full := sp.full.filter (fun x => !(x.1 = tensor ∧ x.2.1 = key)) ++ [(tensor, key, data)], fullLost := sp.fullLost || bad }

/-- The span lists a blank of a tensor under role F. -/
def Span.wants (sp : Span) (tensor : Nat) (g : Gtu) (blank : Nat) : Bool :=
  sp.plan.extra.lists.any (fun l => l.result = sp.result && l.role = 3 && l.tensor = tensor && l.gtu = g.val && l.blank = blank)

/-- The blank is an output of the span's result: it is hashed after the result point's commit (R300). -/
def Span.outputs (sp : Span) (g : Gtu) (blank : Nat) : Bool := listedAt sp.plan sp.result 2 g blank ≠ []

/-- FULL_HASH_READ (R299, R300): a keyed whole-blank read for a span that lists the tensor under role F: an output for the span that has
closed, a weight or an input for the open span. -/
def execFullHashRead (g : Gtu) (c : Ctx) (tensor : Nat) (blank : Nat) (noise : Noise) (ecc lineEcc : Bool) (s : State) : Res :=
  let closed := s.prv.spans.find? (fun sp => sp.ctx = c && sp.wants tensor g blank && sp.outputs g blank)
  let inOpen : Bool := match (s.ctx c).prv.span with | some sp => sp.wants tensor g blank && !sp.outputs g blank | none => false
  if closed.isNone && !inOpen || !servedBy g blank || decide (s.ports ≤ g.val) then .next s
  else
    let place := (s.mgtu.at g).readPlace c blank
    let s := fetchLine s g (some c) place lineEcc
    let (s, data, tag) := gtuRead s g (some c) (s.keyOf c) place noise ecc 0x06
    let s := s.send (.fullHashData g blank tag)
    let take := addFull tensor (g.val * 2 ^ 25 + blank) data (isPoison (tagState tag))
    .next (match closed with
      | some sp => provAdvance (s.onPrvEng (fun e => { e with spans := e.spans.map (fun y => if y.id = sp.id then take y else y) }))
      | none => s.onPrv c (fun p => { p with span := p.span.map take }))

/-- A write to VX_PRV_CTX_ACK (R310): accepted under the order of R404, refused otherwise; a refusal goes to MC's log. -/
def ctxAck (src : Src) (c : Ctx) (v : Reg) (s : State) : State :=
  let x := (s.ctx c).prv
  let seq : BitVec 32 := field v 0 32
  let ok := x.lastSeq ≠ 0xFFFFFFFF && seq ≠ 0xFFFFFFFF && decide (seqDiff seq x.lastSeq ≤ 0) &&
    (x.ackSeq = 0xFFFFFFFF || decide (seqDiff x.ackSeq seq ≤ 0))
  if ok then (s.onPrv c (fun y => { y with ackSeq := seq, refused := false })).each allCtx unstall
  else (s.onPrv c (fun y => { y with refused := true })).logRefusal mc (some c) src (0x700200 + 8 * c.val)

/-- PRV_CTX_ACK. -/
def execPrvCtxAck (src : Src) (c : Ctx) (v : Reg) (s : State) : Res :=
  .next (gatedWrite s src (0x700200 + 8 * c.val) v (ctxAck src c v))

/-- A write to VX_PRV_READ_SEL (R310). -/
def prvReadSel (v : Reg) (s : State) : State :=
  s.onPrvEng (fun e => { e with selCtx := field v 0 5, selSeq := field v 5 32, going := e.going || flag v 37, done := e.done && !flag v 37 })

/-- PRV_READ_GO. -/
def execPrvReadGo (src : Src) (v : Reg) (s : State) : Res := .next (gatedWrite s src 0x700408 v (prvReadSel v))

/-- PRV_READ_DONE: the record is presented as it stands in the ring, or it is ABSENT. -/
def execPrvReadDone (s : State) (read : JobRead := {}) : Res :=
  if !s.prv.going then .next s
  else match (s.ctx (Fin.ofNat 32 s.prv.selCtx.toNat)).prv.ring.find? (fun e => e.1 = s.prv.selSeq) with
    | some (_, addr) =>
      let (b, s) := engineRead s addr 256 read
      .next (s.onPrvEng (fun e => { e with going := false, done := true, absent := false, data := b }))
    | none => .next (s.onPrvEng (fun e => { e with going := false, done := true, absent := true, data := [] }))

end Sys2Proof.Machine
end

