-- ==== Sys2Proof/Machine/PassOps.lean ====
section
/-! DEFINITION. The commit unit (chapter 07) and the lock-step half it decides with (chapter 08): targets, the conditions of a commit,
the digest and its comparison, the injection of COMMIT with either verdict, the end of an abort drain. -/

namespace Sys2Proof.Machine

/-! ## Targets and counts -/

/-- Units that receive a context's PARTING and COMMIT (R66, R313): the plan's fence domain, where an array a spare has replaced gives way
to the spare. -/
def State.fenceTargets (s : State) (c : Ctx) : List UnitId :=
  match s.planOf c with
  | none => []
  | some p =>
    let gone (u : UnitId) : Bool := match finOf 624 (uIndex u) with
      | some a => (s.shd.rows.at (rowOf a)).gone.contains (colOf a)
      | none => false
    ((p.cover.targets.filter (fun u => uClass u ≠ 0 || !gone u)) ++ (p.core.owned.filterMap (fun o => (s.physOf o.logical).map uArr))).eraseDups

/-- A context's count in a list. -/
def countFor (xs : List (Ctx × Nat)) (c : Ctx) : Nat := ((xs.find? (fun e => e.1 = c)).map (·.2)).getD 0

/-- The running poison counts of a context over every GTU (R224). -/
def State.poisonCount (s : State) (c : Ctx) : Nat :=
  ((List.finRange 40).map (fun g => countFor (s.mgtu.at g).poison c)).sum + ((List.finRange 24).map (fun l => countFor (s.lgtu.at l).poison c)).sum

/-! ## The tile and shadow conditions (R224) -/

/-- Tiles of the slots that a pass runs on a borrowing row: of the count of the step's position, that of the whole step, the part of the
slots of this half, by the tiles of their work items (R208, R224; log 139). -/
def Plan.borrowedTiles (p : Plan) (e : Row × Nat × Bool) : Nat :=
  let tiles (y : Slot × Nat) : Nat := ((p.work.slots[y.2]?).map (·.2)).getD 1
  if (p.borrowedSlots e).length = (p.stepSlots e.1 e.2.1).length then
    ((p.core.counts.find? (fun k => k.holder = 1 && k.index = e.1.val && k.position = e.2.1 % p.q)).map (·.tiles)).getD 0
  else ((p.borrowedSlots e).map tiles).sum

/-- The tiles that the array serving a borrowing row owes in this pass (R210, R224). -/
def State.borrowedNeed (s : State) (c : Ctx) (p : Plan) (e : Row × Nat × Bool) : Option (Arr × Nat) :=
  if p.core.counts.any (fun k => k.holder = 1 && k.index = e.1.val) then (s.runnerIn c e.1).map (fun a => (a, p.borrowedTiles e)) else none

/-- A tile count at the array that holds its position now: none where the plan gives no count for what runs (R224, R245, R210); the
count of a borrowing row follows its step (`borrowedNeed`). -/
def State.countAt (s : State) (c : Ctx) (k : TileCount) : Option (Arr × Nat) :=
  if k.holder = 0 then (s.physOf k.index).map (fun a => (a, k.tiles))
  else (finOf 24 k.index).bind (fun r =>
    if k.holder = 1 then
      (if (s.ctx c).pos.rowStep.any (fun e => e.1 = r) then none else (s.runnerIn c r).map (fun a => (a, k.tiles)))
    else if k.holder = 3 ∧ (s.ctx c).exec.refRan.contains r then
      (if (s.shd.rows.at r).reserve = 31 then none else some (arrOf r (s.shd.rows.at r).reserve.toNat, k.tiles))
    else none)

/-- The plan counts tiles of a row's chase slots at the context's position (R493). -/
def State.chaseCounted (s : State) (c : Ctx) (p : Plan) (r : Row) : Bool :=
  p.core.counts.any (fun k => k.position = (s.ctx c).pos.position && k.holder = 2 && k.index = r.val)

/-- Every tile count of the context's position; where the plan counts a row's chase slots, one tile for each chase the execution filled. -/
def State.tileNeeds (s : State) (c : Ctx) (p : Plan) : List (Arr × Nat) :=
  ((p.core.counts.filter (fun k => k.position = (s.ctx c).pos.position)).filterMap (s.countAt c)) ++
  (s.ctx c).pos.rowStep.filterMap (s.borrowedNeed c p) ++
  ((s.ctx c).cov.chases.filter (fun o => s.chaseCounted c p o.1)).filterMap (fun o => (s.runnerIn c o.1).map (fun a => (a, 1)))

/-- Sum of the entries of an array. -/
def sumAt (xs : List (Arr × Nat)) (a : Arr) : Nat := ((xs.filter (fun e => e.1 = a)).map (·.2)).sum

/-- COVERS of an array, with what the array that took its shadow role in the middle of the execution has sent beyond its own counts
(R216). -/
def State.coversAt (s : State) (c : Ctx) (needs : List (Arr × Nat)) (a : Arr) : Nat :=
  let x := (s.ctx c).exec
  let heir := (x.runners.find? (fun e => e.2 = some a)).bind (fun e => (s.shadowRunner e.1).filter (· ≠ a))
  sumAt x.covers a + (match heir with | some b => sumAt x.covers b - sumAt needs b | none => 0)

/-- The array, lowest first, whose COVERS fall short of its count; in MONITOR, one whose port sent a bad verdict or was reset. -/
def State.tileShort (s : State) (c : Ctx) (p : Plan) : Option Arr :=
  let x := (s.ctx c).exec
  let short := if p.isMonitor then x.badPorts
    else
      let needs := s.tileNeeds c p
      (needs.map (·.1)).filter (fun a => decide (s.coversAt c needs a < sumAt needs a))
  short.foldl (fun m a => match m with | some b => if a.val < b.val then some a else some b | none => some a) none

/-- A slot of the execution, mirrors included, whose comparisons, one for each output blank of its work item, have not all been made
(R192, R194, R214): the pair. -/
def CtxSt.slotMissing (x : CtxSt) (p : Plan) : Option (Nat × Nat) :=
  let ys := x.slotsRun p
  (ys.find? (fun y =>
    decide ((x.exec.compares.filter (fun k => k.1 = y.1.logical && k.2.1.toNat = y.1.cls && k.2.2 ≠ .chase)).length <
      ((ys.filter (fun z => z.1.logical = y.1.logical && z.1.cls = y.1.cls)).map p.slotBlanks).sum))).map (fun y => (y.1.logical, y.1.cls))

/-- Output blanks that a chase of a tile compares (R205, R493). -/
def Plan.chaseBlanks (p : Plan) (position logical : Nat) (seq : BitVec 32) : Nat :=
  (p.cover.chaseTiles.zipIdx.filter (fun t => t.1.position = position && t.1.logical = logical && t.1.seq = seq.toNat)).foldl
    (fun n t => n + (p.cover.chaseOuts.filter (fun o => o.1 = t.2)).length) 0

/-- The logical array of a filled chase slot whose comparisons have not all been made (R206, R214). -/
def CtxSt.chaseMissing (x : CtxSt) (p : Plan) : Option Nat :=
  let need (l : Nat) : Nat := ((x.cov.chases.filter (fun o => o.2.1 = l)).map (fun o => p.chaseBlanks x.pos.position l o.2.2)).sum
  (x.cov.chases.map (fun o => o.2.1)).find? (fun l => decide ((x.exec.compares.filter (fun k => k.1 = l && k.2.2 = .chase)).length < need l))

/-- A shadow, mirror or chase comparison of the execution that has not come: its pair, a chase in class 5 (R214, R224). -/
def CtxSt.compareOwing (x : CtxSt) (p : Plan) : Option (Nat × Nat) := x.slotMissing p <|> (x.chaseMissing p).map (fun l => (l, 5))

/-- The array that runs the slot of a pair in the execution; a chase runs on the row's shadow spare. -/
def State.pairRunner (s : State) (c : Ctx) (p : Plan) (k : Nat × Nat) : Option Arr :=
  match ((s.ctx c).slots p).find? (fun y => y.logical = k.1 && y.cls = k.2) with
  | some y => s.slotArray c y
  | none => (logRow k.1).bind (s.runnerIn c)

/-- The tile and shadow conditions assessed: a shortfall is the verdict not produced (R224). -/
def assess (s : State) (c : Ctx) (p : Plan) : State :=
  if (s.ctx c).exec.cause.isSome then s
  else match s.tileShort c p with
    | some a => noteCatch (noteCause s c 3 (uArr a)) c (uArr a) none none
    | none => match (s.ctx c).compareOwing p with
      | some k => compareMissing s c k.1 (BitVec.ofNat 3 k.2) (((s.pairRunner c p k).map (·.val)).getD 0x3FF)
      | none => s

/-! ## The digest (R278 to R283, R286) -/

/-- σ of a pass (R278). -/
def digestKey (seed : List Byte) (pass : BitVec 48) : Nat :=
  1 + hashBits (sha3 (ascii "LD" ++ seed ++ leBytes 6 pass.toNat)) 0 128 % (p61 - 1)

/-- D of an execution's output writes (R279). -/
def digestOf (seed : List Byte) (pass : BitVec 48) (writes : List (BitVec 61)) : BitVec 61 := res61 (digestSum (digestKey seed pass) writes)

/-- The digests of the segments of 4,096 writes (R286), each over its own write indices. -/
def segmentDigests (sigma : Nat) (writes : List (BitVec 61)) : List (BitVec 61) :=
  (List.range (leafCount writes.length 4096)).map (fun g =>
    let part := (writes.drop (4096 * g)).take 4096
    res61 (mul61 (digestSum sigma part) (pow61 sigma (4096 * g))))

/-- The pair of a context's plan. -/
def State.pairOf (s : State) (c : Ctx) : Option Pair := (s.planOf c).bind (fun p => p.extra.pair)

/-- A lock-step frame sent over the route in use (R265, R281). -/
def sendPair (s : State) (c : Ctx) (x : Ctl) : State :=
  match s.pairOf c with
  | some pr => s.sendCtl (.partner (BitVec.ofNat 16 pr.chip) (BitVec.ofNat 8 pr.ctx) (s.pairOnAlt pr)) x
  | none => s

/-- An event of the lock-step comparator (R288). -/
def lscEv (s : State) (c : Ctx) (code : BitVec 16) (cls : Cls) (p16 : BitVec 16) (p32 : BitVec 32) : Ev :=
  { code, cls, unit := uLsc, ctx := some c, p16, p32, acc := 0x12, addr := (s.ctx c).pass.index.setWidth 64 }

/-- The two digests of a round differ (R283, R286): abort with reason 6, LOCKSTEP_MISMATCH, the next round; the segments of a hunt that
was armed go to the partner. -/
def digestMismatch (s : State) (c : Ctx) : State :=
  let x := s.ctx c
  let sigma := digestKey ((s.planOf c).map (fun p => p.core.seed) |>.getD []) x.pass.index
  let s := noteCause s c 6 (s.commitUnit c)
  let s := s.emit (lscEv s c 0x600B .c (x.lsc.round.setWidth 16) (x.pass.index.setWidth 32))
  let s := s.onPass c (fun p => { p with holdDigest := false })
  let s := s.onLsc c (fun l => { l with round := l.round + 1, mismatches := bump l.mismatches, waiting := false, partner := none, own := none,
                                        equal := false, hunt := true, sentSegs := x.lsc.hunt })
  let s := if x.lsc.hunt then sendPair s c (.segments (segmentDigests sigma x.lsc.area)) else s
  settle s c

/-- The partner's digest compared with the local one of the same pass and round (R282, R283). -/
def compareDigests (s : State) (c : Ctx) : State :=
  let x := s.ctx c
  match x.lsc.own, x.lsc.partner with
  | some d, some f =>
    if f.pass ≠ x.pass.index ∨ f.round ≠ x.lsc.round then s
    else if f.digest = d then
      settle ((s.onLsc c (fun l => { l with equal := true, waiting := false })).onPass c (fun p => { p with holdDigest := false })) c
    else digestMismatch s c
  | _, _ => s

/-- The DIGEST frame of an execution that has met the first three conditions of R224, sent once (R281). -/
def sendDigest (s : State) (c : Ctx) (p : Plan) : State :=
  let x := s.ctx c
  match p.extra.pair with
  | none => s
  | some pr =>
    if !p.core.lockstep ∨ x.lsc.own.isSome ∨ x.exec.cause.isSome ∨ x.exec.poison ≠ 0 ∨ (s.tileShort c p).isSome ∨ (x.compareOwing p).isSome then s
    else
      let d := digestOf p.core.seed x.pass.index x.lsc.writes
      let f : DigestFrame := { ctx := Fin.ofNat 32 pr.ctx, round := x.lsc.round, replay := x.pass.replay, pass := x.pass.index,
                               n := BitVec.ofNat 32 x.lsc.writes.length, pairCheck := pr.check, digest := d,
                               segments := if x.lsc.hunt then BitVec.ofNat 16 (leafCount x.lsc.writes.length 4096) else 0 }
      compareDigests (sendPair (s.onLsc c (fun l => { l with own := some d })) c (.digest (digestWord f))) c

/-! ## The abort (R237, R240, R252) -/

/-- COMMIT with the verdict abort is injected: PASS_ABORT, the poison latches clear (R117), the drain begins, the driver is told. -/
def abortNow (s : State) (c : Ctx) (k : AbortCause) : State :=
  let x := (s.ctx c).pass
  let s := s.onPass c (fun p => { p with st := .aborting, aborts := bump p.aborts, holdFw := false, holdDigest := false, holdSub := false })
  let s := s.onExec c (fun e => { e with injected := true, committed := false, tokenWait := false, quiet := [] })
  let s := s.onLsc c (fun l => { l with waiting := false })
  let s := s.onTag c (fun t => { t with latches := [] })
  let s := s.send (.commit c x.index false)
  let s := s.emit (passEv s c 0x5001 .record k.unit (k.reason.setWidth 16 ||| (x.replay.setWidth 16 <<< 4)))
  s.notifyPass c

/-- Poison consumed (R247): CONTEXT_POISONED, aborted with reason 8 and stopped. -/
def contextPoisoned (s : State) (c : Ctx) (n : Nat) : State :=
  let s := s.emit (passEv s c 0x5007 .u (s.commitUnit c) (satBits 16 n))
  let s := s.onExec c (fun e => { e with stopAfter := e.stopAfter <|> some 0x5007, cause := some { reason := 8, unit := s.commitUnit c } })
  abortNow s c { reason := 8, unit := s.commitUnit c }

/-! ## The commit (R228) -/

/-- A memory GTU's provisional entries of a context become committed; a newer entry supersedes an older one of the same original (R229). -/
def Mgtu.commitCopies (c : Ctx) (m : Mgtu) : Mgtu :=
  let new := m.retained.filter (fun r => r.ctx = c && !r.committed)
  let kept := m.retained.filter (fun r => !(r.committed && new.any (fun n => n.orig = r.orig)))
  { m with retained := kept.map (fun r => if r.ctx = c then { r with committed := true } else r) }

/-- The step counter of a borrowing row advances at every second commit (R200, R208). -/
def stepRow : Row × Nat × Bool → Row × Nat × Bool
  | (r, n, true) => (r, n + 1, false)
  | (r, n, false) => (r, n, true)

/-- The position and the step counters after a commit (R200, R201). -/
def PosSt.next (q : Nat) (x : PosSt) : PosSt :=
  { x with position := (x.position + 1) % q, step := x.step + 1, rowStep := x.rowStep.map stepRow }

/-- The pairs whose comparisons all matched have their last clean sample in this pass (R203). -/
def CovSt.commit (x : CovSt) (pass : BitVec 48) (w : Nat) : CovSt :=
  let good := (x.clean.filter (fun e => !x.dirty.contains e)).eraseDups
  { x.logChases pass w with
    lastClean := x.lastClean.filter (fun e => !good.contains (e.1, e.2.1)) ++ good.map (fun e => (e.1, e.2, pass)), clean := [], dirty := [] }

/-- The shadows of a primary's slots whose catch the replay decided transient: they enter the history too (R216, R350). -/
def shadowsTransient (s : State) (c : Ctx) (u : UnitId) : State :=
  s.each ((s.ctx c).exec.caught.filter (fun k => !k.settled && s.primaryOf k.slot.logical = u)) (fun s k =>
    s.histPut { unit := uArr k.slot.shadow, act := .confirm, event := 0x5003, pass := (s.ctx c).pass.index.setWidth 32, ctx := some c })

/-- A catch that did not repeat is transient: recorded, counted, entered in the histories (R242, R350). -/
def catchTransient (c : Ctx) (replay : BitVec 8) (s : State) (k : OpenCatch) : State :=
  if k.repeated then s
  else
    let s := s.emit (passEv s c 0x5003 .record k.unit (replay.setWidth 16))
    let s := s.onPass c (fun p => { p with transient := bump p.transient })
    shadowsTransient (histCatch s c k .confirm 0x5003 .confirm) c k.unit

/-- A link that the plan's static routes use is fenced: notices go over their alternate routes (R265; log 145). -/
def State.noticesOnAlt (s : State) (p : Plan) : Bool := (List.finRange 24).any (fun l => p.usesLink l.val && (s.lgtu.at l).fenced)

/-- COMMIT_NOTICE to each consumer chip of the pass, on the route of its blanks (R265, R268). -/
def sendNotices (s : State) (c : Ctx) (p : Plan) : State :=
  s.each (p.core.consumers.filter (fun k => k.position = (s.ctx c).pos.position)) (fun s k =>
    s.sendCtl (.chip (BitVec.ofNat 16 k.chip) (s.noticesOnAlt p)) (.commitNotice (BitVec.ofNat 8 k.ctx) (s.ctx c).pass.index))

/-- A notification of commits under NOTIFY_EVERY (R251). -/
def notifyCommit (s : State) (c : Ctx) : State :=
  let x := (s.ctx c).pass
  if x.notifyEvery ≠ 0 ∧ x.sincePlan % x.notifyEvery.toNat = 0 then s.notifyPass c else s

/-- COMMIT_HELD where the commit waited for the readiness token (R227): the hold counts from the end marker. -/
def commitHeld (s : State) (c : Ctx) : State :=
  let e := (s.ctx c).exec
  if e.tokenWait then
    s.emit { passEv s c 0x500B .record (s.commitUnit c) 2 with p32 := satBits 32 ((s.time.tick - e.endTick).toNat / 1000) }
  else s

/-- A stop that waited for the COMMIT acts (R249). -/
def stopDue (s : State) (c : Ctx) : State :=
  match (s.ctx c).exec.stopAfter with
  | some ev => enterStopped s c ev
  | none => s

/-- COMMIT with the verdict commit is injected (R228). `hold` keeps the context HELD for the firmware (R450). -/
def commitNow (s : State) (c : Ctx) (p : Plan) (hold : Bool) : State :=
  let x := s.ctx c
  let n := x.pass.index
  let s := (commitHeld s c).send (.commit c n true)
  let s := s.each x.exec.catches (catchTransient c x.pass.replay)
  let s := sendNotices s c p
  let s := noteCommit s c p
  let s := if (p.pos x.pos.position).any (fun q => q.result) then closeSpan s c else s
  let s := { s with mgtu := s.mgtu.mapAll (fun _ m => m.commitCopies c) }
  let s := s.onCov c (fun v => v.commit n p.core.window)
  let s := s.onTag c (fun t => { t with latches := [] })
  let s := s.onPos c (fun q => q.next p.q)
  let s := s.onPlan c (fun q => { q with fresh := false })
  let s := s.onLsc c (fun l => { l with past := l.own.map (fun d => (n, l.round, d)), round := 0, partner := none, own := none, equal := false, waiting := false, hunt := false, sentSegs := false, locus := none, segment := none })
  let s := s.onExec c (fun e => { e with
    injected := true, committed := true, catches := [], caught := [], used := none, got := [], tokenWait := false
    done := if x.pass.replay = 0 then e.done else e.done ++ [(n, x.pass.replay)] })
  let s := s.onPass c (fun q => { q with index := n + 1, commitCount := n + 1, sincePlan := q.sincePlan + 1, holdFw := hold, holdDigest := false })
  stopDue (settle (notifyCommit s c) c) c

/-- The home pass controller runs or restarts, and has not posted the token of the next pass (R227, R448). -/
def State.tokenMissing (s : State) (c : Ctx) : Bool :=
  let st := (s.fwp.procs.at (pcOf (s.home c))).state
  (st = .run || st = .restarting) && decide ((s.ctx c).exec.token.toNat < (s.ctx c).pass.index.toNat + 1)

/-- A clean commit waits for the token: HELD with cause firmware restart. -/
def waitToken (s : State) (c : Ctx) : State :=
  if (s.ctx c).exec.tokenWait then s
  else settle ((s.onExec c (fun e => { e with tokenWait := true })).onPass c (fun p => { p with holdFw := true })) c

/-- The decision on an execution whose conditions are all known (R225, R227); `waived`: 5 ms have passed without the token, and the commit
is issued without it (R448, R450). -/
def decideClean (s : State) (c : Ctx) (p : Plan) (waived : Bool) : State :=
  let s := sendDigest s c p
  match (s.ctx c).exec.cause with
  | some k => abortNow s c k
  | none =>
    if p.core.lockstep ∧ !(s.ctx c).lsc.equal then s
    else if s.tokenMissing c then (if waived then commitNow s c p true else waitToken s c)
    else commitNow s c p false

/-- The decision at the injection cycle, on the reports present then (R224 to R226). -/
def decideCommit (s : State) (c : Ctx) (p : Plan) (waived : Bool) : State :=
  let s := assess s c p
  match (s.ctx c).exec.cause with
  | some k => abortNow s c k
  | none =>
    if (s.ctx c).exec.poison ≠ 0 then contextPoisoned s c (s.ctx c).exec.poison
    else decideClean s c p waived

/-! ## The end of the drain (R233, R237, R244) -/

/-- A memory GTU discards a context's provisional entries and ends its visits. -/
def Mgtu.discard (c : Ctx) (m : Mgtu) : Mgtu :=
  { m with retained := m.retained.filter (fun r => !(r.ctx = c && !r.committed)), visits := m.visits.filter (fun v => v.owner ≠ some c) }

/-- A witness port drops a context's open tiles, its open group and its operand blanks in progress (R181); the debt may reach 0 (R170). -/
def Port.drop (c : Ctx) (p : Port) : Port :=
  ({ p with cur := p.cur.filter (fun t => t.desc.ctx ≠ c), park := p.park.filter (fun t => t.desc.ctx ≠ c), group := p.group.filter (fun g => g.ctx ≠ c)
            blanks := p.blanks.filter (fun k => k.exec.1 ≠ c), watched := p.watched.filter (fun t => t.desc.ctx ≠ c) } : Port).closeAtZero

/-- The copies a memory GTU discards with a context's provisional entries (R129, R233). -/
def Mgtu.discarded (c : Ctx) (m : Mgtu) : List Retention := m.retained.filter (fun r => r.ctx = c && !r.committed)

/-- The tags of the discarded copies go with them (R129; log 54). -/
def clearCopies (s : State) (c : Ctx) : State :=
  s.each (List.finRange 40) (fun s g => s.each ((s.mgtu.at g).discarded c) (fun s r => s.setTag (stackOf g) r.copy emptyTag))

/-- What the end of an abort drain does (R117, R129, R233, R237). -/
def drainEffects (s : State) (c : Ctx) : State :=
  let s := (clearCopies s c).onTag c (fun t => { t with latches := [] })
  let s := { s with mgtu := s.mgtu.mapAll (fun _ m => m.discard c) }
  let s := s.onWce (fun w => { w with ports := w.ports.mapAll (fun _ p => p.drop c) })
  s.onExec c (fun e => { e with compares := [] })

/-- An execution that aborted with REPLAYS_SINCE_START at 3 is not replayed: REPLAY_LIMIT, and the context stops (R244). -/
def replayLimit (s : State) (c : Ctx) : State :=
  if (s.ctx c).pass.sinceStart = 3 then
    (s.emit (passEv s c 0x5006 .u (s.commitUnit c) ((s.ctx c).pass.replay.setWidth 16))).onExec c (fun e => { e with stopAfter := e.stopAfter <|> some 0x5006 })
  else s

/-- The drain has ended: a stop, the replay limit, or a replay. -/
def drainEnd (s : State) (c : Ctx) : State :=
  let s := replayLimit (drainEffects s c) c
  match (s.ctx c).exec.stopAfter with
  | some ev => enterStopped s c ev
  | none =>
      settle ((s.onExec c (fun e => { e with replayDue := true, replaySent := false })).onPass c (fun p => { p with st := .boundary })) c

end Sys2Proof.Machine
end

