-- ==== Sys2Proof/Machine/Passes.lean ====
section
/-! DEFINITION. Passes of a context (chapter 07): the start and end of an execution, the reports and the decision at the commit unit, the
abort drain and replays, the driver's commands, and the substitution of a spare at a boundary (R243, R357). -/

namespace Sys2Proof.Machine

/-! ## The start of an execution (R223, R269, R271, R304, R232) -/

/-- The pass the context stands before is a barrier pass (R271, R321); a replay of it does not wait again. -/
def CtxSt.needsBarrier (x : CtxSt) (p : Plan) : Bool :=
  p.extra.group.isSome && !x.exec.replayDue &&
  (x.plan.fresh || (p.pos x.pos.position).any (fun q => q.barrier) || p.extra.barrierPos.contains x.pos.position)

/-- The commit notices of the passes this pass depends on have arrived; a pass before the producer's first needs none (R269). -/
def CtxSt.noticesIn (x : CtxSt) (p : Plan) : Bool :=
  (p.core.deps.filter (fun d => d.position = x.pos.position)).all (fun d =>
    let need : Int := x.pass.index.toNat + d.offset
    decide (need < 0) || x.bar.notices.any (fun n => n.1.toNat = d.chip && decide ((n.2.toNat : Int) = need)))

/-- Every array of the context has received the COMMIT of the pass before (R223); the first pass under a plan follows its switch. -/
def State.commitArrived (s : State) (c : Ctx) : Bool :=
  let x := s.ctx c
  !x.exec.committed || x.plan.fresh || ((s.fenceTargets c).filter (fun u => uClass u = 0)).all (fun u => x.exec.got.contains u)

/-- Committed copies of a context not yet copied back, over all ports. -/
def State.copiesLeft (s : State) (c : Ctx) : Nat :=
  ((List.finRange 40).map (fun g => ((s.mgtu.at g).retained.filter (fun r => r.ctx = c && r.committed)).length)).sum

/-- A plan load lets the next execution begin: none waits for this boundary, and one in SWITCHING has switched and its copy-backs are done
(R232, R318, R320). -/
def State.loadAllows (s : State) (c : Ctx) : Bool :=
  let x := s.ctx c
  match x.plan.phase with
  | .pending => x.exec.replayDue
  | .switching => x.plan.switched && s.copiesLeft c = 0
  | .unloading => false
  | _ => true

/-- Every condition of the next execution's cycle 0 but the 2,560 cycles, which are the sender's (log 5). -/
def State.mayStart (s : State) (c : Ctx) (p : Plan) : Bool :=
  let x := s.ctx c
  x.pass.st = .boundary && x.exec.injected && (!x.exec.replayDue || x.exec.replaySent) && s.pwr.vs = .vs0 && s.loadAllows c &&
  s.commitArrived c && x.noticesIn p && (!x.needsBarrier p || x.bar.released) && s.stallCause c = 0

/-- S_pass of an execution (R146). -/
def passSeed (seed : List Byte) (pass : BitVec 48) (replay : BitVec 8) : List Byte :=
  sha3 (ascii "PS" ++ seed ++ leBytes 6 pass.toNat ++ leBytes 1 replay.toNat)

/-- A pattern on an array the context owns. -/
def State.patternOn (s : State) (p : Plan) (q : Pattern) : Bool :=
  uClass q.unit = 0 && p.core.owned.any (fun o => (s.physOf o.logical).any (fun a => uArr a = q.unit))

/-- A pattern on a spare whose time the plan claims for its rotation and chase slots. -/
def State.patternOnSpare (s : State) (p : Plan) (q : Pattern) : Bool :=
  s.rowList.any (fun r => decide (p.claimsOf 3 r.val ≠ 0) && (s.shadowRunner r).any (fun a => uArr a = q.unit))

/-- A pattern on an array that the context needs: one of its own, or a spare whose time its plan claims. -/
def State.patternAt (s : State) (p : Plan) (q : Pattern) : Bool := s.patternOn p q || s.patternOnSpare p q

/-- The context's arrays are needed again (R370): patterns that began while it ran nothing end; at its first pass under a plan all of
them do, and with them those on the spares the plan claims (DEDUCED, log 143). -/
def cutOwned (s : State) (c : Ctx) (p : Plan) : State :=
  cutPatterns s (fun q => s.patternAt p q && (q.held || (s.ctx c).plan.fresh)) 1

/-- A RESTART needs the context's arrays at its next execution: the patterns on them, within a declared run or not, end there (R370). -/
def claimArrays (s : State) (p : Plan) : State :=
  s.onScr (fun x => { x with running := x.running.map (fun q => if s.patternAt p q then { q with held := true } else q) })

/-- The fields of an execution at its cycle 0. -/
def ExecSt.begin_ (e : ExecSt) (replay : BitVec 8) (base : Nat) (seed : List Byte) : ExecSt :=
  { e with ended := false, collected := false, injected := false, committed := false, poison := 0, poisonBase := base, cause := none, covers := [],
           badPorts := [], compares := [], quiet := [], got := [], fenced := [], replayDue := false, replaySent := false, tokenWait := false,
           seed := seed, used := some replay, refRan := [], tests := [] }

/-- The rows whose reserve runs a referee or hunt slot in the next execution (R216, R287). -/
def CtxSt.refereeRows (x : CtxSt) : List Row :=
  (x.exec.caught.filterMap (fun k => if k.replay = x.pass.replay then logRow k.slot.logical else none)) ++ (if x.lsc.locus.isSome then (logRow x.lsc.logical.toNat).toList else [])

/-- Cycle 0 of an execution (R146, R223, R259, R290, R320). -/
def beginExecution (s : State) (c : Ctx) (p : Plan) : State :=
  let x := s.ctx c
  let replay : BitVec 8 := match x.exec.used with | some u => u + 1 | none => 0
  let rows := (x.refereeRows).filter (fun r => (s.shd.rows.at r).reserve ≠ 31)
  let s := cutOwned (beginBorrow s c p) c p
  let s := s.onExec c (fun e => { (e.begin_ replay (s.poisonCount c) (passSeed p.core.seed x.pass.index replay)) with
                                    refRan := if x.exec.replayDue then rows else []
                                    runners := ((List.finRange 24).filter p.onSpare).map (fun r => (r, s.shadowRunner r)) })
  let s := if x.exec.replayDue ∧ rows ≠ [] then noteUse s else s
  let s := s.onPass c (fun q => { q with st := .running, replay := replay, sinceStart := if x.exec.replayDue then q.sinceStart + 1 else 0 })
  let s := s.onPos c (fun q => { q with start := s.time.tick, offset := 0, frac := 0 })
  let s := s.onBar c (fun b => { b with released := false })
  let s := s.onCov c (fun v => { v with clean := [], dirty := [], offers := [], chases := [] })
  let s := s.onLsc c (fun l => { l with own := none, equal := false, writes := [] })
  let s := match x.lsc.locus, (logRow x.lsc.logical.toNat).filter (fun r => (s.shd.rows.at r).reserve ≠ 31) with
    | some _, some r => s.send (.huntRun c (arrOf r (s.shd.rows.at r).reserve.toNat) x.lsc.item)
    | _, _ => s
  let s := openSpan s c p
  if x.plan.phase = .switching then planApplied s c else s

/-- EXECUTION_START. At the boundary a row without a free spare takes or changes its donor first (R209 to R211). -/
def execExecutionStart (c : Ctx) (s : State) : Res :=
  match s.planOf c with
  | none => .next s
  | some p =>
    if !s.mayStart c p then .next s
    else
      let s := s.each (s.rowList.filter p.usesRow) borrowCheck
      .next (if (s.ctx c).pass.st = .boundary then beginExecution s c p else s)

/-! ## The end marker and the decision -/

/-- The open groups of a context at every port are marked closing: none of its tiles can still join (R170, R222). -/
def closeCtxGroups (s : State) (c : Ctx) : State :=
  s.onWce (fun w => { w with ports := w.ports.mapAll (fun _ p =>
    { p with group := p.group.map (fun g => if g.ctx = c then { g with closing := true } else g) }) })

/-- END_MARKER (R222, R284). -/
def execEndMarker (c : Ctx) (s : State) : Res :=
  match s.planOf c with
  | none => .next s
  | some p =>
    if (s.ctx c).pass.st ≠ .running then .next s
    else
      let e := ((p.pos (s.ctx c).pos.position).map (fun q => q.e)).getD (s.ctx c).pos.offset.toNat
      let s := countUnchased (closeCtxGroups s c) c
      let s := { s with mgtu := s.mgtu.mapAll (fun _ m => { m with visits := m.visits.filter (fun v => v.owner ≠ some c) }) }
      let s := s.onPos c (fun q => { q with offset := BitVec.ofNat 32 e, frac := 0 })
      let s := s.onExec c (fun y => { y with ended := true, endTick := s.time.tick })
      let waits := p.core.lockstep && (s.ctx c).lsc.partner.isNone
      let s := s.onLsc c (fun l => { l with waiting := waits })
      let s := s.onPass c (fun q => { q with st := .boundary, holdDigest := waits })
      .next (settle s c)

/-- POISON_COLLECT (R224, R279, R281, R286): the poison difference and the partial digests; in a hunt the fingerprints go to the hunt
area, written without a key (DEDUCED, log 147). -/
def execPoisonCollect (c : Ctx) (writes : List (BitVec 61)) (s : State) : Res :=
  match s.planOf c with
  | none => .next s
  | some p =>
    let x := s.ctx c
    if !x.exec.ended ∨ x.exec.collected ∨ x.exec.injected then .next s
    else
      let s := s.onExec c (fun e => { e with collected := true, poison := s.poisonCount c - e.poisonBase })
      let s := s.onLsc c (fun l => { l with writes := writes, area := if l.hunt then writes else l.area })
      let s := match x.lsc.hunt, p.extra.pair with
        | true, some pr => s.engineWrite pr.hunt (writes.flatMap (fun f => leBytes 8 f.toNat))
        | _, _ => s
      .next (sendDigest s c p)

/-- COMMIT_INJECT (R224, R225, R228). -/
def execCommitInject (c : Ctx) (s : State) : Res :=
  match s.planOf c with
  | none => .next s
  | some p =>
    let x := s.ctx c
    if !x.exec.ended ∨ !x.exec.collected ∨ x.exec.injected then .next s else .next (decideCommit s c p false)

/-- COMMIT_UNIT_ABORT (R237). -/
def execCommitUnitAbort (c : Ctx) (s : State) : Res :=
  match (s.ctx c).exec.cause with
  | none => .next s
  | some k => if (s.ctx c).exec.injected then .next s else .next (abortNow s c k)

/-- PARTING at a target (R236): it drops what the execution still sends. -/
def execParting (target : UnitId) (c : Ctx) (s : State) : Res :=
  if (s.fenceTargets c).contains target ∧ (s.deciding c = true ∨ (s.ctx c).pass.st = .aborting) ∧ (s.ctx c).exec.fenced.contains target = false then
    .next (s.onExec c (fun e => { e with fenced := e.fenced ++ [target] }))
  else .next s

/-- COMMIT at a target: with the verdict commit it has arrived (R223); with the verdict abort an array stops and its port drops the
context's tiles (R181, R236). -/
def execCommit (target : UnitId) (c : Ctx) (s : State) : Res :=
  if (s.fenceTargets c).contains target = false then .next s
  else if (s.ctx c).exec.committed then
    .next (s.onExec c (fun e => { e with got := if e.got.contains target then e.got else e.got ++ [target] }))
  else if (s.ctx c).pass.st = .aborting ∧ uClass target = 0 then
    let s := s.onExec c (fun e => { e with fenced := if e.fenced.contains target then e.fenced else e.fenced ++ [target] })
    .next (match finOf 624 (uIndex target) with | some a => s.onPort a (fun p => p.drop c) | none => s)
  else .next s

/-- A verdict of the execution the context decides (R179, R224, R240). -/
def takeVerdict (s : State) (f : VerdictFlit) (a : Arr) : State :=
  let held := (s.wce.slices.at (rowSlice (rowOf a))).heldBy
  match f.verdict with
  | .clean | .void => s.onExec f.ctx (fun e => { e with covers := e.covers ++ [(a, f.covers.toNat)] })
  | .catch => noteCatch (noteCause (s.onExec f.ctx (fun e => { e with badPorts := e.badPorts ++ [a] })) f.ctx 1 (uArr a)) f.ctx (uArr a)
      (if held = 31 then none else some (held.setWidth 8, BitVec.ofNat 8 (colOf a))) none
  | .notProduced => noteCatch (noteCause (s.onExec f.ctx (fun e => { e with badPorts := e.badPorts ++ [a] })) f.ctx 3 (uArr a)) f.ctx (uArr a) none none

/-- TILE_VERDICT (R179, R226): taken into the decision where it names the execution the context decides; a catch or a verdict not produced
that names a committed execution is late, anything else is discarded. -/
def execTileVerdict (f : VerdictFlit) (s : State) : Res :=
  match (if uClass f.port = 1 then finOf 624 (uIndex f.port) else none) with
  | none => .next s
  | some a =>
    .next (match s.named f.ctx (s.passOf f.ctx f.passLow) f.replay with
      | .current => takeVerdict s f a
      | .committed n => if f.verdict = .catch ∨ f.verdict = .notProduced then lateReport s f.ctx f.port (if f.verdict = .catch then 1 else 3) n else s
      | .aborted => s)

/-! ## The abort drain and replays (R233, R237, R241, R244) -/

/-- TARGET_QUIET. -/
def execTargetQuiet (target : UnitId) (c : Ctx) (s : State) : Res :=
  let x := s.ctx c
  if x.pass.st ≠ .aborting ∨ (s.fenceTargets c).contains target = false ∨ x.exec.quiet.contains target = true then .next s
  else
    let s := s.onExec c (fun e => { e with quiet := e.quiet ++ [target] })
    .next (if (s.fenceTargets c).all (fun u => (s.ctx c).exec.quiet.contains u) then drainEnd s c else s)

/-- The lowest unit ID among the targets that are not quiet. -/
def State.notQuiet (s : State) (c : Ctx) : Option UnitId :=
  ((s.fenceTargets c).filter (fun u => !(s.ctx c).exec.quiet.contains u)).foldl
    (fun m u => match m with | some v => if u.toNat < v.toNat then some u else some v | none => some u) none

/-- ABORT_DRAIN_TIMEOUT (R237, R244). -/
def execAbortDrainTimeout (c : Ctx) (s : State) : Res :=
  if (s.ctx c).pass.st ≠ .aborting then .next s
  else match s.notQuiet c with
    | none => .next s
    | some u =>
      let s := s.emit (passEv s c 0x5009 .u u ((s.ctx c).pass.replay.setWidth 16))
      let s := s.onExec c (fun e => { e with stopAfter := e.stopAfter <|> some 0x5009 })
      let s := replayLimit (drainEffects s c) c
      .next (enterStopped s c (((s.ctx c).exec.stopAfter).getD 0x5009))

/-- REPLAY_START_SEND (R67, R241, R450): it waits for a credit of every target, and while the home controller restarts. -/
def execReplayStartSend (c : Ctx) (s : State) : Res :=
  let x := s.ctx c
  if x.exec.replayDue ∧ !x.exec.replaySent ∧ !x.exec.startOut ∧ x.pass.st = .boundary ∧ (s.fwp.procs.at (pcOf (s.home c))).state ≠ .restarting then
    let next : BitVec 8 := match x.exec.used with | some u => u + 1 | none => 0
    let s := s.onExec c (fun e => { e with replaySent := true, startOut := true })
    let s := s.onPass c (fun p => { p with replays := bump p.replays })
    let s := s.onPrv c (fun p => { p with span := p.span.map (fun y => { y with replays := y.replays + 1 }) })
    let s := s.send (.replayStart c x.pass.index next)
    .next (s.emit (passEv s c 0x5002 .record (s.commitUnit c) (next.setWidth 16)))
  else .next s

/-- REPLAY_START at the arrays (R67, R236, R370): its credits come back; the fence ends, patterns on the context's arrays, on the spares its
slots need and on a referee's reserve are cut short. -/
def execReplayStart (c : Ctx) (s : State) : Res :=
  match s.planOf c with
  | none => .next s
  | some p =>
    let x := s.ctx c
    if !x.exec.startOut then .next s
    else
      let refs := (x.refereeRows.filter (fun r => (s.shd.rows.at r).reserve ≠ 31)).map (fun r => uArr (arrOf r (s.shd.rows.at r).reserve.toNat))
      let s := s.onExec c (fun e => { e with fenced := [], startOut := false })
      .next (cutPatterns (cutPatterns s (s.patternAt p) 1) (fun q => refs.contains q.unit) 2)

/-- READINESS_TOKEN (R227, R450): a commit that waits for it is issued; a context held after its commit goes on. -/
def execReadinessToken (c : Ctx) (pass : BitVec 48) (s : State) : Res :=
  let s := s.onExec c (fun e => { e with token := pass })
  let x := s.ctx c
  match s.planOf c with
  | none => .next s
  | some p =>
    if x.exec.tokenWait ∧ !x.exec.injected then .next (if s.tokenMissing c then s else decideCommit s c p false)
    else if x.pass.holdFw ∧ x.exec.injected ∧ x.pass.index.toNat ≤ pass.toNat then
      .next (settle (s.onPass c (fun q => { q with holdFw := false })) c)
    else .next s

/-! ## The driver's commands (R249, R250) -/

/-- Offset of VX_CTX_PASS_CTRL. -/
def passCtrlOff (c : Ctx) : Nat := 0x000900 + 8 * c.val

/-- A context command refused: REFUSED and the home partition's log. -/
def passRefuse (s : State) (src : Src) (c : Ctx) : State :=
  (s.onPass c (fun p => { p with refused := true })).logRefusal (pcOf (s.home c)) (some c) src (passCtrlOff c)

/-- A context command accepted: REFUSED cleared, PASS_COMMAND. -/
def passAccept (s : State) (c : Ctx) (k : BitVec 16) : State :=
  let s := s.onPass c (fun p => { p with refused := false })
  s.emit (passEv s c 0x500C .record (s.commitUnit c) k)

/-- No plan, or stopped. -/
def State.idleCtx (s : State) (c : Ctx) : Bool := (s.ctx c).pass.st = .noPlan || (s.ctx c).pass.st = .stopped

/-- HOLD. -/
def holdCmd (src : Src) (c : Ctx) (s : State) : State :=
  if s.idleCtx c then passRefuse s src c
  else settle ((passAccept s c 1).onPass c (fun p => { p with driverHold := true })) c

/-- RELEASE. -/
def ctxReleaseCmd (src : Src) (c : Ctx) (s : State) : State :=
  if (s.ctx c).pass.st = .held ∧ (s.ctx c).pass.driverHold then settle ((passAccept s c 2).onPass c (fun p => { p with driverHold := false })) c
  else passRefuse s src c

/-- STOP. -/
def stopCmd (src : Src) (c : Ctx) (s : State) : State :=
  if s.idleCtx c then passRefuse s src c else stopCtx (passAccept s c 3) c 0x500C

/-- ABORT_STOP. -/
def abortStopCmd (src : Src) (c : Ctx) (s : State) : State :=
  if s.idleCtx c then passRefuse s src c else abortStopCtx (passAccept s c 4) c 0x500C

/-- The plan uses a resource withdrawn under R184 or R211. -/
def State.usesWithdrawn (s : State) (p : Plan) : Bool :=
  s.rowList.any (fun r => (p.usesRow r && (s.wce.slices.at (rowSlice r)).heldBy = 31) || (p.rotates && p.onSpare r && (s.shd.rows.at r).noDonor))

/-- RESTART is accepted (R250, R345, R478). -/
def State.mayRestart (s : State) (c : Ctx) : Bool :=
  let x := s.ctx c
  match s.planOf c with
  | none => false
  | some p =>
    x.pass.st = .stopped && x.plan.phase ≠ .unloading && x.exec.used ≠ some 255 && !s.usesWithdrawn p && s.fst.state = .run && s.pwr.vs = .vs0 && s.pwr.down.isNone

/-- RESTART; the context may wait for a capture bank or a ring entry before its next execution (R304). -/
def restartCmd (src : Src) (c : Ctx) (s : State) : State :=
  if s.mayRestart c then
    let s := passAccept s c 5
    let s := s.onExec c (fun e => { e with injected := true, committed := false, replayDue := false, replaySent := false, cause := none, stopAfter := none })
    let s := match s.planOf c with | some p => claimArrays s p | none => s
    settle (stall (s.onPass c (fun p => { p with st := .boundary, sinceStart := 0 })) c) c
  else passRefuse s src c

/-- A write to VX_CTX_PASS_CTRL: NOTIFY_EVERY is stored, one command acts, several are refused (R253, R491). -/
def passCtrl (src : Src) (c : Ctx) (v : Reg) (s : State) : State :=
  let s := s.onPass c (fun p => { p with notifyEvery := field v 16 16 })
  if manyCommands v [0, 1, 2, 3, 4] then passRefuse s src c
  else if flag v 0 then holdCmd src c s
  else if flag v 1 then ctxReleaseCmd src c s
  else if flag v 2 then stopCmd src c s
  else if flag v 3 then abortStopCmd src c s
  else if flag v 4 then restartCmd src c s
  else s

/-- The word a context command is written with: the command bit beside the present NOTIFY_EVERY. -/
def passWord (s : State) (c : Ctx) (bit : Nat) : Reg := (1#64 <<< bit) ||| ((s.ctx c).pass.notifyEvery.setWidth 64 <<< 16)

/-- HOLD. -/
def execHold (src : Src) (c : Ctx) (s : State) : Res := .next (gatedWrite s src (passCtrlOff c) (passWord s c 0) (holdCmd src c))

/-- RELEASE. -/
def execRelease (src : Src) (c : Ctx) (s : State) : Res := .next (gatedWrite s src (passCtrlOff c) (passWord s c 1) (ctxReleaseCmd src c))

/-- STOP. -/
def execStop (src : Src) (c : Ctx) (s : State) : Res := .next (gatedWrite s src (passCtrlOff c) (passWord s c 2) (stopCmd src c))

/-- ABORT_STOP. -/
def execAbortStop (src : Src) (c : Ctx) (s : State) : Res := .next (gatedWrite s src (passCtrlOff c) (passWord s c 3) (abortStopCmd src c))

/-- RESTART. -/
def execRestart (src : Src) (c : Ctx) (s : State) : Res := .next (gatedWrite s src (passCtrlOff c) (passWord s c 4) (restartCmd src c))

/-! ## Substitution at a boundary (R57, R198, R243, R357) -/

/-- The first substitution ordered for a row. -/
def Fst.orderOf (f : Fst) (r : Row) : Option SubOrder := f.orders.find? (fun o => o.row = r)

/-- An order replaced by others. -/
def State.setOrder (s : State) (o : SubOrder) (by_ : List SubOrder) : State :=
  s.onFst (fun f => { f with orders := f.orders.flatMap (fun x => if x = o then by_ else [x]) })

/-- The row has no free spare left for an order: the spares are exhausted (R357, R359). -/
def orderFails (s : State) (o : SubOrder) : State :=
  let old := arrOf o.row ((s.shd.rows.at o.row).place.getD o.col 0)
  settleAll (sparesExhausted (s.setOrder o []) (uArr old) o.row)

/-- SUBSTITUTION_ISSUE (R243): when every context that uses the row stands at a boundary, the command goes to the row controller; one
ordered for a row in reset waits for the reset's end (R475). -/
def execSubstitutionIssue (r : Row) (s : State) : Res :=
  match s.fst.orderOf r with
  | none => .next s
  | some o =>
    if o.issued ∨ !s.rowAtBoundary r ∨ s.rowInReset r then .next s
    else match s.sparesOf r with
      | [] => .next (orderFails s o)
      | sp :: _ =>
        let s := s.setOrder o [{ o with spare := sp, issued := true, at_ := s.time.tick }]
        let s := cutPatterns s (fun q => q.unit = uArr (arrOf r sp)) 2
        .next (s.send (.substitute r o.col sp))

/-- SPARE_SUBSTITUTED (R57, R245, R356, R357): the spare serves the logical position, the array it replaces is RETIRED, the contexts that
waited go on. A row served by this row's reserve changes its donor (R210). -/
def execSpareSubstituted (r : Row) (s : State) : Res :=
  match s.fst.orderOf r with
  | none => .next s
  | some o =>
    if !o.issued then .next s
    else
      let x := s.shd.rows.at r
      let old := arrOf r (x.place.getD o.col 0)
      let lends := x.lendTo
      let s := noteUse ((s.setOrder o []).onRow r (fun y => y.substitute o.col o.spare))
      let s := s.emit { code := 0x1002, unit := uArr (arrOf r o.spare), p16 := BitVec.ofNat 16 (r.val * 24 + o.col),
                        p32 := BitVec.ofNat 32 (old.val + (if x.isShadow o.spare then 1024 else 0) + (if o.redo then 2048 else 0)) }
      let s := if o.redo then s else retireUnit s (uArr old)
      let s := match finOf 24 lends.toNat with
        | some b => if (s.shd.rows.at b).donor = BitVec.ofNat 5 r.val ∧ s.rowAtBoundary b then borrowCheck s b else s
        | none => s
      .next (settleAll (idleBorrow s r))

/-- SUBSTITUTION_TIMEOUT (R357): the command is withdrawn, the spare declared lasting, the substitution issued again with the other spare
or the spares are exhausted. -/
def execSubstitutionTimeout (r : Row) (s : State) : Res :=
  match s.fst.orderOf r with
  | none => .next s
  | some o =>
    if !o.issued then .next s
    else
      let a := arrOf r o.spare
      let back : SubOrder := { o with issued := false, spare := 31 }
      let s := (s.setOrder o [back]).send (.withdrawSubstitution r)
      let s := s.emit { code := 0x1003, cls := .u, unit := uArr a, p16 := BitVec.ofNat 16 (r.val * 24 + o.col),
                        p32 := satBits 32 ((s.time.tick - o.at_).toNat / 1000) }
      let s := declareLasting s (uArr a) 4 0x1003
      .next (if s.sparesOf r = [] then orderFails s back else s)

end Sys2Proof.Machine
end

