-- ==== Sys2Proof/Machine/PlanParse.lean ====
section
/-! DEFINITION. Reading a plan image (chapter 10): the header and section table (R311, R312), the sections (R313, R314), their bodies
(R493), and causes 0x01 to 0x05 of R328. -/

namespace Sys2Proof.Machine

/-- Why a load is refused (R328, R329): cause, class and index of the resource, the conflicting context; `what` is the 32-bit parameter
of PLAN_CRC and PLAN_VERSION (R332). -/
structure PlanBad where
  cause    : Nat
  cls      : Nat := 0
  index    : Nat := 0
  conflict : Nat := 0xFF
  what     : Nat := 0
  deriving DecidableEq, Repr

/-! ## Header and section table (R311, R312) -/

/-- A little-endian number of `n` bytes at an offset; bytes beyond the end read 0. -/
def numAt (b : List Byte) (i n : Nat) : Nat := leNat ((b.drop i).take n)

/-- A section table entry. -/
structure Section where
  type   : Nat
  needed : Bool
  offset : Nat
  length : Nat
  crc    : Nat
  deriving DecidableEq, Repr

/-- SECTION_COUNT. -/
def imageSections (b : List Byte) : Nat := numAt b 6 2

/-- IMAGE_LENGTH. -/
def imageLength (b : List Byte) : Nat := numAt b 8 4

/-- First byte after the section table. -/
def tableEnd (b : List Byte) : Nat := 32 + 16 * imageSections b

/-- The section table. -/
def sectionTable (b : List Byte) : List Section :=
  (List.range (imageSections b)).map (fun i =>
    let e := b.drop (32 + 16 * i)
    { type := numAt e 0 2, needed := numAt e 2 1 % 2 = 1, offset := numAt e 4 4, length := numAt e 8 4, crc := numAt e 12 4 })

/-- The bytes of a section. -/
def Section.body (x : Section) (b : List Byte) : List Byte := (b.drop x.offset).take x.length

/-- A section lies wholly inside the image, after the table, on a multiple of 8 (R312). -/
def Section.placed (x : Section) (b : List Byte) : Bool :=
  x.offset % 8 = 0 && decide (tableEnd b ≤ x.offset) && decide (x.offset + x.length ≤ imageLength b)

/-- Two sections share a byte. -/
def Section.overlaps (x y : Section) : Bool :=
  decide (max x.offset y.offset < min (x.offset + x.length) (y.offset + y.length))

/-- Some member of a list and a later one satisfy a relation. -/
def anyPair {α : Type} (f : α → α → Bool) : List α → Bool
  | [] => false
  | x :: xs => xs.any (f x) || anyPair f xs

/-- Cause 0x01: MAGIC, the lengths, SECTION_COUNT, the placement of the sections. `kib` is LENGTH_KIB. -/
def badHeader (b : List Byte) (kib : Nat) : Bool :=
  kib = 0 || decide (16384 < kib) || numAt b 0 4 ≠ 0x4C505856 || decide (16 * 2 ^ 20 < imageLength b) || decide (1024 * kib < imageLength b) ||
  imageSections b = 0 || decide (32 < imageSections b) || (sectionTable b).any (fun x => !x.placed b) || anyPair Section.overlaps (sectionTable b)

/-- The CRC checks, causes 0x02 and 0x03: HEADER_CRC over bytes 0 to 27 and the table, then each section's CRC. -/
def badCrc (b : List Byte) : Option PlanBad :=
  if (crc32c (b.take 28 ++ (b.drop 32).take (16 * imageSections b))).toNat ≠ numAt b 28 4 then some { cause := 2, what := 0xFFFF }
  else match (sectionTable b).find? (fun x => (crc32c (x.body b)).toNat ≠ x.crc) with
    | some x => some { cause := 3, what := x.type }
    | none => none

/-! ## Section bodies (R493) -/

/-- A group of a section body: its kind and its entries. -/
structure Grp where
  kind    : Nat
  size    : Nat
  entries : List (List Byte)
  deriving DecidableEq, Repr

/-- Entries of one size cut from the front of some bytes. -/
def cutEntries (size : Nat) : Nat → List Byte → List (List Byte)
  | 0, _ => []
  | n + 1, b => b.take size :: cutEntries size n (b.drop size)

/-- The groups that fill a section body exactly; none if they do not. -/
def groupsOf : Nat → List Byte → Option (List Grp)
  | _, [] => some []
  | 0, _ => none
  | n + 1, b =>
    let size := numAt b 2 2
    let count := numAt b 4 4
    let rest := b.drop 8
    if b.length < 8 ∨ size = 0 ∨ size % 8 ≠ 0 ∨ rest.length < size * count then none
    else (groupsOf n (rest.drop (size * count))).map ({ kind := numAt b 0 2, size, entries := cutEntries size count rest } :: ·)

/-- What R493 says of a kind of a section: where its fields end, whether it is required, a fixed number of entries. -/
structure KindRule where
  kind     : Nat
  fields   : Nat
  required : Bool
  count    : Option Nat := none

/-- The kinds of a section type (R493). -/
def kindsOf : Nat → List KindRule
  | 0x2 => [⟨1, 12, true, some 1⟩, ⟨2, 3, true, none⟩, ⟨3, 16, false, none⟩]
  | 0x3 => [⟨1, 8, true, none⟩, ⟨2, 12, false, none⟩, ⟨3, 5, false, none⟩]
  | 0x4 => [⟨1, 24, true, none⟩, ⟨2, 2, false, none⟩]
  | 0x5 => [⟨1, 24, true, none⟩, ⟨2, 12, false, none⟩, ⟨3, 16, false, none⟩, ⟨4, 8, false, none⟩, ⟨5, 12, false, none⟩, ⟨6, 16, false, none⟩,
            ⟨7, 4, true, none⟩]
  | 0x6 => [⟨1, 12, true, none⟩, ⟨2, 8, false, none⟩, ⟨3, 12, true, none⟩]
  | 0x7 => [⟨1, 4, true, none⟩, ⟨2, 8, false, none⟩]
  | 0x8 => [⟨1, 2, true, none⟩]
  | 0x9 => [⟨1, 8, true, none⟩, ⟨2, 8, true, none⟩]
  | 0xA => [⟨1, 4, true, some 1⟩, ⟨2, 6, true, none⟩, ⟨3, 2, false, none⟩]
  | 0xB => [⟨1, 16, true, some 1⟩, ⟨2, 12, true, none⟩]
  | 0xC => [⟨1, 4, true, none⟩, ⟨2, 10, true, none⟩, ⟨3, 16, true, some 6⟩, ⟨4, 10, true, some 1⟩]
  | 0xD => [⟨1, 16, false, none⟩, ⟨2, 12, false, none⟩, ⟨3, 16, false, none⟩]
  | 0xE => [⟨1, 12, true, none⟩]
  | _ => []

/-- A group agrees with its kind's rule: entries long enough, zeros after the fields, the number of entries. -/
def KindRule.allows (k : KindRule) (g : Grp) : Bool :=
  k.kind = g.kind && decide (k.fields ≤ g.size) && g.entries.all (fun e => (e.drop k.fields).all (· = 0)) &&
  (match k.count with | some n => g.entries.length = n | none => true)

/-- A body of a section type follows R493: kinds of that section, each at most once, the required ones present. -/
def kindsOk (type : Nat) (gs : List Grp) : Bool :=
  gs.all (fun g => (kindsOf type).any (fun k => k.allows g)) && !anyPair (fun x y => x.kind = y.kind) gs &&
  (kindsOf type).all (fun k => !k.required || gs.any (fun g => g.kind = k.kind))

/-- The groups of a section of a type in an image; none where the section is missing. -/
def groupsIn (b : List Byte) (type : Nat) : Option (List Grp) :=
  ((sectionTable b).find? (fun x => x.type = type)).bind (fun x => groupsOf x.length (x.body b))

/-- The entries of a kind. -/
def entriesOf (b : List Byte) (type kind : Nat) : List (List Byte) :=
  (((groupsIn b type).getD []).find? (fun g => g.kind = kind)).map (·.entries) |>.getD []

/-- The section is present. -/
def hasSection (b : List Byte) (type : Nat) : Bool := (sectionTable b).any (fun x => x.type = type)

/-- A signed 32-bit number at an offset. -/
def intAt (b : List Byte) (i : Nat) : Int := (BitVec.ofNat 32 (numAt b i 4)).toInt

/-- A 64-bit mask at an offset. -/
def maskAt (b : List Byte) (i : Nat) : BitVec 64 := BitVec.ofNat 64 (numAt b i 8)

/-! ## The plan that an image describes -/

/-- The claims of PROGRAM, SHADOW and IDLE. -/
def claimsIn (b : List Byte) : List Claim :=
  (entriesOf b 2 3 ++ entriesOf b 5 6 ++ entriesOf b 0xD 3).map (fun e => { cls := numAt e 0 1, index := numAt e 2 2, mask := maskAt e 8 })

/-- Header, PROGRAM, PASSES and WITNESS. -/
def coreIn (b : List Byte) : PlanCore :=
  let prog := (entriesOf b 2 1).headD []
  { minor := numAt b 5 1, imageLen := imageLength b, rowsUsed := numAt b 12 1, primary := BitVec.ofNat 3 (numAt b 14 1),
    lockstep := numAt b 14 1 / 8 % 2 = 1, relaxed := numAt b 14 1 / 16 % 2 = 1, level := BitVec.ofNat 8 (numAt b 15 1),
    window := numAt b 16 2, requested := numAt b 18 2, densePct := numAt b 20 1, cChase := numAt b 21 1,
    home := ⟨numAt b 22 1 % 4, Nat.mod_lt _ (by decide)⟩, compiler := BitVec.ofNat 32 (numAt b 24 4),
    types := (sectionTable b).map (·.type),
    ignored := ((sectionTable b).filter (fun x => x.type = 0 || (decide (0xE < x.type) && decide (x.type < 0x8000)))).length,
    seed := (((sectionTable b).find? (fun x => x.type = 1)).map (fun x => x.body b)).getD [],
    progAddr := numAt prog 0 8, progLen := numAt prog 8 4,
    owned := (entriesOf b 2 2).map (fun e => { logical := numAt e 0 2, role := numAt e 2 1 }),
    claims := claimsIn b,
    positions := (entriesOf b 3 1).map (fun e =>
      { e := numAt e 0 4, barrier := numAt e 4 1 % 2 = 1, result := numAt e 4 1 / 2 % 2 = 1, resultNo := numAt e 6 2 }),
    deps := (entriesOf b 3 2).map (fun e => { position := numAt e 0 2, chip := numAt e 2 2, ctx := numAt e 4 1, offset := intAt e 8 }),
    consumers := (entriesOf b 3 3).map (fun e => { position := numAt e 0 2, chip := numAt e 2 2, ctx := numAt e 4 1 }),
    counts := (entriesOf b 4 1).map (fun e =>
      { position := numAt e 0 2, holder := numAt e 2 1, index := numAt e 4 2, tiles := numAt e 8 4, minL := numAt e 12 4,
        debt := numAt e 16 1, lastWord := numAt e 20 4 }),
    crossbar := (entriesOf b 4 2).map (fun e => (numAt e 0 1, numAt e 1 1)) }

/-- SHADOW, RETENTION, VISITS, FENCE and ROUTES. -/
def coverIn (b : List Byte) : PlanCover :=
  { slots := (entriesOf b 5 1).map (fun e =>
      { step := numAt e 0 2, position := numAt e 2 2, logical := numAt e 4 2, cls := numAt e 6 1, holder := numAt e 7 1,
        index := numAt e 8 2, item := numAt e 12 4, delay := numAt e 16 2, compare := numAt e 20 4 }),
    altSlots := (entriesOf b 5 2).map (fun e => { slot := numAt e 0 4, candidate := numAt e 4 1, delay := numAt e 6 2, compare := numAt e 8 4 }),
    chase := (entriesOf b 5 3).map (fun e =>
      { row := numAt e 0 1, slots := numAt e 1 1, begin_ := numAt e 4 4, end_ := numAt e 8 4, cycles := numAt e 12 4 }),
    chaseTiles := (entriesOf b 5 4).map (fun e => { position := numAt e 0 2, logical := numAt e 2 2, seq := numAt e 4 4 }),
    chaseOuts := (entriesOf b 5 5).map (fun e => (numAt e 0 4, numAt e 4 1, numAt e 8 4)),
    peakTags := (entriesOf b 5 7).map (fun e => (numAt e 0 1, numAt e 2 2)),
    areas := (entriesOf b 6 1).map (fun e => { gtu := numAt e 0 1, first := numAt e 4 4, staves := numAt e 8 4 }),
    retained := (entriesOf b 6 2).map (fun e => { position := numAt e 0 2, gtu := numAt e 2 1, blank := numAt e 4 4 }),
    copyRuns := (entriesOf b 6 3).map (fun e => { position := numAt e 0 2, gtu := numAt e 2 1, offset := numAt e 4 4, count := numAt e 8 4 }),
    peaks := (entriesOf b 7 1).map (fun e => (numAt e 0 1, numAt e 2 2)),
    tagSlots := (entriesOf b 7 2).map (fun e => (numAt e 0 2, numAt e 2 1, numAt e 4 4)),
    targets := (entriesOf b 8 1).map (fun e => BitVec.ofNat 16 (numAt e 0 2)),
    routes := (entriesOf b 9 1).map (fun e => { kind := numAt e 0 1, number := numAt e 2 2, words := numAt e 4 4 }),
    routeWords := (entriesOf b 9 2).map (fun e => maskAt e 0) }

/-- BARRIER, LOCKSTEP, PROVENANCE, IDLE and SCREEN. -/
def extraIn (b : List Byte) : PlanExtra :=
  { group := (entriesOf b 0xA 1).head?.map (fun e => (numAt e 0 2, numAt e 2 2)),
    members := (entriesOf b 0xA 2).map (fun e => { chip := numAt e 0 2, primary := numAt e 2 2, alt := numAt e 4 2 }),
    barrierPos := (entriesOf b 0xA 3).map (fun e => numAt e 0 2),
    pair := (entriesOf b 0xB 1).head?.map (fun e =>
      { chip := numAt e 0 2, ctx := numAt e 2 1, link := numAt e 3 1, alt := numAt e 4 2, check := BitVec.ofNat 16 (numAt e 6 2),
        hunt := numAt e 8 8 }),
    writes := (entriesOf b 0xB 2).map (fun e => { position := numAt e 0 2, logical := numAt e 2 2, w := numAt e 4 4, item := numAt e 8 4 }),
    results := (entriesOf b 0xC 1).map (fun e => { number := numAt e 0 2, position := numAt e 2 2 }),
    lists := (entriesOf b 0xC 2).map (fun e =>
      { result := numAt e 0 2, role := numAt e 2 1, gtu := numAt e 3 1, blank := numAt e 4 4, tensor := numAt e 8 2 }),
    banks := (entriesOf b 0xC 3).map (fun e => { role := numAt e 0 1, bank := numAt e 1 1, addr := numAt e 8 8 }),
    ring := (entriesOf b 0xC 4).head?.map (fun e => (numAt e 0 8, numAt e 8 2)),
    idle := (entriesOf b 0xD 1).map (fun e =>
      { position := numAt e 0 2, holder := numAt e 2 1, index := numAt e 4 2, start := numAt e 8 4, length := numAt e 12 4 }),
    huntSlots := (entriesOf b 0xD 2).map (fun e => { row := numAt e 0 1, position := numAt e 2 2, start := numAt e 4 4, length := numAt e 8 4 }),
    patterns := (entriesOf b 0xE 1).map (fun e => { position := numAt e 0 2, arr := numAt e 2 2, pattern := numAt e 4 2, start := numAt e 8 4 }) }

/-- The plan of an image and of what its program tells. -/
def planIn (b : List Byte) (work : WorkFacts) : Plan := { core := coreIn b, cover := coverIn b, extra := extraIn b, work }

/-! ## Sections and field ranges: cause 0x05 (R313, R314, R493) -/

/-- The sections a plan needs in its mode; a lock-step pair is a barrier group of two (R277, R313). -/
def neededTypes (p : PlanCore) : List Nat :=
  (match p.primary.toNat with
   | 1 | 2 | 3 => [1, 2, 3, 4, 5, 7, 8, 9]
   | 4 => [1, 2, 3, 4, 7, 8, 9]
   | 5 => [3, 9, 0xE]
   | _ => [3, 9]) ++ (if p.lockstep then [0xA, 0xB, 0xD] else [])

/-- Sections a SCREEN plan may not carry (R313). -/
def screenForbids (p : PlanCore) : Bool := p.primary = 5 && p.types.any (fun t => [0xC, 5, 6, 0xB].contains t)

/-- The holder codes of a tile count and of an idle run: a logical array, or a row. -/
def holderOk (logical : Bool) (index : Nat) : Bool := if logical then decide (index < 576) else decide (index < 24)

/-- A blank of the job region at a memory GTU. -/
def blankOk (gtu blank : Nat) : Bool := decide (gtu < 40) && decide (blank < jobRegionBlanks)

/-- Pattern IDs a plan may name (R363). -/
def patternOk (n : Nat) : Bool := (decide (1 ≤ n) && decide (n ≤ 8)) || (decide (0x11 ≤ n) && decide (n ≤ 0x18))

/-- The fields of PROGRAM, PASSES and WITNESS lie in their ranges. -/
def PlanCore.rangesOk (p : PlanCore) : Bool :=
  let q := p.positions.length
  p.owned.all (fun o => decide (o.logical < 576) && decide (o.role ≤ 2)) &&
  p.deps.all (fun d => decide (d.position < q) && decide (d.chip < 4096) && decide (d.ctx < 32)) &&
  p.consumers.all (fun d => decide (d.position < q) && decide (d.chip < 4096) && decide (d.ctx < 32)) &&
  p.counts.all (fun k => decide (k.position < q) && decide (k.holder ≤ 3) && holderOk (k.holder = 0) k.index) &&
  p.crossbar.all (fun x => decide (x.1 < 24) && decide (x.2 < 25))

/-- The fields of SHADOW, RETENTION, VISITS, FENCE and ROUTES lie in their ranges. -/
def PlanCover.rangesOk (p : PlanCover) (q w : Nat) : Bool :=
  p.slots.all (fun x => decide (x.step < w) && decide (x.position < q) && decide (x.logical < 576) && decide (x.cls ≤ 5) && decide (x.holder ≤ 1) &&
    holderOk (x.holder = 0) x.index) &&
  p.altSlots.all (fun x => decide (x.slot < p.slots.length) && decide (x.candidate ≤ 3)) &&
  p.chase.all (fun x => decide (x.row < 24) && decide (x.slots ≤ 8)) &&
  p.chaseTiles.all (fun x => decide (x.position < q) && decide (x.logical < 576)) &&
  p.chaseOuts.all (fun x => decide (x.1 < p.chaseTiles.length) && blankOk x.2.1 x.2.2) &&
  p.peakTags.all (fun x => decide (x.1 ≤ 3)) &&
  p.areas.all (fun x => decide (x.gtu < 40) && decide (x.first + x.staves ≤ 2436637)) &&
  p.retained.all (fun x => decide (x.position < q) && blankOk x.gtu x.blank) &&
  p.copyRuns.all (fun x => decide (x.position < q) && decide (x.gtu < 40)) &&
  p.peaks.all (fun x => decide (x.1 < 40)) && p.tagSlots.all (fun x => decide (x.1 < q) && decide (x.2.1 < 40)) &&
  p.targets.all (fun u => match u.toNat / 4096 with
    | 0 => decide (u.toNat % 4096 < 624) | 3 => decide (u.toNat % 4096 < 40) | 4 => decide (u.toNat % 4096 < 24) | _ => false) &&
  p.routes.all (fun r => decide (r.kind ≤ 3))

/-- The fields of BARRIER, LOCKSTEP, PROVENANCE, IDLE and SCREEN lie in their ranges. -/
def PlanExtra.rangesOk (p : PlanExtra) (q : Nat) : Bool :=
  p.group.all (fun g => decide (g.2 < 4096)) && p.members.all (fun m => decide (m.chip < 4096)) && p.barrierPos.all (fun x => decide (x < q)) &&
  p.pair.all (fun x => decide (x.chip < 4096) && decide (x.ctx < 32) && decide (x.link < 24)) &&
  p.writes.all (fun x => decide (x.position < q) && decide (x.logical < 576) &&
    decide (x.w < (p.writes.filter (fun y => y.position = x.position)).length)) &&
  p.results.all (fun x => decide (x.position < q)) &&
  p.lists.all (fun x => decide (x.role ≤ 3) && blankOk x.gtu x.blank) &&
  p.banks.all (fun x => decide (x.role ≤ 2) && decide (x.bank ≤ 1)) && p.ring.all (fun r => decide (2 ≤ r.2)) &&
  p.idle.all (fun x => decide (x.position < q) && decide (x.holder ≤ 2) && holderOk (x.holder = 0) x.index) &&
  p.huntSlots.all (fun x => decide (x.row < 24) && decide (x.position < q)) &&
  p.patterns.all (fun x => decide (x.position < q) && decide (x.arr < 624) && patternOk x.pattern)

/-- A claim's index lies in the range of its class: ports, links, rows. -/
def claimIndexOk (e : List Byte) : Bool :=
  decide (numAt e 2 2 < (if numAt e 0 1 = 1 then 40 else 24))

/-- The claims name the classes of the sections they stand in, and indices of those classes. -/
def claimsOk (b : List Byte) : Bool :=
  (entriesOf b 2 3).all (fun e => [1, 2].contains (numAt e 0 1) && claimIndexOk e) &&
  (entriesOf b 5 6).all (fun e => [3, 4].contains (numAt e 0 1) && claimIndexOk e) &&
  (entriesOf b 0xD 3).all (fun e => numAt e 0 1 = 4 && claimIndexOk e)

/-- Cause 0x05. -/
def badSections (b : List Byte) (p : Plan) : Bool :=
  let known := (sectionTable b).filter (fun x => decide (x.type < 0x8000))
  anyPair (fun x y => x.type = y.type) (known.filter (fun x => x.type ≠ 0)) ||
  known.any (fun x => (decide (0xE < x.type) || x.type = 0) && x.needed) ||
  (neededTypes p.core).any (fun t => !hasSection b t) || screenForbids p.core ||
  (sectionTable b).any (fun x => match x.type with
    | 1 => x.length ≠ 32
    | t => if 2 ≤ t ∧ t ≤ 0xE then (match groupsOf x.length (x.body b) with | some gs => !kindsOk t gs | none => true) else false) ||
  !claimsOk b || !p.core.rangesOk || !p.cover.rangesOk p.core.positions.length p.core.window || !p.extra.rangesOk p.core.positions.length

/-- Causes 0x01 to 0x05 in their order: the plan, or why it is refused. -/
def readImage (b : List Byte) (kib : Nat) (work : WorkFacts) : Plan × Option PlanBad :=
  let p := planIn b work
  (p,
    if badHeader b kib then some { cause := 1 }
    else match badCrc b with
      | some x => some x
      | none =>
        if numAt b 4 1 ≠ 1 then some { cause := 4, what := numAt b 4 2 }
        else if badSections b p then some { cause := 5 } else none)

end Sys2Proof.Machine
end

