-- ==== Sys2Proof/Machine/PlanCheck.lean ====
section
/-! DEFINITION. The checks of a plan (R328): causes 0x06 to 0x0F on the plan itself, and the capacity checks 0x20 to 0x27 against the part,
its present configuration and the plans of the other contexts. What the plan image does not say of the schedule, the program image tells
(log 37). -/

namespace Sys2Proof.Machine

/-- The first refusal of a list of checks. -/
def firstBad (xs : List (Option PlanBad)) : Option PlanBad := xs.findSome? id

/-- A refusal for the first member of a list that fails. -/
def badAt {α : Type} (xs : List α) (fails : α → Bool) (why : α → PlanBad) : Option PlanBad := (xs.find? fails).map why

/-- A refusal where a condition holds. -/
def badIf (c : Bool) (why : PlanBad) : Option PlanBad := if c then some why else none

/-! ## Checks of the plan alone (causes 0x06 to 0x0E) -/

/-- E of a position. -/
def Plan.endAt (p : Plan) (n : Nat) : Nat := ((p.pos n).map (·.e)).getD 0

/-- N_dense of R212. -/
def Plan.nDense (p : Plan) : Nat := (2 * p.core.owned.length * p.core.densePct + 100) / 200

/-- The partner column of a DUAL column (R213). -/
def dualPartner (logical : Nat) : Nat := if logical % 24 < 12 then logical + 12 else logical - 12

/-- 0x06: the modes. -/
def badModes (p : Plan) : Option PlanBad :=
  firstBad [
    badIf (p.core.primary = 0 || decide (5 < p.core.primary.toNat) || (p.core.lockstep && p.isScreen)) { cause := 6 },
    badIf (if p.isDense then decide (p.core.densePct < 5) || decide (25 < p.core.densePct) else p.core.densePct ≠ 0) { cause := 6 },
    badIf ((p.core.owned.filter (fun o => o.role = 1)).length ≠ (if p.isDense then p.nDense else 0)) { cause := 6 },
    if p.isDual then badAt p.core.owned (fun o => !p.owns (dualPartner o.logical)) (fun o => { cause := 6, cls := 5, index := o.logical })
    else none]

/-- 0x07: window and coverage level (R201, R213, R330). -/
def badWindow (p : Plan) : Option PlanBad :=
  let w := p.core.window
  let l := p.core.level.toNat
  badIf (decide (w < 8) || decide (1024 < w) || p.core.positions = [] || w % p.q ≠ 0 || (p.isDual && w ≠ 8) ||
    w ≠ p.core.requested * 2 ^ (l % 8) || decide (128 ≤ l) || (l / 8 % 4 ≠ 0 && !p.isDense) || (l / 32 % 2 = 1 && (p.isMonitor || p.isScreen)))
    { cause := 7 }

/-- 0x08: the pass program (R222). -/
def badProgram (p : Plan) : Option PlanBad :=
  badIf (p.core.positions = [] || decide (1024 < p.q) || p.core.positions.any (fun x => decide (x.e < 16384) || decide (67108864 < x.e)))
    { cause := 8 }

/-- 0x09: witness timing (R173). -/
def badTiming (p : Plan) : Option PlanBad :=
  badAt p.core.counts (fun k => decide (0 < k.tiles) &&
      (decide (k.minL < 32) || decide (10 < k.debt) || decide (p.endAt k.position < k.lastWord + 560)))
    (fun k => if k.holder = 0 then { cause := 9, cls := 5, index := k.index } else { cause := 9, cls := 8, index := k.index })

/-- A pair of classes 0 to 4 that the context executes is sampled in the rotation, and its samples lie at most W passes apart (R201). -/
def Plan.sampled (p : Plan) (logical cls : Nat) : Bool :=
  p.pairSlots logical cls ≠ [] && decide (largestGap p.core.window ((p.pairSlots logical cls).map (·.step)) ≤ p.core.window)

/-- 0x0A: the rotation (R201) and C_CHASE (R207). -/
def badRotation (p : Plan) : Option PlanBad :=
  let w := p.core.window
  firstBad [
    if p.rotates || p.isDual then
      badAt (p.work.executions.filter (fun x => decide (x.2.1 ≤ 4) && decide (0 < x.2.2))) (fun x => !p.sampled x.1 x.2.1)
        (fun x => { cause := 0xA, cls := 5, index := x.1 })
    else none,
    badIf (decide (8 < p.core.cChase) || (p.rotates && decide (p.core.cChase < (24 + w - 1) / w))) { cause := 0xA }]

/-- A compare point lies at least 64 cycles before the end marker of a position (R214). -/
def Plan.inTime (p : Plan) (position compare : Nat) : Bool := decide (compare + 64 ≤ p.endAt position)

/-- Candidate donor i of a row, where the part has it (R208). -/
def State.candidate (s : State) (row i : Nat) : Option Nat :=
  ([some (row + 1), if 1 < row then some (row - 2) else none, some (row + 2)].foldl (fun xs x => xs ++ [x])
    [if 0 < row then some (row - 1) else none]).getD i none |>.bind (fun d => if d < s.rows then some d else none)

/-- A slot on a row's spare has its timing over the alternate route of every candidate that exists (R208, R493). -/
def State.hasAlternates (s : State) (p : Plan) (y : Slot × Nat) : Bool :=
  y.1.holder ≠ 1 || (List.range 4).all (fun i => (s.candidate (y.1.logical / 24) i).isNone ||
    p.cover.altSlots.any (fun a => a.slot = y.2 && a.candidate = i))

/-- The cycles of a chase slot of a row: those of its largest chase-eligible tile (R205). -/
def Plan.chaseLen (p : Plan) (row : Nat) : Nat :=
  (p.cover.chaseTiles.zip p.work.chaseLens).foldl (fun m x => if x.1.logical / 24 = row then max m x.2 else m) 0

/-- The chase slots of a row complete in time at a position, filled with the row's largest chase-eligible tile, back to back from the
window's begin, and the window ends in time (R205; DEDUCED, log 157). -/
def Plan.chaseInTime (p : Plan) (x : ChaseWin) (position : Nat) : Bool :=
  p.inTime position x.end_ && p.inTime position (x.begin_ + x.slots * p.chaseLen x.row)

/-- 0x0B: every slot completes in time: its own compare point and those over the alternate routes, which no candidate lacks, chase slots
where the row has a chase-eligible tile, hunt slots (R205, R208, R214, R287). -/
def badSlots (s : State) (p : Plan) : Option PlanBad :=
  let ps (row : Nat) : List Nat := (p.cover.chaseTiles.filter (fun t => t.logical / 24 = row)).map (·.position)
  firstBad [
    badAt p.cover.slots (fun x => !p.inTime x.position x.compare) (fun x => { cause := 0xB, cls := 3, index := x.logical / 24 }),
    badAt p.cover.slots.zipIdx (fun y => !s.hasAlternates p y) (fun y => { cause := 0xB, cls := 3, index := y.1.logical / 24 }),
    badAt p.cover.altSlots (fun a => match p.cover.slots[a.slot]? with | some x => x.holder = 1 && !p.inTime x.position a.compare | none => false)
      (fun a => { cause := 0xB, cls := 3, index := ((p.cover.slots[a.slot]?).map (fun x => x.logical / 24)).getD 0 }),
    badAt p.cover.chase (fun x => decide (0 < x.slots) && (ps x.row).any (fun n => !p.chaseInTime x n))
      (fun x => { cause := 0xB, cls := 3, index := x.row }),
    badAt p.extra.huntSlots (fun x => !p.inTime x.position (x.start + x.length)) (fun x => { cause := 0xB, cls := 4, index := x.row })]

/-- 0x0C: peak open job visits (R105). -/
def badVisits (p : Plan) : Option PlanBad :=
  badAt p.cover.peaks (fun x => decide (14 < x.2)) (fun x => { cause := 0xC, cls := 1, index := x.1 })

/-- The positions of the span that ends at a position (R290): back to the one after the result point before it. -/
def Plan.spanPositions (p : Plan) (last : Nat) : List Nat :=
  let back := (List.range p.q).map (fun k => (last + p.q - k) % p.q)
  back.take 1 ++ (back.drop 1).takeWhile (fun n => !((p.pos n).map (·.result)).getD false)

/-- A list entry of a result point for a blank in a role of a set. -/
def Plan.listsBlank (p : Plan) (result : Nat) (roles : List Nat) (gtu blank : Nat) : Bool :=
  p.extra.lists.any (fun l => l.result = result && roles.contains l.role && l.gtu = gtu && l.blank = blank)

/-- A position of the span of a result point. -/
def Plan.inSpan (p : Plan) (result position : Nat) : Bool :=
  (p.extra.results.filter (fun r => r.number = result)).any (fun r => (p.spanPositions r.position).contains position)

/-- The span of a result point reads a blank. -/
def Plan.spanReads (p : Plan) (result gtu blank : Nat) : Bool :=
  p.work.reads.any (fun x => x.2.1 = gtu && x.2.2 = blank && p.inSpan result x.1)

/-- The span of a result point writes a blank: the schedule writes it, or the plan retains it there. -/
def Plan.spanWrites (p : Plan) (result gtu blank : Nat) : Bool :=
  p.work.writes.any (fun x => x.2.1 = gtu && x.2.2 = blank && p.inSpan result x.1) ||
  p.cover.retained.any (fun x => x.gtu = gtu && x.blank = blank && p.inSpan result x.position)

/-- 0x0D: provenance lists (R291, R300): every W and I blank is read and every O blank written in the span, none is listed twice in a role,
no tensor of W or I that the span writes is full-hashed. -/
def badLists (p : Plan) : Option PlanBad :=
  badIf (anyPair (fun a b => a.result = b.result && a.role = b.role && a.gtu = b.gtu && a.blank = b.blank) p.extra.lists ||
    p.extra.lists.any (fun l => decide (l.role ≤ 1) && !p.spanReads l.result l.gtu l.blank) ||
    p.extra.lists.any (fun l => l.role = 2 && !p.spanWrites l.result l.gtu l.blank) ||
    p.extra.lists.any (fun l => l.role = 3 && p.listsBlank l.result [0, 1] l.gtu l.blank && p.spanWrites l.result l.gtu l.blank))
    { cause := 0xD }

/-- N, the largest number of output writes of a position. -/
def Plan.writesMax (p : Plan) : Nat :=
  (List.range p.q).foldl (fun m n => max m (p.extra.writes.filter (fun w => w.position = n)).length) 0

/-- The rows whose logical arrays the plan owns. -/
def Plan.rowsOwned (p : Plan) : List Nat := (List.range 24).filter (fun r => p.core.owned.any (fun o => o.logical / 24 = r))

/-- A job byte address lies in the job region of a stack of the part. -/
def State.inJob (s : State) (a : Nat) : Bool :=
  match s.jobPlace a with | some (st, b) => decide (st < s.fuses.stackCnt) && !outsideJob b | none => false

/-- Every byte of a run of job addresses lies in the job region. -/
def State.runInJob (s : State) (a n : Nat) : Bool := (List.range n).all (fun i => s.inJob (a + i))

/-- 0x0E: lock-step. -/
def badLockstep (s : State) (p : Plan) : Option PlanBad :=
  if !p.core.lockstep then none
  else match p.extra.pair with
    | none => some { cause := 0xE }
    | some pr => firstBad [
        badIf (decide (2 ^ 32 ≤ p.writesMax) || !s.runInJob pr.hunt (8 * p.writesMax)) { cause := 0xE },
        badAt p.rowsOwned (fun r => !p.extra.huntSlots.any (fun x => x.row = r)) (fun r => { cause := 0xE, cls := 4, index := r })]

/-! ## Against the context and the part (causes 0x0F, 0x20 to 0x25) -/

/-- 0x0F: replay numbers exhausted (R323). -/
def badReplays (s : State) (c : Ctx) (p : Plan) : Option PlanBad :=
  let x := s.ctx c
  badIf (x.pass.st = .stopped && x.plan.lastSeed = some p.core.seed && x.exec.used = some 255) { cause := 0xF }

/-- Memory ports a plan names. -/
def Plan.portsNamed (p : Plan) : List Nat :=
  ((p.core.claims.filter (fun k => k.cls = 1)).map (·.index) ++ p.cover.areas.map (·.gtu) ++ p.cover.retained.map (·.gtu) ++
   p.cover.copyRuns.map (·.gtu) ++ p.cover.peaks.map (·.1) ++ p.cover.tagSlots.map (·.2.1) ++ p.cover.chaseOuts.map (·.2.1) ++
   p.extra.lists.map (·.gtu) ++ (p.cover.targets.filter (fun u => uClass u = 3)).map uIndex).eraseDups

/-- Links a plan names. -/
def Plan.linksNamed (p : Plan) : List Nat :=
  ((p.core.claims.filter (fun k => k.cls = 2)).map (·.index) ++ (p.cover.targets.filter (fun u => uClass u = 4)).map uIndex ++
   (p.extra.pair.map (·.link)).toList).eraseDups

/-- The rows whose arrays a plan uses: those of its owned arrays and, of a SCREEN plan, of its patterns' arrays. -/
def Plan.rowsAt (p : Plan) : List Nat := (p.rowsOwned ++ p.extra.patterns.map (fun (x : PatternAt) => x.arr / 26)).eraseDups

/-- Rows a plan names: those of its arrays and of its spare claims. -/
def Plan.rowsNamed (p : Plan) : List Nat :=
  (p.rowsAt ++ (p.core.claims.filter (fun k => k.cls = 3 ∨ k.cls = 4)).map (·.index)).eraseDups

/-- A unit is RETIRED: it counts as absent (R356). -/
def State.retired (s : State) (u : UnitId) : Bool := (s.fst.unit u).state = .retired

/-- Number of set bits. -/
def popCount {w : Nat} (v : BitVec w) : Nat := ((List.range w).filter (fun i => v.getLsbD i)).length

/-- A row of the part has fewer than 24 usable arrays (R356). -/
def State.rowShort (s : State) (r : Nat) : Bool :=
  decide (s.rows ≤ r) || (match finOf 24 r with | some r => decide (2 < popCount (s.fst.failed.at r)) | none => true)

/-- 0x20: what the plan names exists. -/
def badAbsent (s : State) (p : Plan) : Option PlanBad :=
  firstBad [
    badIf (decide (s.rows < p.core.rowsUsed) || s.retired (uCommit p.core.home.val)) { cause := 0x20 },
    badAt p.rowsNamed s.rowShort (fun _ => { cause := 0x20 }),
    badAt p.portsNamed (fun n => decide (s.ports ≤ n) || s.retired (unitId 3 n)) (fun n => { cause := 0x20, cls := 1, index := n }),
    badAt p.linksNamed (fun n => decide (s.links ≤ n) || s.retired (unitId 4 n)) (fun n => { cause := 0x20, cls := 2, index := n })]

/-- The loaded and reserved plans of the other contexts, with the image that a load in progress must keep (R328). -/
def State.otherPlans (s : State) (c : Ctx) : List (Ctx × Plan × Bool) :=
  (allCtx.filter (· ≠ c)).flatMap (fun d =>
    (match s.planOf d with | some p => if s.hasPlan d then [(d, p, false)] else [] | none => []) ++
    (match (s.ctx d).plan.pend with | some p => [(d, p, true)] | none => []))

/-- 0x21: logical arrays of another plan (R327). -/
def badOwned (s : State) (c : Ctx) (p : Plan) : Option PlanBad :=
  p.core.owned.findSome? (fun o => ((s.otherPlans c).find? (fun x => x.2.1.owns o.logical)).map (fun x =>
    { cause := 0x21, cls := 5, index := o.logical, conflict := x.1.val }))

/-- A plan's slices of a resource; a lending row's reserve carries the shadow time claimed on the row it serves (R208, R326). -/
def State.slices (s : State) (p : Plan) (cls idx : Nat) : BitVec 64 :=
  p.claimsOf cls idx ||| (if cls = 4 then match finOf 24 idx with
    | some d => match finOf 24 (s.shd.rows.at d).lendTo.toNat with | some r => p.claimsOf 3 r.val | none => 0
    | none => 0 else 0)

/-- The resources on which a plan has slices, in order of class and index. -/
def resources : List (Nat × Nat) :=
  (List.range 40).map (fun i => (1, i)) ++ (List.range 24).map (fun i => (2, i)) ++ (List.range 24).map (fun i => (3, i)) ++
  (List.range 24).map (fun i => (4, i))

/-- The row that a lending row serves. -/
def State.lendsTo (s : State) (idx : Nat) : Option Row := (finOf 24 idx).bind (fun d => finOf 24 (s.shd.rows.at d).lendTo.toNat)

/-- A run of cycles at a position meets an idle run that the plan declares for a holder (R199, R368). -/
def Plan.meetsIdle (p : Plan) (holder index position first last : Nat) : Bool :=
  p.extra.idle.any (fun x => x.holder = holder && x.index = index &&
    (decide (0 < p.runLeft x position first) || (x.position = position && decide (first ≤ x.start) && decide (x.start < last))))

/-- A shadow slot or a chase window of a row falls into an idle run that the plan declares for the array it runs on (R199). -/
def Plan.slotInIdle (p : Plan) (row : Nat) : Bool :=
  p.cover.slots.zipIdx.any (fun y => y.1.logical / 24 = row &&
    p.meetsIdle (if y.1.holder = 1 then 1 else 0) (if y.1.holder = 1 then row else y.1.index) y.1.position
      (((p.work.slots[y.2]?).map (·.1)).getD y.1.compare) y.1.compare) ||
  p.cover.chase.any (fun x => x.row = row && decide (0 < x.slots) &&
    p.cover.chaseTiles.any (fun t => t.logical / 24 = row && p.meetsIdle 1 row t.position x.begin_ x.end_))

/-- 0x22: slices, and slots outside declared idle slots (R199, R326). Slice 63 of a memory port is never claimed. -/
def badSlices (s : State) (c : Ctx) (p : Plan) : Option PlanBad :=
  resources.findSome? (fun k =>
    let mine := s.slices p k.1 k.2
    let own : Bool := (k.1 = 1 && mine.getLsbD 63) || (k.1 = 3 && p.slotInIdle k.2) ||
      (k.1 = 4 && match s.lendsTo k.2 with | some r => p.claimsOf 3 r.val &&& p.claimsOf 4 k.2 ≠ 0 | none => false)
    if own then some { cause := 0x22, cls := k.1, index := k.2 }
    else ((s.otherPlans c).find? (fun x => mine &&& s.slices x.2.1 k.1 k.2 ≠ 0)).map (fun x =>
      { cause := 0x22, cls := k.1, index := k.2, conflict := x.1.val }))

/-- The partitions a plan uses: its home and those of its rows, memory ports and links (R452, R494). -/
def State.partsOf (s : State) (p : Plan) : List Nat :=
  (p.core.home.val :: p.rowsAt.map (fun r => partOf r s.rows) ++ p.portsNamed.map (fun n => partOf n s.ports) ++
   p.linksNamed.map (fun n => partOf n s.links)).eraseDups

/-- A pass controller serves its partition: RUN, or RESTARTING out of it; one that came back from FAILED does so once it is in RUN again
(R452). -/
def State.controllerUp (s : State) (k : Nat) : Bool :=
  match finOf 6 (k + 1) with
  | some q => (s.fwp.procs.at q).state = .run || ((s.fwp.procs.at q).state = .restarting && (s.fwp.procs.at q).greeted)
  | none => false

/-- 0x23: rows without a slice or a donor, fenced links, pass controllers that do not run (R184, R211, R266, R452). -/
def badService (s : State) (p : Plan) : Option PlanBad :=
  firstBad [
    badAt p.rowsAt (fun r => match finOf 24 r with | some r => (s.wce.slices.at (rowSlice r)).heldBy = 31 | none => false)
      (fun r => { cause := 0x23, cls := 8, index := r }),
    badAt (List.finRange 24) (fun r => p.rotates && p.onSpare r && (s.shd.rows.at r).noDonor) (fun r => { cause := 0x23, cls := 3, index := r.val }),
    badAt (List.finRange 24) (fun l => !p.core.relaxed && p.usesLink l.val && (s.lgtu.at l).fenced) (fun l => { cause := 0x23, cls := 2, index := l.val }),
    badAt (List.range 4) (fun k => (s.partsOf p).contains k && !s.controllerUp k) (fun k => { cause := 0x23, cls := 10, index := k })]

/-- Peak waiting tags of a plan at a shadow scheduler unit. -/
def Plan.peakAt (p : Plan) (k : Nat) : Nat := ((p.cover.peakTags.filter (fun x => x.1 = k)).map (·.2)).sum

/-- 0x24: waiting tags (R195). -/
def badTags (s : State) (c : Ctx) (p : Plan) : Option PlanBad :=
  badAt (List.range 4) (fun k => decide (4096 < p.peakAt k + ((s.otherPlans c).map (fun x => x.2.1.peakAt k)).sum))
    (fun k => { cause := 0x24, cls := 6, index := k })

/-- B(n, q) of R234. -/
def Plan.retainedAt (p : Plan) (n q : Nat) : Nat := (p.cover.retained.filter (fun r => r.position = n ∧ r.gtu = q)).length

/-- N_q of R234. -/
def Plan.slotsNeeded (p : Plan) (q : Nat) : Nat :=
  (List.range p.q).foldl (fun m n => max m (p.retainedAt n q + p.retainedAt ((n + 1) % p.q) q)) 0

/-- S_q: the staves of the area at a port. -/
def Plan.staves (p : Plan) (q : Nat) : Nat := ((p.cover.areas.filter (fun a => a.gtu = q)).map (·.staves)).sum

/-- Two runs of copy-backs share a port cycle: each copy-back takes 8, back to back (R493). -/
def CopyRun.meets (x y : CopyRun) : Bool := decide (max x.offset y.offset < min (x.offset + 8 * x.count) (y.offset + 8 * y.count))

/-- The copy-backs of a position at a port have their runs, no two over the same port cycles, each before the end marker of the next pass
(R231): port cycles of 1 ns against array cycles at f_max. -/
def State.copiesPlaced (s : State) (p : Plan) (n q : Nat) : Bool :=
  let runs := p.cover.copyRuns.filter (fun r => r.position = n ∧ r.gtu = q)
  decide (p.retainedAt n q ≤ (runs.map (·.count)).sum) && !anyPair CopyRun.meets runs &&
  runs.all (fun r => decide ((r.offset + 8 * r.count) * s.fmax ≤ p.endAt ((n + 1) % p.q) * 100))

/-- 0x25: retention (R231, R234). -/
def badRetention (s : State) (p : Plan) : Option PlanBad :=
  badAt (List.range 40) (fun q => decide (8 * p.staves q < p.slotsNeeded q) || (List.range p.q).any (fun n => !s.copiesPlaced p n q))
    (fun q => { cause := 0x25, cls := 1, index := q })

/-! ## Memory areas and provenance load (causes 0x26, 0x27) -/

/-- A piece of memory: a run of job bytes, staves of a port, or a blank of a port. -/
inductive MemArea where
  | job (addr len : Nat)
  | staves (gtu first count : Nat)
  | blank (gtu index : Nat)
  deriving DecidableEq, Repr

/-- The memory port that holds a job byte. -/
def State.portOfJob (s : State) (a : Nat) : Nat := match s.jobPlace a with | some (st, b) => portAt st b | none => 0

/-- The area holds a blank of a port. -/
def MemArea.holds (m : MemArea) (gtu index : Nat) : Bool :=
  match m with
  | .job _ _ => false
  | .staves g f n => g = gtu && decide (f ≤ index / 8) && decide (index / 8 < f + n)
  | .blank g b => g = gtu && b = index

/-- The memory port holding the first byte of a run of job addresses that falls into an area. -/
def State.jobMeets (s : State) (a n : Nat) (m : MemArea) : Option Nat :=
  (List.range n).findSome? (fun i => match s.jobPlace (a + i) with
    | some (st, b) => if m.holds (portAt st b) (b / 4096) then some (portAt st b) else none
    | none => none)

/-- The memory port holding the first byte that two areas share. -/
def State.meet (s : State) (x y : MemArea) : Option Nat :=
  match x, y with
  | .job a n, .job b m => if max a b < min (a + n) (b + m) then some (s.portOfJob (max a b)) else none
  | .job a n, m => s.jobMeets a n m
  | m, .job a n => s.jobMeets a n m
  | .staves g f n, .staves h k m => if g = h ∧ max f k < min (f + n) (k + m) then some g else none
  | .staves g f n, .blank h b => if (MemArea.staves g f n).holds h b then some g else none
  | .blank h b, .staves g f n => if (MemArea.staves g f n).holds h b then some g else none
  | .blank g b, .blank h k => if g = h ∧ b = k then some g else none

/-- Staves from the first to the last of a retention area. -/
def areaSpan (a : Area) : Nat := match (areaStaves a.gtu a.first a.staves).getLast? with | some l => l + 1 - a.first | none => a.staves

/-- The areas of a plan: retention areas, capture banks, record ring, hunt area, and the image (R328 cause 0x26). -/
def Plan.memAreas (p : Plan) (image : Option Nat) : List MemArea :=
  p.cover.areas.map (fun a => .staves a.gtu a.first (areaSpan a)) ++
  p.extra.banks.map (fun b => .job b.addr (8 * p.listMax b.role)) ++
  (p.extra.ring.map (fun r => MemArea.job r.1 (256 * r.2))).toList ++
  (p.extra.pair.map (fun x => MemArea.job x.hunt (8 * p.writesMax))).toList ++
  (image.map (fun a => MemArea.job a p.core.imageLen)).toList

/-- The blanks of the schedule: those its program reads and writes, and those the plan image names, retained blanks, listed blanks,
outputs of chase-eligible tiles. -/
def Plan.scheduleBlanks (p : Plan) : List MemArea :=
  p.cover.retained.map (fun r => .blank r.gtu r.blank) ++ p.extra.lists.map (fun l => .blank l.gtu l.blank) ++
  p.cover.chaseOuts.map (fun x => .blank x.2.1 x.2.2) ++ (p.work.reads ++ p.work.writes).map (fun x => .blank x.2.1 x.2.2)

/-- The first meeting of two members of a list. -/
def State.firstMeet (s : State) : List MemArea → Option Nat
  | [] => none
  | x :: xs => xs.findSome? (s.meet x) <|> s.firstMeet xs

/-- 0x26: memory areas (R234, R293, R315), banks, ring and program image in the job region (R293, R307, R496). -/
def badAreas (s : State) (c : Ctx) (p : Plan) : Option PlanBad :=
  let own := p.memAreas (some (s.ctx c).plan.from_.toNat)
  let at_ (o : Option Nat) (conflict : Nat) : Option PlanBad := o.map (fun q => { cause := 0x26, cls := 9, index := q, conflict })
  firstBad [
    at_ (s.firstMeet own) 0xFF,
    at_ (own.findSome? (fun a => p.scheduleBlanks.findSome? (s.meet a))) 0xFF,
    (s.otherPlans c).findSome? (fun x =>
      let theirs := x.2.1.memAreas (if x.2.2 then some (s.ctx x.1).plan.from_.toNat else none)
      at_ (own.findSome? (fun a => theirs.findSome? (s.meet a))) x.1.val),
    badIf (p.extra.banks.any (fun b => !s.runInJob b.addr (8 * p.listMax b.role)) || p.extra.ring.any (fun r => !s.runInJob r.1 (256 * r.2)))
      { cause := 0x26 },
    badIf (!s.runInJob p.core.progAddr p.core.progLen) { cause := 0x26 }]

/-- Cycles of the positions of a span, with the boundary gap of 2,560 before each. -/
def Plan.spanCycles (p : Plan) (last : Nat) : Nat := ((p.spanPositions last).map (fun n => p.endAt n + 2560)).sum

/-- The position of the result point after one. -/
def Plan.resultAfter (p : Plan) (position : Nat) : Nat :=
  (((List.range p.q).map (fun k => (position + 1 + k) % p.q)).find? (fun n => p.extra.results.any (fun r => r.position = n))).getD position

/-- Bytes to hash of a result point, and the cycles of the span that follows (R302). -/
def Plan.hashLoad (p : Plan) (r : ResultPoint) : Nat × Nat :=
  let n (f : Nat → Bool) : Nat := (p.extra.lists.filter (fun l => l.result = r.number && f l.role)).length
  (8 * n (fun k => decide (k ≤ 2)) + 4096 * n (fun k => k = 3), max 1 (p.spanCycles (p.resultAfter r.position)))

/-- The provenance load of a plan in bytes over cycles: the largest over its spans (R302). -/
def Plan.provLoad (p : Plan) : Nat × Nat :=
  p.extra.results.foldl (fun m r => let x := p.hashLoad r; if m.1 * x.2 < x.1 * m.2 then x else m) (0, 1)

/-- 0x27: the sum of the provenance loads is at most 96 GB/s at f_max (R302), and every full-hash read has its port cycles (R300). -/
def badProvLoad (s : State) (c : Ctx) (p : Plan) : Option PlanBad :=
  let sum := (p :: (s.otherPlans c).map (·.2.1)).foldl (fun m q => let x := q.provLoad; (m.1 * x.2 + x.1 * m.2, m.2 * x.2)) (0, 1)
  badIf (decide (9600 * sum.2 < sum.1 * s.fmax) || (!p.work.hashPlaced && p.extra.lists.any (fun l => l.role = 3))) { cause := 0x27, cls := 7 }

/-! ## All checks in the order of their causes -/

/-- The checks that depend on the present configuration, repeated at the application point (R319). -/
def presentChecks (s : State) (c : Ctx) (p : Plan) : Option PlanBad :=
  firstBad [badReplays s c p, badAbsent s p, badOwned s c p, badSlices s c p, badService s p, badTags s c p, badRetention s p,
            badAreas s c p, badProvLoad s c p]

/-- The checks of the plan itself, causes 0x06 to 0x0E. -/
def planChecks (s : State) (p : Plan) : Option PlanBad :=
  firstBad [badModes p, badWindow p, badProgram p, badTiming p, badRotation p, badSlots s p, badVisits p, badLists p, badLockstep s p]

end Sys2Proof.Machine
end

