-- ==== Sys2Proof/Machine/Plans.lean ====
section
/-! DEFINITION. Loading a plan (R315 to R325): LOAD, CANCEL and UNLOAD, validation, distribution, the switch at the application point, and
the release of a plan. -/

namespace Sys2Proof.Machine

/-! ## The driver's commands (R316, R333) -/

/-- Offset of VX_PLN_CTX_CTRL. -/
def planCtrlOff (c : Ctx) : Nat := 0xC00200 + 8 * c.val

/-- A load command refused: REFUSED and the MC log. -/
def planRefuse (s : State) (src : Src) (c : Ctx) : State :=
  (s.onPlan c (fun p => { p with refused := true })).logRefusal mc (some c) src (planCtrlOff c)

/-- A load command accepted. -/
def planAccept (s : State) (c : Ctx) : State := s.onPlan c (fun p => { p with refused := false })

/-- Plan loads are accepted: READY, in VS0, the fault steward in RUN, no shutdown (R316, R464, R469, R478). -/
def State.loadsAccepted (s : State) : Bool := s.pwr.ready && s.pwr.vs = .vs0 && s.fst.state = .run && s.pwr.down.isNone

/-- MC's firmware runs: the checks run on it (chapter 10). -/
def State.mcRuns (s : State) : Bool := (s.fwp.procs.at mc).state = .hold || (s.fwp.procs.at mc).state = .run

/-- The loader takes the next image to validate, in order of LOAD commands (R317). -/
def planNext (s : State) : State :=
  match s.pln.validating, s.pln.queue with
  | none, c :: rest =>
    if s.mcRuns then (s.onPln (fun x => { x with queue := rest, validating := some c })).onPlan c (fun p => { p with phase := .validating }) else s
  | _, _ => s

/-- MC restarts while a load is VALIDATING: the load goes back to the head of the queue (R317). -/
def planRequeue (s : State) : State :=
  match s.pln.validating with
  | some c => (s.onPln (fun x => { x with queue := c :: x.queue, validating := none })).onPlan c (fun p => { p with phase := .queued })
  | none => s

/-- LOAD: where the image lies is taken from VX_PLN_CTX_IMAGE. -/
def loadCmd (src : Src) (c : Ctx) (s : State) : State :=
  if (s.ctx c).plan.phase = .none ∧ s.loadsAccepted then
    let s := (planAccept s c).onPlan c (fun p => { p with phase := .queued, from_ := p.addr, kib := p.lenKib })
    planNext (s.onPln (fun x => { x with queue := x.queue ++ [c] }))
  else planRefuse s src c

/-- CANCEL. -/
def cancelCmd (src : Src) (c : Ctx) (s : State) : State :=
  match (s.ctx c).plan.phase with
  | .queued | .validating | .distributing | .pending => planNext (discardLoad (planAccept s c) c)
  | .none | .switching | .unloading => planRefuse s src c

/-- UNLOAD. -/
def unloadCmd (src : Src) (c : Ctx) (s : State) : State :=
  if (s.ctx c).plan.phase = .none ∧ (s.ctx c).pass.st = .stopped then (planAccept s c).onPlan c (fun p => { p with phase := .unloading })
  else planRefuse s src c

/-- A write to VX_PLN_CTX_CTRL. -/
def planCtrl (src : Src) (c : Ctx) (v : Reg) (s : State) : State :=
  if manyCommands v [0, 1, 2] then planRefuse s src c
  else if flag v 0 then loadCmd src c s
  else if flag v 1 then cancelCmd src c s
  else if flag v 2 then unloadCmd src c s
  else s

/-- LOAD. -/
def execLoad (src : Src) (c : Ctx) (s : State) : Res := .next (gatedWrite s src (planCtrlOff c) 1 (loadCmd src c))

/-- CANCEL. -/
def execCancel (src : Src) (c : Ctx) (s : State) : Res := .next (gatedWrite s src (planCtrlOff c) 2 (cancelCmd src c))

/-- UNLOAD. -/
def execUnload (src : Src) (c : Ctx) (s : State) : Res := .next (gatedWrite s src (planCtrlOff c) 4 (unloadCmd src c))

/-! ## Refusals (R319, R329, R332) -/

/-- The event of a refusal. -/
def PlanBad.event (x : PlanBad) : BitVec 16 :=
  if x.cause = 2 ∨ x.cause = 3 then 0xC003 else if x.cause = 4 then 0xC002 else if x.cause < 0x20 then 0xC004 else 0xC005

/-- The 32-bit parameter of a refusal. -/
def PlanBad.param (x : PlanBad) : BitVec 32 :=
  if x.cause = 2 ∨ x.cause = 3 ∨ x.cause = 4 then BitVec.ofNat 32 x.what
  else BitVec.ofNat 32 (x.index % 65536 + 65536 * (x.cls % 16) + 2 ^ 24 * (if x.cause < 0x20 then 0xFF else x.conflict))

/-- A load refused: recorded, the outcome filled in, pending banks cleared and reservations released. -/
def refuseLoad (s : State) (c : Ctx) (x : PlanBad) (atApp : Bool) : State :=
  let s := s.onPlan c (fun p => { p with phase := .none, pend := none, pendHash := [], pendKey := none, banks := [], switched := false })
  let s := s.onPln (fun l => { l with validating := if l.validating = some c then none else l.validating, dists := l.dists.filter (fun d => d.ctx ≠ c) })
  let s := s.emit { code := x.event, unit := uPln, ctx := some c, p32 := x.param,
                    p16 := BitVec.ofNat 16 (x.cause + (if atApp then 32768 else 0)) }
  loadOutcome s c 2 x.event atApp (BitVec.ofNat 8 x.cause) (BitVec.ofNat 4 x.cls) (BitVec.ofNat 16 x.index) (BitVec.ofNat 8 x.conflict)

/-! ## Validation and distribution (R315, R317, R301) -/

/-- Bytes as a read of `n` bytes delivers them. -/
def exactly (n : Nat) (b : List Byte) : List Byte := b.take n ++ List.replicate (n - b.length) 0

/-- The image of a load read through the memory GTUs (R315). -/
def imageOf (s : State) (c : Ctx) (image : JobRead) : List Byte × State :=
  engineRead s (s.ctx c).plan.from_.toNat (1024 * (s.ctx c).plan.kib.toNat) image

/-- The program image of a plan read through the memory GTUs (R495): none of it where it lies outside the job region. -/
def programOf (s : State) (p : Plan) (program : JobRead) : List Byte × State :=
  if s.runInJob p.core.progAddr p.core.progLen then engineRead s p.core.progAddr p.core.progLen program else ([], s)

/-- Every check of a load in VALIDATING, in the order of the causes. A program image that cannot be read is refused under R496. -/
def validate (s : State) (c : Ctx) (p : Plan) (bad : Option PlanBad) (program : JobRead) : Option PlanBad :=
  match bad with
  | some x => some x
  | none => firstBad [
      badIf (JobRead.ecc program p.core.progLen && s.runInJob p.core.progAddr p.core.progLen) { cause := 3, what := 2 },
      planChecks s p, presentChecks s c p]

/-! ## Distribution (R66, R67, R317) -/

/-- The units a plan configures: its fence domain and arrays, their witness ports, the slices, its commit unit, and the engines of its
other sections (log 142). -/
def State.distTargets (s : State) (p : Plan) : List UnitId :=
  let arrays := p.core.owned.filterMap (fun o => s.physOf o.logical)
  (p.cover.targets ++ arrays.map uArr ++ arrays.map uPort ++ p.core.crossbar.map (fun x => unitId 2 x.2) ++ [uCommit p.core.home.val] ++
    (if p.extra.group.isSome then [uSpn] else []) ++ (if p.core.lockstep then [uLsc] else []) ++ (if p.tracks then [uPrv] else []) ++
    (if p.extra.idle ≠ [] ∨ p.extra.patterns ≠ [] then [uScr] else [])).eraseDups

/-- The PLAN_DIST flits of an image: 8 bytes of a known section each (R66, R313). -/
def distFlits (b : List Byte) : List (BitVec 16 × Nat) :=
  ((sectionTable b).filter (fun x => decide (1 ≤ x.type) && decide (x.type ≤ 0xE))).flatMap (fun x =>
    (List.range ((x.length + 7) / 8)).map (fun i => (BitVec.ofNat 16 x.type, 8 * i)))

/-- The 8 bytes of a flit, from the bytes of the image. -/
def flitData (b : List Byte) (sec_ : BitVec 16) (offset : Nat) : BitVec 64 :=
  match (sectionTable b).find? (fun x => x.type = sec_.toNat) with
  | some x => BitVec.ofNat 64 (leNat (((x.body b).drop offset).take 8))
  | none => 0

/-- The next flit of a distribution leaves, if PLN holds a credit of every target: none is on its way (R67). -/
def distSend (b : List Byte) (targets : List UnitId) (s : State) (d : Dist) : State × Dist :=
  match d.flit, d.todo with
  | none, (sec_, off) :: rest =>
    (s.send (.planDist d.ctx sec_ off (flitData b sec_ off)), { d with todo := rest, flit := some (sec_, off, flitData b sec_ off), owing := targets })
  | _, _ => (s, d)

/-- The distribution of a context, if one is in progress. -/
def State.distOf (s : State) (c : Ctx) : Option Dist := s.pln.dists.find? (fun d => d.ctx = c)

/-- A distribution in its next state. -/
def State.putDist (s : State) (d : Dist) : State := s.onPln (fun x => { x with dists := x.dists.filter (fun e => e.ctx ≠ d.ctx) ++ [d] })

/-- The key and the key check of a seed (R97). -/
def keyOfSeed (seed : List Byte) : BitVec 61 × BitVec 16 :=
  let h := sha3 (ascii "GT" ++ seed)
  (BitVec.ofNat 61 (1 + hashBits h 0 128 % (p61 - 1)), BitVec.ofNat 16 (hashBits h 128 16))

/-- The key of a plan that carries a seed, which the distribution brings to every unit that holds keys (R98, R317). -/
def Plan.key (p : Plan) : Option (BitVec 61 × BitVec 16) := if p.core.seed ≠ [] then some (keyOfSeed p.core.seed) else none

/-- The key of a pending plan sent with its flits (R317). -/
def sendKey (s : State) (c : Ctx) (p : Plan) : State :=
  match p.key with | some k => s.send (.planKey c k.1 k.2) | none => s

/-- PLAN_VALIDATED: the claims are reserved, and the key and the first flit leave, or the load is refused; then the next image. -/
def execPlanValidated (image program : JobRead) (s : State) (work : WorkFacts := {}) : Res :=
  match s.pln.validating with
  | none => .next s
  | some c =>
    let (bytes, s) := imageOf s c image
    let (p, bad) := readImage bytes (s.ctx c).plan.kib.toNat work
    let (code, s) := if bad.isSome then ([], s) else programOf s p program
    match validate s c p bad program with
    | some x => .next (planNext (refuseLoad s c x false))
    | none =>
      let s := s.onPlan c (fun l => { l with phase := .distributing, pend := some p, pendHash := sha3 code, pendKey := p.key, banks := [] })
      let s := s.onPln (fun l => { l with validating := none })
      let s := s.emit { code := 0xC008, unit := uPln, ctx := some c, p16 := BitVec.ofNat 16 p.core.ignored
                        p32 := BitVec.ofNat 32 ((p.core.imageLen + 1023) / 1024) }
      let (s, d) := distSend bytes (s.distTargets p) (sendKey s c p) { ctx := c, todo := distFlits bytes }
      .next (planNext (s.putDist d))

/-- A target takes the flit on its way: its pending bank holds the section once the section's last flit has come; when every target has
taken it the next leaves (R66, R67). -/
def takeFlit (s : State) (c : Ctx) (p : Plan) (d : Dist) (target : UnitId) (sec_ : BitVec 16) : State :=
  let s := if d.todo.any (fun f => f.1 = sec_) then s else s.onPlan c (fun l => { l with banks := l.banks ++ [(target, sec_)] })
  let d := { d with owing := d.owing.erase target }
  if d.owing ≠ [] then s.putDist d
  else
    let (s, d) := distSend (imageOf s c { flips := [], errors := [] }).1 (s.distTargets p) s { d with flit := none }
    s.putDist d

/-- PLAN_DIST: a unit writes its pending bank for a section of the plan, or switches on section 0xFFFF (R66, R320). -/
def execPlanDist (target : UnitId) (c : Ctx) (section_ : BitVec 16) (s : State) (offset : Nat := 0) (data : BitVec 64 := 0) : Res :=
  let x := (s.ctx c).plan
  if !s.unitExists target then .next s
  else if section_ = 0xFFFF then
    .next (if x.owed.contains target then s.onPlan c (fun p => { p with onNew := p.onNew ++ [target], owed := p.owed.erase target }) else s)
  else match x.pend, s.distOf c with
    | some p, some d =>
      .next (if d.flit = some (section_, offset, data) ∧ d.owing.contains target = true then takeFlit s c p d target section_ else s)
    | _, _ => .next s

/-- Every flit of a context's distribution has been sent and taken by every target. -/
def State.distTaken (s : State) (c : Ctx) : Bool := (s.distOf c).all (fun d => d.todo = [] && d.owing = [])

/-- A distribution is over. -/
def finishDist (s : State) (c : Ctx) : State := s.onPln (fun x => { x with dists := x.dists.filter (fun d => d.ctx ≠ c) })

/-- DISTRIBUTION_DONE, once every target has taken every flit: every CRC checked again, IMAGE_HASH formed, the load PENDING (R301, R315,
R317). -/
def execDistributionDone (c : Ctx) (image : JobRead) (s : State) : Res :=
  let x := (s.ctx c).plan
  match x.pend with
  | none => .next s
  | some p =>
    if x.phase ≠ .distributing ∨ !s.distTaken c then .next s
    else
      let (bytes, s) := imageOf s c image
      match (if badHeader bytes x.kib.toNat then some { cause := 1 } else badCrc bytes) with
      | some y => .next (refuseLoad s c y false)
      | none =>
        let s := finishDist s c
        .next (s.onPlan c (fun l => { l with phase := .pending, pendHash := sha3 (ascii "IM" ++ l.pendHash ++ sha3 (bytes.take p.core.imageLen)) }))

/-! ## The switch (R318 to R321) -/

/-- The application point of a pending plan (R318). -/
def State.atPoint (s : State) (c : Ctx) : Bool :=
  let x := s.ctx c
  match x.pass.st with
  | .noPlan | .stopped => true
  | .boundary => x.exec.injected && !x.exec.replayDue
  | .held => x.exec.injected && !x.exec.replayDue && !x.pass.holdSub
  | .running | .aborting => false

/-- The plan fields at a switch. -/
def PlanSt.switch (x : PlanSt) (p : Plan) : PlanSt :=
  let k := p.key
  { x with phase := .switching, switched := true, fresh := true, active := some p, pend := none, hash := x.pendHash, pendHash := []
           banks := [], onNew := [], minor := BitVec.ofNat 8 p.core.minor, loaded := k.isSome, pendKey := none
           rho := (k.map (·.1)).getD 0, keyCheck := (k.map (·.2)).getD 0, lastSeed := if p.core.seed = [] then x.lastSeed else some p.core.seed }

/-- The pass fields at a switch: the index runs on from COMMIT_COUNT, or from 0 in NO_PLAN (R7, R321). -/
def PassSt.switch (x : PassSt) : PassSt :=
  let n := if x.st = .noPlan then 0 else x.commitCount
  { x with index := n, commitCount := n, sinceStart := 0, sincePlan := 0, peakSlots := 0
           st := if x.st = .noPlan ∨ x.st = .stopped then .boundary else x.st }

/-- The execution fields at a switch: a new seed, and a first plan, start again with replay number 0 (R321). -/
def ExecSt.switch (x : ExecSt) (st : CtxState) (newSeed : Bool) : ExecSt :=
  let y := if st = .noPlan ∨ st = .stopped then
      { x with injected := true, committed := false, replayDue := false, replaySent := false, cause := none, stopAfter := none, catches := [] } else x
  { y with used := if newSeed then none else y.used }

/-- The barrier at a switch: numbers count from 0 (R272); the timing counters restart with a new run (R263). -/
def BarSt.switch (x : BarSt) (newRun : Bool) : BarSt :=
  { notices := x.notices, chatter := if newRun then {} else x.chatter, retry := if newRun then {} else x.retry }

/-- The lock-step half at a switch: what it counts and the last hunt's result stay. -/
def LscSt.switch (x : LscSt) : LscSt :=
  { mismatches := x.mismatches, index := x.index, logical := x.logical, outcome := x.outcome, valid := x.valid }

/-- Provenance at a switch (R292, R293, R306). -/
def PrvCtx.switch (x : PrvCtx) (newRun : Bool) : PrvCtx :=
  let y := { x with spanNo := 0 }
  if newRun then { y with nextSeq := 0, lastSeq := 0xFFFFFFFF, ackSeq := 0xFFFFFFFF, ring := [] } else y

/-- Coverage at a switch: a first plan has no last clean samples (R203). -/
def CovSt.switch (x : CovSt) (first : Bool) (index : BitVec 48) : CovSt :=
  let y := { x with chaseLog := [] }
  if first then { y with lastClean := [], firstPass := index } else y

/-- The plan has a seed other than the last one; a plan without a seed, which runs SCREEN, has none to compare (R306, R321). -/
def PlanSt.newSeed (x : PlanSt) (p : Plan) : Bool := decide (p.core.seed ≠ []) && decide (x.lastSeed ≠ some p.core.seed)

/-- Everything of a context at a switch (R321). -/
def CtxSt.switch (x : CtxSt) (p : Plan) : CtxSt :=
  let first := x.pass.st = .noPlan
  let newRun := first || x.plan.newSeed p
  { x with pass := x.pass.switch, exec := x.exec.switch x.pass.st newRun, plan := x.plan.switch p
           pos := { x.pos with position := 0, step := 0, rowStep := [] }, bar := x.bar.switch newRun, lsc := x.lsc.switch
           prv := x.prv.switch newRun, cov := x.cov.switch first x.pass.switch.index }

/-- What ports and slices remember of the context's executions ends with its plan. -/
def forgetExecutions (s : State) (c : Ctx) : State :=
  s.onWce (fun w => { w with
    ports := w.ports.mapAll (fun _ p => { p with caught := p.caught.filter (fun e => e.1 ≠ c) })
    slices := w.slices.mapAll (fun _ x => { x with parted := x.parted.filter (fun e => e.1 ≠ c) }) })

/-- The units of the old plan and of the new one, which the switch reaches all together (R67, R320). -/
def State.switchTargets (s : State) (c : Ctx) (p : Plan) : List UnitId :=
  (((s.planOf c).map s.distTargets).getD [] ++ s.distTargets p).eraseDups

/-- The switch of a context to its pending plan; under it the context may wait for a capture bank or a ring entry (R304). -/
def switchPlan (s : State) (c : Ctx) (p : Plan) : State :=
  let targets := s.switchTargets c p
  let s := forgetExecutions (dropSpan (endStall s c) c true) c
  let s := stall ((s.onCtx c (fun x => x.switch p)).onPlan c (fun l => { l with owed := targets })) c
  settle ((noteUse s).send (.planDist c 0xFFFF 0 ((s.ctx c).pass.index.setWidth 64))) c

/-- PLAN_SWITCH: the checks repeated against the present configuration; the switch, once PLN holds a credit of every unit (R67; log 152),
or the refusal at application. -/
def execPlanSwitch (c : Ctx) (s : State) : Res :=
  match (s.ctx c).plan.pend with
  | none => .next s
  | some p =>
    if (s.ctx c).plan.phase ≠ .pending ∨ !s.atPoint c then .next s
    else match presentChecks s c p with
      | some x => .next (refuseLoad s c x true)
      | none => .next (if (s.ctx c).plan.owed = [] then switchPlan s c p else s)

/-! ## The release of a plan (R325) -/

/-- A context back in NO_PLAN: claims, key, RP fields and open span are released; the next pass index is 0 (R7). -/
def unloadPlan (s : State) (c : Ctx) : State :=
  let n := (s.ctx c).pass.commitCount
  let s := forgetExecutions (dropSpan (endStall (noteUse s) c) c false) c
  let s := s.onPlan c (fun p => { p with phase := .none, active := none, minor := 0, hash := [], rho := 0, keyCheck := 0, loaded := false
                                         fresh := false, onNew := [] })
  let s := s.onPass c (fun p => { p with st := .noPlan, index := 0, driverHold := false, holdSub := false, holdFw := false, holdDigest := false })
  let s := s.onExec c (fun _ => {})
  s.emit { code := 0xC007, unit := uPln, ctx := some c, p32 := n.setWidth 32 }

/-- PLAN_UNLOADED, once the context's copy-backs are complete: after UNLOAD, or in an orderly shutdown (R469). -/
def execPlanUnloaded (c : Ctx) (s : State) : Res :=
  .next (if ((s.ctx c).plan.phase = .unloading ∨ (s.pwr.down.isSome ∧ (s.ctx c).pass.st = .stopped)) ∧ s.copiesLeft c = 0 then unloadPlan s c else s)

end Sys2Proof.Machine
end

