-- ==== Sys2Proof/Machine/Screening.lean ====
section
/-! DEFINITION. Field screening (chapter 12): where a pattern may start (R366 to R369), which unit TC chooses (R371), a pattern's judgement
(R364), retests and exposures (R373, R374), the driver's commands and selection (R381). -/

namespace Sys2Proof.Machine

/-! ## Units under screening -/

/-- The kind of a unit under pattern: 0 array serving a logical position, 1 spare, 3 memory GTU, 4 link GTU. -/
def State.unitKind (s : State) (u : UnitId) : Nat :=
  if uClass u = 0 then match finOf 624 (uIndex u) with
    | some a => if (s.logicalOf a).isSome then 0 else 1
    | none => 1
  else uClass u

/-- The pattern of rotation r for a kind of unit (R363). -/
def rotationPattern (kind r : Nat) : BitVec 16 :=
  match kind with
  | 0 => BitVec.ofNat 16 (0x0001 + r % 8)
  | 1 => BitVec.ofNat 16 (0x0011 + r % 8)
  | 3 => BitVec.ofNat 16 (0x0100 + r % 4)
  | _ => BitVec.ofNat 16 (0x0200 + r % 4)

/-- TC runs: the rotation goes on only with it (R452). -/
def State.tcRuns (s : State) : Bool := (s.fwp.procs.at 5).state = .run

/-! ## Starting a pattern -/

/-- A pattern begins on a unit: the unit is isolated (R365), a TEST_NOW that names it is served. -/
def beginPattern (s : State) (u : UnitId) (pattern : BitVec 16) (field held : Bool) : State :=
  let retest := (s.scr.unit u).retest.isSome
  let q : Pattern := { unit := u, pattern, start := s.time.tick, retest := retest && field, round := s.scr.rotation, field, held }
  (s.onScr (fun x => { x with running := x.running ++ [q], testNow := if x.testNow = some u ∧ field then none else x.testNow })).send
    (.isolate u pattern true)

/-- The pattern of a field run: a retest runs the pattern that failed (R373). -/
def State.fieldPattern (s : State) (u : UnitId) : BitVec 16 :=
  match (s.scr.unit u).retest with
  | some (p, _) => p
  | none => rotationPattern (s.unitKind u) s.scr.rotation

/-- The pattern that the SCREEN plan of a running context places on an array of its own: not run yet in this execution, ending before the
end marker of its pass, in a row without another such pattern (R369). -/
def State.screenSlot (s : State) (a : Arr) : Option (Ctx × PatternAt) :=
  let rowFree := !s.scr.running.any (fun q => !q.field && uClass q.unit = 0 && uIndex q.unit / 26 = (rowOf a).val)
  match (s.logicalOf a).bind s.ownerOf with
  | none => none
  | some c => match s.planOf c with
    | none => none
    | some p =>
      let x := s.ctx c
      let e := ((p.pos x.pos.position).map (·.e)).getD 0
      if rowFree ∧ p.isScreen ∧ x.pass.st = .running then
        (p.extra.patterns.find? (fun y => y.position = x.pos.position && y.arr = a.val && !x.exec.tests.contains y &&
          decide (max y.start x.pos.offset.toNat + 2880000 < e))).map (fun y => (c, y))
      else none

/-- The pattern of a SCREEN plan begins at its offset, once in its execution (R259, R369). -/
def beginSlot (s : State) (a : Arr) (c : Ctx) (y : PatternAt) : State :=
  let s := reachOffset s c y.start
  let s := s.onExec c (fun e => { e with tests := e.tests ++ [y] })
  beginPattern s (uArr a) (BitVec.ofNat 16 y.pattern) false false

/-- The array is the spare of a substitution that has been issued. -/
def State.substituting (s : State) (a : Arr) : Bool := s.fst.orders.any (fun o => o.issued && o.row = rowOf a && o.spare = colOf a)

/-- An array that the rotation may test now: it is eligible, under no pattern, not in reset and not called to substitute, and has an idle
run with 2,884,096 of its cycles left (R367, R368). -/
def State.testable (s : State) (a : Arr) : Bool :=
  s.eligible (uArr a) && !s.isolated a && !s.arrayInReset a && !s.substituting a && s.idleArray a 2884096

/-- The end of a unit's last completed pattern, as a rank: no such pattern comes first. -/
def State.lastRank (s : State) (a : Arr) : Nat := match (s.scr.unit (uArr a)).lastTick with | some t => t.toNat + 1 | none => 0

/-- The array TC chooses (R371): a retest pending, then the array TEST_NOW names, then the oldest completed tick; the lowest index
first. -/
def State.chosenArray (s : State) : Option Arr :=
  let l := (List.finRange 624).filter s.testable
  match l.find? (fun a => (s.scr.unit (uArr a)).retest.isSome) with
  | some a => some a
  | none => match l.find? (fun a => s.scr.testNow = some (uArr a)) with
    | some a => some a
    | none => l.find? (fun a => l.all (fun b => decide (s.lastRank a ≤ s.lastRank b)))

/-- A GTU's next pattern may start: the rotation number has moved past its last one, a retest is pending, or TEST_NOW names it (R371);
a link GTU's link is in use. -/
def State.gtuDue (s : State) (u : UnitId) : Bool :=
  let x := s.scr.unit u
  let live : Bool := uClass u = 3 || match finOf 24 (uIndex u) with
    | some l => decide ((s.lgtu.at l).width ≠ 0) && !(s.lgtu.at l).fenced
    | none => false
  live && (!x.round || x.retest.isSome || s.scr.testNow = some u)

/-- SCREEN_PATTERN_START (R366 to R369, R371): in VS0, with TC running; the pattern its SCREEN plan places now (`slot`), the array TC
chooses while the array pattern generator is free, or a GTU that is due. -/
def execScreenPatternStart (unit : UnitId) (slot : Bool) (s : State) : Res :=
  if !s.eligible unit || !s.tcRuns || s.pwr.vs ≠ .vs0 || s.scr.running.any (fun q => q.unit = unit) then .next s
  else match uClass unit with
    | 0 => match finOf 624 (uIndex unit) with
      | none => .next s
      | some a =>
        if slot then .next (match s.screenSlot a with | some (c, y) => beginSlot s a c y | none => s)
        else if s.scr.running.any (fun q => q.field && uClass q.unit = 0) ∨ s.chosenArray ≠ some a then .next s
        else .next (beginPattern s unit (s.fieldPattern unit) true (s.ownerRests a))
    | _ => if s.gtuDue unit then .next (beginPattern s unit (s.fieldPattern unit) true false) else .next s

/-! ## The end marker (R364, R373, R374) -/

/-- The contexts that use a unit now. -/
def State.usersNow (s : State) (u : UnitId) : BitVec 32 :=
  ctxMask (s.loadedCtxs.filter (fun c => match s.planOf c with | some p => (s.unitsOf c p).contains u | none => false))

/-- A completed pattern at its unit: tick, operating time and rotation. -/
def completedAt (s : State) (q : Pattern) : ScrUnit :=
  let u := s.scr.unit q.unit
  { u with lastTick := some s.time.tick, lastOp := s.time.opsec, incompl := 0, late := false, round := u.round || q.round = s.scr.rotation }

/-- PASS. A retest that passes enters the first failure as one confirmed catch (R373). -/
def patternPass (s : State) (q : Pattern) : State :=
  let u := completedAt s q
  let users := s.usersNow q.unit
  let s := s.onScr (fun x => x.setUnit q.unit { u with lastPass := some s.time.tick, users := users, retest := if q.retest then none else u.retest })
  match q.retest, u.retest with
  | true, some (_, t) =>
    (s.emit { code := 0xD003, unit := q.unit, p16 := q.pattern, p32 := (t >>> 16).setWidth 32 }).histPut
      { unit := q.unit, act := .confirm, event := 0xD001 }
  | _, _ => s

/-- The exposure of a unit that a pattern failure declares lasting: two records as one unit, from its last PASS, or where it has none
since bring-up from its bring-up pattern (R374). -/
def exposureRecords (s : State) (unit : UnitId) (pattern : BitVec 16) : State :=
  let u := s.scr.unit unit
  let t := (u.lastPass.getD u.bringTick) >>> 16
  let s := s.emit { code := 0xD004, unit := unit, p16 := (t >>> 32).setWidth 16, p32 := t.setWidth 32 }
  s.emit { code := 0xD005, unit := unit, p16 := pattern, p32 := u.users ||| s.usersNow unit, glued := true }

/-- FAIL: the first failure sets the retest; a failed retest declares the unit lasting with cause 4 (R373). -/
def patternFail (s : State) (q : Pattern) (misr : BitVec 128) : State :=
  let u := completedAt s q
  let v := { u with fails := satBits 16 (u.fails.toNat + 1) }
  if q.retest then
    let s := s.onScr (fun x => x.setUnit q.unit { v with retest := none })
    exposureRecords (s.histPut { unit := q.unit, act := .declare 4, event := 0xD001 }) q.unit q.pattern
  else
    let s := s.onScr (fun x => x.setUnit q.unit { v with retest := some (q.pattern, s.time.tick) })
    s.emit { code := 0xD001, cls := .c, unit := q.unit, p16 := q.pattern, p32 := misr.setWidth 32 }

/-- A pattern that has ended, judged on MISR and cycle count (R364). -/
def judgePattern (s : State) (e : Pattern × BitVec 128 × BitVec 32) : State :=
  let (q, misr, cycles) := e
  let want := patternCycles q.pattern
  let ok := misr = Config.expectedMisr q.pattern (s.unitKind q.unit) s.fuses.stepping ∧ cycles = want
  let s := s.onScr (fun x => { x with
    resUnit := q.unit, resPat := q.pattern, result := if ok then 1 else 2, resCause := 0, resRetest := q.retest, cycles := cycles, expected := want
    misr := misr, resTick := s.time.tick })
  rotationCheck (if ok then patternPass s q else patternFail s q misr)

/-- TC is in RUN again: the patterns that ended meanwhile are judged (R450). -/
def judgeEnded (s : State) : State := (s.onScr (fun x => { x with ended := [] })).each s.scr.ended judgePattern

/-- SCREEN_PATTERN_END: the unit works again; the pattern is judged where TC runs, else when it runs again (R364, R450). -/
def execScreenPatternEnd (unit : UnitId) (misr : BitVec 128) (cycles : BitVec 32) (s : State) : Res :=
  match s.scr.running.find? (fun q => q.unit = unit) with
  | none => .next s
  | some q =>
    let t := (s.onScr (fun x => { x with running := x.running.filter (fun y => y.unit ≠ unit) })).send (.isolate unit q.pattern false)
    .next (if s.tcRuns then judgePattern t (q, misr, cycles) else t.onScr (fun x => { x with ended := x.ended ++ [(q, misr, cycles)] }))

/-- A unit is overdue (R372): its last completed pattern lies too far in the past. -/
def State.overdue (s : State) (u : UnitId) : Bool :=
  s.eligible u && (s.scr.unit u).lastTick.isSome && decide (s.scr.minutes.toNat * 60 < (s.time.opsec - (s.scr.unit u).lastOp).toNat)

/-- SCREEN_ROTATION_LATE: recorded once for a unit that becomes overdue. -/
def execScreenRotationLate (unit : UnitId) (s : State) : Res :=
  let u := s.scr.unit unit
  if !s.overdue unit || u.late then .next s
  else
    let s := s.onScr (fun x => x.setUnit unit { u with late := true })
    let mins := (s.time.opsec - u.lastOp).toNat / 60
    .next (rotationCheck (s.emit { code := 0xD007, unit := unit, p16 := BitVec.ofNat 16 s.scr.rotation, p32 := satBits 32 mins }))

/-! ## Commands and registers (R381) -/

/-- TEST_NOW on the selected unit. -/
def testNowCmd (src : Src) (s : State) : State :=
  if s.eligible s.scr.sel ∧ s.scr.testNow = none then s.onScr (fun x => { x with testNow := some x.sel, refused := false })
  else (s.onScr (fun x => { x with refused := true })).logRefusal mc none src 0xD00030

/-- A write to VX_SCR_CTRL. -/
def scrCtrl (src : Src) (v : Reg) (s : State) : State := if flag v 0 then testNowCmd src s else s

/-- TEST_NOW. -/
def execTestNow (src : Src) (s : State) : Res := .next (gatedWrite s src 0xD00030 1 (testNowCmd src))

/-- A write to VX_SCR_UNIT_SEL. -/
def scrUnitSel (v : Reg) (s : State) : State := s.onScr (fun x => { x with sel := field v 0 16, valid := false })

/-- SCR_UNIT_SEL_WRITE. -/
def execScrUnitSelWrite (src : Src) (v : Reg) (s : State) : Res := .next (gatedWrite s src 0xD00100 v (scrUnitSel v))

/-- SCR_UNIT_INFO_READY. -/
def execScrUnitInfoReady (s : State) : Res := .next (s.onScr (fun x => { x with valid := true }))

/-- A write to VX_SCR_CFG: ROTATION_MIN, held to 1 to 240. -/
def scrCfg (v : Reg) (s : State) : State :=
  let n := (v.setWidth 8).toNat
  s.onScr (fun x => { x with minutes := BitVec.ofNat 8 (min 240 (max 1 n)) })

end Sys2Proof.Machine
end

