-- ==== Sys2Proof/Machine/Firmware.lean ====
section
/-! DEFINITION. Firmware processors (chapter 15): restarts under the steady-rest latches (R447 to R450), failure (R451, R452), loads (R428
to R430, R453), mailboxes and the protocol (R431 to R440), and the commit that waits 5 ms for a token (R448). -/

namespace Sys2Proof.Machine

/-- A processor. -/
def State.proc (s : State) (p : Proc) : ProcSt := s.fwp.procs.at p

/-- The firmware of a processor runs: HOLD or RUN (R427). -/
def ProcSt.runs (x : ProcSt) : Bool := x.state = .hold || x.state = .run

/-- The clock of a processor runs: MC's down to VS2, the others' in VS0 and VS1 (R447, R476). -/
def State.clocked (s : State) (p : Proc) : Bool := s.pwr.vs = .vs0 || s.pwr.vs = .vs1 || (s.pwr.vs = .vs2 && decide (p = mc))

/-- The firmware of a processor runs now: HOLD or RUN, and its clock. -/
def State.fwRuns (s : State) (p : Proc) : Bool := (s.proc p).runs && s.clocked p

/-- The code of a processor state (VX_FWP_STATUS.STATE). -/
def ProcState.code : ProcState → Nat
  | .off => 0 | .loading => 1 | .hold => 2 | .run => 3 | .restarting => 4 | .failed => 5

/-- Restarts counted in RECENT: begun less than 60 s of operating time ago (R451). -/
def ProcSt.counted (x : ProcSt) (now : BitVec 40) : List (BitVec 40) := x.recent.filter (fun t => decide ((now - t).toNat < 60))

/-- A trace point is enabled (VX_FWP_TRACE_EN). -/
def ProcSt.traces (x : ProcSt) (point : Nat) : Bool := (x.trace.at (Fin.ofNat 4 (point / 64))).getLsbD (point % 64)

/-- A trace point: an entry only while its enable is 1; its argument is the firmware's own (R455; log 8). -/
def tracePoint (s : State) (p : Proc) (point : Nat) : State :=
  if (s.proc p).traces point then
    let (w, s) := s.fresh
    s.logTo p (BitVec.ofNat 16 point) none false (w.setWidth 32)
  else s

/-- A trace point with the argument its firmware gives it. -/
def traceAs (s : State) (p : Proc) (point : Nat) (c : Option Ctx) (arg : BitVec 32) : State :=
  if (s.proc p).traces point then s.logTo p (BitVec.ofNat 16 point) c false arg else s

/-! ## Tightly coupled memory (R425, R426; log 163) -/

/-- Words of a part of a processor's memory; MC's code is its ROM. -/
def tcmWords (p : Proc) : TcmPart → Nat
  | .code => if p = mc then 0 else 65536
  | .retained => if p = mc then 24576 else 16384
  | .working => if p = mc then 40960 else 49152

/-- A word written: the list keeps its order and lists no word that is 0. -/
def tcmPut (a : Nat) (v : BitVec 32) : List (Nat × BitVec 32) → List (Nat × BitVec 32)
  | [] => if v = 0 then [] else [(a, v)]
  | (b, w) :: l =>
    if a < b then (if v = 0 then (b, w) :: l else (a, v) :: (b, w) :: l)
    else if a = b then (if v = 0 then l else (a, v) :: l)
    else (b, w) :: tcmPut a v l

/-! ## Channels of a processor that stops (R449) -/

/-- A channel after it closed: a fixed one stays OPEN and empty, a dynamic one is FREE. -/
def ChanSt.closed (x : ChanSt) (c : Chan) (now : BitVec 64) (told : List Proc) : ChanSt :=
  if c.val < 10 then { x with entries := [], sendWait := false, told, closedAt := some now, closedBy := x.sender }
  else { sent := x.sent, discarded := x.discarded, told, closedAt := some now, closedBy := x.sender }

/-- One channel of a processor closes: its entries are discarded and recorded, its partner sees CLOSED once, at once if it waits to send
on it. -/
def closeChan (p : Proc) (s : State) (c : Chan) : State :=
  let x := s.fwp.chans.at c
  let isSender := decide (x.sender.toNat = p.val)
  if x.state = .free ∨ !(isSender || decide (x.receiver.toNat = p.val)) then s
  else
    let n := x.entries.length
    let s := if n = 0 then s else s.emit { code := 0xB007, unit := uProc p, p16 := BitVec.ofNat 16 c.val, p32 := BitVec.ofNat 32 n }
    let partner := finOf 6 (if isSender then x.receiver.toNat else x.sender.toNat)
    let waits : Bool := match partner with | some q => !isSender && (s.proc q).waitSend.any (fun w => w.1 = c) | none => false
    let s := s.onChan c (fun y => ({ y with discarded := y.discarded + BitVec.ofNat 16 n } : ChanSt).closed c s.time.tick
      (if waits then [] else partner.toList))
    match partner with
    | some q => if waits then (s.onProc q (fun y => { y with waitSend := none })).send (.chan q .closed) else s
    | none => s

/-- Every channel of a processor closes. -/
def closeChans (s : State) (p : Proc) : State := s.each (List.finRange 32) (closeChan p)

/-! ## Mailbox answers (R432, R435, R437) -/

/-- The 64 bytes of a message as registers. -/
def toRegs (b : List Byte) : MboxRegs := Vector.ofFn (fun k => byteReg b k.val)

/-- The side's position among the mailboxes. -/
def mboxOf (p : Proc) (side : Fin 2) : Fin 12 := ⟨2 * p.val + side.val, by omega⟩

/-- The bytes of the request in progress. -/
def Mbox.bytes (m : Mbox) : List Byte := regBytes m.inReq.toList

/-- A response posted: BUSY cleared, DONE set, the pending bit, MAILBOX on side 0. -/
def postResponse (s : State) (p : Proc) (side : Fin 2) (rsp : MboxRegs) : State :=
  let m := mboxOf p side
  let s := s.onMbox m (fun x => { x with rsp, busy := false, done := true })
  let s := { s with irq := { s.irq with mbx := s.irq.mbx ||| (1#12 <<< m.val) } }
  if side = 0 then s.irqSet irqMailbox else s

/-- A message: its first 60 bytes and their CRC. -/
def sealMessage (b : List Byte) : MboxRegs := toRegs (b ++ leBytes 4 (crc32c b).toNat)

/-- PROCESSOR_FAILED to the request in progress (R437). -/
def answerFailed (s : State) (p : Proc) (side : Fin 2) : State :=
  let m := s.fwp.mbox.at (mboxOf p side)
  if m.busy then postResponse s p side (sealMessage (m.bytes.take 5 ++ [0x06, 0, 1] ++ List.replicate 52 0)) else s

/-! ## Failure (R451, R452) -/

/-- Contexts of home partition k, and those whose plan places work on a row of partition k. -/
def State.ctxsOfPart (s : State) (k : Nat) : List Ctx :=
  s.loadedCtxs.filter (fun c => match s.planOf c with
    | some q => decide (q.core.home.val = k) || q.core.owned.any (fun o => partOf (o.logical / 24) s.rows = k)
    | none => false)

/-- A commit that waited for the token of a failed controller is decided without one. -/
def commitWithout (s : State) (c : Ctx) : State :=
  match s.planOf c with
  | some q => if (s.ctx c).exec.tokenWait ∧ !(s.ctx c).exec.injected then decideCommit s c q false else s
  | none => s

/-- The consequences of FAILED by the kind of processor (R452). Where MC fails in bring-up step 2, VX_ALIVE goes on under the always-on
supervisor (R463). -/
def failedEffects (s : State) (p : Proc) : State :=
  if p = mc then { s.setAon (fun a => { a with alive := s.pwr.step = 2 && s.mayToggle }) with mgt := [] }
  else if p.val = 5 then s
  else
    let k := p.val - 1
    let s := s.each (s.ctxsOfPart k) (fun s c => stopCtx s c 0xB003)
    s.each (allCtx.filter (fun c => s.hasPlan c && decide ((s.home c).val = k))) commitWithout

/-- A processor enters FAILED (R451): held in reset, its channels closed, its mailboxes answered, declared lasting with cause 1. -/
def failProc (s : State) (p : Proc) (cause : BitVec 16) (pc : BitVec 32) : State :=
  let s := s.onProc p (fun x => { x with state := .failed, latches := false, pc, waitSend := none, waitRecv := false })
  let s := closeChans s p
  let s := s.emit { code := 0xB003, cls := if p = mc then .f else .u, unit := uProc p, p16 := cause, p32 := pc, acc := 0x50, addr := pc.setWidth 64 }
  let s := s.each [0, 1] (fun s side => answerFailed s p side)
  failedEffects (declareLasting s (uProc p) 1 0xB003) p

/-! ## Restarts (R447 to R449) -/

/-- The newest record is the processor's own: it closes with the restart (R449 step 1). -/
def closeOwnRecord (s : State) (p : Proc) : State :=
  match s.rcd.queue.getLast? with
  | some x => if x.record.unit = uProc p then closeRecord s else s
  | none => s

/-- A restart begins, or is not made where RECENT is already 2 (R449, R451). -/
def restartProc (s : State) (p : Proc) (cause : BitVec 4) (pc : BitVec 32) : State :=
  let recent := (s.proc p).counted s.time.opsec
  if cause ≠ 2 ∧ 2 ≤ recent.length then failProc s p 2 pc
  else
    let s := s.onProc p (fun x => { x with
      state := .restarting, latches := true, cause, restarts := bump x.restarts, pc, from_ := s.time.tick, waitSend := none, waitRecv := false
      working := [], regs := Vector.replicate 32 0
      recent := if cause = 2 then recent else recent ++ [s.time.opsec] })
    let s := closeOwnRecord (s.logTo p 0x8001 none true pc) p
    let s := closeChans s p
    if p = mc then planRequeue (s.setAon (fun a => { a with alive := false })) else s

/-- A processor reaches RUN: a lasting entry in its history becomes WATCH (R451); with TC the patterns that ended meanwhile are judged
(R450). -/
def reachRun (s : State) (p : Proc) : State :=
  let h := s.fst.unit (uProc p)
  let s := s.onProc p (fun x => { x with state := .run })
  let s := if h.state = .lasting then s.onFst (fun f => f.setUnit (uProc p) { h with state := .watch }) else s
  if p.val = 5 then judgeEnded s else s

/-- The watchdog expires, by itself or forced (R447, R448). -/
def expireWatchdog (s : State) (p : Proc) (cause : BitVec 4) (pc : BitVec 32) : State :=
  restartProc (s.onProc p (fun x => { x with expiries := bump x.expiries })) p cause pc

/-- WATCHDOG_EXPIRY: the watchdog counts only while the processor's clock runs. -/
def execWatchdogExpiry (p : Proc) (pc : BitVec 32) (s : State) : Res :=
  .next (if s.fwRuns p then expireWatchdog s p 1 pc else s)

/-- Offset of VX_FWP_CTRL. -/
def fwpCtrlOff (p : Proc) : Nat := 0xB01010 + 0x100 * p.val

/-- RESTART in VX_FWP_CTRL: accepted in RUN only. -/
def procRestartCmd (src : Src) (p : Proc) (pc : BitVec 32) (s : State) : State :=
  if (s.proc p).state = .run then restartProc (s.onProc p (fun x => { x with refused := false })) p 2 pc
  else (s.onProc p (fun x => { x with refused := true })).logRefusal mc none src (fwpCtrlOff p)

/-- FWP_CTRL_RESTART. -/
def execFwpCtrlRestart (src : Src) (p : Proc) (pc : BitVec 32) (s : State) : Res :=
  .next (gatedWrite s src (fwpCtrlOff p) 1 (procRestartCmd src p pc))

/-- The core of a processor runs: its firmware, or the restart of it. -/
def State.coreRuns (s : State) (p : Proc) : Bool := ((s.proc p).runs || decide ((s.proc p).state = .restarting)) && s.clocked p

/-- TCM_ERROR (R426): a single-bit error is corrected and counted; an uncorrectable one in the code part or the ROM fails the processor,
elsewhere it restarts. -/
def execTcmError (p : Proc) (codePart : Bool) (pc : BitVec 32) (s : State) (corrected : Bool := false) : Res :=
  if !s.coreRuns p then .next s
  else if corrected then .next (s.onProc p (fun x => { x with ecc := bump x.ecc }))
  else .next (if codePart then failProc s p 3 pc else restartProc s p 5 pc)

/-- One act of a processor's firmware (log 163). A store to its own code part, which is locked, restarts it with cause 5 (R426); the words
of a part and the register x0 are what R425 gives. -/
def fwAct (p : Proc) (s : State) (a : FwAct) : State :=
  if !s.coreRuns p then s
  else match a with
    | .loop arg => traceAs s p 0 none arg
    | .kick arg => traceAs s p 1 none arg
    | .rebuilt arg => traceAs s p 7 none arg
    | .point n c arg => if 64 ≤ n.toNat then traceAs s p n.toNat c arg else s
    | .message code c arg => if 0x100 ≤ code.toNat ∧ code.toNat < 0x8000 then s.logTo p code c false arg else s
    | .store part word v =>
      if tcmWords p part ≤ word then s
      else match part with
        | .code => if (s.proc p).locked then (let (w, s) := s.fresh; restartProc s p 5 (w.setWidth 32)) else s
        | .retained => s.onProc p (fun x => { x with retained := tcmPut word v x.retained })
        | .working => s.onProc p (fun x => { x with working := tcmPut word v x.working })
    | .reg i v => if i = 0 then s else s.onProc p (fun x => { x with regs := x.regs.set i v })

/-- What the firmware did, in its order. -/
def fwActs (s : State) (p : Proc) (acts : List FwAct) : State := s.each acts (fwAct p)

/-- The latches open (R449): RUN again; HOLD where the host side has never agreed a protocol (R427), and then FWP_WATCHDOG and FWP_RESTART,
which are those of a restart that reaches RUN, stay out. With MC's watchdog alive again, VX_ALIVE toggles where no F fault is pending (R77,
R348, R450). -/
def latchRelease (s : State) (p : Proc) : State :=
    let x := s.proc p
    let s := tracePoint (s.onProc p (fun y => { y with latches := false, state := .hold, pc := y.entry })) p 8
    let s := if x.greeted then reachRun s p else s
    let cause := x.cause.setWidth 16
    let s := if x.greeted ∧ (x.cause = 1 ∨ x.cause = 3 ∨ x.cause = 5) then
        s.emit { code := 0xB001, cls := .c, unit := uProc p, p16 := cause, p32 := x.pc, acc := 0x50, addr := x.pc.setWidth 64 } else s
    let s := if x.greeted then s.emit { code := 0xB002, unit := uProc p, p16 := cause, p32 := satBits 32 ((s.time.tick - x.from_).toNat / 1000) } else s
    if p = mc then planNext (s.setAon (fun a => { a with alive := s.mayToggle })) else s

/-- FWP_FAILED: a restart has not reached RUN within 5 ms. -/
def execFwpFailed (p : Proc) (pc : BitVec 32) (s : State) : Res :=
  .next (if (s.proc p).state = .restarting then failProc s p 1 pc else s)

/-- RECENT_RESTART_EXPIRY (R451). -/
def execRecentRestartExpiry (p : Proc) (s : State) : Res :=
  .next (s.onProc p (fun x => { x with recent := x.counted s.time.opsec }))

/-- COMMIT_HOLD_TIMEOUT (R226, R448, R450): the decision is made without the token, on the reports present now. A clean commit is issued, the
context stays HELD for its token, and the watchdog of a controller in RUN is forced to expire; anything else aborts. -/
def execCommitHoldTimeout (c : Ctx) (s : State) : Res :=
  match s.planOf c with
  | none => .next s
  | some q =>
    if !(s.ctx c).exec.tokenWait ∨ (s.ctx c).exec.injected then .next s
    else
      let p := pcOf (s.home c)
      let s := decideCommit s c q true
      let (w, s) := s.fresh
      .next (if (s.ctx c).exec.committed ∧ (s.proc p).state = .run then expireWatchdog s p 3 (w.setWidth 32) else s)

/-! ## Loading firmware (R428 to R430, R453) -/

/-- A little-endian field of an image. -/
def imageField (b : List Byte) (lo n : Nat) : Nat := leNat ((b.drop lo).take n)

/-- The first failing check of R430, 0 where none fails. -/
def imageCause (s : State) (b : List Byte) (ecc : Bool) : BitVec 4 :=
  let len := imageField b 16 4
  let code := (b.drop 32).take len
  let pcs := (s.fwp.job &&& 0x1E) ≠ 0
  let tc := (s.fwp.job &&& 0x20) ≠ 0
  if imageField b 0 4 ≠ 0x57465856 ∨ len % 4 ≠ 0 ∨ 262144 < len ∨ 1024 * s.fwp.kib.toNat < 32 + len ∨ len ≤ imageField b 20 4 ∨ len ≤ imageField b 24 4 then 1
  else if ecc ∨ (crc32c (b.take 28 ++ code)).toNat ≠ imageField b 28 4 then 2
  else if (pcs ∧ tc) ∨ imageField b 4 1 ≠ (if tc then 2 else 1) then 3
  else if imageField b 5 1 ≠ (s.proc mc).major.toNat then 4
  else if s.fuses.stepping.toNat < imageField b 7 1 ∨ imageField b 8 1 < s.fuses.stepping.toNat then 5
  else 0

/-- Targets of a mask. -/
def targetsOf (mask : BitVec 6) : List Proc := (List.finRange 6).filter (fun p => mask.getLsbD p.val)

/-- A target may be loaded: OFF, or FAILED with no context of its partition loaded (R429, R453). -/
def State.mayLoad (s : State) (p : Proc) : Bool :=
  (s.proc p).state = .off || ((s.proc p).state = .failed && (decide (p.val = 5) || s.ctxsOfPart (p.val - 1) = []))

/-- A write to VX_FWP_LOAD_CTRL. -/
def fwpLoadCtrl (src : Src) (v : Reg) (s : State) : State :=
  let s := s.onFwp (fun w => { w with target := field v 0 6 })
  if !flag v 6 then s
  else
    let mask : BitVec 6 := field v 0 6
    if s.fwp.busy ∨ mask = 0 ∨ mask.getLsbD 0 = true ∨ !(targetsOf mask).all s.mayLoad then
      (s.onFwp (fun w => { w with refused := true })).logRefusal mc none src 0xB00008
    else
      let was := (targetsOf mask).foldl (fun m p => if (s.proc p).state = .failed then m ||| (1#6 <<< p.val) else m) 0
      let s := s.onFwp (fun w => { w with busy := true, result := 0, cause := 0, refused := false, was, job := mask, kib := w.lenKib, base := w.addr })
      s.each (targetsOf mask) (fun s p => s.onProc p (fun x => { x with state := .loading, locked := false }))

/-- FWP_LOAD_GO. -/
def execFwpLoadGo (src : Src) (v : Reg) (s : State) : Res := .next (gatedWrite s src 0xB00008 (v ||| 0x40) (fwpLoadCtrl src (v ||| 0x40)))

/-- The image starts in a target: retained and working parts cleared, HOLD (R430, R453). -/
def startImage (b : List Byte) (s : State) (p : Proc) : State :=
  let version := BitVec.ofNat 32 (imageField b 12 4)
  let s := s.onProc p (fun x => { x with
    state := .hold, greeted := false, recent := [], version, major := BitVec.ofNat 8 (imageField b 5 1), minor := BitVec.ofNat 8 (imageField b 6 1)
    agreed0 := 0, agreed1 := 0, code := (b.drop 32).take (imageField b 16 4), table := imageField b 24 4, pc := BitVec.ofNat 32 (imageField b 20 4)
    entry := BitVec.ofNat 32 (imageField b 20 4), locked := true, retained := [], working := [], regs := Vector.replicate 32 0
    waitSend := none, waitRecv := false })
  let s := s.each [0, 1] (fun s side => s.onMbox (mboxOf p side) (fun m => { m with last := none }))
  s.emit { code := 0xB005, unit := uProc p, p32 := version }

/-- A target of a refused load keeps its state; one that is FAILED answers what was rung meanwhile (R430, R437). -/
def keepState (s : State) (p : Proc) : State :=
  if s.fwp.was.getLsbD p.val then (s.onProc p (fun x => { x with state := .failed, locked := true })).each [0, 1] (fun s side => answerFailed s p side)
  else s.onProc p (fun x => { x with state := .off })

/-- FWP_LOAD_DONE (R430): MC has read and checked the image; the targets start, or keep their states. -/
def execFwpLoadDone (image : JobRead) (s : State) : Res :=
  if !s.fwp.busy ∨ !s.fwRuns mc then .next s
  else
    let n := 1024 * s.fwp.kib.toNat
    let (b, s) := engineRead s s.fwp.base.toNat n image
    let cause := imageCause s b (JobRead.ecc image n)
    if cause ≠ 0 then
      let s := s.onFwp (fun w => { w with busy := false, result := 2, cause })
      let s := s.each (targetsOf s.fwp.job) keepState
      .next (s.emit { code := 0xB006, unit := uProc mc, p16 := cause.setWidth 16, p32 := s.fwp.job.setWidth 32 })
    else
      let s := s.onFwp (fun w => { w with busy := false, result := 1 })
      .next (s.each (targetsOf s.fwp.job) (startImage b))

/-! ## Mailboxes (R431, R435) -/

/-- Offset of VX_MBX_CTRL. -/
def mbxCtrlOff (m : Fin 12) : Nat := 0xA00080 + 0x800 * m.val

/-- RING: the request is copied and the exchange begins, or it is refused. A FAILED processor's hardware answers at once. -/
def mbxRing (src : Src) (m : Fin 12) (s : State) : State :=
  let p : Proc := ⟨m.val / 2, by omega⟩
  let side : Fin 2 := ⟨m.val % 2, by omega⟩
  if (s.fwp.mbox.at m).busy ∨ (side = 0) ≠ (src = .host) then
    (s.onMbox m (fun x => { x with refused := true })).logRefusal mc none src (mbxCtrlOff m)
  else
    let s := s.onMbox m (fun x => { x with inReq := x.req, busy := true, done := false, timedOut := false, refused := false })
    if (s.proc p).state = .failed then answerFailed s p side else s

/-- MBX_RING. -/
def execMbxRing (src : Src) (p : Proc) (side : Fin 2) (s : State) : Res :=
  .next (gatedWrite s src (mbxCtrlOff (mboxOf p side)) 1 (mbxRing src (mboxOf p side)))

/-- MBX_TIMEOUT: raised once for a request. -/
def execMbxTimeout (p : Proc) (side : Fin 2) (s : State) : Res :=
  let m := s.fwp.mbox.at (mboxOf p side)
  if !m.busy ∨ m.timedOut then .next s
  else
    let b := m.bytes
    let s := s.onMbox (mboxOf p side) (fun x => { x with timedOut := true })
    .next (s.emit { code := 0xA001, cls := .c, unit := uProc p, p16 := BitVec.ofNat 16 (imageField b 2 2)
                    p32 := BitVec.ofNat 32 (imageField b 4 1 + 256 * side.val) })

/-! ## Requests (R433, R434, R436, R439, R440) -/

/-- A request as the firmware reads it. -/
structure Request where
  major   : Nat
  minor   : Nat
  opcode  : Nat
  tag     : Nat
  length  : Nat
  payload : List Byte
  crcOk   : Bool

/-- The request in progress. -/
def requestOf (b : List Byte) : Request :=
  { major := imageField b 0 1, minor := imageField b 1 1, opcode := imageField b 2 2, tag := imageField b 4 1, length := imageField b 6 1
    payload := (b.drop 8).take 52, crcOk := (crc32c (b.take 60)).toNat = imageField b 60 4 }

/-- What the firmware answers: status, payload, and the state the request leaves. -/
structure Answer where
  status  : Nat
  payload : List Byte := []
  state   : State

/-- MBX_BAD_REQUEST recorded with a bad CRC, length or field. -/
def badRequest (s : State) (p : Proc) (side : Fin 2) (q : Request) (status : Nat) : Answer :=
  { status, state := s.emit { code := 0xA002, unit := uProc p, p16 := BitVec.ofNat 16 q.opcode
                              p32 := BitVec.ofNat 32 (status + 256 * q.tag + 65536 * side.val) } }

/-- HELLO with the processor's major version. -/
def answerHello (s : State) (p : Proc) (side : Fin 2) (q : Request) : Answer :=
  let x := s.proc p
  let agreed := min q.minor x.minor.toNat
  let a := BitVec.ofNat 8 agreed
  let s := s.onProc p (fun y => if side = 0 then { y with agreed0 := a, greeted := true } else { y with agreed1 := a })
  let s := if side = 0 ∧ x.state = .hold then reachRun s p else s
  { status := 0, state := s
    payload := leBytes 4 x.version.toNat ++ [x.major, x.minor, a, BitVec.ofNat 8 (s.proc p).state.code] }

/-- HELLO with another major version: VERSION_REFUSED and PROTOCOL_MISMATCH. -/
def refuseHello (s : State) (p : Proc) (side : Fin 2) (q : Request) : Answer :=
  let x := s.proc p
  { status := 1, payload := [0, 0, 0, 0, x.major, x.minor]
    state := s.emit { code := 0xA003, unit := uProc p, p16 := BitVec.ofNat 16 (q.major + 256 * q.minor)
                      p32 := BitVec.ofNat 32 (x.major.toNat + 256 * x.minor.toNat + 65536 * side.val) } }

/-- GET_STATUS. -/
def answerStatus (s : State) (p : Proc) : Answer :=
  let x := s.proc p
  { status := 0, state := s
    payload := [BitVec.ofNat 8 x.state.code, x.cause.setWidth 8] ++ leBytes 2 x.restarts.toNat ++ leBytes 8 x.from_.toNat ++ leBytes 2 x.period.toNat }

/-- QUEUE_STATUS: what is queued on a pass controller is its firmware's own (log 8). -/
def answerQueue (s : State) (p : Proc) (side : Fin 2) (q : Request) : Answer :=
  match finOf 32 (imageField q.payload 0 1) with
  | none => badRequest s p side q 5
  | some c =>
    let (w, s) := s.fresh
    let x := (s.ctx c).exec
    { status := 0, state := s
      payload := leBytes 6 x.token.toNat ++ leBytes 2 w.toNat ++ [if x.replayDue && !x.replaySent then 1 else 0] }

/-- TRACE_NAME. -/
def answerName (s : State) (p : Proc) (side : Fin 2) (q : Request) : Answer :=
  let n := imageField q.payload 0 1
  if n < 64 then badRequest s p side q 5
  else { status := 0, state := s, payload := exactly 48 (if p = mc then Config.traceName (Config.rom s.fuses.stepping) (Config.romTable s.fuses.stepping) n else Config.traceName (s.proc p).code (s.proc p).table n) }

/-- The processor serves an opcode in HOLD (R440). -/
def servedInHold (opcode : Nat) : Bool := [1, 2, 3, 5].contains opcode

/-- A request with a good CRC that is not a repeat, carried out or answered with the first status that applies. -/
def carryOut (s : State) (p : Proc) (side : Fin 2) (q : Request) : Answer :=
  let x := s.proc p
  if q.major ≠ x.major.toNat then (if q.opcode = 1 then refuseHello s p side q else { status := 1, state := s })
  else if 52 < q.length then badRequest s p side q 5
  else if x.state = .hold ∧ !servedInHold q.opcode then { status := 2, state := s }
  else match q.opcode with
    | 1 => answerHello s p side q
    | 2 => answerStatus s p
    | 3 => { status := 0, state := s, payload := q.payload.take q.length }
    | 4 => if 1 ≤ p.val ∧ p.val ≤ 4 then answerQueue s p side q else { status := 3, state := s }
    | 5 => answerName s p side q
    | _ => { status := 3, state := s }

/-- The response message of an answer (R432). -/
def responseOf (x : ProcSt) (q : Request) (a : Answer) : MboxRegs :=
  sealMessage ([x.major, x.minor] ++ leBytes 2 q.opcode ++ [BitVec.ofNat 8 q.tag, BitVec.ofNat 8 a.status, BitVec.ofNat 8 a.payload.length, 1] ++
    exactly 52 a.payload)

/-- The firmware serves the request in progress of a mailbox (R435 to R440). -/
def serveRequest (s : State) (p : Proc) (side : Fin 2) (q : Request) : State :=
  let m := mboxOf p side
  let s := tracePoint s p 2
  let old := (s.fwp.mbox.at m).last.filter (fun r => r.1.toNat = q.tag && r.2.1.toNat = q.opcode)
  match (if q.crcOk then old else none) with
  | some r => tracePoint (postResponse s p side r.2.2) p 3
  | none =>
    let a := if q.crcOk then carryOut s p side q else badRequest s p side q 4
    let rsp := responseOf (s.proc p) q a
    let s := a.state
    let s := if a.status = 0 then s.onMbox m (fun x => { x with last := some (BitVec.ofNat 8 q.tag, BitVec.ofNat 16 q.opcode, rsp) }) else s
    tracePoint (postResponse s p side rsp) p 3

/-- The firmware takes the request where its opcode is this row's, or none of the table's. -/
def serveOpcode (opcode : Nat) (p : Proc) (side : Fin 2) (s : State) : State :=
  let m := s.fwp.mbox.at (mboxOf p side)
  let q := requestOf m.bytes
  if m.busy ∧ s.fwRuns p ∧ (q.opcode = opcode ∨ q.opcode = 0 ∨ 5 < q.opcode) then serveRequest s p side q else s

/-- HELLO, after what the firmware did since. -/
def execHello (p : Proc) (side : Fin 2) (s : State) (acts : List FwAct := []) : Res := .next (serveOpcode 1 p side (fwActs s p acts))

/-- GET_STATUS, after what the firmware did since. -/
def execGetStatus (p : Proc) (side : Fin 2) (s : State) (acts : List FwAct := []) : Res := .next (serveOpcode 2 p side (fwActs s p acts))

/-- ECHO, after what the firmware did since. -/
def execEcho (p : Proc) (side : Fin 2) (s : State) (acts : List FwAct := []) : Res := .next (serveOpcode 3 p side (fwActs s p acts))

/-- QUEUE_STATUS, after what the firmware did since. -/
def execQueueStatus (p : Proc) (side : Fin 2) (s : State) (acts : List FwAct := []) : Res := .next (serveOpcode 4 p side (fwActs s p acts))

/-- TRACE_NAME, after what the firmware did since. -/
def execTraceName (p : Proc) (side : Fin 2) (s : State) (acts : List FwAct := []) : Res := .next (serveOpcode 5 p side (fwActs s p acts))

end Sys2Proof.Machine
end

