-- ==== Sys2Proof/Machine/Channels.lean ====
section
/-! DEFINITION. Channels between the processors (R441 to R446): the six operations, credits, the order of receiving, and a cycle of
blocked senders. -/

namespace Sys2Proof.Machine

/-- A processor can begin an operation: its firmware runs and does not wait in one. -/
def State.mayOperate (s : State) (p : Proc) : Bool := s.fwRuns p && (s.proc p).waitSend.isNone && !(s.proc p).waitRecv

/-- Credits free on a channel (R443). -/
def ChanSt.credits (x : ChanSt) : Nat := 16 - x.entries.length

/-- The processor holds the channel open as its sender. -/
def ChanSt.heldBy (x : ChanSt) (p : Proc) : Bool := x.state = .open_ && decide (x.sender.toNat = p.val)

/-- What an operation returns. -/
def State.returns (s : State) (p : Proc) (r : ChanResult) : State := s.send (.chan p r)

/-- The partner has been told CLOSED (R449). -/
def ChanSt.tell (x : ChanSt) (p : Proc) : ChanSt := { x with told := x.told.filter (· ≠ p) }

/-- A channel opened. -/
def openChan (s : State) (p : Proc) (ch : Chan) (receiver : Proc) (priority : BitVec 2) : State :=
  (s.onChan ch (fun x => { x with
    state := .open_, sender := BitVec.ofNat 3 p.val, receiver := BitVec.ofNat 3 receiver.val, prio := priority, told := [], closedAt := none
    openedAt := some s.time.tick })).returns p .ok

/-- The channel was opened in this control cycle by a processor with a higher index, which has sent nothing on it: its OPEN came at the same
time (R445). -/
def State.outranks (s : State) (p : Proc) (ch : Chan) : Bool :=
  let x := s.fwp.chans.at ch
  x.state = .open_ && x.openedAt = some s.time.tick && decide (p.val < x.sender.toNat) && x.entries.isEmpty

/-- An answer that was sent last of its kind, taken back for another. -/
def amend (l : List Out) (old new : Out) : List Out := (l.reverse.replace old new).reverse

/-- OPEN. Of two in one control cycle the lower processor index obtains the channel, and the other sees BUSY (R445). -/
def execOpen (p : Proc) (ch : Chan) (receiver : Proc) (priority : BitVec 2) (s : State) : Res :=
  if !s.mayOperate p then .next s
  else if ch.val < 10 then .next (s.returns p .busy)
  else if s.outranks p ch then
    match finOf 6 (s.fwp.chans.at ch).sender.toNat with
    | some q => .next (openChan { s with out := amend s.out (.chan q .ok) (.chan q .busy) } p ch receiver priority)
    | none => .next (s.returns p .busy)
  else if (s.fwp.chans.at ch).state ≠ .free then .next (s.returns p .busy)
  else .next (openChan s p ch receiver priority)

/-- A wait to send ends. -/
def endSendWait (s : State) (q : Proc) (c : Chan) (r : ChanResult) : State :=
  ((s.onProc q (fun x => { x with waitSend := none })).onChan c (fun x => { x with sendWait := false })).returns q r

/-- An entry has come for a processor that waits for one (R442). -/
def wakeReceiver (s : State) (q : Proc) : State :=
  if (s.proc q).waitRecv then (s.onProc q (fun x => { x with waitRecv := false })).returns q .ok
  else match (s.proc q).waitSend with
    | some (c, true) => endSendWait s q c .ok
    | _ => s

/-- Credits a kind of entry needs: the last one is kept for a reply (R443). -/
def creditsFor (kind : BitVec 2) : Nat := if kind = 1 then 1 else 2

/-- SEND. One of the channel's sender that falls in the control cycle of its closing is discarded and counted (R445). -/
def execSend (p : Proc) (ch : Chan) (e : ChanEntry) (s : State) : Res :=
  let x := s.fwp.chans.at ch
  if !s.mayOperate p then .next s
  else if !x.heldBy p || x.told.contains p then
    let late := x.closedAt = some s.time.tick ∧ x.closedBy.toNat = p.val
    .next ((s.onChan ch (fun y => { (y.tell p) with discarded := if late then bump y.discarded else y.discarded })).returns p .closed)
  else if x.credits < creditsFor e.kind then .next (s.returns p .noCredit)
  else
    let s := tracePoint (s.onChan ch (fun y => { y with entries := y.entries ++ [e], sent := bump y.sent })) p 4
    let s := s.returns p .ok
    .next (match finOf 6 x.receiver.toNat with | some q => wakeReceiver s q | none => s)

/-- An entry waits for a processor. -/
def State.entryFor (s : State) (p : Proc) : Bool :=
  (List.finRange 32).any (fun c => (s.fwp.chans.at c).receiver.toNat = p.val && !(s.fwp.chans.at c).entries.isEmpty)

/-- WAIT_SEND: it waits for two credits, enough for every kind of entry (log 39). -/
def execWaitSend (p : Proc) (ch : Chan) (any : Bool) (s : State) : Res :=
  let x := s.fwp.chans.at ch
  if !s.mayOperate p then .next s
  else
    let s := tracePoint s p 6
    if !x.heldBy p || x.told.contains p then .next ((s.onChan ch (fun y => y.tell p)).returns p .closed)
    else if 2 ≤ x.credits ∨ (any ∧ s.entryFor p) then .next (s.returns p .ok)
    else .next (((s.onProc p (fun y => { y with waitSend := some (ch, any) })).onChan ch (fun y => { y with sendWait := !any })).returns p .waiting)

/-- Channels into a processor that hold an entry. -/
def State.filled (s : State) (p : Proc) : List Chan :=
  (List.finRange 32).filter (fun c => (s.fwp.chans.at c).receiver.toNat = p.val && !(s.fwp.chans.at c).entries.isEmpty)

/-- How far a channel stands in the rotation after the one served last. -/
def turn (served : Nat) (c : Chan) : Nat := (c.val + 31 - served) % 32

/-- The channel RECV takes from: the highest priority, then the rotation (R444). -/
def State.chosen (s : State) (p : Proc) : Option Chan :=
  (s.filled p).foldl (fun best c => match best with
    | none => some c
    | some b =>
      let x := (s.fwp.chans.at c).prio.toNat
      let y := (s.fwp.chans.at b).prio.toNat
      if y < x ∨ (x = y ∧ turn (s.proc p).served c < turn (s.proc p).served b) then some c else some b) none

/-- A channel after its oldest entry was taken: a draining one that is empty is FREE. -/
def ChanSt.taken (x : ChanSt) : ChanSt :=
  let rest := x.entries.drop 1
  if x.state = .draining ∧ rest = [] then { sent := x.sent, discarded := x.discarded, closedAt := x.closedAt, closedBy := x.closedBy }
  else { x with entries := rest }

/-- A blocked sender of a channel goes on once two credits are free. -/
def wakeSender (s : State) (c : Chan) : State :=
  match finOf 6 (s.fwp.chans.at c).sender.toNat with
  | some q => if (s.proc q).waitSend.any (fun w => w.1 = c) ∧ 2 ≤ (s.fwp.chans.at c).credits then endSendWait s q c .ok else s
  | none => s

/-- RECV. -/
def execRecv (p : Proc) (s : State) : Res :=
  if !s.mayOperate p then .next s
  else match s.chosen p with
    | none => .next (s.returns p .empty)
    | some c =>
      let x := s.fwp.chans.at c
      match x.entries with
      | [] => .next (s.returns p .empty)
      | e :: _ =>
        if x.told.contains p then .next ((s.onChan c (fun y => y.tell p)).returns p .closed)
        else
          let s := (s.onChan c ChanSt.taken).onProc p (fun y => { y with served := c.val })
          let s := (tracePoint s p 5).returns p (.entry c e)
          .next (wakeSender s c)

/-- WAIT_RECV. -/
def execWaitRecv (p : Proc) (s : State) : Res :=
  if !s.mayOperate p then .next s
  else if s.entryFor p then .next (s.returns p .ok)
  else .next ((s.onProc p (fun x => { x with waitRecv := true })).returns p .waiting)

/-- CLOSE. -/
def execClose (p : Proc) (ch : Chan) (s : State) : Res :=
  let x := s.fwp.chans.at ch
  if !s.mayOperate p then .next s
  else if ch.val < 10 then .next (s.returns p .refused)
  else if !x.heldBy p then .next ((s.onChan ch (fun y => y.tell p)).returns p .closed)
  else
    let s := s.onChan ch (fun y =>
      if y.entries = [] then { sent := y.sent, discarded := y.discarded, closedAt := some s.time.tick, closedBy := y.sender }
      else { y with state := .draining, closedAt := some s.time.tick, closedBy := y.sender })
    .next (s.returns p .ok)

/-! ## A cycle of blocked senders (R446) -/

/-- The receiver a blocked sender waits on. -/
def State.blockedOn (s : State) (p : Proc) : Option (Proc × Chan) :=
  match (s.proc p).waitSend with
  | some (c, false) => (finOf 6 (s.fwp.chans.at c).receiver.toNat).map (fun q => (q, c))
  | _ => none

/-- The blocked senders from a processor on, until they come back to it or end. -/
def State.chain (s : State) (start : Proc) : Nat → Proc → Option (List (Proc × Chan))
  | 0, _ => none
  | n + 1, p => match s.blockedOn p with
    | none => none
    | some (q, c) => if q = start then some [(p, c)] else (s.chain start n q).map (fun rest => (p, c) :: rest)

/-- A member of the cycle that still waits sees CLOSED. -/
def endCycleWait (s : State) (x : Proc × Chan) : State :=
  if (s.proc x.1).waitSend = some (x.2, false) then endSendWait s x.1 x.2 .closed else s

/-- QUEUE_CYCLE: raised with every processor and channel of the cycle; the member with the highest index restarts, and the waits of the
others return CLOSED. -/
def execQueueCycle (p : Proc) (s : State) : Res :=
  match s.chain p 6 p with
  | none => .next s
  | some members =>
    let top := members.foldl (fun m x => if m.val < x.1.val then x.1 else m) p
    let procs := members.foldl (fun m x => m ||| (1#16 <<< x.1.val)) 0
    let chans := members.foldl (fun m x => m ||| (1#32 <<< x.2.val)) 0
    let (w, s) := s.fresh
    let pc := w.setWidth 32
    let s := s.emit { code := 0xB004, cls := .u, unit := uProc top, p16 := procs, p32 := chans, acc := 0x50, addr := pc.setWidth 64 }
    .next ((restartProc s top 4 pc).each members endCycleWait)

end Sys2Proof.Machine
end

