-- ==== Sys2Proof/Machine/Links.lean ====
section
/-! DEFINITION. The link grain tag units (chapter 03, R120 to R125) and the links' training (R65, R264 to R267, R336). -/

namespace Sys2Proof.Machine

/-- A link the part has. -/
def State.hasLink (s : State) (l : Lnk) : Bool := decide (l.val < s.links)

/-- Words agree with the tag they carry; without a key a reserved state alone is a mismatch (R95, R121). -/
def tagHolds (key : Option (BitVec 61)) (ws : List (BitVec 32)) (t : BitVec 64) : Bool :=
  match key with | some rho => tagMatches rho ws t | none => decide ((tagState t).toNat ≤ 4)

/-- A frame is the one of a context and a sequence number: R132 numbers the frames of a receiving context. -/
def Frame.is (f : Frame) (c : Ctx) (seq : BitVec 32) : Bool := f.ctx = c && f.seq = seq

/-- A frame put onto its route is held for a retry (R122, R266); it takes the place of an earlier one of its number (log 126). -/
def Lgtu.hold (x : Lgtu) (src : Ctx) (f : Frame) : Lgtu := { x with sent := x.sent.filter (fun e => !Frame.is e.2 f.ctx f.seq) ++ [(src, f)] }

/-- The frame that answers a retry request: the one held, sent again along the same route (R122). -/
def resendFrame (s : State) (l : Lnk) (c : Ctx) (seq : BitVec 32) : State :=
  match (s.lgtu.at l).sent.find? (fun e => Frame.is e.2 c seq) with
  | some e => s.send (.frame l e.2)
  | none => s

/-- LINK_FRAME_SEND (R120 to R122, R236): the tag is checked before framing; a mismatch is not sent and the pass is aborted. The frame
carries the key check of the context it comes from, and counts for it where it is routed off its static path (R261; log 155). `again` is
the sending after a retry request, of the frame that is held. -/
def execLinkFrameSend (l : Lnk) (f : Frame) (srcCtx : Ctx) (blank : Nat) (s : State) (again : Bool := false)
    (ex : Option ExecName := none) : Res :=
  if !s.hasLink l ∨ (s.lgtu.at l).fenced then .next s
  else if again then .next (resendFrame s l f.ctx f.seq)
  else if s.fencedAt srcCtx (uLgtu l) then .next s
  else
    if tagHolds (s.keyOf srcCtx) f.data f.tag then
      let s := if isPoison (tagState f.tag) then s.onLgtu l (fun x => { x with poison := bumpCtx x.poison srcCtx }) else s
      let out : Frame := { f with keyCheck := (s.ctx srcCtx).plan.keyCheck }
      .next (countChatter ((s.onLgtu l (fun x => x.hold srcCtx out)).send (.frame l out)) srcCtx f.adaptive)
    else
      let s := s.emit { code := 0x4009, cls := .c, unit := uLgtu l, ctx := some srcCtx, p32 := BitVec.ofNat 32 blank, acc := 0x21,
                        addr := f.seq.setWidth 64 }
      .next (reportCause s srcCtx 4 (uLgtu l) ex)

/-- The retries made so far for a frame, and the limit it was first received under (R123, VX_GTU_CFG). A frame is known by its receiving
context and that context's frame sequence number (R132; log 135). -/
def Lgtu.retryOf (x : Lgtu) (c : Ctx) (seq : BitVec 32) (limit : Nat) : Retry :=
  (x.open_.find? (fun r => r.ctx = c && r.seq = seq)).getD { ctx := c, seq, made := 0, limit }

/-- A link GTU without the entry of a frame. -/
def Lgtu.endRetry (x : Lgtu) (c : Ctx) (seq : BitVec 32) : Lgtu := { x with open_ := x.open_.filter (fun y => !(y.ctx = c && y.seq = seq)) }

/-- A frame under retry: its entry replaced. -/
def Lgtu.setRetry (x : Lgtu) (r : Retry) : Lgtu := { x.endRetry r.ctx r.seq with open_ := (x.endRetry r.ctx r.seq).open_ ++ [r] }

/-- A frame's blank delivered to the mesh: its retry entry goes, the retries it needed enter the link retry counter (R262). -/
def deliverFrame (s : State) (l : Lnk) (f : Frame) (made : Nat) (tag : BitVec 64) : State :=
  let s := s.onLgtu l (fun x => x.endRetry f.ctx f.seq)
  let s := s.onBar f.ctx (fun b => { b with retry := b.retry.add (f.crcRetry + made) })
  s.send (.deliver l f.ctx f.data tag)

/-- The tag of a blank that becomes POISON_LINK: the fingerprint of the data as received (R123, R125). Without a key that value is
open (log 32). -/
def linkPoisonTag (s : State) (f : Frame) : BitVec 64 × State :=
  match s.keyOf f.ctx with
  | some rho => (mkTag tLink (fpOf rho f.data), s)
  | none => let (w, s) := s.fresh; (mkTag tLink (w.setWidth 61), s)

/-- An event of a received frame (R132, R339). -/
def frameEvent (s : State) (l : Lnk) (f : Frame) (code p16 : BitVec 16) (p32 : BitVec 32) : State :=
  s.emit { code, cls := .u, unit := uLgtu l, ctx := some f.ctx, p16, p32, acc := 0x20, addr := f.seq.setWidth 64 }

/-- The report of a blank that becomes POISON_LINK: one that no execution owns is only stored, unless a pass is in progress (R124); one
that names its execution is handled as R226 says. -/
def linkPoisoned (s : State) (l : Lnk) (c : Ctx) (ex : Option ExecName := none) : State :=
  if ex.isSome ∨ s.deciding c then reportCause s c 5 (uLgtu l) ex else s

/-- LINK_FRAME_RECEIVE (R63, R122 to R125). A receiving context with no key loaded differs in its key check (R125; log 136). -/
def execLinkFrameReceive (l : Lnk) (f : Frame) (s : State) (ex : Option ExecName := none) : Res :=
  let x := s.lgtu.at l
  if !s.hasLink l ∨ x.fenced then .next s
  else
    let r := x.retryOf f.ctx f.seq s.retryLimit.toNat
    if !(s.ctx f.ctx).plan.loaded ∨ f.keyCheck ≠ (s.ctx f.ctx).plan.keyCheck then
      let (t, s) := linkPoisonTag s f
      let s := s.onLgtu l (fun x => { x with keyMis := bump x.keyMis })
      let s := frameEvent (deliverFrame s l f r.made t) l f 0x4007 f.keyCheck ((s.ctx f.ctx).plan.keyCheck.setWidth 32)
      .next (linkPoisoned s l f.ctx ex)
    else if tagMatches (s.ctx f.ctx).plan.rho f.data f.tag then .next (deliverFrame s l f r.made f.tag)
    else if r.made < r.limit then
      let s := s.onLgtu l (fun x => { (x.setRetry { r with made := r.made + 1 }) with retries := bump x.retries })
      .next (s.send (.tagRetry l f.ctx f.seq))
    else
      let (t, s) := linkPoisonTag s f
      let s := s.onLgtu l (fun x => { x with poisoned := bump x.poisoned })
      let s := frameEvent (deliverFrame s l f r.made t) l f 0x4006 (BitVec.ofNat 16 r.made) f.seq
      .next (linkPoisoned s l f.ctx ex)

/-- A link in use: trained, not fenced, after bring-up step 5. -/
def State.linkInUse (s : State) (l : Lnk) : Bool :=
  !(s.lgtu.at l).fenced && decide ((s.lgtu.at l).width ≠ 0) && decide (5 < s.pwr.step.toNat)

/-- The link exchanges use: the upstream, or the alternate sync link while it is fenced (R258, R265). -/
def State.syncLink (s : State) : Option Lnk :=
  let open_ (n : BitVec 5) : Option Lnk := (finOf 24 n.toNat).bind (fun l => if s.hasLink l && !(s.lgtu.at l).fenced then some l else none)
  if s.spn.master then none else open_ s.spn.up <|> open_ s.spn.alt

/-- A TICK_SYNC sent with the tick at its transmission (R256). -/
def sendTickSync (s : State) (l : Lnk) : State :=
  (s.onSpn (fun x => { x with sentTick := s.time.tick, sentFrac := s.time.frac })).sendCtl (.link l) (.tickSync s.time.tick s.time.frac)

/-- A control frame lost on a fenced link goes again over the alternate route (R265): a TICK_SYNC over the sync link in use, a barrier
frame over the member's alternate route, a notice or a lock-step frame over its own. An answer to a downstream has none. -/
def resendControl (s : State) (c : Ctx) (d : Dest) (x : Ctl) : State :=
  match d with
  | .link _ => match x, s.syncLink with
    | .tickSync .., some l => sendTickSync s l
    | _, _ => s
  | .member chip _ => match (s.planOf c).bind (fun p => p.extra.members.find? (fun m => m.chip = chip.toNat)) with
    | some m => s.sendCtl (.member chip m.alt) x
    | none => s
  | .chip chip _ => s.sendCtl (.chip chip true) x
  | .partner chip ctx _ => s.sendCtl (.partner chip ctx true) x

/-- A blank frame lost on a fenced link (R261, R266): that of a RELAXED context is sent again from the retry buffer over the new path and
counted as chatter; it is held there now. -/
def resendBlank (s : State) (l : Lnk) (dst : Ctx) (seq : BitVec 32) (via : Lnk) : State :=
  match (s.lgtu.at l).sent.find? (fun e => Frame.is e.2 dst seq) with
  | some (src, f) =>
    if !s.relaxed src ∨ !s.hasLink via ∨ (s.lgtu.at via).fenced then s
    else
      let g : Frame := { f with adaptive := true }
      let s := s.onLgtu l (fun x => { x with sent := x.sent.filter (fun e => !Frame.is e.2 dst seq) })
      (countChatter (s.onLgtu via (fun x => x.hold src g)) src true).send (.frame via g)
  | none => s

/-- What was in flight on a link when it was fenced (R265, R266). -/
def resendLost (s : State) (l : Lnk) (lost : List LostFrame) : State :=
  s.each lost (fun s x => match x with
    | .blank dst seq via => resendBlank s l dst seq via
    | .control c d x => resendControl s c d x)

/-- LINK_RETRAIN (R336), with the link retries before it. -/
def retrainFault (s : State) (l : Lnk) (width retries : Nat) : State :=
  s.emit { code := 0x3004, cls := .c, unit := uLgtu l, p16 := BitVec.ofNat 16 width, p32 := satBits 32 retries }

/-- LINK_TRAINED (R65, R256, R264 to R267): the width in use and the first estimate of the link's delay, or the link is fenced and what
was in flight on it goes elsewhere. A retired link stays fenced (R356, log 33). -/
def execLinkTrained (l : Lnk) (t : Trained) (retries : Nat) (s : State) (lost : List LostFrame := []) : Res :=
  let x := s.lgtu.at l
  if !s.hasLink l ∨ x.retired then .next (resendLost s l lost)
  else
    let used := s.linkInUse l
    let s := if used then cutPatterns (retrainFault s l t.width retries) (fun p => p.unit = uLgtu l) 5 else s
    if t.width = 0 then .next (resendLost (if x.fenced then s else fenceLink s l (if s.pwr.step.toNat ≤ 5 then 0 else 1)) l lost)
    else
      let note := used || x.fenced || decide (t.width < 8)
      let s := noteLinks (s.onLgtu l (fun x => { x with width := BitVec.ofNat 4 t.width, fenced := false, delay := t.delay }))
      .next (if note then s.emit { code := 0x6003, unit := uLgtu l, p16 := BitVec.ofNat 16 t.width, p32 := t.failed.setWidth 32 } else s)

/-- The RETRAIN command of VX_SPN_LINK_CTRL (R267): refused while a context's static routes use the link. -/
def retrainCmd (src : Src) (n : BitVec 5) (s : State) : State :=
  let used := s.loadedCtxs.any (fun c => match s.planOf c with | some p => p.usesLink n.toNat | none => false)
  match finOf 24 n.toNat with
  | some l =>
    if used ∨ !s.hasLink l ∨ (s.lgtu.at l).retired then (s.onSpn (fun x => { x with refused := true })).logRefusal mc none src 0x600018
    else (cutPatterns (s.onSpn (fun x => { x with refused := false })) (fun p => p.unit = uLgtu l) 5).send (.retrain l)
  | none => (s.onSpn (fun x => { x with refused := true })).logRefusal mc none src 0x600018

/-- A write to VX_SPN_LINK_CTRL. -/
def linkCtrl (src : Src) (v : Reg) (s : State) : State :=
  let s := s.onSpn (fun x => { x with linkSel := field v 0 5 })
  if flag v 5 then retrainCmd src (field v 0 5) s else s

/-- RETRAIN. -/
def execRetrain (src : Src) (l : BitVec 5) (s : State) : Res :=
  .next (gatedWrite s src 0x600018 (l.setWidth 64 ||| 32) (linkCtrl src (l.setWidth 64 ||| 32)))

end Sys2Proof.Machine
end

