-- ==== Sys2Proof/Machine/Power.lean ====
section
/-! DEFINITION. Bring-up (R461 to R468), the orderly shutdown (R377 to R379, R469), reset domains (R471 to R475) and power states (R476 to
R479). -/

namespace Sys2Proof.Machine

/-! ## What MC rebuilds in step 2 (R354, R411, R412) -/

/-- The state of a history code. -/
def histStateOf (n : BitVec 8) : HistState :=
  if n = 1 then .watch else if n = 2 then .lasting else if n = 3 then .retired else .good

/-- One record applied to the unit it names; `live` for a record that is no part of a compaction (R350, R351, R354). -/
def applyHist (live : Bool) (s : State) (r : HistRec) : State :=
  if r.kind = 6 then s
  else s.onFst (fun f =>
    let old := f.unit r.unit
    let h := { old with state := histStateOf r.state, lastOp := r.opsec, lastEvent := r.event }
    let put := if h.state = .retired then f.retire else f.setUnit
    put r.unit (
      if r.kind = 1 then { h with stamps := confirmStamps h.stamps r.opsec r.col (f.window.toNat * 3600)
                                  confirmed := if live then h.confirmed + 1 else h.confirmed }
      else if r.kind = 2 then { h with undecided := h.undecided + 1 }
      else if r.kind = 3 then { h with reports := h.reports + 1 }
      else if r.kind = 4 then { h with cause := r.param.setWidth 8 }
      else if r.kind = 5 then { h with confirmed := r.param.toNat, stamps := [] }
      else h))

/-- A history record put into a list in SEQ order. -/
def insertSeq (r : HistRec) : List HistRec → List HistRec
  | [] => [r]
  | x :: xs => if r.seq.toNat < x.seq.toNat then r :: x :: xs else x :: insertSeq r xs

/-- Every history record that counts, of both banks and of those that wait to be appended, in SEQ order (R354): none that is void or whose CRC
fails. -/
def histInOrder (s : State) : List HistRec :=
  ((s.rcd.flash.hist0 ++ s.rcd.flash.hist1 ++ s.rcd.histOut).filter (fun r => !r.void && r.bad.isNone)).foldl (fun l r => insertSeq r l) []

/-- The history rebuilt (R354): from the first snapshot to the seal the confirmed catches are the stamps of a snapshot, elsewhere
outcomes. -/
def rebuildHistory (s : State) : State :=
  let all := histInOrder s
  let from_ := (all.findIdx? (fun r => r.kind = 5)).getD all.length
  let to_ := (all.findIdx? (fun r => r.kind = 6)).getD all.length
  let s := s.onFst (fun f => { f with units := [] })
  s.each all.zipIdx (fun s x => applyHist (decide (x.2 < from_) || decide (to_ < x.2)) s x.1)

/-- Units in a state of the history. -/
def State.unitsIn (s : State) (h : HistState) : List UnitId := (s.fst.units.filter (fun p => p.2.state = h)).map (·.1)

/-- What follows at once from the rebuilt history: the masks of failed arrays (R362), retired links and sensors (R356). -/
def applyRetired (s : State) : State :=
  let s := s.each (s.unitsIn .lasting ++ s.unitsIn .retired) (fun s u =>
    match uClass u, finOf 624 (uIndex u) with
    | 0, some a => s.onFst (fun f => { f with failed := f.failed.upd (rowOf a) (fun m => m ||| (1#26 <<< colOf a)) })
    | _, _ => s)
  s.each (s.unitsIn .retired) (fun s u =>
    match uClass u with
    | 4 => match finOf 24 (uIndex u) with | some l => s.onLgtu l (fun x => { x with retired := true, fenced := true, width := 0 }) | none => s
    | 6 => match finOf 640 (uIndex u) with | some n => s.onSensor n (fun x => { x with state := .retired }) | none => s
    | _ => s)

/-- The persistent configuration loaded; an item with no record takes its register's blank-flash value (R412). -/
def loadItems (s : State) : State :=
  let f := s.rcd.flash
  let hist := f.present 4
  let rep := f.present 5
  let thm := f.present 7
  let s := { s with time := { s.time with opsec := (f.present 2).setWidth 40, opRem := 0 } }
  let s := s.onFst (fun x => { x with
    window := field hist 0 14, threshold := field hist 14 4, replace := flag rep 0, replaceBy := field rep 16 16, standby := field (f.present 6) 0 2 })
  let s := s.onThm (fun t => { t with throttle := field thm 0 8, crit := field thm 8 8, critNow := field thm 8 8, trip := field thm 16 8 })
  let s := s.onRec (fun r => { r with mergeMs := field (f.present 9) 0 14, ackSeq := field (f.present 10) 0 32 })
  s.onScr (fun x => { x with flags := f.present 8, rotFrom := s.time.opsec })

/-- After a power-up: the next number is that of the newest record plus one, the staged records take their numbers in intake order, and the
bitmap of codes comes from the permanent region (R404, R411, R459). PERMANENT_FULL has been queued before if the region is full and the ring
holds it (R407; log 162). -/
def numberQueue (s : State) : State :=
  if s.rcd.seqSet then s
  else
    let r := s.rcd
    let first : BitVec 32 := match r.flash.entries.getLast? with | some x => nextNumber x.seq | none => 0
    let put (acc : List Staged × BitVec 32) (x : Staged) : List Staged × BitVec 32 :=
      (acc.1 ++ [{ record := { x.record with seq := acc.2 }, numbered := true }], nextNumber acc.2)
    let (q, next) := r.queue.foldl put ([], first)
    let codes := (r.flash.perm.filterMap (fun x => match x with | .entry y => some y.code | .void _ => none)).eraseDups
    s.onRec (fun r => { r with queue := q, nextSeq := next, seqSet := true, codes, permFull := decide (262144 ≤ r.flash.perm.length) && r.flash.entries.any (fun x => x.code = 0x9003) })

/-- The shutdown flags (R379): ANALOG_FLAG for a failure; the word is written back with RAN, and with it CLEAN, cleared. -/
def readFlags (s : State) : State :=
  let w := s.scr.flags
  let s := if flag w 0 ∧ (field w 1 4 : BitVec 4) ≠ 0 then
      s.emit { code := 0xD00B, cls := .c, unit := uScr, p16 := field w 0 16, p32 := (field w 16 16 : BitVec 16).setWidth 32 }
    else s
  s.putItem 8 (w &&& ~~~0x21#64)

/-- The warm fast path is allowed (R467). -/
def State.warmAllowed (s : State) (powerUp : Bool) : Bool := !powerUp && s.pwr.cleanDown && flag s.scr.flags 0 && flag s.scr.flags 5

/-- A step's record (R481): the step, its path, its time. -/
def recordStep (s : State) (n : Nat) (path : BitVec 2) (us : Nat) : State :=
  let s := s.onPwr (fun w => { w with bringUs := w.bringUs + us })
  s.emit { code := 0xE001, unit := uPwr, p16 := BitVec.ofNat 16 (n + 8 * path.toNat), p32 := BitVec.ofNat 32 us }

/-- The next step begins. -/
def toStep (s : State) (n : BitVec 3) : State := s.onPwr (fun w => { w with step := n })

/-- Step 1 ends: 1.5 ms have passed and the power-good inputs are high. A power-up takes the full path (R466). -/
def endStep1 (x : StepReport) (s : State) : State :=
  if s.aon.sentinel ∧ s.aon.pgMain ∧ s.aon.pgMem ∧ s.aon.pgIo then
    (toStep (recordStep s 1 1 x.timeUs) 2).onPwr (fun w => { w with vs := .vs2 })
  else s

/-- Step 2 ends: MC has rebuilt its records and chosen the path. -/
def endStep2 (x : StepReport) (s : State) : State :=
  if !s.mcRuns then s
  else
    let powerUp := !s.rcd.seqSet
    let s := s.each x.histCrc (fun s b => s.emit { code := 0x100C, cls := .c, unit := uFst, p16 := BitVec.ofNat 16 b.1, p32 := b.2 })
    let s := s.each x.confCrc (fun s b => s.emit { code := 0x9006, cls := .c, unit := uRec, p16 := BitVec.ofNat 16 b.1, p32 := b.2 })
    let s := histBad (confBad s x.confCrc) x.histCrc
    let s := numberQueue s
    let s := s.emit { code := 0x9007, unit := uRec, p32 := BitVec.ofNat 32 s.rcd.flash.entries.length
                      p16 := BitVec.ofNat 16 ((if powerUp then 0 else 1) + (if s.time.wallSet then 0 else 2)) }
    let s := readFlags (applyRetired (rebuildHistory (loadItems s)))
    let path : BitVec 2 := if s.warmAllowed powerUp then 2 else 1
    let s := s.onPwr (fun w => { w with path, cleanDown := false })
    let s := healthEvent (if s.rcd.cperLost then cperRebuild s else s)
    let s := (toStep (recordStep s 2 path x.timeUs) 3).onPwr (fun w => { w with vs := .vs0 })
    { s with xing := { s.xing with stopped := stoppedIn .vs0 } }

/-! ## Steps 3 to 5 (R385, R461, R463, R468) -/

/-- Units that did not finish their part of a step are declared lasting with cause 4 (R463). -/
def declareFailed (s : State) (us : List UnitId) : State :=
  s.each (us.filter s.unitExists) (fun s u => declareLasting s u 4 0xE001)

/-- A sensor that failed its reference check twice, and with it the array it belongs to (R385). -/
def refFailed (s : State) (n : Sensor) : State :=
  let s := declareLasting s (uSensor n) 4 0x8004
  if n.val < 624 then declareLasting s (unitId 0 n.val) 4 0x8004 else s

/-- Step 3 ends with the PLLs locked: REFCLK_OK is needed. On the full path a sensor that failed its reference check before and passes
now is LIVE again. -/
def endStep3 (x : StepReport) (s : State) : State :=
  if !s.aon.refOk then s
  else
    let s := declareFailed s x.failed
    let s := s.each (x.refFail.filter (fun n => s.unitExists (uSensor n))) refFailed
    let s := s.onThm (fun t => { t with sensors := t.sensors.mapAll (fun n y => if s.pwr.path = 1 ∧ y.state = .ref ∧ x.refFail.contains n = false then { y with state := .live, refBad := 0 } else y) })
    toStep (recordStep s 3 s.pwr.path x.timeUs) 4

/-- A port whose unit is not RETIRED is trained: READY, TAG_REGION_OK. -/
def portReady (s : State) (g : Gtu) : State :=
  if s.unitExists (uMgtu g) ∧ (s.fst.unit (uMgtu g)).state ≠ .retired then s.onMgtu g (fun m => { m with ready := true, tagOk := true }) else s

/-- The tags a port serves become UNTAGGED (R115). -/
def clearPortTags (s : State) (g : Gtu) : State :=
  { s with tags := s.tags.filter (fun e =>
      !(decide (e.1 / 2 ^ 25 = stackOf g) && serves g.val (e.1 % 2 ^ 25 / 8))) }

/-- A port found untrained on the warm path is trained and checked in full (R468). -/
def coldPort (s : State) (g : Gtu) : State := (clearPortTags s g).emit { code := 0xE003, unit := uMgtu g }

/-- Step 4 ends: on the full path every tag is UNTAGGED, on the warm path the tags are kept but for cold ports (R115, R131, R468). -/
def endStep4 (x : StepReport) (s : State) : State :=
  let s := declareFailed s x.failed
  let s := if s.pwr.path = 2 then s.each (x.cold.filter (fun g => s.unitExists (uMgtu g))) coldPort else { s with tags := [] }
  let s := s.each (List.finRange 40) portReady
  toStep (recordStep s 4 s.pwr.path x.timeUs) 5

/-- A link's width at training, with the lanes that failed, and its delay (R65, R256, R264). -/
def trainLink (s : State) (x : Lnk × Trained) : State :=
  if !s.hasLink x.1 ∨ (s.lgtu.at x.1).retired then s
  else if x.2.width = 0 then (if (s.lgtu.at x.1).fenced then s else fenceLink s x.1 0)
  else
    let s := s.onLgtu x.1 (fun l => { l with width := BitVec.ofNat 4 x.2.width, fenced := false, delay := x.2.delay })
    if x.2.width < 8 then s.emit { code := 0x6003, unit := uLgtu x.1, p16 := BitVec.ofNat 16 x.2.width, p32 := x.2.failed.setWidth 32 }
    else s

/-- Every link is trained or fenced. -/
def State.linksDone (s : State) : Bool :=
  (List.finRange 24).all (fun l => !s.hasLink l || (s.lgtu.at l).fenced || decide ((s.lgtu.at l).width ≠ 0))

/-! ## Re-applying the history (R358, R465) -/

/-- Arrays in a list of units. -/
def arraysIn (us : List UnitId) : List Arr := (us.filter (fun u => uClass u = 0)).filterMap (fun u => finOf 624 (uIndex u))

/-- A withdrawn spare stays withdrawn. -/
def reapplySpare (s : State) (a : Arr) : State := if (s.logicalOf a).isSome then s else withdrawSpare s a

/-- The places of a row after its columns were retired in this order: each one that served a logical column was replaced by the highest free
one, while there was one (R198, R358). -/
def placesAfter : List Nat → List Nat → List Nat → List Nat
  | place, _, [] => place
  | place, gone, c :: cs =>
    let gone := gone ++ [c]
    match ((List.range 26).filter (fun x => !place.contains x && !gone.contains x)).getLast?, place.findIdx? (· = c) with
    | some sp, some k => placesAfter (place.set k sp) gone cs
    | _, _ => placesAfter place gone cs

/-- A substitution that the row controller does not hold is ordered again, if a spare served the logical column to the end: logical indices
stay as they were, and a row that has exhausted its spares comes up with fewer arrays. -/
def reapplyArray (s : State) (a : Arr) : State :=
  match s.logicalOf a with
  | some l =>
    let cols := ((arraysIn (s.unitsIn .retired)).filter (fun b => rowOf b = rowOf a)).map colOf
    if cols.contains ((placesAfter (List.range 24) [] cols).getD (l % 24) 0) then s
    else s.onFst (fun f => { f with orders := f.orders ++ [{ row := rowOf a, col := l % 24, spare := 31, redo := true }] })
  | none => s

/-- A withdrawn slice: the standby takes its row, if it is free; otherwise the row has no slice. -/
def reapplySlice (s : State) (n : Slice) : State :=
  match finOf 24 n.val with
  | some r => if s.standbyFree then startTakeover s r 1 else s.onSlice n (fun x => { x with state := .retired, heldBy := 31 })
  | none => s.onSlice n (fun x => { x with state := .retired })

/-- Slices in a list of units, the standby first. -/
def slicesIn (us : List UnitId) : List Slice :=
  let l := (us.filter (fun u => uClass u = 2)).filterMap (fun u => finOf 25 (uIndex u))
  l.filter (· = standby) ++ l.filter (· ≠ standby)

/-- The start of step 6: everything RETIRED is applied again, every LASTING unit's action is carried out; a processor's entry has none
(R356). -/
def reapply (s : State) : State :=
  let retired := s.unitsIn .retired
  let s := s.each (arraysIn retired) reapplySpare
  let s := s.each (arraysIn retired) reapplyArray
  let s := s.each (slicesIn retired) reapplySlice
  s.each (s.unitsIn .lasting) actOnLasting

/-- Step 5 ends; the history is applied again at the start of step 6. -/
def endStep5 (x : StepReport) (s : State) : State :=
  let t := s.each x.widths trainLink
  let t := declareFailed t x.failed
  if t.linksDone then reapply (toStep (recordStep t 5 t.pwr.path x.timeUs) 6) else s

/-! ## Steps 6 and 7 (R375, R376, R462, R464) -/

/-- The pattern of a unit's known-answer run; that of a slice, whose stream has no pattern number, is an open value (log 8). -/
def kaPattern (s : State) (u : UnitId) : BitVec 16 × State :=
  match uClass u with
  | 0 => (0x00FF, s)
  | 3 => (0x0100, s)
  | 4 => (0x0200, s)
  | _ => let (w, s) := s.fresh; (w.setWidth 16, s)

/-- The unit has a known-answer run: RETIRED units are skipped, arrays run on the full path only (R375, R465, R468). -/
def State.kaRuns (s : State) (u : UnitId) : Bool :=
  s.unitExists u && decide ((s.fst.unit u).state ≠ .retired) &&
  ((uClass u = 0 && s.pwr.path = 1) || uClass u = 2 || uClass u = 3 || uClass u = 4)

/-- The tick at which a unit's known-answer run ends, of those all made at once or round by round (R375). -/
def runTick (x : StepReport) (u : UnitId) : BitVec 64 :=
  match uClass u with
  | 0 => x.rounds.getD (uIndex u % 26) 0
  | 2 => x.sliceTick
  | 3 => x.memTick
  | _ => x.linkTick

/-- A unit completed its bring-up pattern at a tick (R371, R374, R376): no rotation has used it since, and a passing array takes that tick
as its last PASS. -/
def ranBringup (s : State) (u : UnitId) (tick : BitVec 64) (pass : Bool) : State :=
  s.onScr (fun x => x.setUnit u { (x.unit u) with
    bringTick := tick, lastTick := some tick, lastOp := s.time.opsec, users := 0,
    lastPass := if pass && uClass u = 0 then some tick else none })

/-- The bring-up pattern of an array or GTU (R375). -/
def bringupPattern (u : UnitId) : BitVec 16 := match uClass u with | 0 => 0x00FF | 3 => 0x0100 | _ => 0x0200

/-- A known-answer run ended with the expected values: MISR and cycle count of the pattern, a slice's signature with no wrong position (R186,
R364). -/
def State.kaPass (s : State) (u : UnitId) (r : KaRun) : Bool :=
  if uClass u = 2 then r.pos.isNone && decide (r.misr = Config.sliceSignature s.fuses.stepping)
  else decide (r.misr = Config.expectedMisr (bringupPattern u) (s.unitKind u) s.fuses.stepping) && decide (r.cycles = patternCycles (bringupPattern u))

/-- The registers of a run that has ended: a slice's own (R190), else the last pattern ended, of several that end at one tick the last in
unit order (R381; log 159). -/
def showRun (s : State) (u : UnitId) (r : KaRun) : State :=
  let result : BitVec 2 := if s.kaPass u r then 1 else 2
  if uClass u = 2 then (match finOf 25 (uIndex u) with | some n => s.onSlice n (fun x => x.tested result r.tick) | none => s)
  else if r.tick < s.scr.resTick then s
  else s.onScr (fun x => { x with resUnit := u, resPat := bringupPattern u, result, resCause := 0, resRetest := false, cycles := r.cycles,
                                  expected := patternCycles (bringupPattern u), misr := r.misr, resTick := r.tick })

/-- The known-answer runs of a unit judged (R376): where the first fails, a pass of the second run decides a transient as R373 has it; a
second failure declares the unit lasting with cause 4, and where the run was a turning pattern leaves its exposure (R374; log 144). -/
def kaJudge (s : State) (x : KaUnit) : State :=
  if !s.kaRuns x.unit || s.kaPass x.unit x.first then s
  else
    let (p, s) := kaPattern s x.unit
    let s := (showRun s x.unit x.first).emit { code := 0xD008, cls := .c, unit := x.unit, p16 := p, p32 := x.first.misr.setWidth 32 }
    if s.kaPass x.unit x.again then
      (s.emit { code := 0xD003, unit := x.unit, p16 := p, p32 := (x.first.tick >>> 16).setWidth 32 }).histPut { unit := x.unit, act := .confirm, event := 0xD001 }
    else
      let s := (showRun s x.unit x.again).emit { code := 0xD008, cls := .c, unit := x.unit, p16 := p, p32 := x.again.misr.setWidth 32 }
      if uClass x.unit = 2 then declareLasting s x.unit 4 0x2012
      else exposureRecords (declareLasting (ranBringup s x.unit x.first.tick false) x.unit 4 0xD001) x.unit p

/-- The run a unit passed: that it made again, or the one not reported, which ended with the expected values. -/
def State.passedRun (s : State) (x : StepReport) (u : UnitId) : KaRun :=
  match x.kaRuns.find? (fun k => k.unit = u) with
  | some k => if s.kaPass u k.first then k.first else k.again
  | none => { misr := if uClass u = 2 then Config.sliceSignature s.fuses.stepping else Config.expectedMisr (bringupPattern u) (s.unitKind u) s.fuses.stepping
              cycles := patternCycles (bringupPattern u), tick := runTick x u }

/-- A unit that passed its run. -/
def unitPassed (x : StepReport) (s : State) (u : UnitId) : State :=
  if s.kaRuns u ∧ (s.fst.unit u).state ≠ .lasting then
    let r := s.passedRun x u
    let s := showRun s u r
    if uClass u = 2 then s else ranBringup s u r.tick true
  else s

/-- The slices of the part. -/
def sliceUnits : List UnitId := (List.range 25).map (unitId 2)

/-- All six processors are in RUN. -/
def State.allRun (s : State) : Bool := (List.finRange 6).all (fun p => (s.proc p).state = .run)

/-- Step 7 ends, all of whose time was spent waiting for the driver (R461). READY (R464), but not below VS0 (R478), in an orderly thermal
stop (log 161), or where a drain has begun or a hard stop was made (R345): ENGINE_READY, and RESET_DONE of the whole-engine or whole-chip
reset that led here (R471). -/
def becomeReady (s : State) : State :=
  let s := recordStep s 7 s.pwr.path 0
  let s := s.onPwr (fun w => { w with ready := w.vs = .vs0 ∧ !s.thm.stopped ∧ s.fst.state = .run, waitDrv := false })
  let s := s.emit { code := 0xE002, unit := uPwr, p16 := s.pwr.path.setWidth 16, p32 := BitVec.ofNat 32 (s.pwr.bringUs / 1000) }
  match s.pwr.whole with
  | some j =>
    (s.onPwr (fun w => { w with whole := none })).emit
      { code := 0xE004, unit := uPwr, p16 := j.domain.setWidth 16 ||| (j.index.setWidth 16 <<< 4), p32 := satBits 32 ((s.time.tick - j.from_).toNat / 1000) }
  | none => s

/-- Step 6 waits for TC to be loaded (R462). -/
def State.waitsForTc (s : State) : Bool := (s.proc 5).state = .off || (s.proc 5).state = .loading

/-- The spares of every row take their roles (R197). -/
def allRoles (s : State) : State :=
  let s := s.onShd (fun h => { h with rows := h.rows.mapAll (fun _ r => r.giveRoles) })
  s.each s.rowList idleBorrow

/-- Step 6 is over, and step 7 begins. -/
def leaveStep6 (x : StepReport) (s : State) : State :=
  let s := allRoles (s.each (sliceUnits ++ s.screened) (unitPassed x))
  let s := toStep (recordStep s 6 s.pwr.path x.timeUs) 7
  if s.allRun then becomeReady s else s.onPwr (fun w => { w with waitDrv := true })

/-- Step 6: a unit that failed its runs is declared lasting and its action carried out. The step ends when every run is decided, every
substitution ordered is in place and TC is loaded; a report that orders a substitution leaves it in progress. -/
def endStep6 (x : StepReport) (s : State) : State :=
  if s.waitsForTc ∨ s.fst.orders ≠ [] then s
  else
    let s := (declareFailed s x.failed).each x.kaRuns kaJudge
    if s.fst.orders ≠ [] then s else leaveStep6 x s

/-- Step 7 ends. -/
def endStep7 (s : State) : State := if s.pwr.waitDrv ∧ s.allRun then becomeReady s else s

/-- BRINGUP_STEP: the step in progress ends where its condition holds; not during an orderly shutdown. -/
def execBringupStep (x : StepReport) (s : State) : Res :=
  if !s.aon.valid ∨ s.pwr.down.isSome then .next s
  else .next (match s.pwr.step.toNat with
    | 1 => endStep1 x s
    | 2 => endStep2 x s
    | 3 => endStep3 x s
    | 4 => endStep4 x s
    | 5 => endStep5 x s
    | 6 => endStep6 x s
    | _ => endStep7 s)

/-! ## The orderly shutdown (R377 to R379, R469) -/

/-- The shutdown begins: recorded, loads ended, every context with a plan stopped (R249, R469). -/
def beginShutdown (s : State) (target : BitVec 4) : State :=
  let todo := s.loadedCtxs.filter (fun c => (s.ctx c).pass.st ≠ .stopped)
  let s := s.onPwr (fun w => { w with down := some { target, from_ := s.time.tick } })
  let s := s.emit { code := 0xE008, unit := uPwr, p16 := target.setWidth 16, p32 := ctxMask todo }
  let s := s.each allCtx endLoad
  s.each todo (fun s c => stopCtx s c 0xE008)

/-- SHUTDOWN_STOP_TIMEOUT: a context not STOPPED 200 ms after the command is given ABORT_STOP. -/
def execShutdownStopTimeout (c : Ctx) (s : State) : Res :=
  .next (if s.pwr.down.isSome then abortStopCtx s c 0xE008 else s)

/-- The engine after a whole-engine reset, at the start of bring-up step 2 (R461, R473). -/
def applyWhole (s : State) (chip : Bool) : State :=
  let job := s.pwr.whole
  let s := clearEngine (closeRecord (cutTestOf s (List.finRange 25))) false
  let s := if chip then s.onShd (fun x => { x with rows := x.rows.mapAll (fun _ _ => {}) }) else s
  let s := s.onPwr (fun w => { w with vs := .vs2, step := 2, whole := job })
  s.setAon (fun a => { a with alive := a.sentinel, dynAddr := 0 })

/-- SHUTDOWN_DONE: the engine enters the target state or applies the reset; `ran` that the self-test ran (R467, R469). -/
def finishShutdown (s : State) (d : Shutdown) (ran : Bool) : State :=
  let ms := (s.time.tick - d.from_).toNat / 1000000
  let s := s.emit { code := 0xE009, unit := uPwr, p16 := d.target.setWidth 16, p32 := (satBits 16 ms).setWidth 32 ||| (if ran then 0x10000 else 0) }
  let s := s.onPwr (fun w => { w with down := none, cleanDown := ran })
  if d.target = 3 then enterLow s .vs3 1
  else if d.target = 4 then enterLow s .vs4 1
  else applyWhole (cutPatterns s (fun _ => true) 3) (match s.pwr.whole with | some j => j.domain = 0xB | none => false)

/-- Contexts unloaded, spans done, the staging queue empty, the supplies good (R377, R469). -/
def State.readyForTest (s : State) : Bool :=
  allCtx.all (fun c => (s.ctx c).pass.st = .noPlan) && s.prv.spans.isEmpty && s.rcd.intake.isEmpty && s.rcd.queue.isEmpty &&
  s.aon.pgMain && s.aon.pgMem && s.aon.pgIo

/-- A hard stop, an orderly thermal stop or a trip is in force: no self-test (R377). -/
def State.noTest (s : State) : Bool := s.fst.state = .halted || s.thm.stopped || s.aon.trip

/-- SHUTDOWN_SELFTEST_START: operating and wall time are stored; the self-test begins, or the shutdown completes without it. -/
def execShutdownSelftestStart (s : State) : Res :=
  match s.pwr.down with
  | none => .next s
  | some d =>
    if d.testing ∨ !s.readyForTest then .next s
    else
      let s := s.storeTimes
      if s.noTest then .next (finishShutdown s d false)
      else .next (s.onPwr (fun w => { w with down := some { d with testing := true } }))

/-- The failure bit of a group of R378 in the flag word of R381. -/
def groupBit (g : Nat) : Nat := if g = 1 then 16 else if g = 2 then 2 else if g = 3 then 8 else 4

/-- The group of an item of the self-test (R378): 1 voltage monitors, 2 sensor references, 3 SerDes, 4 PLLs; 0 for no item. -/
def itemGroup (u : UnitId) : Nat :=
  if 0x7640 ≤ u.toNat ∧ u.toNat ≤ 0x765F then 1
  else if uClass u = 6 then 2
  else if uClass u = 4 then 3
  else if 0x7610 ≤ u.toNat ∧ u.toNat ≤ 0x7612 then 4
  else if 0x7620 ≤ u.toNat ∧ u.toNat < 0x7640 then 4
  else 0

/-- The part has the item: a sensor or stack that exists, a link that is there and not fenced (R378). -/
def State.hasItem (s : State) (u : UnitId) : Bool :=
  match itemGroup u with
  | 0 => false
  | 2 => s.unitExists u
  | 3 => match finOf 24 (uIndex u) with | some l => s.hasLink l && !(s.lgtu.at l).fenced | none => false
  | 4 => decide (u.toNat < 0x7620) || decide (u.toNat - 0x7620 < s.fuses.stackCnt)
  | _ => true

/-- The pass criterion of an item (R378): ±10 mV, ±1.5 °C, 448 bit errors; lock within 50 µs and ±100 ppm. -/
def itemPasses (x : TestItem) : Bool :=
  match itemGroup x.unit with
  | 1 => decide (x.value.toInt.natAbs ≤ 10)
  | 2 => decide (x.value.toInt.natAbs ≤ 24)
  | 3 => decide (x.value.toNat ≤ 448)
  | _ => decide (x.lockUs ≤ 50) && decide (x.value.toInt.natAbs ≤ 100)

/-- The items that fail, in the order of their groups. -/
def State.failing (s : State) (items : List TestItem) : List TestItem :=
  let bad := items.filter (fun x => s.hasItem x.unit && !itemPasses x)
  [1, 2, 3, 4].flatMap (fun g => bad.filter (fun x => itemGroup x.unit = g))

/-- The flag word of R381. -/
def flagWord (fails : List TestItem) (tick : BitVec 64) : BitVec 64 :=
  let bits := fails.foldl (fun w x => w ||| BitVec.ofNat 64 (groupBit (itemGroup x.unit))) (0#64)
  let first : BitVec 16 := match fails.head? with | some x => x.unit | none => 0xFFFF
  1 ||| bits ||| (if bits = 0 then 0x20 else 0) ||| ((satBits 8 fails.length).setWidth 64 <<< 8) ||| (first.setWidth 64 <<< 16) |||
    ((tick >>> 32) <<< 32)

/-- SHUTDOWN_SELFTEST_END: the measured items judged (R378), the results recorded and stored, the shutdown completes (R379). -/
def execShutdownSelftestEnd (items : List TestItem) (s : State) : Res :=
  match s.pwr.down with
  | none => .next s
  | some d =>
    if !d.testing then .next s
    else
      let fails := s.failing items
      let w := flagWord fails s.time.tick
      let s := s.emit { code := 0xD009, unit := uScr, p16 := field w 0 16, p32 := (field w 16 16 : BitVec 16).setWidth 32 }
      let s := s.each (fails.take 16) (fun s x => s.emit { code := 0xD00A, unit := x.unit, p16 := BitVec.ofNat 16 (itemGroup x.unit), p32 := x.value })
      .next (finishShutdown (s.putItem 8 w) d true)

/-! ## Power states (R476 to R478, VX_PWR_CTRL) -/

/-- A power command refused: REFUSED and the MC log. -/
def pwrRefuse (s : State) (src : Src) : State := (s.onPwr (fun w => { w with refused := true })).logRefusal mc none src 0xE00008

/-- A change of state within VS0 to VS2 is allowed (R477). -/
def State.mayMove (s : State) (dest : Nat) : Bool :=
  match s.pwr.vs, dest with
  | .vs0, 1 => s.allStopped && s.prv.spans.isEmpty && !s.scr.running.any (fun q => uClass q.unit = 0)
  | .vs1, 2 => true
  | .vs2, 1 | .vs1, 0 => !s.thm.stopped
  | _, _ => false

/-- GO: the change of power state that R477 allows, else a refusal. A wake from VS4 is the host's; in step 1 of a power-up, which reads VS4
too, the engine is on its way already (R461; log 117). -/
def goCmd (src : Src) (s : State) : State :=
  let ok := s.onPwr (fun w => { w with refused := false })
  if s.pwr.resets ≠ [] ∨ s.pwr.down.isSome then pwrRefuse s src
  else if s.mayMove s.pwr.target.toNat then
    match vsOf s.pwr.target.toNat with
    | some dest =>
      let t := moveWithin ok dest 1
      if dest = .vs0 ∧ t.wce.turnDue then turnNow t else t
    | none => pwrRefuse s src
  else if s.pwr.target = 0 ∧ s.pwr.vs = .vs3 then beginBringup ok 4
  else if s.pwr.target = 0 ∧ s.pwr.vs = .vs4 ∧ s.pwr.step ≠ 1 ∧ src = .host ∧ s.aon.refOk then beginBringup ok 4
  else pwrRefuse s src

/-- SHUTDOWN: from VS0 to VS2, with TARGET 3 or 4 (R477). -/
def shutdownCmd (src : Src) (s : State) : State :=
  if s.pwr.resets ≠ [] ∨ s.pwr.down.isSome ∨ 2 < s.pwr.vs.code ∨ (s.pwr.target ≠ 3 ∧ s.pwr.target ≠ 4) then pwrRefuse s src
  else beginShutdown (s.onPwr (fun w => { w with refused := false })) (s.pwr.target.setWidth 4)

/-- A write to VX_PWR_CTRL. -/
def pwrCtrl (src : Src) (v : Reg) (s : State) : State :=
  let s := s.onPwr (fun w => { w with target := field v 0 3 })
  if manyCommands v [3, 4] then pwrRefuse s src
  else if flag v 3 then goCmd src s
  else if flag v 4 then shutdownCmd src s
  else s

/-- POWER_STATE_GO: a write with GO set. -/
def execPowerStateGo (src : Src) (v : Reg) (s : State) : Res := .next (gatedWrite s src 0xE00008 (v ||| 8) (pwrCtrl src (v ||| 8)))

/-- SHUTDOWN: a write with SHUTDOWN set. -/
def execShutdown (src : Src) (v : Reg) (s : State) : Res := .next (gatedWrite s src 0xE00008 (v ||| 16) (pwrCtrl src (v ||| 16)))

/-! ## Reset domains (R471 to R475, VX_PWR_RESET) -/

/-- The row lends its reserve to another whose rotation or chase slots the plan places on its spare (R208). -/
def State.lends (s : State) (r : Row) (p : Plan) : Bool :=
  match finOf 24 (s.shd.rows.at r).lendTo.toNat with | some b => p.onSpare b | none => false

/-- No loaded plan owns a logical array of the row, claims its shadow or reserve time, or is lent to by it (R471). -/
def State.rowFree (s : State) (r : Row) : Bool :=
  (s.loadedCtxs.all (fun c => match s.planOf c with
    | some p => !p.usesRow r && decide (p.claimsOf 3 r.val = 0) && decide (p.claimsOf 4 r.val = 0) && !s.lends r p
    | none => true))

/-- A loaded plan claims a spare (R471; log 118): the shadow spare as shadow or chase, by its slots or its claim on the row's shadow time; the
reserve as referee, by its count of referee and hunt tiles or its claim on the row's reserve time, or as the donor of the row it lends to. -/
def State.claimsSpare (s : State) (a : Arr) (p : Plan) : Bool :=
  let r := rowOf a
  let x := s.shd.rows.at r
  if x.shadow.toNat = colOf a then p.onSpare r || decide (p.claimsOf 3 r.val ≠ 0)
  else if x.reserve.toNat = colOf a then
    p.core.counts.any (fun k => k.holder = 3 && k.index = r.val && decide (0 < k.tiles)) || decide (p.claimsOf 4 r.val ≠ 0) || s.lends r p
  else false

/-- The array serves no context, or is RETIRED (R471). -/
def State.arrayFree (s : State) (a : Arr) : Bool :=
  (s.fst.unit (uArr a)).state = .retired || match s.logicalOf a with
    | some l => (s.ownerOf l).isNone
    | none => s.loadedCtxs.all (fun c => match s.planOf c with | some p => !s.claimsSpare a p | none => true)

/-- Rows, memory ports and links of a partition (R494). -/
def State.partRows (s : State) (k : Nat) : List Row := (List.finRange 24).filter (fun r => decide (r.val < s.rows) && decide (partOf r.val s.rows = k))
/-- Memory ports of a partition. -/
def State.partPorts (s : State) (k : Nat) : List Gtu := (List.finRange 40).filter (fun g => decide (g.val < s.ports) && decide (partOf g.val s.ports = k))
/-- Links of a partition. -/
def State.partLinks (s : State) (k : Nat) : List Lnk := (List.finRange 24).filter (fun l => decide (l.val < s.links) && decide (partOf l.val s.links = k))

/-- No loaded plan has home partition k or uses a row, port or link of it (R471). -/
def State.partFree (s : State) (k : Nat) : Bool :=
  s.loadedCtxs.all (fun c => match s.planOf c with
    | some p => decide (p.core.home.val ≠ k) && !(s.partRows k).any p.usesRow && !(s.partPorts k).any (fun g => p.usesPort g.val) &&
        !(s.partLinks k).any (fun l => p.usesLink l.val)
    | none => true)

/-- A whole-engine or whole-chip reset is accepted (R473). -/
def State.wholeAllowed (s : State) : Bool := s.allStopped && s.allCool && !s.aon.trip

/-- The reset of a domain is accepted (R471). -/
def State.resetAllowed (s : State) (d : BitVec 4) (i : Nat) : Bool :=
  if d = 1 then decide (i < s.rows * 26)
  else if d = 2 then s.unitExists (unitId 2 i) && (match finOf 25 i with | some n => s.mayResetSlice n | none => false)
  else if d = 3 then decide (i < 4) && s.partFree i
  else if d = 4 ∨ d = 11 then s.wholeAllowed
  else if d = 8 then decide (i < s.rows * 26) && (match finOf 624 i with | some a => s.arrayFree a | none => false)
  else if d = 9 then decide (i < s.rows) && (match finOf 24 i with | some r => s.rowFree r | none => false)
  else if d = 10 then decide (i < 4) && s.partFree i && (s.partRows i).all s.rowFree
  else false

/-- Rows of a drain domain. -/
def State.jobRows (s : State) (j : ResetJob) : List Row :=
  if j.domain = 9 then (finOf 24 j.index.toNat).toList
  else if j.domain = 3 ∨ j.domain = 10 then s.partRows j.index.toNat else []

/-- Units of a domain under pattern. -/
def State.inDomain (s : State) (j : ResetJob) (u : UnitId) : Bool :=
  match uClass u with
  | 0 => (j.domain = 8 && decide (uIndex u = j.index.toNat)) || (s.jobRows j).any (fun r => decide (uIndex u / 26 = r.val))
  | 3 => (j.domain = 3 || j.domain = 10) && decide (partOf (uIndex u) s.ports = j.index.toNat)
  | 4 => (j.domain = 3 || j.domain = 10) && decide (partOf (uIndex u) s.links = j.index.toNat)
  | _ => false

/-- A GO to VX_PWR_RESET refused: REFUSED and the MC log. -/
def resetRefuse (s : State) (src : Src) : State := (s.onPwr (fun w => { w with rRefused := true })).logRefusal mc none src 0xE00010

/-- The reset begins: patterns in the domain end INCOMPLETE with cause 3 (R475); a port, slice or array absorbs at once, a whole reset
begins with the orderly shutdown, the others drain. -/
def beginReset (s : State) (d : BitVec 4) (i : BitVec 12) : State :=
  let j : ResetJob := { domain := d, index := i, from_ := s.time.tick }
  let s := s.onPwr (fun w => { w with rRefused := false, outcome := 0, absorbed := 0 })
  if d = 4 ∨ d = 11 then beginShutdown (s.onPwr (fun w => { w with whole := some j })) 0xF
  else
    let s := cutPatterns s (fun p => s.inDomain j p.unit) 3
    let s := if d = 1 ∨ d = 8 then match finOf 624 i.toNat with | some a => resetPort s a | none => s
             else if d = 2 then match finOf 25 i.toNat with | some n => resetSlice s n | none => s
             else s
    s.onPwr (fun w => { w with resets := [j] })

/-- A write to VX_PWR_RESET (R474). -/
def pwrReset (src : Src) (v : Reg) (s : State) : State :=
  let s := s.onPwr (fun w => { w with domain := field v 0 4, index := field v 4 12 })
  if !flag v 16 then s
  else if s.pwr.resets ≠ [] ∨ s.pwr.down.isSome ∨ !s.resetAllowed s.pwr.domain s.pwr.index.toNat then resetRefuse s src
  else beginReset s s.pwr.domain s.pwr.index

/-- RESET_GO: a write with GO set. -/
def execResetGo (src : Src) (v : Reg) (s : State) : Res := .next (gatedWrite s src 0xE00010 (v ||| 0x10000) (pwrReset src (v ||| 0x10000)))

/-- A domain whose reset drains first (R471). -/
def ResetJob.drains (j : ResetJob) : Bool := j.domain = 3 || j.domain = 9 || j.domain = 10

/-- Whole clock domains that stop with a partition or a die. -/
def State.jobDomains (s : State) (j : ResetJob) : List (BitVec 8) :=
  if j.domain = 3 ∨ j.domain = 10 then
    (s.partPorts j.index.toNat).map (fun g => BitVec.ofNat 8 (0x10 + g.val)) ++ (s.partLinks j.index.toNat).map (fun l => BitVec.ofNat 8 (0x40 + l.val))
  else []

/-- The clocks of the domain stop. -/
def stopClocks (s : State) (j : ResetJob) : State :=
  { s with xing := { s.xing with rows := s.xing.rows ++ s.jobRows j, stopped := s.xing.stopped ++ s.jobDomains j } }

/-- The clocks of the domain run again, but for those the power state keeps still. -/
def startClocks (s : State) (j : ResetJob) : State :=
  { s with xing := { s.xing with rows := s.xing.rows.filter (fun r => !(s.jobRows j).contains r), stopped := stoppedIn s.pwr.vs } }

/-- The ports and links of a compute die go down with it, to be trained again (R471). -/
def downDie (s : State) (k : Nat) : State :=
  let s := s.each (s.partPorts k) (fun s g => s.onMgtu g (fun m => { m with ready := false }))
  s.each (s.partLinks k) (fun s l => s.onLgtu l (fun x => { x with width := 0 }))

/-- A register access waits at its crossing into the domain of a reset. -/
def State.bound (s : State) (j : ResetJob) (w : XingWait) : Bool :=
  !w.timedOut && ((s.jobDomains j).contains w.domain || (w.domain = 1 && match w.row with | some r => (s.jobRows j).contains r | none => false))

/-- An access absorbed completes with an error response, a read with all ones (R472). -/
def absorbAccess (s : State) (w : XingWait) : State := s.complete w.src w.off true 0xE005 (errorData w.acc)

/-- The accesses that wait for the domain are absorbed. -/
def absorbAccesses (s : State) (j : ResetJob) : State :=
  ({ s with xing := { s.xing with waits := s.xing.waits.filter (fun w => !s.bound j w) } } : State).each (s.xing.waits.filter (s.bound j)) absorbAccess

/-- RESET_DRAIN_TIMEOUT: the drain ends; what has not finished, register accesses that wait for the domain and `traffic` other items, is
absorbed, counted and raised once (R472). -/
def execResetDrainTimeout (traffic : Nat) (s : State) : Res :=
  match s.pwr.resets with
  | j :: rest =>
    if !j.drains ∨ j.drained then .next s
    else
      let items := traffic + (s.xing.waits.filter (s.bound j)).length
      let s := absorbAccesses s j
      let s := s.onPwr (fun w => { w with absorbed := satBits 16 items, resets := { j with drained := true } :: rest })
      let s := if items = 0 then s else
        s.emit { code := 0xE005, cls := .c, unit := uPwr, p16 := j.domain.setWidth 16 ||| (j.index.setWidth 16 <<< 4), p32 := satBits 32 items }
      let s := if j.domain = 9 ∨ j.domain = 10 then s.each (s.jobRows j) resetRow else s
      .next (stopClocks (if j.domain = 10 then downDie s j.index.toNat else s) j)
  | [] => .next s

/-- A row that has lost its substitutions: those the history holds are ordered again, spares withdrawn stay so, the rest take their
roles (R197, R358). -/
def freshRow (s : State) (r : Row) : State :=
  let retired := (arraysIn (s.unitsIn .retired)).filter (fun a => rowOf a = r)
  let s := s.onRow r (fun x => { chased := x.chased, borrow := x.borrow, donor := x.donor, noDonor := x.noDonor,
                                 gone := (retired.map colOf).filter (fun c => decide (24 ≤ c)) })
  idleBorrow ((s.each retired reapplyArray).onRow r (fun x => x.giveRoles)) r

/-- What a compute die reset leaves: its rows' substitutions are applied again, its ports are trained (R358, R471). -/
def endDie (s : State) (k : Nat) : State := (s.each (s.partRows k) freshRow).each (s.partPorts k) portReady

/-- PCk is restarted with cause 2, where its firmware runs (R449, R471); it starts anew, its pc an open value (log 8). -/
def restartPc (s : State) (k : Nat) : State :=
  match finOf 6 (k + 1) with
  | some p => if (s.proc p).runs then let (w, s) := s.fresh; restartProc s p 2 (w.setWidth 32) else s
  | none => s

/-- RESET_END: BUSY clears, OUTCOME and RESET_DONE; what waited for the domain goes on (R471, R475). -/
def execResetEnd (s : State) : Res :=
  match s.pwr.resets with
  | j :: rest =>
    if j.drains && !j.drained then .next s
    else
      let s := startClocks (s.onPwr (fun w => { w with resets := rest, outcome := if w.absorbed = 0 then 1 else 2 })) j
      let s := if j.domain = 10 then endDie s j.index.toNat else s
      let s := if j.domain = 3 ∨ j.domain = 10 then restartPc s j.index.toNat else s
      let s := s.emit { code := 0xE004, unit := uPwr, p16 := j.domain.setWidth 16 ||| (j.index.setWidth 16 <<< 4)
                        p32 := satBits 32 ((s.time.tick - j.from_).toNat / 1000) }
      .next (nextOrder s)
  | [] => .next s

end Sys2Proof.Machine
end

