-- ==== Sys2Proof/Machine/Spindle.lean ====
section
/-! DEFINITION. The Spindle and the lock-step comparator (chapter 08): tick alignment, commit notices, headstock barriers, digests and the
divergence hunt, and the Spindle's settings. -/

namespace Sys2Proof.Machine

/-! ## Tick alignment (R254 to R258) -/

/-- VX_SPN_SYNC_STATUS.ON_ALT. -/
def State.syncOnAlt (s : State) : Bool := match s.syncLink with | some l => s.spn.up.toNat ≠ l.val | none => false

/-- TICK_SYNC_SEND (R256). -/
def execTickSyncSend (s : State) : Res :=
  match s.syncLink with
  | none => .next s
  | some l => .next (sendTickSync s l)

/-- TICK_SYNC (R256, R257, R262): the upstream answers with its tick at reception and at its reply; a downstream that is ahead makes it
step forward. -/
def execTickSync (l : Lnk) (_tick : BitVec 64) (_frac : BitVec 4) (aheadBy : Option (BitVec 64)) (retries : Nat) (s : State) : Res :=
  if !s.hasLink l ∨ (s.lgtu.at l).fenced then .next s
  else
    let rx := s.time.tick
    let rxFrac := s.time.frac
    let s := s.onSpn (fun x => { x with retries := x.retries + BitVec.ofNat 16 retries })
    let s := match aheadBy with
      | some d => stepOrDefer s 2 (d.toNat * 16)
      | none => s
    .next (s.sendCtl (.link l) (.tickSyncReply rx rxFrac s.time.tick s.time.frac))

/-- A tick and its fraction in 1/16 tick. -/
def tick16 (t : BitVec 64) (f : BitVec 4) : Int := (t.toNat * 16 + f.toNat : Nat)

/-- A signed count saturated into 16 bits. -/
def sat16 (n : Int) : BitVec 16 := BitVec.ofInt 16 (max (-32768) (min 32767 n))

/-- The rate difference since the last exchange, in 1/16 tick a millisecond: what the offset grew by beside the corrections made (`base` is
what they should have left), over the time passed (R256). -/
def State.rateFrom (s : State) (offset : Int) : Int :=
  if s.spn.joined then (offset - s.spn.base) * 1000000 / (s.time.tick - s.spn.lastSync).toNat else 0

/-- TICK_SYNC_REPLY (R256, R257, R262): the link's one-way delay, the offset (local less upstream) and the rate difference since the last
exchange; then a slew against the rate and what takes the offset away before the next exchange, a forward step, or a step asked of the
upstream. -/
def execTickSyncReply (l : Lnk) (rxTick : BitVec 64) (rxFrac : BitVec 4) (txTick : BitVec 64) (txFrac : BitVec 4) (s : State) (retries : Nat := 0) : Res :=
  let s := s.onSpn (fun x => { x with retries := x.retries + BitVec.ofNat 16 retries })
  if s.syncLink ≠ some l then .next s
  else
    let t1 := tick16 s.spn.sentTick s.spn.sentFrac
    let t4 := tick16 s.time.tick s.time.frac
    let t2 := tick16 rxTick rxFrac
    let t3 := tick16 txTick txFrac
    let offset := ((t1 - t2) + (t4 - t3)) / 2
    let rate := s.rateFrom offset
    let first := !s.spn.joined
    let s := s.onLgtu l (fun x => { x with delay := (((t4 - t1) - (t3 - t2)) / 2).toNat })
    let s := s.onSpn (fun x => { x with synced := true, joined := true, offset := offset, base := offset, lastSync := s.time.tick, rate := -rate, slew := -rate, slewAcc := 0, slewFor := 0 })
    if offset < 0 ∧ (first ∨ offset < -160000) then .next (stepOrDefer s (if first then 0 else 1) offset.natAbs)
    else if 160000 < offset then .next (s.sendCtl (.link l) (.stepUp s.time.tick))
    else .next (s.onSpn (fun x => { x with slew := -(offset + rate) }))

/-- TICK_UNSYNCED (R258). -/
def execTickUnsynced (s : State) : Res :=
  if s.spn.master ∨ s.spn.up = 31 then .next s
  else
    let us := (s.time.tick - s.spn.lastSync).toNat / 1000
    .next ((s.onSpn (fun x => { x with synced := false })).emit
      { code := 0x6002, cls := .c, unit := uSpn, p16 := s.spn.up.setWidth 16, p32 := satBits 32 us })

/-- TICK_HIGH_STORE (R255, R412): bits [63:30] stored where they have changed. -/
def execTickHighStore (s : State) : Res :=
  let h : BitVec 34 := (s.time.tick >>> 30).setWidth 34
  if s.time.high = h then .next s
  else .next (({ s with time := { s.time with high := h } } : State).putItem 1 (h.setWidth 64))

/-! ## Commit notices (R268 to R270) -/

/-- Retries of a control frame enter the link retry counter of a context it serves (R262). -/
def frameRetries (s : State) (c : Ctx) (n : Nat) : State := s.onBar c (fun b => { b with retry := b.retry.add n })

/-- COMMIT_NOTICE. -/
def execCommitNotice (chip : BitVec 16) (c : Ctx) (pass : BitVec 48) (retries : Nat) (s : State) : Res :=
  .next ((frameRetries s c retries).onBar c (fun b => { b with notices := if b.notices.contains (chip, pass) then b.notices else b.notices ++ [(chip, pass)] }))

/-- The first dependence of the pass whose notice is missing. -/
def CtxSt.missingNotice (x : CtxSt) (p : Plan) : Option Dependence :=
  (p.core.deps.filter (fun d => d.position = x.pos.position)).find? (fun d =>
    let need : Int := x.pass.index.toNat + d.offset
    decide (0 ≤ need) && !x.bar.notices.any (fun n => n.1.toNat = d.chip && decide ((n.2.toNat : Int) = need)))

/-- NOTICE_TIMEOUT (R270): the waiting context stops. -/
def execNoticeTimeout (c : Ctx) (s : State) : Res :=
  match (s.planOf c).bind (fun p => (s.ctx c).missingNotice p) with
  | none => .next s
  | some d =>
    if (s.ctx c).pass.st ≠ .boundary ∨ s.deciding c then .next s
    else
      let need : Int := (s.ctx c).pass.index.toNat + d.offset
      let s := s.emit { passEv s c 0x600A .u (s.commitUnit c) (BitVec.ofNat 16 d.chip) with p32 := BitVec.ofInt 32 need }
      .next (stopCtx s c 0x600A)

/-! ## The headstock barrier (R271 to R275) -/

/-- The context of a barrier group on this chip. -/
def State.ctxOfGroup (s : State) (g : BitVec 16) : Option Ctx :=
  allCtx.find? (fun c => s.hasPlan c && match (s.planOf c).bind (fun p => p.extra.group) with | some x => x.1 = g.toNat | none => false)

/-- Group and master of a context's plan. -/
def State.groupOf (s : State) (c : Ctx) : Option (Nat × Nat) := (s.planOf c).bind (fun p => p.extra.group)

/-- This chip is the master of the context's group. -/
def State.isMaster (s : State) (c : Ctx) : Bool := match s.groupOf c with | some g => s.spn.chip.toNat = g.2 | none => false

/-- The group number as frames carry it. -/
def State.groupNo (s : State) (c : Ctx) : BitVec 16 := match s.groupOf c with | some g => BitVec.ofNat 16 g.1 | none => 0

/-- The other members of the group. -/
def State.otherMembers (s : State) (c : Ctx) : List (BitVec 16) :=
  match s.planOf c with
  | some p => (p.extra.members.filter (fun m => m.chip ≠ s.spn.chip.toNat)).map (fun m => BitVec.ofNat 16 m.chip)
  | none => []

/-- The pair check that barrier frames carry, or 0 (R272). -/
def State.checkOf (s : State) (c : Ctx) : BitVec 16 := match s.pairOf c with | some pr => pr.check | none => 0

/-- The number of the barrier in progress: the next one once a barrier has fired or failed (R272). -/
def BarSt.current (b : BarSt) : BitVec 16 := if b.state = 3 ∨ b.state = 5 then b.number + 1 else b.number

/-- The routes of a member of the group: primary and alternate (R272). -/
def State.routesOf (s : State) (c : Ctx) (chip : BitVec 16) : List Nat :=
  match (s.planOf c).bind (fun p => p.extra.members.find? (fun m => m.chip = chip.toNat)) with
  | some m => [m.primary, m.alt]
  | none => []

/-- A frame to a chip over both routes of a member (R272). -/
def sendBoth (s : State) (c : Ctx) (chip ofMember : BitVec 16) (x : Ctl) : State :=
  s.each (s.routesOf c ofMember) (fun s r => s.sendCtl (.member chip r) x)

/-- A frame to every other member. -/
def toMembers (s : State) (c : Ctx) (x : Ctl) : State := s.each (s.otherMembers c) (fun s chip => sendBoth s c chip chip x)

/-- A frame to the master, over this member's routes. -/
def toMaster (s : State) (c : Ctx) (x : Ctl) : State :=
  match s.groupOf c with | some g => sendBoth s c (BitVec.ofNat 16 g.2) (s.spn.chip.setWidth 16) x | none => s

/-- A barrier begins, or begins again after a fired or failed one. -/
def BarSt.begin_ (b : BarSt) : BarSt :=
  { b with number := b.current, attempts := if b.state = 3 ∨ b.state = 5 then 0 else b.attempts, state := 1, armed := [], acked := [], waiting := true, startAt := none, split := false }

/-- The answer of a member at its barrier boundary (R258, R273). -/
def answerArmed (s : State) (c : Ctx) : State :=
  let s := s.onBar c (fun b => { b.begin_ with armSeen := false })
  toMaster s c (.armed (s.groupNo c) (s.ctx c).bar.number (s.checkOf c) (!s.spn.synced && !s.spn.master))

/-- The words of a route of a plan: they stand in the order of the routes (R493). -/
def Plan.wordsOf (p : Plan) (number : Nat) : List (BitVec 64) :=
  match p.cover.routes.findIdx? (fun r => r.number = number) with
  | some i => (p.cover.routeWords.drop ((p.cover.routes.take i).map (·.words)).sum).take (((p.cover.routes[i]?).map (·.words)).getD 0)
  | none => []

/-- The one-way delay of a hop in 1/16 ns: that of a link of this chip as measured (R256). -/
def State.hopDelay (s : State) (h : Config.Hop) : Nat :=
  match h with
  | .own l => match finOf 24 l with | some l => (s.lgtu.at l).delay | none => 0
  | .far d => d

/-- The delivery bound of a route in ns, rounded up: per hop its one-way delay and 4 round trips of twice that (R273; log 17). -/
def State.routeBound (s : State) (ws : List (BitVec 64)) : Nat := (((Config.routeHops ws).map (fun h => 9 * s.hopDelay h)).sum + 15) / 16

/-- D_max: the largest delivery bound over the group's routes (R273). -/
def State.deliveryBound (s : State) (c : Ctx) : Nat :=
  match s.planOf c with
  | some p => ((p.extra.members.flatMap (fun m => [m.primary, m.alt])).map (fun r => s.routeBound (p.wordsOf r))).foldl max 0
  | none => 0

/-- The start tick is set and START sent (R273): T_s = now + max(LEAD_US, 2·D_max + 2 µs). -/
def sendStart (s : State) (c : Ctx) : State :=
  let lead := max (s.spn.lead.toNat * 1000) (2 * s.deliveryBound c + 2000)
  let t := s.time.tick + BitVec.ofNat 64 lead
  let s := s.onBar c (fun b => { b with state := 2, startAt := some t, acked := [] })
  toMembers s c (.start (s.groupNo c) (s.ctx c).bar.number t)

/-- Once ARMED has come from every member, START goes out. -/
def startIfArmed (s : State) (c : Ctx) : State :=
  if (s.ctx c).bar.state = 1 ∧ (s.otherMembers c).all (fun m => (s.ctx c).bar.armed.contains m) then sendStart s c else s

/-- The master begins a barrier: ARM to every member. -/
def sendArm (s : State) (c : Ctx) : State :=
  startIfArmed (toMembers s c (.arm (s.groupNo c) (s.ctx c).bar.number (s.checkOf c))) c

/-- BARRIER_ARRIVE (R271, R273): the context stands at its barrier boundary. -/
def execBarrierArrive (c : Ctx) (s : State) : Res :=
  match s.planOf c with
  | none => .next s
  | some p =>
    let x := s.ctx c
    if x.pass.st ≠ .boundary ∨ !x.exec.injected ∨ !x.needsBarrier p ∨ x.bar.waiting ∨ x.bar.released ∨ !s.commitArrived c ∨ !x.noticesIn p ∨ !s.loadAllows c then .next s
    else if s.isMaster c then .next (sendArm (s.onBar c BarSt.begin_) c)
    else if x.bar.armSeen then .next (answerArmed s c)
    else .next (s.onBar c (fun b => { b with waiting := true }))

/-- ARM at a member (R272, R273): the first copy that arrives. -/
def execArm (group number check : BitVec 16) (retries : Nat) (s : State) : Res :=
  match s.ctxOfGroup group with
  | none => .next s
  | some c =>
    let s := frameRetries s c retries
    let b := (s.ctx c).bar
    if s.isMaster c ∨ number ≠ b.current ∨ b.state = 1 ∨ b.state = 2 ∨ b.armSeen then .next s
    else
      let s := s.onBar c (fun b => { b with peerCheck := check, armSeen := true })
      .next (if b.waiting then answerArmed s c else s)

/-- BARRIER_ABANDON recorded (R274, R288). -/
def recordAbandon (s : State) (c : Ctx) (cause : BitVec 4) (chip : BitVec 12) : State :=
  s.emit { code := 0x6007, unit := uSpn, ctx := some c, p16 := s.groupNo c,
           p32 := (s.ctx c).bar.number.setWidth 32 ||| (cause.setWidth 32 <<< 16) ||| (chip.setWidth 32 <<< 20) }

/-- Pair checks that disagree (R274, LOCKSTEP_PLAN_MISMATCH): the context stops at once. -/
def planMismatch (s : State) (c : Ctx) (theirs : BitVec 16) : State :=
  abortStopCtx (s.emit (lscEv s c 0x600D .u (s.checkOf c) (theirs.setWidth 32))) c 0x600D

/-- BARRIER_FAIL after the third abandonment (R274). -/
def barrierFail (s : State) (c : Ctx) : State :=
  let s := s.onBar c (fun b => { b with state := 5 })
  let s := s.emit { code := 0x6008, cls := .u, unit := uSpn, ctx := some c, p16 := s.groupNo c, p32 := (s.ctx c).bar.number.setWidth 32 }
  stopCtx s c 0x6008

/-- The barrier set back after an abandonment, for the next number. -/
def BarSt.back (b : BarSt) : BarSt :=
  { b with attempts := b.attempts + 1, number := b.number + 1, state := 4, armed := [], acked := [], startAt := none, armSeen := false }

/-- The master abandons a barrier (R274): recorded and told to the members; begun again up to three attempts in all. -/
def abandonBarrier (s : State) (c : Ctx) (cause : BitVec 4) (chip : BitVec 12) : State :=
  let n := (s.ctx c).bar.number
  let s := toMembers (recordAbandon s c cause chip) c (.abandon (s.groupNo c) n cause)
  let s := s.onBar c BarSt.back
  if cause = 4 then planMismatch s c (s.ctx c).bar.peerCheck
  else if (s.ctx c).bar.attempts = 3 then
    barrierFail (toMembers s c (.abandon (s.groupNo c) (s.ctx c).bar.number cause)) c
  else sendArm (s.onBar c (fun b => { b with state := 1 })) c

/-- ARMED at the master (R273, R274). -/
def execArmed (chip : BitVec 12) (group number check : BitVec 16) (unsynced : Bool) (retries : Nat) (s : State) : Res :=
  match s.ctxOfGroup group with
  | none => .next s
  | some c =>
    let s := frameRetries s c retries
    let b := (s.ctx c).bar
    if !s.isMaster c ∨ b.state ≠ 1 ∨ number ≠ b.number ∨ (s.otherMembers c).contains (chip.setWidth 16) = false then .next s
    else
      let s := s.onBar c (fun b => { b with armed := if b.armed.contains (chip.setWidth 16) then b.armed else b.armed ++ [chip.setWidth 16], peerCheck := check })
      if unsynced then .next (abandonBarrier s c 3 chip)
      else if (s.pairOf c).isSome ∧ check ≠ s.checkOf c then .next (abandonBarrier s c 4 chip)
      else .next (startIfArmed s c)

/-- START at a member (R273). -/
def execStart (group number : BitVec 16) (at_ : BitVec 64) (retries : Nat) (s : State) : Res :=
  match s.ctxOfGroup group with
  | none => .next s
  | some c =>
    let s := frameRetries s c retries
    let b := (s.ctx c).bar
    if s.isMaster c ∨ b.state ≠ 1 ∨ number ≠ b.number then .next s
    else .next (toMaster (s.onBar c (fun b => { b with state := 2, startAt := some at_ })) c (.startAck group number))

/-- START_ACK at the master. -/
def execStartAck (chip : BitVec 12) (group number : BitVec 16) (retries : Nat) (s : State) : Res :=
  match s.ctxOfGroup group with
  | none => .next s
  | some c =>
    let s := frameRetries s c retries
    let b := (s.ctx c).bar
    if !s.isMaster c ∨ b.state ≠ 2 ∨ number ≠ b.number then .next s
    else .next (s.onBar c (fun b => { b with acked := if b.acked.contains (chip.setWidth 16) then b.acked else b.acked ++ [chip.setWidth 16] }))

/-- The barrier that frames of the next number are for, once one has fired or failed: no abandonment of it yet. -/
def BarSt.coming (b : BarSt) : BarSt := if b.state = 3 ∨ b.state = 5 then { b with number := b.current, attempts := 0 } else b

/-- ABANDON at a member (R274, R275), also before its context has come to the barrier's boundary; of the two copies the first acts (R272). The frame does not name the chip at
fault: that field of the record is an open value (log 35). -/
def execAbandon (group number : BitVec 16) (cause : BitVec 4) (retries : Nat) (s : State) : Res :=
  match s.ctxOfGroup group with
  | none => .next s
  | some c =>
    let s := frameRetries s c retries
    let b := (s.ctx c).bar
    if s.isMaster c then .next s
    else if b.state = 3 ∧ number = b.number then
      if b.split then .next s else
      let s := s.onBar c (fun b => { b with split := true })
      let s := s.emit { code := 0x6009, cls := .u, unit := uSpn, ctx := some c, p16 := group, p32 := number.setWidth 32 }
      .next (abortStopCtx s c 0x6009)
    else if number ≠ b.current then .next s
    else if b.coming.attempts = 3 then .next (barrierFail s c)
    else
      let (w, s) := s.fresh
      let s := recordAbandon (s.onBar c BarSt.coming) c cause (w.setWidth 12)
      let s := s.onBar c BarSt.back
      .next (if cause = 4 then planMismatch s c b.peerCheck else takeDeferred s)

/-- The chip number of the lowest member missing from a list. -/
def State.missingMember (s : State) (c : Ctx) (got : List (BitVec 16)) : Option (BitVec 16) :=
  ((s.otherMembers c).filter (fun m => !got.contains m)).foldl (fun best m => match best with | some x => if m.toNat < x.toNat then some m else some x | none => some m) none

/-- ARM_TIMEOUT (R274). -/
def execArmTimeout (c : Ctx) (s : State) : Res :=
  let b := (s.ctx c).bar
  if !s.isMaster c ∨ b.state ≠ 1 ∨ !b.waiting then .next s
  else match s.missingMember c b.armed with
    | some m => .next (abandonBarrier s c 1 (m.setWidth 12))
    | none => .next s

/-- START_ACK_DEADLINE (R273, R274). -/
def execStartAckDeadline (c : Ctx) (s : State) : Res :=
  let b := (s.ctx c).bar
  if !s.isMaster c ∨ b.state ≠ 2 then .next s
  else match s.missingMember c b.acked with
    | some m => .next (abandonBarrier s c 2 (m.setWidth 12))
    | none => .next s

/-- BARRIER_FIRE (R271, R273): the START's tick is reached and the context leaves its boundary. -/
def execBarrierFire (c : Ctx) (s : State) : Res :=
  let b := (s.ctx c).bar
  match b.startAt with
  | none => .next s
  | some _ =>
    if b.state ≠ 2 ∨ (s.isMaster c ∧ (s.missingMember c b.acked).isSome) then .next s
    else
      let s := s.onBar c (fun b => { b with state := 3, released := true, waiting := false, startAt := none, armSeen := false })
      let s := if s.isMaster c then
          s.emit { code := 0x6006, unit := uSpn, ctx := some c, p16 := s.groupNo c, p32 := b.number.setWidth 32 }
        else s
      .next (takeDeferred s)

/-! ## Digests and the hunt (R281 to R287) -/

/-- The frame's digest is for the execution last committed, in its round, and differs from the one that was committed (R226). -/
def LscSt.contradicts (l : LscSt) (f : DigestFrame) : Bool :=
  match l.past with | some (n, r, d) => f.pass = n && f.round = r && f.digest ≠ d | none => false

/-- A digest of the partner at the commit unit (R226, R282 to R284). -/
def takeDigest (s : State) (c : Ctx) (f : DigestFrame) (check : BitVec 16) : State :=
  let x := s.ctx c
  if s.idleCtx c then s
  else if f.pairCheck ≠ check then planMismatch s c f.pairCheck
  else if f.pass ≠ x.pass.index ∨ f.round ≠ x.lsc.round then (if x.lsc.contradicts f then lateReport s c (s.commitUnit c) 6 f.pass else s)
  else
    let s := s.onLsc c (fun l => { l with partner := some f, waiting := false })
    let s := settle (s.onPass c (fun p => { p with holdDigest := false })) c
    compareDigests s c

/-- DIGEST: the 256 bits of R281; bits that spell no DIGEST frame name no context. -/
def execDigest (frame : BitVec 256) (retries : Nat) (s : State) : Res :=
  match digestFrame frame with
  | none => .next s
  | some f => match s.pairOf f.ctx with
    | none => .next s
    | some pr => .next (takeDigest (frameRetries s f.ctx retries) f.ctx f pr.check)

/-- The first index at which two lists differ. -/
def firstDiff (a b : List (BitVec 61)) : Option Nat :=
  (List.range (max a.length b.length)).find? (fun i => a[i]? ≠ b[i]?)

/-- SEGMENT: the partner's segment digests (R286): the fingerprints of the first segment that differs go to the partner. -/
def execSegment (c : Ctx) (digests : List (BitVec 61)) (retries : Nat) (s : State) : Res :=
  let s := frameRetries s c retries
  let x := s.ctx c
  match s.planOf c with
  | none => .next s
  | some p =>
    if !x.lsc.sentSegs then .next s
    else match firstDiff (segmentDigests (digestKey p.core.seed x.pass.index) x.lsc.area) digests with
      | none => .next s
      | some g =>
        let s := s.onLsc c (fun l => { l with segment := some g })
        .next (sendPair s c (.huntTags ((x.lsc.area.drop (4096 * g)).take 4096)))

/-- LOCKSTEP_HUNT with an outcome, kept in VX_LSC_HUNT (R286, R287, R289). -/
def recordHunt (s : State) (c : Ctx) (outcome : BitVec 3) : State :=
  let s := s.onLsc c (fun l => { l with outcome := outcome, valid := true })
  let l := (s.ctx c).lsc
  s.emit (lscEv s c 0x600E .record (outcome.setWidth 16 ||| (l.logical.setWidth 16 <<< 3)) l.index)

/-- HUNT_TAGS: the partner's fingerprints of the segment (R286): the locus is the first write that differs. -/
def execHuntTags (c : Ctx) (fps : List (BitVec 61)) (retries : Nat) (s : State) : Res :=
  let s := frameRetries s c retries
  let x := s.ctx c
  match s.planOf c, x.lsc.segment with
  | some p, some g =>
    match firstDiff ((x.lsc.area.drop (4096 * g)).take 4096) fps with
    | none => .next s
    | some i =>
      let w := 4096 * g + i
      let at_ := p.extra.writes.find? (fun k => k.position = x.pos.position && k.w = w)
      let s := s.onLsc c (fun l => { l with locus := some (w, fps.getD i 0), segment := none, sentSegs := false, index := BitVec.ofNat 32 w,
                                            logical := BitVec.ofNat 10 ((at_.map (·.logical)).getD 0), item := (at_.map (·.item)).getD 0 })
      .next (recordHunt s c 0)
  | _, _ => .next s

/-- The local primary is the suspect (R287): LOCKSTEP_SUSPECT, an abort with reason 2, a declaration as for a repeated catch. -/
def huntSuspect (s : State) (c : Ctx) : State :=
  let l := (s.ctx c).lsc
  let u := s.primaryOf l.logical.toNat
  let s := s.emit { lscEv s c 0x600F .c (l.logical.setWidth 16) l.index with unit := u }
  let s := s.histPut { unit := u, act := .declare 3, event := 0x600F, pass := (s.ctx c).pass.index.setWidth 32, ctx := some c }
  noteCause s c 2 u

/-- The reserve spare of the row of the located logical array (R287). -/
def State.huntReferee (s : State) (c : Ctx) : Option Arr :=
  (logRow (s.ctx c).lsc.logical.toNat).bind (fun r => if (s.shd.rows.at r).reserve = 31 then none else some (arrOf r (s.shd.rows.at r).reserve.toNat))

/-- The end of the hunt slot of the located array's row at the present position, or 0 (IDLE 0x02; log 127). -/
def State.huntEnd (s : State) (c : Ctx) : Nat :=
  let x := s.ctx c
  match (s.planOf c).bind (fun p => p.extra.huntSlots.find? (fun h => h.row = x.lsc.logical.toNat / 24 && h.position = x.pos.position)) with
  | some h => h.start + h.length
  | none => 0

/-- HUNT_COMPARE (R259, R287): the referee's output in the hunt slot against the primary's and the partner's. -/
def execHuntCompare (c : Ctx) (primaryFp r : BitVec 61) (s : State) : Res :=
  match (s.ctx c).lsc.locus with
  | none => .next s
  | some (_, q) =>
    if !s.deciding c then .next s
    else
      let s := reachOffset s c (s.huntEnd c)
      let s := s.onLsc c (fun l => { l with locus := none })
      match s.huntReferee c with
      | none => .next (recordHunt s c 5)
      | some a =>
        if primaryFp = r ∧ r = q then .next s
        else if r = q then .next (huntSuspect (recordHunt s c 1) c)
        else if primaryFp = q then
          .next ((recordHunt s c 2).histPut { unit := uArr a, act := .confirm, event := 0x600E, pass := (s.ctx c).pass.index.setWidth 32, ctx := some c })
        else if primaryFp = r then .next (recordHunt s c 3)
        else .next (recordHunt s c 4)

/-- LOCKSTEP_TIMEOUT (R285): aborted with reason 6 and stopped. -/
def execLockstepTimeout (c : Ctx) (s : State) : Res :=
  let x := s.ctx c
  if x.lsc.own.isNone ∨ x.lsc.equal ∨ x.lsc.partner.isSome ∨ x.exec.injected then .next s
  else
    let s := s.emit (lscEv s c 0x600C .u (x.lsc.round.setWidth 16) (x.pass.index.setWidth 32))
    let s := s.onExec c (fun e => { e with stopAfter := e.stopAfter <|> some 0x600C })
    .next (noteCause s c 6 (s.commitUnit c))

/-- PAIR_STOP of the partner (R285). -/
def execPairStop (c : Ctx) (retries : Nat) (s : State) : Res :=
  match s.pairOf c with
  | none => .next s
  | some pr =>
    let s := frameRetries s c retries
    if s.idleCtx c then .next s
    else .next (stopCtx (s.emit (lscEv s c 0x6010 .u (BitVec.ofNat 16 pr.chip) ((s.ctx c).pass.index.setWidth 32))) c 0x6010)

/-! ## Settings (R289) -/

/-- A write to VX_SPN_CFG: LEAD_US at least 20, the waits at least 1; a change of CHIP_NUMBER is refused while a plan is loaded. -/
def spnCfg (src : Src) (v : Reg) (s : State) : State :=
  let lead : BitVec 8 := if (field v 24 8 : BitVec 8).toNat < 20 then 20 else field v 24 8
  let arm : BitVec 16 := if (field v 32 16 : BitVec 16) = 0 then 1 else field v 32 16
  let notice : BitVec 16 := if (field v 48 16 : BitVec 16) = 0 then 1 else field v 48 16
  let t := s.onSpn (fun x => { x with master := flag v 12, up := field v 13 5, alt := field v 18 5, lead := lead, armMs := arm, noticeMs := notice
                                      joined := x.joined && x.up = field v 13 5 })
  if (field v 0 12 : BitVec 12) = s.spn.chip then t
  else if s.loadedCtxs ≠ [] then t.logRefusal mc none src 0x600008
  else t.onSpn (fun x => { x with chip := field v 0 12 })

/-- SPN_CFG_WRITE. -/
def execSpnCfgWrite (src : Src) (v : Reg) (s : State) : Res := .next (gatedWrite s src 0x600008 v (spnCfg src v))

/-- A write to VX_LSC_CFG (R289). -/
def lscCfg (v : Reg) (s : State) : State :=
  let n := (field v 0 10 : BitVec 10).toNat
  s.onSpn (fun x => { x with digestMs := BitVec.ofNat 10 (max 1 (min 1000 n)) })

end Sys2Proof.Machine
end

