-- ==== Sys2Proof/Machine/Regs.lean ====
section
/-! DEFINITION. The register window (chapters 02 and 17): what each of the registers reads, what a write to it does, and accesses from the
two sides (R12 to R18, R71, R75, R91, R92, R485, R491). -/

namespace Sys2Proof.Machine

/-- A register of fields: lowest bit, width, value; every other bit reads 0 (R17). -/
def pack (fs : List (Nat × Nat × Nat)) : Reg := BitVec.ofNat 64 (fs.map (fun f => f.2.2 % 2 ^ f.2.1 * 2 ^ f.1)).sum

/-- Four 16-bit counts. -/
def pack16 (a b c d : BitVec 16) : Reg := d ++ c ++ b ++ a

/-! ## What the registers read -/

/-- VX_ID (R4, R5, R487). -/
def readId (s : State) : Reg :=
  pack [(0, 8, 1), (8, 8, s.fuses.stepping.toNat), (16, 4, s.fuses.product.toNat), (20, 1, b2n s.fuses.gradeB), (21, 5, s.rows),
    (26, 5, s.fuses.stackCnt), (31, 5, s.links)]

/-- VX_BOUNDARY_STATUS (R76 to R82). -/
def readBoundary (a : Aon) : Reg :=
  pack [(0, 4, a.strap.toNat), (4, 1, b2n a.refOk), (5, 1, b2n a.pgMain), (6, 1, b2n a.pgMem), (7, 1, b2n a.pgIo), (8, 1, b2n a.trip),
    (9, 1, b2n a.alive), (16, 7, a.dynAddr.toNat)]

/-- VX_XING_TIMEOUT (R92). -/
def readXing (x : Xing) : Reg :=
  pack [(0, 1, b2n x.valid), (1, 1, b2n x.write), (2, 1, b2n x.mgt), (3, 2, x.outcome.toNat), (8, 8, x.domain.toNat), (16, 16, x.count.toNat)]

/-- VX_CTX_INTEGRITY. -/
def readIntegrity (x : CtxSt) : Reg :=
  match x.plan.active with
  | none => 0
  | some p => pack [(0, 3, p.core.primary.toNat), (3, 1, b2n p.core.lockstep), (4, 1, b2n p.core.relaxed), (8, 8, p.core.densePct),
      (16, 11, p.core.window), (28, 12, x.windowMax p), (40, 8, p.core.level.toNat)]

/-- The code of a context state (VX_CTX_PASS.STATE). -/
def CtxState.code : CtxState → Nat
  | .noPlan => 0 | .running => 1 | .boundary => 2 | .aborting => 3 | .held => 4 | .stopped => 5

/-- HOLD_CAUSE: the cause in force with the lowest code (R248, R253). -/
def PassSt.holdCause (p : PassSt) : Nat := if p.holdSub then 1 else if p.holdFw then 2 else if p.holdDigest then 3 else 0

/-- VX_CTX_PASS. -/
def readPass (p : PassSt) : Reg :=
  pack [(0, 48, p.index.toNat), (48, 8, p.replay.toNat), (56, 3, p.st.code), (59, 2, p.sinceStart.toNat), (61, 1, b2n p.driverHold),
    (62, 2, p.holdCause)]

/-- PLAN_SLOTS: the largest 8 · S_q over the plan's ports (R234). -/
def planSlots (x : CtxSt) : Nat :=
  match x.plan.active with
  | some p => (p.cover.areas.map (fun a => 8 * a.staves)).foldl max 0
  | none => 0

/-- VX_CTX_RETENTION. -/
def readRetention (s : State) (c : Ctx) : Reg :=
  pack [(0, 16, planSlots (s.ctx c)), (16, 16, (s.ctx c).pass.peakSlots.toNat), (32, 16, s.copiesLeft c)]

/-- VX_SHD_ROW_STATUS (R219, R494). -/
def readShdRow (s : State) (r : Row) : Reg :=
  let x := s.shd.rows.at r
  pack [(0, 5, x.shadow.toNat), (5, 5, x.reserve.toNat), (10, 2, x.freeSpares), (12, 1, b2n x.borrow), (13, 5, x.donor.toNat),
    (18, 1, b2n (x.lendTo ≠ 31)), (19, 5, x.lendTo.toNat), (24, 2, partOf r.val s.rows), (26, 1, b2n x.noDonor)]

/-- The code of an engine state (R345). -/
def EngState.code : EngState → Nat
  | .run => 0 | .draining => 1 | .drained => 2 | .halted => 3

/-- VX_FST_STATUS (R348, R362). -/
def readFst (s : State) : Reg :=
  let f := s.fst
  pack [(0, 2, f.state.code), (2, 1, b2n ((f.slots.at 2).valid || f.state = .halted)), (3, 1, b2n f.replace), (4, 3, f.cause.toNat),
    (7, 2, f.standby.toNat), (9, 1, b2n f.refused)]

/-- VX_FST_CAP_INFO. -/
def readCapInfo (x : Slot3) : Reg :=
  pack [(0, 16, x.event.toNat), (16, 16, x.unit.toNat), (32, 8, x.acc.toNat), (40, 8, x.ctx.toNat), (48, 1, b2n x.valid), (49, 1, b2n x.esc)]

/-- VX_FST_UNIT_INFO; its reset value while the selection is not yet described. -/
def readUnitInfo (s : State) : Reg :=
  let u := histUnit s.fst.unitSel
  let h := s.fst.unit u
  let sat (n : Nat) : Nat := min n 0xFFFF
  if !s.fst.infoValid then 0
  else if !s.unitExists s.fst.unitSel then 1
  else pack [(0, 2, 3), (2, 3, (s.fst.stateNow s.time.opsec u).code), (5, 4, s.fst.inWindow s.time.opsec u), (9, 16, sat h.confirmed), (25, 16, sat h.undecided), (41, 16, sat h.reports)]

/-- VX_FST_UNIT_LAST. -/
def readUnitLast (s : State) : Reg :=
  let h := s.fst.unit (histUnit s.fst.unitSel)
  if s.unitExists s.fst.unitSel then pack [(0, 40, h.lastOp.toNat), (40, 16, h.lastEvent.toNat)] else 0

/-- Set bits of a row's mask. -/
def onesIn (m : BitVec 26) : Nat := ((List.range 26).filter (fun i => m.getLsbD i)).length

/-- The code of a slice state. -/
def SliceState.code : SliceState → Nat
  | .serving => 0 | .idle => 1 | .handover => 2 | .selftest => 3 | .reset => 4 | .retired => 5

/-- VX_WCE_PORT_STATUS: OPEN_BLANKS counts the operand blanks in progress; IN_RESET is a reset of the port or of its array in progress
(R471). -/
def readPort (s : State) (a : Arr) : Reg :=
  let p := s.wce.ports.at a
  let g := p.group
  let busy := s.pwr.resets.any (fun j => (j.domain = 1 || j.domain = 8) && decide (j.index.toNat = a.val))
  pack [(0, 1, b2n g.isSome), (1, 1, b2n ((g.map (·.closing)).getD false)), (2, 4, p.debt), (6, 5, p.openBlanks),
    (11, 8, (g.map (·.members)).getD 0), (19, 8, (g.map (·.ctx.val)).getD 0xFF), (27, 1, b2n busy), (28, 4, p.maxDebt.toNat)]

/-- VX_MGTU_LAST_EVENT. -/
def readLastEvent (m : Mgtu) : Reg :=
  pack [(0, 25, m.evBlank.toNat), (32, 8, m.evCtx.toNat), (40, 4, m.evKind.toNat), (44, 3, m.evState.toNat), (47, 1, b2n m.evValid)]

/-- VX_LGTU_STATUS. -/
def readLink (x : Lgtu) : Reg :=
  pack [(0, 4, x.width.toNat), (4, 1, b2n x.fenced), (16, 16, x.retries.toNat), (32, 16, x.poisoned.toNat), (48, 16, x.keyMis.toNat)]

/-- VX_SPN_CFG. -/
def readSpnCfg (x : Spn) : Reg :=
  pack [(0, 12, x.chip.toNat), (12, 1, b2n x.master), (13, 5, x.up.toNat), (18, 5, x.alt.toNat), (24, 8, x.lead.toNat), (32, 16, x.armMs.toNat),
    (48, 16, x.noticeMs.toNat)]

/-- VX_CTX_BARRIER. -/
def readBarrier (x : CtxSt) : Reg :=
  let g := x.plan.active.bind (fun p => p.extra.group)
  pack [(0, 16, (g.map (·.1)).getD 0), (16, 12, (g.map (·.2)).getD 0xFFF), (28, 16, x.bar.number.toNat), (44, 3, x.bar.state.toNat),
    (47, 2, x.bar.attempts.toNat)]

/-- VX_LSC_CTX_STATUS. -/
def readLsc (s : State) (c : Ctx) : Reg :=
  let x := s.ctx c
  let pr := s.pairOf c
  pack [(0, 1, b2n (match x.plan.active with | some p => p.core.lockstep | none => false)), (1, 5, (pr.map (·.link)).getD 31),
    (6, 1, b2n ((pr.map s.pairOnAlt).getD false)), (7, 8, x.lsc.round.toNat), (15, 12, (pr.map (·.chip)).getD 0xFFF),
    (27, 5, (pr.map (·.ctx)).getD 0), (32, 16, x.lsc.mismatches.toNat), (48, 1, b2n x.lsc.waiting), (49, 1, b2n x.lsc.hunt)]

/-- VX_PRV_CTX_STATUS: UNACKED counts from the record after ACK_SEQ to the newest. -/
def readPrvCtx (x : PrvCtx) : Reg :=
  pack [(0, 32, x.lastSeq.toNat), (32, 16, x.unacked), (48, 1, b2n x.stalled), (49, 2, x.cause.toNat)]

/-- Sensors FAILED or RETIRED. -/
def State.failedSensors (s : State) : Nat :=
  ((List.finRange 640).filter (fun n => s.unitExists (uSensor n) && decide ((s.thm.sensors.at n).state ≠ .live))).length

/-- VX_THM_STATUS. -/
def readThm (s : State) : Reg :=
  let t := s.thm
  pack [(0, 16, t.hottest.toNat), (16, 10, t.hotIndex.toNat), (32, 7, t.pct), (39, 1, b2n (t.stretchOn || t.releasing)), (40, 1, b2n t.stopped),
    (41, 1, b2n s.aon.trip), (48, 10, s.failedSensors)]

/-- The code of a sensor state. -/
def SensorState.code : SensorState → Nat
  | .live => 0 | .stuck => 1 | .range => 2 | .ref => 3 | .retired => 4

/-- VX_THM_SENSOR_INFO; its reset value while the selection is not yet described. -/
def readSensor (s : State) : Reg :=
  if !s.thm.valid then 0x0000800000000000
  else match finOf 640 s.thm.sel.toNat with
    | some n =>
      let x := s.thm.sensors.at n
      if s.unitExists (uSensor n) then
        pack [(0, 2, 3), (2, 3, x.state.code), (16, 16, x.reading.toNat), (32, 16, x.peak.toNat), (48, 8, x.failures.toNat)]
      else 1
    | none => 1

/-- VX_REC_STATUS. -/
def readRec (s : State) : Reg :=
  let r := s.rcd
  pack [(0, 13, r.queue.length), (13, 1, b2n r.openTill.isSome), (14, 1, b2n r.flashOk), (15, 1, b2n (decide (262144 ≤ r.flash.perm.length))), (16, 1, b2n (s.aon.strap.getLsbD 2)),
    (17, 1, b2n s.time.wallSet), (32, 32, r.nextSeq.toNat)]

/-- VX_REC_RING. -/
def readRing (f : Flash) : Reg :=
  pack [(0, 32, (f.entries.head?.map (fun r => r.seq.toNat)).getD 0), (32, 32, (f.entries.getLast?.map (fun r => r.seq.toNat)).getD 0xFFFFFFFF)]

/-- VX_REC_READ_SEL. -/
def readRecSel (q : RecRead) : Reg :=
  pack [(0, 2, q.region.toNat), (2, 32, q.index.toNat), (35, 1, b2n q.done), (36, 1, b2n q.absent), (37, 1, b2n q.void)]

/-- VX_REC_DUMP_CTRL. -/
def readDump (q : RecRead) : Reg :=
  pack [(0, 22, q.count.toNat), (22, 2, q.dRegion.toNat), (25, 1, b2n q.dDone), (26, 1, b2n q.busy), (27, 1, b2n q.refused), (32, 32, q.copied.toNat)]

/-- VX_REC_EXPORT. -/
def readExport (s : State) : Reg :=
  let r := s.rcd
  pack [(0, 7, r.cpers.length), (7, 1, b2n (s.aon.strap.getLsbD 3)), (8, 16, r.dropped.toNat), (24, 1, b2n r.incomplete), (32, 32, (r.flash.present 10).toNat)]

/-- VX_MBX_CTRL. -/
def readMbx (m : Mbox) : Reg := pack [(1, 1, b2n m.busy), (2, 1, b2n m.done), (3, 1, b2n m.timedOut), (4, 1, b2n m.refused)]

/-- VX_FWP_LOAD_CTRL. -/
def readLoad (w : Fwp) : Reg :=
  pack [(0, 6, w.target.toNat), (7, 1, b2n w.busy), (8, 2, w.result.toNat), (10, 4, w.cause.toNat), (14, 1, b2n w.refused)]

/-- The code of a channel state. -/
def ChanState.code : ChanState → Nat
  | .free => 0 | .open_ => 1 | .draining => 2

/-- VX_FWP_CHAN_STATUS (R488). -/
def readChan (c : Chan) (x : ChanSt) : Reg :=
  pack [(0, 2, x.state.code), (2, 1, b2n (decide (c.val < 10))), (3, 3, x.sender.toNat), (6, 3, x.receiver.toNat), (9, 2, x.prio.toNat),
    (11, 5, x.entries.length), (16, 1, b2n x.sendWait), (32, 16, x.sent.toNat), (48, 16, x.discarded.toNat)]

/-- VX_FWP_STATUS. -/
def readProc (x : ProcSt) (now : BitVec 40) : Reg :=
  pack [(0, 3, x.state.code), (3, 1, b2n x.latches), (4, 4, x.cause.toNat), (8, 16, x.restarts.toNat), (24, 2, min 2 (x.counted now).length),
    (32, 16, x.ecc.toNat)]

/-- VX_FWP_VERSION. -/
def readVersion (x : ProcSt) : Reg :=
  pack [(0, 32, x.version.toNat), (32, 8, x.major.toNat), (40, 8, x.minor.toNat), (48, 8, x.agreed0.toNat), (56, 8, x.agreed1.toNat)]

/-- The 16 bytes of a log entry (R454). -/
def LogEntry.bytes (e : LogEntry) : List Byte :=
  leBytes 8 e.tick.toNat ++ leBytes 2 e.code.toNat ++ leBytes 1 e.ctx.toNat ++ leBytes 1 (b2n e.hw) ++ leBytes 4 e.arg.toNat

/-- The entry at a position of the ring; one never written reads 0 (R454). -/
def ProcSt.logAt (x : ProcSt) (n : Nat) : List Byte :=
  let back := (x.written.toNat + 4095 - n % 4096) % 4096
  if back < x.log.length then ((x.log[x.log.length - 1 - back]?).map LogEntry.bytes).getD [] else List.replicate 16 0

/-- The slices of a resource claimed by applied plans or reserved by validated ones (R333). -/
def readClaimed (s : State) : Reg :=
  let k := s.pln.selCls.toNat
  let i := s.pln.selIdx.toNat
  let of (p : Option Plan) : BitVec 64 := (p.map (fun p => p.claimsOf k i)).getD 0
  let all := allCtx.foldl (fun m c => m ||| of (s.ctx c).plan.active ||| of (s.ctx c).plan.pend) 0
  if k = 1 ∧ i < s.ports then all ||| (1#64 <<< 63) else all

/-- VX_PLN_CTX_RESULT. -/
def readResult (x : PlanSt) : Reg :=
  pack [(0, 2, x.outcome.toNat), (2, 1, b2n x.atApp), (8, 16, x.event.toNat), (24, 8, x.cause.toNat), (32, 4, x.cls.toNat), (36, 16, x.index.toNat),
    (52, 8, x.conflict.toNat), (60, 1, b2n x.valid)]

/-- VX_SCR_STATUS. -/
def readScr (s : State) : Reg :=
  let q := s.scr.running.find? (fun q => uClass q.unit = 0)
  pack [(0, 1, b2n q.isSome), (1, 1, b2n (s.screened.any s.overdue)), (16, 16, (q.map (fun q => q.unit.toNat)).getD 0xFFFF),
    (32, 16, (q.map (fun q => q.pattern.toNat)).getD 0), (48, 16, s.scr.rotation)]

/-- VX_SCR_LAST_RESULT. -/
def readScrResult (x : Scr) : Reg :=
  pack [(0, 16, x.resUnit.toNat), (16, 16, x.resPat.toNat), (32, 2, x.result.toNat), (34, 4, x.resCause.toNat), (38, 1, b2n x.resRetest)]

/-- VX_SCR_UNIT_INFO; its reset value while the selection is not yet described. -/
def readScrUnit (s : State) : Reg :=
  let u := s.scr.sel
  let x := s.scr.unit u
  if !s.scr.valid then 0x000000FFFFFFFF00
  else if !s.eligible u then 1
  else pack [(0, 2, 3), (2, 1, b2n x.retest.isSome), (3, 1, b2n (s.scr.testNow = some u)),
    (8, 32, match x.lastPass with | some t => (t >>> 16).toNat | none => 0xFFFFFFFF), (40, 8, x.incompl.toNat), (48, 16, x.fails.toNat)]

/-- Bring-up waits for the driver (R462). -/
def State.waitsForDriver (s : State) : Bool := s.pwr.waitDrv || (s.pwr.step = 6 && s.waitsForTc)

/-- VX_PWR_STATUS. -/
def readPwr (s : State) : Reg :=
  let w := s.pwr
  pack [(0, 3, w.vs.code), (3, 1, b2n w.ready), (4, 3, w.step.toNat), (7, 2, w.path.toNat), (9, 1, b2n s.waitsForDriver),
    (10, 1, b2n (w.step = 3 ∧ !s.aon.refOk)), (11, 1, b2n w.down.isSome), (16, 16, min 0xFFFF (w.bringUs / 1000)), (32, 16, w.early.toNat)]

/-- VX_PWR_RESET: a whole reset is BUSY until it is applied. -/
def readReset (w : Pwr) : Reg :=
  pack [(0, 4, w.domain.toNat), (4, 12, w.index.toNat), (17, 1, b2n (w.resets ≠ [] ∨ (w.whole.isSome ∧ w.down.isSome))), (18, 1, b2n w.rRefused),
    (19, 2, w.outcome.toNat), (32, 16, w.absorbed.toNat)]

/-- VX_PWR_PART_MAP (R494). -/
def readPart (s : State) (k : Nat) : Reg :=
  pack ((s.partPorts k).map (fun g => (g.val, 1, 1)) ++ (s.partLinks k).map (fun l => (40 + l.val, 1, 1)))

/-- A 48-bit counter with its SATURATED bit. -/
def readCount (x : Count48) : Reg := pack [(0, 48, x.n.toNat), (48, 1, b2n x.sat)]

/-- What a read of a register returns. VX_PLN_STATUS.CONTEXT before any validation and VX_LSC_CTX_STATUS.PARTNER_CTX without a pair read 0,
as their Reset columns have it, where R10 gives all ones for no context (DESIGN CHOICE, log 124). -/
def readReg (s : State) : RegAt → Reg
  | .id => readId s
  | .ctxIntegrity c => readIntegrity (s.ctx c)
  | .boundaryStatus => readBoundary s.aon
  | .xingTimeout => readXing s.xing
  | .xingTimeoutAddr => s.xing.addr.setWidth 64
  | .irqStatus => s.irq.status.setWidth 64
  | .irqEnable => s.irq.enable.setWidth 64
  | .ctxPass c => readPass (s.ctx c).pass
  | .ctxCommit c => pack [(0, 48, (s.ctx c).pass.commitCount.toNat), (48, 2, (s.home c).val)]
  | .ctxPassCounts c => let p := (s.ctx c).pass; pack16 p.aborts p.replays p.transient p.repeats
  | .ctxStopCause c => pack [(0, 16, (s.ctx c).pass.stopEvent.toNat), (16, 48, (s.ctx c).pass.stopPass.toNat)]
  | .ctxRetention c => readRetention s c
  | .ctxPassCtrl c => pack [(8, 1, b2n (s.ctx c).pass.refused), (16, 16, (s.ctx c).pass.notifyEvery.toNat)]
  | .passPending => s.irq.pass.setWidth 64
  | .shdRowStatus r => readShdRow s r
  | .shdCtxStatus c => let x := (s.ctx c).cov; pack16 x.catches x.chased x.unchased x.exposures
  | .shdPairSel => pack [(0, 5, s.shd.selCtx.toNat), (5, 10, s.shd.selLog.toNat), (15, 3, s.shd.selCls.toNat)]
  | .shdPairInfo => s.pairInfo
  | .shdPairLast => s.pairLast
  | .fstStatus => readFst s
  | .fstCounts => pack16 s.fst.cFaults s.fst.uFaults s.fst.fFaults s.fst.escal
  | .fstHistoryCfg => pack [(0, 14, s.fst.window.toNat), (14, 4, s.fst.threshold.toNat), (18, 1, b2n s.fst.cfgRefused)]
  | .fstOptime => s.time.opsec.setWidth 64
  | .fstCfg => s.fst.ceStorm.setWidth 64
  | .fstCapInfo k => readCapInfo (s.fst.slots.at k)
  | .fstCapAddr k => (s.fst.slots.at k).addr
  | .fstCapTick k => (s.fst.slots.at k).tick
  | .fstCapRepeat k => pack [(0, 24, (s.fst.slots.at k).reps.toNat), (32, 16, (s.fst.slots.at k).overflow.toNat)]
  | .fstUnitSel => s.fst.unitSel.setWidth 64
  | .fstUnitInfo => readUnitInfo s
  | .fstUnitLast => readUnitLast s
  | .fstRowFailed r => pack [(0, 5, onesIn (s.fst.failed.at r)), (5, 26, (s.fst.failed.at r).toNat)]
  | .wceSliceStatus n => let x := s.wce.slices.at n; pack [(0, 5, x.row.toNat), (5, 3, x.state.code), (8, 5, x.heldBy.toNat)]
  | .wceSliceCtrl n => pack [(8, 1, b2n (s.wce.slices.at n).refused)]
  | .wceSliceCounts n => let x := s.wce.slices.at n; pack16 x.alone x.groups x.catches x.handovers
  | .wceSliceSelftest n => let x := s.wce.slices.at n; pack [(0, 2, x.result.toNat), (8, 8, x.runs.toNat), (16, 48, x.endTick.toNat)]
  | .wcePortStatus a => readPort s a
  | .wcePortCounts a => let p := s.wce.ports.at a; pack16 p.alone p.combined p.overruns p.resets
  | .wcePortCtrl _ => 0
  | .wceCfg => s.wce.interval.setWidth 64
  | .wceCtxInexact c => (s.ctx c).cov.voids
  | .wceCtxCombined c => (s.ctx c).cov.combined
  | .wceCtxCatches c => let x := (s.ctx c).cov; pack16 x.residue x.inexact x.descr x.operand
  | .mgtuStatus g => let m := s.mgtu.at g; pack [(0, 1, b2n m.ready), (1, 1, b2n m.tagOk), (2, 5, m.visits.length)]
  | .mgtuCounts g => let m := s.mgtu.at g; pack16 m.readMis m.writeMis m.ecc m.region
  | .mgtuLastEvent g => readLastEvent (s.mgtu.at g)
  | .mgtuProbe g => let m := s.mgtu.at g; pack [(0, 25, m.probe.toNat), (26, 1, b2n m.done), (27, 1, b2n m.notServed)]
  | .mgtuProbeTag g => (s.mgtu.at g).probeTag
  | .lgtuStatus l => readLink (s.lgtu.at l)
  | .gtuCfg => s.retryLimit.setWidth 64
  | .ctxTagStatus c =>
    let x := s.ctx c
    pack [(0, 16, x.plan.keyCheck.toNat), (16, 1, b2n x.plan.loaded), (32, 16, x.tag.untagged.toNat), (48, 16, x.tag.consumed.toNat)]
  | .spnTick => s.time.tick
  | .spnCfg => readSpnCfg s.spn
  | .spnSyncStatus =>
    pack [(0, 1, b2n s.spn.synced), (1, 1, b2n s.syncOnAlt), (16, 16, (sat16 s.spn.offset).toNat), (32, 16, s.spn.steps.toNat), (48, 16, s.spn.retries.toNat)]
  | .spnLinkCtrl => pack [(0, 5, s.spn.linkSel.toNat), (6, 1, b2n s.spn.refused)]
  | .ctxPosition c => pack [(0, 32, (s.ctx c).pos.offset.toNat), (32, 32, ((s.ctx c).pos.start >>> 16).toNat)]
  | .ctxBarrier c => readBarrier (s.ctx c)
  | .ctxChatter c => readCount (s.ctx c).bar.chatter
  | .ctxLinkRetry c => readCount (s.ctx c).bar.retry
  | .lscCfg => s.spn.digestMs.setWidth 64
  | .lscCtxStatus c => readLsc s c
  | .lscHunt c => let x := (s.ctx c).lsc; pack [(0, 32, x.index.toNat), (32, 10, x.logical.toNat), (42, 3, x.outcome.toNat), (45, 1, b2n x.valid)]
  | .prvStatus => pack (((List.finRange 8).map (fun k => (k.val, 1, b2n (s.prv.cores.at k).isSome))) ++ [(8, 8, s.prv.spans.length)])
  | .prvCtxStatus c => readPrvCtx (s.ctx c).prv
  | .prvCtxAck c => pack [(0, 32, (s.ctx c).prv.ackSeq.toNat), (32, 1, b2n (s.ctx c).prv.refused)]
  | .prvCtxRing c => match (s.planOf c).bind (fun p => p.extra.ring) with
    | some (base, n) => pack [(0, 48, base / 256), (48, 16, n)]
    | none => 0
  | .prvPending => s.irq.prv.setWidth 64
  | .prvReadSel => pack [(0, 5, s.prv.selCtx.toNat), (5, 32, s.prv.selSeq.toNat), (38, 1, b2n s.prv.done), (39, 1, b2n s.prv.absent)]
  | .prvReadData k => byteReg s.prv.data k.val
  | .thmCfg => pack [(0, 8, s.thm.throttle.toNat), (8, 8, s.thm.crit.toNat), (16, 8, s.thm.trip.toNat), (24, 1, b2n s.thm.refused)]
  | .thmStatus => readThm s
  | .thmSensorSel => s.thm.sel.setWidth 64
  | .thmSensorInfo => readSensor s
  | .thmCounts => pack [(0, 32, s.thm.throttledNs / 1000000), (32, 16, s.thm.stretches.toNat), (48, 16, s.thm.fails.toNat)]
  | .recStatus => readRec s
  | .recCounts => pack [(0, 32, s.rcd.lost.toNat), (32, 12, s.rcd.progFails.toNat), (44, 19, s.rcd.flash.perm.length)]
  | .recCfg => pack [(0, 14, s.rcd.mergeMs.toNat), (16, 12, s.rcd.queueIrq.toNat)]
  | .recWall => pack [(0, 40, s.time.wall.toNat), (40, 1, b2n s.time.wallSet)]
  | .recRing => readRing s.rcd.flash
  | .recReadSel => readRecSel s.rcd.read
  | .recReadData k => byteReg s.rcd.read.data k.val
  | .recDumpAddr => s.rcd.read.addr.setWidth 64
  | .recDumpFirst => s.rcd.read.first.setWidth 64
  | .recDumpCtrl => readDump s.rcd.read
  | .recExport => readExport s
  | .mbxReq m k => (s.fwp.mbox.at m).req.get k
  | .mbxRsp m k => (s.fwp.mbox.at m).rsp.get k
  | .mbxCtrl m => readMbx (s.fwp.mbox.at m)
  | .mbxPending => s.irq.mbx.setWidth 64
  | .fwpLoadAddr => pack [(0, 48, s.fwp.addr.toNat), (48, 16, s.fwp.lenKib.toNat)]
  | .fwpLoadCtrl => readLoad s.fwp
  | .fwpChanStatus h => readChan h (s.fwp.chans.at h)
  | .fwpStatus p => readProc (s.proc p) s.time.opsec
  | .fwpVersion p => readVersion (s.proc p)
  | .fwpCtrl p => pack [(8, 1, b2n (s.proc p).refused)]
  | .fwpWdt p => pack [(0, 10, (s.proc p).period.toNat), (32, 16, (s.proc p).expiries.toNat)]
  | .fwpLogHead p => pack [(0, 32, (s.proc p).written.toNat), (32, 12, (s.proc p).written.toNat % 4096)]
  | .fwpTraceEn p k => (s.proc p).trace.at k
  | .fwpLogData p i => byteReg ((s.proc p).logAt (i / 2)) (i % 2)
  | .plnCaps => 0x20100001
  | .plnStatus => pack [(0, 1, b2n s.pln.validating.isSome), (1, 5, (s.pln.validating.map (·.val)).getD 0), (6, 6, s.pln.queue.length)]
  | .plnResSel => pack [(0, 4, s.pln.selCls.toNat), (4, 16, s.pln.selIdx.toNat)]
  | .plnResClaimed => readClaimed s
  | .plnCtxImage c => pack [(0, 48, (s.ctx c).plan.addr.toNat), (48, 16, (s.ctx c).plan.lenKib.toNat)]
  | .plnCtxCtrl c => pack [(8, 1, b2n (s.ctx c).plan.refused)]
  | .plnCtxStatus c => let x := (s.ctx c).plan; pack [(0, 3, x.phase.code), (8, 8, x.minor.toNat), (32, 32, x.applied.toNat)]
  | .plnCtxResult c => readResult (s.ctx c).plan
  | .plnCtxImageHash c k => byteReg (s.ctx c).plan.hash k.val
  | .scrCfg => s.scr.minutes.setWidth 64
  | .scrStatus => readScr s
  | .scrLastResult => readScrResult s.scr
  | .scrLastCycles => pack [(0, 32, s.scr.cycles.toNat), (32, 32, s.scr.expected.toNat)]
  | .scrLastMisr k => (s.scr.misr >>> (64 * k.val)).setWidth 64
  | .scrCtrl => pack [(8, 1, b2n s.scr.refused)]
  | .scrUnitSel => s.scr.sel.setWidth 64
  | .scrUnitInfo => readScrUnit s
  | .scrShutdownFlags => s.scr.flags
  | .pwrStatus => readPwr s
  | .pwrCtrl => pack [(0, 3, s.pwr.target.toNat), (8, 1, b2n s.pwr.refused)]
  | .pwrReset => readReset s.pwr
  | .pwrPartMap k => readPart s k.val

/-! ## What a write does (R15 to R17, R491) -/

/-- VX_IRQ_STATUS (R16, R71): named bits are cleared; `setNow` are the bits the hardware sets in the same cycle, which end set. A message
goes for each of them that becomes set or is named. -/
def irqClear (mask setNow : BitVec 8) (s : State) : State :=
  { s with irq := { s.irq with status := (s.irq.status &&& ~~~mask) ||| setNow }
           out := s.out ++ msixFor (setNow &&& s.irq.enable &&& (mask ||| ~~~s.irq.status)) }

/-- VX_IRQ_ENABLE (R71): the enables are stored; a message goes for each written to 1 while its bit is set. -/
def irqEnableSet (v : BitVec 8) (s : State) : State :=
  { s with irq := { s.irq with enable := v }, out := s.out ++ msixFor (v &&& s.irq.status) }

/-- VX_XING_TIMEOUT (R92): clearing VALID sets COUNT to 0; the capture is no longer updated. -/
def xingClear (s : State) : State :=
  { s with xing := { s.xing with valid := false, count := 0, waits := s.xing.waits.map (fun w => { w with captured := false }) } }

/-- A write to VX_WCE_SLICE_CTRL (R190, R491). -/
def sliceCtrl (src : Src) (n : Slice) (v : Reg) (s : State) : State :=
  if manyCommands v [0, 1, 2, 3] then sliceRefuse s src n
  else if flag v 0 then sliceResetCmd src n s
  else if flag v 1 then takeoverCmd src n s
  else if flag v 2 then releaseCmd src n s
  else if flag v 3 then selftestCmd src n s
  else s

/-- At least 1, at most `hi`. -/
def clampTo (hi n : Nat) : Nat := max 1 (min hi n)

/-- VX_FWP_WDT: PERIOD_MS, held to 1 to 1,000. -/
def wdtWrite (p : Proc) (v : Reg) (s : State) : State :=
  s.onProc p (fun x => { x with period := BitVec.ofNat 10 (clampTo 1000 (field v 0 10 : BitVec 10).toNat) })

/-- RESTART in VX_FWP_CTRL through the window: the program counter it is met at is an open value (log 8). -/
def fwpCtrl (src : Src) (p : Proc) (v : Reg) (s : State) : State :=
  if flag v 0 then let (w, s) := s.fresh; procRestartCmd src p (w.setWidth 32) s else s

/-- What a write to a register does, field by field as its access codes say (R15); read-only registers ignore it. -/
def writeReg (src : Src) (v : Reg) (s : State) : RegAt → State
  | .xingTimeout => if flag v 0 then xingClear s else s
  | .irqStatus => irqClear (v.setWidth 8) 0 s
  | .irqEnable => irqEnableSet (v.setWidth 8) s
  | .ctxPassCtrl c => passCtrl src c v s
  | .passPending => { s with irq := { s.irq with pass := s.irq.pass &&& ~~~(v.setWidth 32) } }
  | .shdPairSel => pairSel v s
  | .fstHistoryCfg => historyCfg src v s
  | .fstCfg => s.onFst (fun f => { f with ceStorm := if (v.setWidth 16 : BitVec 16) = 0 then 1 else v.setWidth 16 })
  | .fstCapInfo k => if flag v 48 then slotAck src k s else s
  | .fstUnitSel => unitSel v s
  | .wceSliceCtrl n => sliceCtrl src n v s
  | .wcePortCtrl a => if flag v 0 then portResetCmd src a s else s
  | .wceCfg => s.onWce (fun w => { w with interval := if 3600 < (v.setWidth 12).toNat then 3600 else v.setWidth 12 })
  | .mgtuLastEvent g => if flag v 47 then s.onMgtu g (fun m => { m with evValid := false }) else s
  | .mgtuProbe g => probeCmd g v s
  | .gtuCfg => { s with retryLimit := if (v.setWidth 4 : BitVec 4) = 0 then 1 else v.setWidth 4 }
  | .spnCfg => spnCfg src v s
  | .spnLinkCtrl => linkCtrl src v s
  | .lscCfg => lscCfg v s
  | .lscHunt c => if flag v 45 then s.onLsc c (fun l => { l with valid := false }) else s
  | .prvCtxAck c => ctxAck src c v s
  | .prvPending => { s with irq := { s.irq with prv := s.irq.prv &&& ~~~(v.setWidth 32) } }
  | .prvReadSel => prvReadSel v s
  | .thmCfg => thermalConfig src v s
  | .thmSensorSel => sensorSel v s
  | .recCfg => recCfgWrite v s
  | .recWall => wallWrite src v s
  | .recReadSel => recReadSel v s
  | .recDumpAddr => s.onRec (fun r => { r with read := { r.read with addr := (v.setWidth 48) &&& ~~~0xFF#48 } })
  | .recDumpFirst => s.onRec (fun r => { r with read := { r.read with first := v.setWidth 32 } })
  | .recDumpCtrl => recDumpCtrl src v s
  | .mbxReq m k => s.onMbox m (fun x => { x with req := x.req.set k v })
  | .mbxCtrl m => if flag v 0 then mbxRing src m s else s
  | .mbxPending => { s with irq := { s.irq with mbx := s.irq.mbx &&& ~~~(v.setWidth 12) } }
  | .fwpLoadAddr => s.onFwp (fun w => { w with addr := (v.setWidth 48) &&& ~~~0xFF#48, lenKib := field v 48 16 })
  | .fwpLoadCtrl => fwpLoadCtrl src v s
  | .fwpCtrl p => fwpCtrl src p v s
  | .fwpWdt p => wdtWrite p v s
  | .fwpTraceEn p k => s.onProc p (fun x => { x with trace := x.trace.upd k (fun _ => v) })
  | .plnResSel => s.onPln (fun x => { x with selCls := field v 0 4, selIdx := field v 4 16 })
  | .plnCtxImage c => s.onPlan c (fun p => { p with addr := (v.setWidth 48) &&& ~~~7#48, lenKib := field v 48 16 })
  | .plnCtxCtrl c => planCtrl src c v s
  | .plnCtxResult c => if flag v 60 then s.onPlan c (fun p => { p with valid := false }) else s
  | .scrCfg => scrCfg v s
  | .scrCtrl => scrCtrl src v s
  | .scrUnitSel => scrUnitSel v s
  | .pwrCtrl => pwrCtrl src v s
  | .pwrReset => pwrReset src v s
  | .id | .ctxIntegrity _ | .boundaryStatus | .xingTimeoutAddr | .ctxPass _ | .ctxCommit _ | .ctxPassCounts _ | .ctxStopCause _
  | .ctxRetention _ | .shdRowStatus _ | .shdCtxStatus _ | .shdPairInfo | .shdPairLast | .fstStatus | .fstCounts | .fstOptime | .fstCapAddr _
  | .fstCapTick _ | .fstCapRepeat _ | .fstUnitInfo | .fstUnitLast | .fstRowFailed _ | .wceSliceStatus _ | .wceSliceCounts _
  | .wceSliceSelftest _ | .wcePortStatus _ | .wcePortCounts _ | .wceCtxInexact _ | .wceCtxCombined _ | .wceCtxCatches _ | .mgtuStatus _
  | .mgtuCounts _ | .mgtuProbeTag _ | .lgtuStatus _ | .ctxTagStatus _ | .spnTick | .spnSyncStatus | .ctxPosition _ | .ctxBarrier _
  | .ctxChatter _ | .ctxLinkRetry _ | .lscCtxStatus _ | .prvStatus | .prvCtxStatus _ | .prvCtxRing _ | .prvReadData _ | .thmStatus
  | .thmSensorInfo | .thmCounts | .recStatus | .recCounts | .recRing | .recReadData _ | .recExport | .mbxRsp .. | .fwpChanStatus _
  | .fwpStatus _ | .fwpVersion _ | .fwpLogHead _ | .fwpLogData .. | .plnCaps | .plnStatus | .plnResClaimed | .plnCtxStatus _
  | .plnCtxImageHash .. | .scrStatus | .scrLastResult | .scrLastCycles | .scrLastMisr _ | .scrUnitInfo | .scrShutdownFlags | .pwrStatus
  | .pwrPartMap _ => s

/-! ## Accesses (R12, R13, R75) -/

/-- What an access to a mapped offset does: the state after it and the data it returns. -/
def carryAccess (s : State) (src : Src) (off : Nat) (acc : Access) : State × Reg :=
  match regAt off, acc with
  | some r, .read => (s, readReg s r)
  | some r, .write v => (writeReg src v s r, 0)
  | none, _ => (s, 0)

/-- An access: refused early in bring-up (R460), of a wrong width or alignment (R12), to no register (R13), waiting at a stopped crossing
(R91), or carried out. -/
def access (s : State) (src : Src) (off width : Nat) (acc : Access) : State :=
  if s.early ∧ !(alwaysAnswer.contains off) then accessEarly s src off acc
  else if width ≠ 8 ∨ off % 8 ≠ 0 then accessError s 0x0002 src off acc
  else match s.gate off with
    | .carry => let (t, d) := carryAccess s src off acc; t.complete src off false 0 d
    | .early => accessEarly s src off acc
    | .unmapped => accessError s 0x0003 src off acc
    | .wait d r => accessWait s src off acc d r

/-- REGISTER_WRITE: a write, or a read (log 9), through the window. -/
def execRegisterWrite (src : Src) (off width : Nat) (acc : Access) (s : State) : Res := .next (access s src off width acc)

/-- XING_TIMEOUT_CLEAR. -/
def execXingTimeoutClear (src : Src) (s : State) : Res := .next (gatedWrite s src 0x000208 1 xingClear)

/-- IRQ_STATUS_CLEAR. -/
def execIrqStatusClear (src : Src) (mask : Reg) (setNow : BitVec 8) (s : State) : Res :=
  .next (gatedWrite s src 0x000220 mask (irqClear (mask.setWidth 8) setNow))

/-- IRQ_ENABLE_WRITE. -/
def execIrqEnableWrite (src : Src) (v : Reg) (s : State) : Res := .next (gatedWrite s src 0x000228 v (irqEnableSet (v.setWidth 8)))

/-! ## Stopped crossings (R91, R92) -/

/-- A write, as VX_XING_TIMEOUT.WRITE gives it. -/
def isWrite : Access → Bool
  | .write _ => true
  | .read => false

/-- The capture of a timeout: the first one fills it, later ones count (R92). -/
def Xing.capture (x : Xing) (w : XingWait) : Xing :=
  let count := satBits 16 (x.count.toNat + 1)
  if x.valid then { x with count }
  else { x with valid := true, write := isWrite w.acc, mgt := w.src = .mgt, outcome := if isWrite w.acc then 3 else 0, domain := w.domain
                addr := BitVec.ofNat 26 w.off, count }

/-- REG_TIMEOUT: the oldest access still waiting completes with an error after 32 µs; it is captured, and BOUNDARY is set. -/
def execRegTimeout (s : State) : Res :=
  match s.xing.waits.findIdx? (fun w => !w.timedOut) with
  | none => .next s
  | some i => match s.xing.waits[i]? with
    | none => .next s
    | some w =>
      let mark : XingWait := { w with timedOut := true, captured := !s.xing.valid }
      let s := { s with xing := ({ s.xing with waits := s.xing.waits.set i mark } : Xing).capture w }
      .next ((accessError s 0x0001 w.src w.off w.acc).irqSet irqBoundary)

/-- The outcome of the captured access becomes known. -/
def captured (s : State) (w : XingWait) (outcome : BitVec 2) : State :=
  if w.captured then { s with xing := { s.xing with outcome } } else s

/-- The target takes a waiting access: carried out, or, if it timed out, discarded unless a write was accepted before the cancel. -/
def takeWait (accepted : Bool) (s : State) (w : XingWait) : State :=
  if w.timedOut then
    if !isWrite w.acc then s
    else if accepted then captured (carryAccess s w.src w.off w.acc).1 w 2
    else captured s w 1
  else let (t, d) := carryAccess s w.src w.off w.acc; t.complete w.src w.off false 0 d

/-- The targets take what they may of the waiting accesses, in order of arrival. -/
def takeWaits (s : State) (accepted : Bool) (taken : XingWait → Bool) : State :=
  let r := splitWaits taken s.xing.waits []
  ({ s with xing := { s.xing with waits := r.2 } } : State).each r.1 (takeWait accepted)

/-- CROSSING_CLOCK_RESTART: the accesses waiting for a domain, or for a row of it, whose clock runs again are taken in order. Of a
timed-out one the target finds the cancel at once; any other one to a slice in reset waits on (R188). -/
def execCrossingClockRestart (domain : BitVec 8) (row : Option Row) (accepted : Bool) (s : State) : Res :=
  .next (takeWaits s accepted (fun w => w.domain = domain && (row.isNone || w.row = row) && !s.clockStopped (w.domain, w.row) &&
    (w.timedOut || !s.waitsForSlice w)))

end Sys2Proof.Machine
end

