-- ==== Sys2Proof/Machine/Management.lean ====
section
/-! DEFINITION. The management port's requests as MC serves them (R73 to R75, R387): register accesses, MCTP control messages, the PLDM
numeric sensors; and what waited while MC was RESTARTING (R450). -/

namespace Sys2Proof.Machine

/-- The reading of a PLDM numeric sensor: the hottest LIVE reading, unavailable with none (R387); package power and Veraux power are
measured by the T9's supplies (open values, log 8). -/
def numericReading (s : State) (k : Fin 3) : Option (BitVec 32) × State :=
  if k = 0 then (s.hottest.map (fun h => tempParam h.2), s)
  else let (w, s) := s.fresh; (some (w.setWidth 32), s)

/-- A request carried out. The payload of a control response is DSP0236's own, which the spec does not write out (open value, log 8). -/
def mctpRequest (r : MctpRequest) (s : State) : State :=
  match r with
  | .access off width acc => access s .mgt off width acc
  | .control command => let (w, s) := s.fresh; s.sendMctp (.control command w)
  | .numericSensor k => let (v, s) := numericReading s k; s.sendMctp (.numericSensor k v)

/-- MCTP_REGISTER_ACCESS. -/
def execMctpRegisterAccess (off width : Nat) (op : MctpOp) (s : State) : Res :=
  .next (s.mgtServe (.request (op.request off width)) (mctpRequest (op.request off width)))

/-- A request that has waited is served. -/
def serveWaiting (s : State) : MgtWait → State
  | .request r => mctpRequest r s
  | .tripRelease => tripRelease s
  | .tripStatus => tripStatus s
  | .recRead region first count => recRead region first count s
  | .cperGet => cperGet s
  | .cperAck seq => cperAck seq s
  | .cperResend => cperResend s

/-- Every request that waited for MC is served, in order of arrival (R14, R74, R450). -/
def serveMgt (s : State) : State := ({ s with mgt := [] } : State).each s.mgt serveWaiting

/-- SLICE_RESET_END (R188): the slice goes on, and the accesses that waited for its reset are carried out in their order. -/
def execSliceResetEnd (n : Slice) (s : State) : Res :=
  if (s.wce.slices.at n).state ≠ .reset then .next s
  else
    let s := afterReset s n
    let d := (RegAt.wceSliceStatus n).domain
    .next (takeWaits s false (fun w => (w.domain, w.row) = d && !s.clockStopped d && !w.timedOut && !s.waitsForSlice w))

/-- LATCH_RELEASE (R449, R450), after what the firmware did on its way there; a store of it to its code part begins the restart anew. -/
def execLatchRelease (p : Proc) (s : State) (acts : List FwAct := []) : Res :=
  if (s.proc p).state ≠ .restarting ∨ !s.clocked p then .next s
  else
    let t := fwActs s p acts
    if (t.proc p).state ≠ .restarting ∨ (t.proc p).restarts ≠ (s.proc p).restarts then .next t
    else .next (if p = mc then serveMgt (latchRelease t p) else latchRelease t p)

end Sys2Proof.Machine
end

