-- ==== Sys2Proof/Machine/Dispatch.lean ====
section
/-! DEFINITION. One arm for each command of the table, each a direct call of its meaning. -/

namespace Sys2Proof.Machine

/-- The effect of a command on everything but the queue of waiting commands. -/
def exec (i : Instr) (s : State) : Host.Outcome State Fault Refusal :=
  match i with
  | .registerWrite src off width acc => Sys2Proof.Machine.execRegisterWrite src off width acc s
  | .regTimeout => Sys2Proof.Machine.execRegTimeout s
  | .crossingClockRestart domain row accepted => Sys2Proof.Machine.execCrossingClockRestart domain row accepted s
  | .xingTimeoutClear src => Sys2Proof.Machine.execXingTimeoutClear src s
  | .irqStatusClear src mask setNow => Sys2Proof.Machine.execIrqStatusClear src mask setNow s
  | .irqEnableWrite src v => Sys2Proof.Machine.execIrqEnableWrite src v s
  | .aonPowerValid fuses pgMain pgMem pgIo crcBad => Sys2Proof.Machine.execAonPowerValid fuses pgMain pgMem pgIo s crcBad
  | .strapSample pins => Sys2Proof.Machine.execStrapSample pins s
  | .sentinelReady checks => Sys2Proof.Machine.execSentinelReady s checks
  | .refclkFallback => Sys2Proof.Machine.execRefclkFallback s
  | .refclkRestored => Sys2Proof.Machine.execRefclkRestored s
  | .powerLoss main mem io => Sys2Proof.Machine.execPowerLoss main mem io s
  | .powerGoodReturn main mem io => Sys2Proof.Machine.execPowerGoodReturn s main mem io
  | .thermalTrip n => Sys2Proof.Machine.execThermalTrip n s
  | .tripRelease => Sys2Proof.Machine.execTripRelease s
  | .tripStatus => Sys2Proof.Machine.execTripStatus s
  | .i3cDaa how => Sys2Proof.Machine.execI3cDaa how s
  | .mctpRegisterAccess off width op => Sys2Proof.Machine.execMctpRegisterAccess off width op s
  | .recRead region first count => Sys2Proof.Machine.execRecRead region first count s
  | .cperGet => Sys2Proof.Machine.execCperGet s
  | .cperAck seq => Sys2Proof.Machine.execCperAck seq s
  | .cperResend => Sys2Proof.Machine.execCperResend s
  | .jobRead g c addr noise ecc lineEcc consumer visitEnd adaptive ex => Sys2Proof.Machine.execJobRead g c addr noise ecc lineEcc consumer visitEnd s adaptive ex
  | .jobFullWrite g c addr data tag lineEcc visitEnd writer adaptive flight ex => Sys2Proof.Machine.execJobFullWrite g c addr data tag lineEcc visitEnd writer adaptive s flight ex
  | .jobPartialWrite g c addr words partialFp carried noise ecc lineEcc visitEnd writer adaptive flight slotEcc ex => Sys2Proof.Machine.execJobPartialWrite g c addr words partialFp carried noise ecc lineEcc visitEnd writer adaptive s flight slotEcc ex
  | .hostRead g c addr noise ecc lineEcc => Sys2Proof.Machine.execHostRead g c addr noise ecc lineEcc s
  | .hostFullWrite g c addr data ep lineEcc => Sys2Proof.Machine.execHostFullWrite g c addr data ep lineEcc s
  | .hostPartialWrite g c addr words ep noise ecc lineEcc => Sys2Proof.Machine.execHostPartialWrite g c addr words ep noise ecc lineEcc s
  | .mgtuProbe src g v => Sys2Proof.Machine.execMgtuProbe src g v s
  | .mgtuProbeRun g lineEcc => Sys2Proof.Machine.execMgtuProbeRun g lineEcc s
  | .copyback g c blank noise ecc lineEcc origEcc => Sys2Proof.Machine.execCopyback g c blank noise ecc lineEcc s origEcc
  | .fullHashRead g c tensor blank noise ecc lineEcc => Sys2Proof.Machine.execFullHashRead g c tensor blank noise ecc lineEcc s
  | .linkFrameSend l f srcCtx blank again ex => Sys2Proof.Machine.execLinkFrameSend l f srcCtx blank s again ex
  | .linkFrameReceive l f ex => Sys2Proof.Machine.execLinkFrameReceive l f s ex
  | .linkTrained l t retries lost => Sys2Proof.Machine.execLinkTrained l t retries s lost
  | .retrain src l => Sys2Proof.Machine.execRetrain src l s
  | .tileStart a d => Sys2Proof.Machine.execTileStart a d s
  | .tilePark a ops snoop => Sys2Proof.Machine.execTilePark a ops s snoop
  | .singleReadStart a seq => Sys2Proof.Machine.execSingleReadStart a seq s
  | .singleReadEnd a inexact acc => Sys2Proof.Machine.execSingleReadEnd a inexact acc s
  | .memberRead a inexact acc => Sys2Proof.Machine.execMemberRead a inexact acc s
  | .groupClose a => Sys2Proof.Machine.execGroupClose a s
  | .operandBlankComplete a c tileSeq blank tag words source => Sys2Proof.Machine.execOperandBlankComplete a c tileSeq blank tag words s source
  | .sliceTakeover src n => Sys2Proof.Machine.execSliceTakeover src n s
  | .sliceRelease src n => Sys2Proof.Machine.execSliceRelease src n s
  | .handoverComplete r => Sys2Proof.Machine.execHandoverComplete r s
  | .sliceReset src n => Sys2Proof.Machine.execSliceReset src n s
  | .sliceResetEnd n => Sys2Proof.Machine.execSliceResetEnd n s
  | .portReset src a => Sys2Proof.Machine.execPortReset src a s
  | .selftestNow src n => Sys2Proof.Machine.execSelftestNow src n s
  | .selftestTurnDue => Sys2Proof.Machine.execSelftestTurnDue s
  | .sliceSelftestEnd n failPos misr => Sys2Proof.Machine.execSliceSelftestEnd n failPos misr s
  | .shadowCompare c x => Sys2Proof.Machine.execShadowCompare c x s
  | .shadowMissing c logical cls shadow pass replay => Sys2Proof.Machine.execShadowMissing c logical cls shadow s pass replay
  | .voidTileOffer a c pass seq => Sys2Proof.Machine.execVoidTileOffer a c pass seq s
  | .chaseSlotFill c r => Sys2Proof.Machine.execChaseSlotFill c r s
  | .shdPairSelWrite src v => Sys2Proof.Machine.execShdPairSelWrite src v s
  | .pairInfoReady => Sys2Proof.Machine.execPairInfoReady s
  | .executionStart c => Sys2Proof.Machine.execExecutionStart c s
  | .endMarker c => Sys2Proof.Machine.execEndMarker c s
  | .poisonCollect c writes => Sys2Proof.Machine.execPoisonCollect c writes s
  | .commitInject c => Sys2Proof.Machine.execCommitInject c s
  | .commitUnitAbort c => Sys2Proof.Machine.execCommitUnitAbort c s
  | .parting target c => Sys2Proof.Machine.execParting target c s
  | .commit target c => Sys2Proof.Machine.execCommit target c s
  | .tileVerdict f => Sys2Proof.Machine.execTileVerdict f s
  | .targetQuiet target c => Sys2Proof.Machine.execTargetQuiet target c s
  | .abortDrainTimeout c => Sys2Proof.Machine.execAbortDrainTimeout c s
  | .replayStartSend c => Sys2Proof.Machine.execReplayStartSend c s
  | .replayStart c => Sys2Proof.Machine.execReplayStart c s
  | .readinessToken c pass => Sys2Proof.Machine.execReadinessToken c pass s
  | .commitHoldTimeout c => Sys2Proof.Machine.execCommitHoldTimeout c s
  | .substitutionIssue r => Sys2Proof.Machine.execSubstitutionIssue r s
  | .spareSubstituted r => Sys2Proof.Machine.execSpareSubstituted r s
  | .substitutionTimeout r => Sys2Proof.Machine.execSubstitutionTimeout r s
  | .hold src c => Sys2Proof.Machine.execHold src c s
  | .release src c => Sys2Proof.Machine.execRelease src c s
  | .stop src c => Sys2Proof.Machine.execStop src c s
  | .abortStop src c => Sys2Proof.Machine.execAbortStop src c s
  | .restart src c => Sys2Proof.Machine.execRestart src c s
  | .tickSyncSend => Sys2Proof.Machine.execTickSyncSend s
  | .tickSync l tick frac aheadBy retries => Sys2Proof.Machine.execTickSync l tick frac aheadBy retries s
  | .tickSyncReply l rxTick rxFrac txTick txFrac retries => Sys2Proof.Machine.execTickSyncReply l rxTick rxFrac txTick txFrac s retries
  | .tickUnsynced => Sys2Proof.Machine.execTickUnsynced s
  | .tickHighStore => Sys2Proof.Machine.execTickHighStore s
  | .commitNotice chip c pass retries => Sys2Proof.Machine.execCommitNotice chip c pass retries s
  | .noticeTimeout c => Sys2Proof.Machine.execNoticeTimeout c s
  | .barrierArrive c => Sys2Proof.Machine.execBarrierArrive c s
  | .arm group number check retries => Sys2Proof.Machine.execArm group number check retries s
  | .armed chip group number check unsynced retries => Sys2Proof.Machine.execArmed chip group number check unsynced retries s
  | .start group number at_ retries => Sys2Proof.Machine.execStart group number at_ retries s
  | .startAck chip group number retries => Sys2Proof.Machine.execStartAck chip group number retries s
  | .abandon group number cause retries => Sys2Proof.Machine.execAbandon group number cause retries s
  | .armTimeout c => Sys2Proof.Machine.execArmTimeout c s
  | .startAckDeadline c => Sys2Proof.Machine.execStartAckDeadline c s
  | .barrierFire c => Sys2Proof.Machine.execBarrierFire c s
  | .digest frame retries => Sys2Proof.Machine.execDigest frame retries s
  | .segment c digests retries => Sys2Proof.Machine.execSegment c digests retries s
  | .huntTags c fps retries => Sys2Proof.Machine.execHuntTags c fps retries s
  | .huntCompare c primaryFp refereeFp => Sys2Proof.Machine.execHuntCompare c primaryFp refereeFp s
  | .lockstepTimeout c => Sys2Proof.Machine.execLockstepTimeout c s
  | .pairStop c retries => Sys2Proof.Machine.execPairStop c retries s
  | .spnCfgWrite src v => Sys2Proof.Machine.execSpnCfgWrite src v s
  | .prvLeafDone core read => Sys2Proof.Machine.execPrvLeafDone core read s
  | .prvCtxAck src c v => Sys2Proof.Machine.execPrvCtxAck src c v s
  | .prvReadGo src v => Sys2Proof.Machine.execPrvReadGo src v s
  | .prvReadDone read => Sys2Proof.Machine.execPrvReadDone s read
  | .load src c => Sys2Proof.Machine.execLoad src c s
  | .cancel src c => Sys2Proof.Machine.execCancel src c s
  | .unload src c => Sys2Proof.Machine.execUnload src c s
  | .planUnloaded c => Sys2Proof.Machine.execPlanUnloaded c s
  | .planValidated image program work => Sys2Proof.Machine.execPlanValidated image program s work
  | .distributionDone c image => Sys2Proof.Machine.execDistributionDone c image s
  | .planDist target c section_ offset data => Sys2Proof.Machine.execPlanDist target c section_ s offset data
  | .planSwitch c => Sys2Proof.Machine.execPlanSwitch c s
  | .faultTaken => Sys2Proof.Machine.execFaultTaken s
  | .fstSlotAck src k => Sys2Proof.Machine.execFstSlotAck src k s
  | .historyEntry => Sys2Proof.Machine.execHistoryEntry s
  | .fstHistoryCfgWrite src v => Sys2Proof.Machine.execFstHistoryCfgWrite src v s
  | .optimeStore => Sys2Proof.Machine.execOptimeStore s
  | .arrayParity a code c => Sys2Proof.Machine.execArrayParity a code c s
  | .arraySequencer a code c => Sys2Proof.Machine.execArraySequencer a code c s
  | .memCeStorm g count addr => Sys2Proof.Machine.execMemCeStorm g count addr s
  | .pcieCorrectable bit => Sys2Proof.Machine.execPcieCorrectable bit s
  | .pcieUncorrectable bit => Sys2Proof.Machine.execPcieUncorrectable bit s
  | .fstUnitSelWrite src v => Sys2Proof.Machine.execFstUnitSelWrite src v s
  | .unitInfoReady => Sys2Proof.Machine.execUnitInfoReady s
  | .screenPatternStart unit slot => Sys2Proof.Machine.execScreenPatternStart unit slot s
  | .screenPatternEnd unit misr cycles => Sys2Proof.Machine.execScreenPatternEnd unit misr cycles s
  | .screenRotationLate unit => Sys2Proof.Machine.execScreenRotationLate unit s
  | .testNow src => Sys2Proof.Machine.execTestNow src s
  | .scrUnitSelWrite src v => Sys2Proof.Machine.execScrUnitSelWrite src v s
  | .scrUnitInfoReady => Sys2Proof.Machine.execScrUnitInfoReady s
  | .sensorSample n x => Sys2Proof.Machine.execSensorSample n x s
  | .throttleUpdate => Sys2Proof.Machine.execThrottleUpdate s
  | .clockStretch steps monitor => Sys2Proof.Machine.execClockStretch steps monitor s
  | .clockStretchEnd monitor => Sys2Proof.Machine.execClockStretchEnd s monitor
  | .marginViolationTimeout => Sys2Proof.Machine.execMarginViolationTimeout s
  | .compensationUpdate => Sys2Proof.Machine.execCompensationUpdate s
  | .thermalConfig src v => Sys2Proof.Machine.execThermalConfig src v s
  | .thmSensorSelWrite src v => Sys2Proof.Machine.execThmSensorSelWrite src v s
  | .sensorInfoReady => Sys2Proof.Machine.execSensorInfoReady s
  | .recordIntake => Sys2Proof.Machine.execRecordIntake s
  | .mergeWindowExpiry => Sys2Proof.Machine.execMergeWindowExpiry s
  | .recordAppend fail => Sys2Proof.Machine.execRecordAppend fail s
  | .recFlashLost eraseFailed => Sys2Proof.Machine.execRecFlashLost eraseFailed s
  | .flashRetry answers => Sys2Proof.Machine.execFlashRetry answers s
  | .recWallWrite src v => Sys2Proof.Machine.execRecWallWrite src v s
  | .recCfgWrite src v => Sys2Proof.Machine.execRecCfgWrite src v s
  | .recReadGo src v => Sys2Proof.Machine.execRecReadGo src v s
  | .recReadDone => Sys2Proof.Machine.execRecReadDone s
  | .recDumpGo src v => Sys2Proof.Machine.execRecDumpGo src v s
  | .recDumpDone => Sys2Proof.Machine.execRecDumpDone s
  | .fwpLoadGo src v => Sys2Proof.Machine.execFwpLoadGo src v s
  | .fwpLoadDone image => Sys2Proof.Machine.execFwpLoadDone image s
  | .mbxRing src p side => Sys2Proof.Machine.execMbxRing src p side s
  | .mbxTimeout p side => Sys2Proof.Machine.execMbxTimeout p side s
  | .hello p side acts => Sys2Proof.Machine.execHello p side s acts
  | .getStatus p side acts => Sys2Proof.Machine.execGetStatus p side s acts
  | .echo p side acts => Sys2Proof.Machine.execEcho p side s acts
  | .queueStatus p side acts => Sys2Proof.Machine.execQueueStatus p side s acts
  | .traceName p side acts => Sys2Proof.Machine.execTraceName p side s acts
  | .open_ p ch receiver priority => Sys2Proof.Machine.execOpen p ch receiver priority s
  | .send p ch e => Sys2Proof.Machine.execSend p ch e s
  | .waitSend p ch any => Sys2Proof.Machine.execWaitSend p ch any s
  | .recv p => Sys2Proof.Machine.execRecv p s
  | .waitRecv p => Sys2Proof.Machine.execWaitRecv p s
  | .close p ch => Sys2Proof.Machine.execClose p ch s
  | .queueCycle p => Sys2Proof.Machine.execQueueCycle p s
  | .watchdogExpiry p pc => Sys2Proof.Machine.execWatchdogExpiry p pc s
  | .fwpCtrlRestart src p pc => Sys2Proof.Machine.execFwpCtrlRestart src p pc s
  | .tcmError p codePart pc corrected => Sys2Proof.Machine.execTcmError p codePart pc s corrected
  | .latchRelease p acts => Sys2Proof.Machine.execLatchRelease p s acts
  | .fwpFailed p pc => Sys2Proof.Machine.execFwpFailed p pc s
  | .bringupStep x => Sys2Proof.Machine.execBringupStep x s
  | .powerStateGo src v => Sys2Proof.Machine.execPowerStateGo src v s
  | .shutdown src v => Sys2Proof.Machine.execShutdown src v s
  | .shutdownStopTimeout c => Sys2Proof.Machine.execShutdownStopTimeout c s
  | .shutdownSelftestStart => Sys2Proof.Machine.execShutdownSelftestStart s
  | .shutdownSelftestEnd items => Sys2Proof.Machine.execShutdownSelftestEnd items s
  | .resetGo src v => Sys2Proof.Machine.execResetGo src v s
  | .resetDrainTimeout items => Sys2Proof.Machine.execResetDrainTimeout items s
  | .resetEnd => Sys2Proof.Machine.execResetEnd s
  | .vddAonLoss => Sys2Proof.Machine.execVddAonLoss s
  | .i3cHdrEntry => Sys2Proof.Machine.execI3cHdrEntry s
  | .i3cHdrExit => Sys2Proof.Machine.execI3cHdrExit s
  | .recentRestartExpiry p => Sys2Proof.Machine.execRecentRestartExpiry p s

end Sys2Proof.Machine
end

