-- ==== Sys2Proof/Safety.lean ====
section
/-! DEFINITION. What the claims speak of: the canonical form of memory and tags, the rule of R95 on stored tags, what of the state only
named commands change, and what every next state of a command satisfies. -/

namespace Sys2Proof.Machine

/-- The canonical form of the stacks' bytes: addresses strictly rising, no entry that an unlisted byte reads as. -/
def Memory.wf (m : List Host.Cell) : Bool := alWf emptyByte m

/-- The canonical form of the stored tags. -/
def Tags.wf (t : List (Nat × BitVec 64)) : Bool := alWf emptyTag t

/-- A tag whose state is none of 0b101 to 0b111 (R93, R95). -/
def legalTag (t : BitVec 64) : Bool := decide ((tagState t).toNat ≤ 4)

/-- Memory and tags in canonical form, and no stored tag of a reserved state (R95). -/
def State.Sound (s : State) : Prop := Memory.wf s.mem = true ∧ Tags.wf s.tags = true ∧ ∀ e ∈ s.tags, legalTag e.2 = true

/-- What few commands change: the waiting commands, the fuses (R4), the tick (R254). -/
def State.still (s : State) : List Instr × Fuses × BitVec 64 := (s.pending, s.fuses, s.time.tick)

/-- What all but the memory commands and the commands that change the tick leave alone. -/
def State.kept (s : State) : (List Instr × Fuses × BitVec 64) × List Host.Cell × List (Nat × BitVec 64) := (s.still, s.mem, s.tags)

/-- From `s` to `t` no byte of memory changes outside one blank, and no stored tag but that of the blank. -/
def OnlyBlank (s t : State) (stack blank : Nat) : Prop :=
  (∀ st a, memKey st a < memKey stack (blank * 4096) ∨ memKey stack (blank * 4096) + 4096 ≤ memKey st a → t.byteAt st a = s.byteAt st a) ∧
  (∀ st b, tagKey st b ≠ tagKey stack blank → t.tagOf st b = s.tagOf st b)

/-- The tag line of an access is fetched, not held, and meets an uncorrectable error (R104, R106). -/
def State.lineLost (s : State) (g : Gtu) (blank : Nat) (lineEcc : Bool) : Bool :=
  lineEcc && !((s.mgtu.at g).visits.any (fun v => v.stave = blank / 8))

/-- The stored tags after a tag line has been fetched: a lost line leaves its eight blanks POISON_MEM with fingerprint 0 (R106, R115). -/
def afterLine (lost : Bool) (g : Gtu) (blank : Nat) (before : Nat → Nat → BitVec 64) (st b : Nat) : BitVec 64 :=
  if lost && (List.range 8).any (fun i => decide (tagKey st b = tagKey (stackOf g) (blank / 8 * 8 + i))) then mkTag tMem 0 else before st b

/-- The stored tags as an access to a blank finds them, its tag line fetched. -/
def State.fetchedTag (s : State) (g : Gtu) (blank : Nat) (lineEcc : Bool) : Nat → Nat → BitVec 64 :=
  afterLine (s.lineLost g blank lineEcc) g blank s.tagOf

/-- From `s` to `t` no byte of memory changes outside one blank; every stored tag but that of the blank is as the fetch of its tag line
leaves it, and a lost line is TAG_LINE_ECC. -/
def OnlyFetched (s t : State) (g : Gtu) (blank : Nat) (lineEcc : Bool) : Prop :=
  (∀ st a, memKey st a < memKey (stackOf g) (blank * 4096) ∨ memKey (stackOf g) (blank * 4096) + 4096 ≤ memKey st a → t.byteAt st a = s.byteAt st a) ∧
  (∀ st b, tagKey st b ≠ tagKey (stackOf g) blank → t.tagOf st b = s.fetchedTag g blank lineEcc st b) ∧
  (s.lineLost g blank lineEcc = true → ∃ e ∈ t.fst.faultQ, e.code = 0x4004 ∧ e.cls = .u ∧ e.unit = uMgtu g)

/-- The open span of a context, where there is one, lists a blank under none of the roles (R291). -/
def State.unlisted (s : State) (c : Ctx) (roles : List Nat) (g : Gtu) (blank : Nat) : Prop :=
  ∀ sp, (s.ctx c).prv.span = some sp → ∀ r ∈ roles, listedAt sp.plan sp.result r g blank = []

/-- Every next state of an answer has a property. -/
def AllNext (p : State → Prop) : Res → Prop
  | .next t => p t
  | .fault _ => True
  | .refused _ => True

/-- The stack-local byte address that a memory command names. -/
def memAddr : Instr → Option Nat
  | .jobRead _ _ a .. | .jobFullWrite _ _ a .. | .jobPartialWrite _ _ a .. => some a
  | .hostRead _ _ a .. | .hostFullWrite _ _ a .. | .hostPartialWrite _ _ a .. => some a
  | _ => none

/-- The commands that carry a register access or a request out, at once or after a wait (R14, R74): the access may restart a processor
(R449), and a failed partition controller lets a waiting commit be decided (R452). -/
def carriesAccesses : Instr → Bool
  | .registerWrite .. | .mctpRegisterAccess .. | .crossingClockRestart .. | .sliceResetEnd .. | .latchRelease .. => true
  | _ => false

/-- The commands that may decide a commit, and so close a span whose record is written (R224 to R226, R290, R307): the decision itself,
and the failure of a processor whose token the commit waits for (R451, R452). -/
def decidesCommits : Instr → Bool
  | .commitInject .. | .readinessToken .. | .commitHoldTimeout .. => true
  | .watchdogExpiry .. | .fwpCtrlRestart .. | .tcmError .. | .fwpFailed .. | .queueCycle .. | .resetEnd => true
  | c => carriesAccesses c

/-- The commands that store bytes in a stack: accesses that write (R109, R110, R113, R230), accesses that capture a tag into a bank
(R293, R294), a hash that ends a span's record (R299, R307), the hunt area (R286), the dump of the flash (R415), a commit. -/
def writesMemory : Instr → Bool
  | .jobFullWrite .. | .jobPartialWrite .. | .hostFullWrite .. | .hostPartialWrite .. | .copyback .. => true
  | .jobRead .. | .fullHashRead .. | .prvLeafDone .. | .poisonCollect .. | .recDumpDone => true
  | c => decidesCommits c

/-- The commands that store tags (R106, R115, R131, R133): those that store bytes, the reads of the host and of the engine itself (R297,
R315, R430, R495), the probe, the end of an abort (R129), and bring-up step 4. -/
def writesTags : Instr → Bool
  | .hostRead .. | .mgtuProbeRun .. | .bringupStep .. => true
  | .planValidated .. | .distributionDone .. | .prvReadDone .. | .fwpLoadDone .. => true
  | .targetQuiet .. | .abortDrainTimeout .. => true
  | c => writesMemory c

/-- The commands that set or step the tick (R254, R258, R276). -/
def movesTick : Instr → Bool
  | .aonPowerValid .. | .vddAonLoss | .tickSync .. | .tickSyncReply .. | .abandon .. | .barrierFire .. => true
  | _ => false

end Sys2Proof.Machine
end

