-- ==== Sys2Proof/Certificates/Slice0/Obligations.lean ====
section
/-! DEFINITION. The statements for the provers, chapter by chapter of the spec. A clause's hypotheses speak of the state and the
operands alone; its conclusion says that the command answers a next state and what that state holds. What a clause says of an open value
(a free value of log 8) it says for every value. `kept` names the waiting commands, the fuses, the tick, the bytes of memory and the
stored tags. -/

open Sys2Proof Sys2Proof.Machine

/-! ## Register accesses (chapters 00, 02) -/

/-- From R12, R13, R15, R484: an aligned 8-byte access to a register the part has, whose clock runs, is carried out and answered without an error: a write has the register's
effect, a read returns the register's value and changes nothing else; the same over the management port while it is up, whose response goes
with an in-band interrupt (R73, R75), sent before it (the model's choice: log 146).
R12: an access of another width or alignment completes with an error response (all ones for a read), raises the C fault 0x0002 from
the register fabric, and changes nothing else but the model's own counter of open values; that it does so at an offset without a register too, where R13 stands beside R12,
is the model's choice (log 165). -/
def Obligations.AlignedAccessesAreCarriedOutAndOthersRefused : Prop :=
  (∀ (s : State) (src : Src) (off : Nat) (r : RegAt) (v : Reg), s.early = false → off % 8 = 0 → regAt off = some r → r.present s = true →
    s.clockStopped r.domain = false → s.sliceInReset r = false → s.behindWait r.domain = false →
    exec (.registerWrite src off 8 (.write v)) s = .next ((writeReg src v s r).complete src off false 0 0) ∧
    exec (.registerWrite src off 8 .read) s = .next (s.complete src off false 0 (readReg s r)) ∧
    (s.mgtUp = true →
      exec (.mctpRegisterAccess off 8 (.access (.write v))) s =
        .next (let u := writeReg .mgt v s r; { u with out := u.out ++ [.inBand, .mctp (.access off false 0 0)] }) ∧
      exec (.mctpRegisterAccess off 8 (.access .read)) s = .next { s with out := s.out ++ [.inBand, .mctp (.access off false 0 (readReg s r))] })) ∧
  (∀ (s : State) (src : Src) (off width : Nat) (acc : Access), s.early = false → (width ≠ 8 ∨ off % 8 ≠ 0) →
    ∃ e : Ev, e.code = 0x0002 ∧ e.cls = .c ∧ e.unit = 0x7000 ∧
      exec (.registerWrite src off width acc) s = .next (({ s with free := s.free + 1, fst := { s.fst with faultQ := s.fst.faultQ ++ [e] } } : State).complete
        src off true 0x0002 (match acc with | .read => allOnes | .write _ => 0)))

/-- R13: an access to an offset that no register occupies completes with an error response (all ones for a read) and raises the C fault
0x0003 from the register fabric; nothing else changes but the model's own counter of open values. In the states of R460 that rule takes
its place. -/
def Obligations.UnmappedAccessIsRefused : Prop :=
  ∀ (s : State) (src : Src) (off : Nat) (acc : Access), s.early = false → off % 8 = 0 → regAt off = none →
    ∃ e : Ev, e.code = 0x0003 ∧ e.cls = .c ∧ e.unit = 0x7000 ∧
      exec (.registerWrite src off 8 acc) s = .next (({ s with free := s.free + 1, fst := { s.fst with faultQ := s.fst.faultQ ++ [e] } } : State).complete
        src off true 0x0003 (match acc with | .read => allOnes | .write _ => 0))

/-- From R460: in bring-up steps 1 and 2, and in VS3 and VS4, every access but to VX_ID, VX_BOUNDARY_STATUS, VX_PWR_STATUS and VX_PWR_CTRL
completes with an error response (all ones for a read), raises no fault, and is counted in EARLY_ERRORS (stopping at 0xFFFF); those four
answer. That an access of a wrong width or alignment is refused so too, before R12's own check, is the model's choice (log 43). -/
def Obligations.EarlyAccessIsCounted : Prop :=
  ∀ (s : State) (src : Src) (off width : Nat) (acc : Access), (s.pwr.step = 1 ∨ s.pwr.step = 2 ∨ s.pwr.vs = .vs3 ∨ s.pwr.vs = .vs4) →
    (off ≠ 0x000000 ∧ off ≠ 0x000200 ∧ off ≠ 0xE00000 ∧ off ≠ 0xE00008 →
      exec (.registerWrite src off width acc) s = .next (({ s with pwr := { s.pwr with
        early := BitVec.ofNat 16 (min (s.pwr.early.toNat + 1) 0xFFFF) } } : State).complete src off true 0 (match acc with | .read => allOnes | .write _ => 0))) ∧
    exec (.registerWrite src 0x000000 8 .read) s = .next (s.complete src 0x000000 false 0 (readReg s .id)) ∧
    exec (.registerWrite src 0x000200 8 .read) s = .next (s.complete src 0x000200 false 0 (readReg s .boundaryStatus)) ∧
    exec (.registerWrite src 0xE00000 8 .read) s = .next (s.complete src 0xE00000 false 0 (readReg s .pwrStatus)) ∧
    exec (.registerWrite src 0xE00008 8 .read) s = .next (s.complete src 0xE00008 false 0 (readReg s .pwrCtrl))

/-- From R71, R16: the messages of the interrupt vectors. A bit that becomes set while its enable is 1 sends vector n; an enable written to 1
while its bit is set sends it; a W1C write that names a bit the hardware sets in the same cycle leaves it set, and sends it where enabled;
nothing else sends. That writing an enable to 1 that is 1 already counts as written to 1 is the model's choice (log 42). -/
def Obligations.InterruptMessages : Prop :=
  (∀ (s : State) (mask : BitVec 8), s.irqSet mask = { s with
      irq := { s.irq with status := s.irq.status ||| mask }, out := s.out ++ msixFor (mask &&& ~~~s.irq.status &&& s.irq.enable) }) ∧
  (∀ (s : State) (src : Src) (v : Reg), s.gate 0x000228 = .carry →
    exec (.irqEnableWrite src v) s = .next (({ s with
      irq := { s.irq with enable := v.setWidth 8 }, out := s.out ++ msixFor (v.setWidth 8 &&& s.irq.status) } : State).complete src 0x000228 false 0 0)) ∧
  (∀ (s : State) (src : Src) (v : Reg) (now : BitVec 8), s.gate 0x000220 = .carry →
    exec (.irqStatusClear src v now) s = .next (({ s with
      irq := { s.irq with status := (s.irq.status &&& ~~~(v.setWidth 8)) ||| now }
      out := s.out ++ msixFor (now &&& s.irq.enable &&& (v.setWidth 8 ||| ~~~s.irq.status)) } : State).complete src 0x000220 false 0 0)) ∧
  (∀ m : BitVec 8, ∀ i : Fin 8, Out.msix i ∈ msixFor m ↔ m.getLsbD i.val = true)

/-- From R91, R92: the access that has waited 32 µs at a stopped crossing completes with an error (all ones for a read), the C fault REG_TIMEOUT
is raised from the register fabric, BOUNDARY is set, and the first timeout is captured, a later one counted. Clearing VALID clears
COUNT and leaves the rest of the capture.
R14: an access to a domain whose crossing an earlier access still waits at goes behind it, also where the clock runs by now.
R91: when the stopped clock of a domain runs again, an access that had not timed out is carried out and completes normally; one that had
timed out is discarded, unless it is a write the target accepted before the cancel, which is applied; the outcome of the captured one
becomes known. Model's choices: the oldest access times out first, and the fields a clear leaves (log 44); what holds an access back while the clock runs, also one that has timed out and may still be applied (log 125). -/
def Obligations.CrossingsTimeOutAndRestart : Prop :=
  (∀ (s : State) (w : XingWait) (rest : List XingWait), s.xing.waits = w :: rest → w.timedOut = false →
    ∃ t e, exec .regTimeout s = .next t ∧ t.fst.faultQ = s.fst.faultQ ++ [e] ∧ e.code = 0x0001 ∧ e.cls = .c ∧ e.unit = 0x7000 ∧
      t.irq.status = s.irq.status ||| 0x80 ∧ t.xing.valid = true ∧ t.xing.count = BitVec.ofNat 16 (min (s.xing.count.toNat + 1) 0xFFFF) ∧
      (s.xing.valid = false → t.xing.write = isWrite w.acc ∧ t.xing.mgt = decide (w.src = .mgt) ∧ t.xing.domain = w.domain ∧
        t.xing.addr = BitVec.ofNat 26 w.off ∧ t.xing.outcome = if isWrite w.acc then 3 else 0) ∧
      (s.xing.valid = true → t.xing.write = s.xing.write ∧ t.xing.domain = s.xing.domain ∧ t.xing.addr = s.xing.addr) ∧
      (w.src = .host → Out.access .host w.off true (errorData w.acc) ∈ t.out)) ∧
  (∀ (s : State) (src : Src), s.gate 0x000208 = .carry → exec (.xingTimeoutClear src) s = .next (({ s with
    xing := { s.xing with valid := false, count := 0, waits := s.xing.waits.map (fun w => { w with captured := false }) } } : State).complete
      src 0x000208 false 0 0)) ∧
  (∀ (s : State) (src : Src) (off : Nat) (acc : Access) (r : RegAt), s.early = false → off % 8 = 0 → regAt off = some r → r.present s = true →
    (s.clockStopped r.domain = true ∨ ∃ w ∈ s.xing.waits, w.timedOut = false ∧ (w.domain, w.row) = r.domain) →
    exec (.registerWrite src off 8 acc) s = .next { s with xing := { s.xing with
      waits := s.xing.waits ++ [{ src, off, acc, domain := r.domain.1, row := r.domain.2 }] } }) ∧
  (∀ (s : State) (w : XingWait) (accepted : Bool) (r : RegAt), s.xing.waits = [w] → regAt w.off = some r → s.sliceInReset r = false →
    s.clockStopped (w.domain, w.row) = false →
    (w.timedOut = false → ∀ v, w.acc = .write v → exec (.crossingClockRestart w.domain none accepted) s =
      .next ((writeReg w.src v { s with xing := { s.xing with waits := [] } } r).complete w.src w.off false 0 0)) ∧
    (w.timedOut = true → accepted = false → isWrite w.acc = true → w.captured = true → exec (.crossingClockRestart w.domain none accepted) s =
      .next { s with xing := { s.xing with waits := [], outcome := 1 } }) ∧
    (w.timedOut = true → accepted = true → w.captured = true → ∀ v, w.acc = .write v → exec (.crossingClockRestart w.domain none accepted) s =
      .next (let u := writeReg w.src v { s with xing := { s.xing with waits := [] } } r; { u with xing := { u.xing with outcome := 2 } })) ∧
    (w.timedOut = true → w.acc = .read → exec (.crossingClockRestart w.domain none accepted) s = .next { s with xing := { s.xing with waits := [] } }))

/-! ## The always-on domain and the management bus (chapters 02, 16) -/

/-- From R4, R254, R413, R411, R80: with VDD_AON not valid, AON_POWER_VALID latches the fuses and the power-good inputs, starts the tick at the
stored high-water mark plus one unit of it (0 on a blank flash: the model's choice, log 40) and the wall time at its stored item, and
keeps the flash, in which an item record whose CRC fails gives no value (R412), the memory and its tags (these two the model's choice, log 49); VDD_AON_LOSS keeps the flash and the fuses, and ends the trip, the straps and the time. -/
def Obligations.PowerUpAndPowerLossOfTheAlwaysOnDomain : Prop :=
  (∀ (s : State) (f : Fuses) (a b c : Bool) (crc : List (Nat × BitVec 32)), s.aon.valid = false → ∃ t, exec (.aonPowerValid f a b c crc) s = .next t ∧
    t.fuses = f ∧ t.aon = { valid := true, pgMain := a, pgMem := b, pgIo := c } ∧
    (∀ v, t.rcd.flash.item 1 = some v → t.time.tick = BitVec.ofNat 64 ((v.toNat + 1) * 2 ^ 30)) ∧
    (t.rcd.flash.item 1 = none → t.time.tick = 0) ∧ t.time.wall = ((t.rcd.flash.item 3).getD 0).setWidth 40 ∧ t.time.wallSet = false ∧
    (crc = [] → t.rcd.flash = s.rcd.flash) ∧ { t.rcd.flash with conf0 := s.rcd.flash.conf0, conf1 := s.rcd.flash.conf1 } = s.rcd.flash ∧
    (∀ x ∈ crc, ∀ r ∈ (if x.1 = 0 then t.rcd.flash.conf0 else t.rcd.flash.conf1), r.seq = x.2 → r.ok = false) ∧ t.mem = s.mem ∧ t.tags = s.tags ∧ t.pending = s.pending) ∧
  (∀ s : State, s.aon.valid = true → ∃ t, exec .vddAonLoss s = .next t ∧ t.aon = {} ∧ t.time = {} ∧ t.rcd = { flash := s.rcd.flash } ∧
    t.fuses = s.fuses ∧ t.mem = s.mem ∧ t.tags = s.tags ∧ t.pending = s.pending)

/-- From R81: the straps are sampled once while VDD_AON is valid, and a later change at the pins has no effect. R77, R458: when the Sentinel
functions start, VX_ALIVE toggles while the supervisor's check completes (in VS3 and VS4 it follows that check) and the flash is tried, and BOUNDARY is set where ALIVE_RUNNING changed; a trip that ended with VDD_AON is
recorded as released with source 3 (R80). R73: an HDR entry is ignored until the exit pattern; ENTDAA assigns the dynamic address,
SETDASA only from the static address of the straps; a bus that is down takes neither.
R79: when the reference clock leaves its range in VS3, VS4 or before the PLLs run, REFCLK_FALLBACK is a C fault from the clock qualifier
and REFCLK_OK reads 0, and nothing more happens; when it is qualified again REFCLK_OK reads 1. Otherwise it is a U fault, every context that
decides an execution has the abort cause of an ABORT_STOP and stops at its end, and once every context is STOPPED or has no plan the engine moves to VS4
with cause 5. Model's choices: whether the supervisor's own check completes comes with SENTINEL_READY (log 148); a fault that waits when the engine enters VS4 is recorded and not taken (log 24); what waits for SENTINEL_READY (log 149). -/
def Obligations.StrapsSentinelBusAndReferenceClock : Prop :=
  (∀ (s : State) (pins : BitVec 4), s.aon.valid = true → s.aon.sampled = false →
    exec (.strapSample pins) s = .next { s with aon := { s.aon with strap := pins, sampled := true } }) ∧
  (∀ (s : State) (pins : BitVec 4), s.aon.sampled = true → exec (.strapSample pins) s = .next s) ∧
  (∀ (s : State) (checks : Bool), s.aon.valid = true → s.aon.sentinel = false → ∃ t, exec (.sentinelReady checks) s = .next t ∧
    t.aon = { s.aon with sentinel := true, alive := checks, checks } ∧ t.rcd.flashOk = true ∧ t.pwr.tripLost = false ∧ t.kept = s.kept ∧ t.fst = s.fst ∧ t.ctxs = s.ctxs ∧
    t.irq.status = (if s.aon.alive = checks then s.irq.status else s.irq.status ||| 0x80) ∧
    (s.pwr.tripLost = false → t.rcd.intake = s.rcd.intake) ∧
    (s.pwr.tripLost = true → ∃ e, t.rcd.intake = s.rcd.intake ++ [e] ∧ e.code = 0x8008 ∧ e.p16 = 3)) ∧
  (∀ (s : State) (checks : Bool), s.aon.valid = true → s.aon.sentinel = true → ∃ t, exec (.sentinelReady checks) s = .next t ∧
    t.aon = { s.aon with checks, alive := if s.pwr.vs = .vs3 ∨ s.pwr.vs = .vs4 then checks else s.aon.alive } ∧
    t.irq.status = (if t.aon.alive = s.aon.alive then s.irq.status else s.irq.status ||| 0x80) ∧ t.ctxs = s.ctxs ∧ t.fst = s.fst ∧ t.rcd = s.rcd ∧ t.kept = s.kept) ∧
  (∀ s : State, s.aon.valid = true → exec .i3cHdrEntry s = .next { s with aon := { s.aon with hdr := true } }) ∧
  (∀ s : State, exec .i3cHdrExit s = .next { s with aon := { s.aon with hdr := false } }) ∧
  (∀ (s : State) (addr : BitVec 7), s.busUp = true → exec (.i3cDaa (.entdaa addr)) s = .next { s with aon := { s.aon with dynAddr := addr } }) ∧
  (∀ (s : State) (static addr : BitVec 7), s.busUp = true → exec (.i3cDaa (.setdasa static addr)) s =
    .next (if static.toNat = 0x30 + s.aon.strap.toNat % 4 then { s with aon := { s.aon with dynAddr := addr } } else s)) ∧
  (∀ (s : State) (how : Daa), s.busUp = false → exec (.i3cDaa how) s = .next s) ∧
  (∀ s : State, s.aon.valid = true → s.aon.refOk = true → (s.pwr.vs = .vs3 ∨ s.pwr.vs = .vs4 ∨ s.pwr.step.toNat ≤ 2) →
    ∃ t e, exec .refclkFallback s = .next t ∧ e.code = 0x0004 ∧ e.cls = .c ∧ e.unit = 0x7001 ∧
      t = { s with aon := { s.aon with refOk := false }, fst := { s.fst with faultQ := s.fst.faultQ ++ [e] }, free := s.free + 1
                   irq := { s.irq with status := s.irq.status ||| 0x80 }, out := s.out ++ msixFor (0x80 &&& ~~~s.irq.status &&& s.irq.enable) }) ∧
  (∀ s : State, s.aon.valid = true → s.aon.refOk = false → exec .refclkRestored s = .next { s with
    aon := { s.aon with refOk := true }, irq := { s.irq with status := s.irq.status ||| 0x80 }
    out := s.out ++ msixFor (0x80 &&& ~~~s.irq.status &&& s.irq.enable) }) ∧
  (∀ s : State, s.aon.valid = true → s.aon.refOk = true → s.pwr.vs.code ≤ 2 → 3 ≤ s.pwr.step.toNat → ∃ t e, exec .refclkFallback s = .next t ∧
    t.aon.refOk = false ∧ t.mem = s.mem ∧ t.tags = s.tags ∧ e.code = 0x0004 ∧ e.cls = .u ∧ e.unit = 0x7001 ∧
    ((∃ c, s.deciding c = true ∧ s.hasPlan c = true ∧ (s.ctx c).pass.st ≠ .stopped) → t.pwr.vs = s.pwr.vs ∧ e ∈ t.fst.faultQ ∧
      ∀ c, s.deciding c = true → s.hasPlan c = true → (s.ctx c).pass.st ≠ .stopped →
        (t.ctx c).exec.cause = some ((s.ctx c).exec.cause.getD { reason := 7, unit := s.commitUnit c }) ∧
        (t.ctx c).exec.stopAfter = some ((s.ctx c).exec.stopAfter.getD 0x0004)) ∧
    (s.allStopped = true → t.pwr.vs = .vs4 ∧ e ∈ t.rcd.intake ∧ ∃ r ∈ t.rcd.intake, r.code = 0xE006 ∧ r.p32 = 5))

/-- From R82: a falling power-good input takes the engine to VS4 at once, with every context in NO_PLAN, and POWER_LOSS names the inputs that fell;
memory and tags stay as they are. Before the Sentinel functions work only the levels follow the pins (R458). R477: when the inputs are high
again and no trip is held, bring-up starts with step 2; while one is low yet or a trip is held, or where no loss took the engine to VS4, only the levels follow.
Model's choices: memory and tags over a loss of power (log 49), one record for each command (log 48), the inputs before the Sentinel functions work (log 149), the return without the reference clock (log 167). -/
def Obligations.PowerGoodInputs : Prop :=
  (∀ (s : State) (a b c : Bool), s.aon.valid = true → s.aon.sentinel = true → (a || b || c) = true → ∃ t, exec (.powerLoss a b c) s = .next t ∧
    t.pwr.vs = .vs4 ∧ t.pwr.lossVs4 = true ∧ t.mem = s.mem ∧ t.tags = s.tags ∧ t.aon.pgMain = (s.aon.pgMain && !a) ∧
    t.aon.pgMem = (s.aon.pgMem && !b) ∧ t.aon.pgIo = (s.aon.pgIo && !c) ∧
    (s.pwr.vs ≠ .vs4 → ∀ k, (t.ctx k).pass.st = .noPlan) ∧
    (∃ e ∈ t.rcd.intake, e.code = 0xE007 ∧ e.p16 = BitVec.ofNat 16 (b2n a + 2 * b2n b + 4 * b2n c))) ∧
  (∀ (s : State) (a b c : Bool), s.aon.valid = true → s.aon.sentinel = false → (a || b || c) = true → ∃ t, exec (.powerLoss a b c) s = .next t ∧
    t.aon = { s.aon with pgMain := s.aon.pgMain && !a, pgMem := s.aon.pgMem && !b, pgIo := s.aon.pgIo && !c } ∧ t.pwr = s.pwr ∧
    t.rcd = s.rcd ∧ t.ctxs = s.ctxs ∧ t.kept = s.kept) ∧
  (∀ s : State, s.pwr.lossVs4 = true → s.pwr.vs = .vs4 → s.aon.valid = true → s.aon.trip = false → ∃ t, exec (.powerGoodReturn true true true) s = .next t ∧
    t.pwr.vs = .vs2 ∧ t.pwr.step = 2 ∧ t.aon.pgMain = true ∧ t.aon.pgMem = true ∧ t.aon.pgIo = true ∧ t.ctxs = s.ctxs ∧ t.kept = s.kept) ∧
  (∀ (s : State) (a b c : Bool), s.aon.valid = true → ((a && b && c) = false ∨ s.pwr.lossVs4 = false ∨ s.aon.trip = true) → ∃ t, exec (.powerGoodReturn a b c) s = .next t ∧
    t.aon = { s.aon with pgMain := s.aon.pgMain || a, pgMem := s.aon.pgMem || b, pgIo := s.aon.pgIo || c } ∧ t.pwr = s.pwr ∧ t.ctxs = s.ctxs ∧ t.kept = s.kept)

/-- From R80, R386: once the Sentinel functions work (R76, R458), a LIVE sensor at T_trip takes VX_TRIP_N low with no software involved, sets
THERMAL and BOUNDARY, and names the sensor; in VS3 and VS4 the trip is recorded only, in VS0 to VS2 it is a fault with a hard stop. The
request to release it is carried out while every live sensor's comparator shows less than 100 °C, and refused otherwise; the status
request returns the sensor and that judgement. Each answer goes with an in-band interrupt (R73). The comparator of another sensor, asserted while the pin is held, is recorded too (R395); one that stays asserted changes nothing.
Model's choices: the order of the in-band interrupt (log 146), a fault in VS3 and VS4 that is recorded and not taken (log 24), the comparators of sensors not yet read (log 99). -/
def Obligations.TripIsHeldUntilReleased : Prop :=
  (∀ (s : State) (n : Sensor), s.aon.sentinel = true → s.unitExists (uSensor n) = true → (s.thm.sensors.at n).state = .live →
    (s.aon.trip = false ∨ (s.thm.sensors.at n).tripped = false) →
    ∃ e u, e.code = 0x8007 ∧ e.cls = .f ∧ e.unit = uSensor n ∧ u.aon = { s.aon with trip := true, tripBy := if s.aon.trip then s.aon.tripBy else n.val } ∧
      u.irq.status = (if s.aon.trip then s.irq.status else s.irq.status ||| 0x80) ||| 0x08 ∧ u.mem = s.mem ∧ u.ctxs = s.ctxs ∧
      (u.thm.sensors.at n).hot = true ∧ (u.thm.sensors.at n).tripped = true ∧
      (∀ m, m ≠ n → u.thm.sensors.at m = s.thm.sensors.at m) ∧
      exec (.thermalTrip n) s = .next (if s.pwr.vs.code ≤ 2 ∧ s.early = false then tripFault u e else { u with rcd := { u.rcd with intake := u.rcd.intake ++ [e] } })) ∧
  (∀ (s : State) (n : Sensor), s.aon.trip = true → (s.thm.sensors.at n).tripped = true → exec (.thermalTrip n) s = .next s) ∧
  (∀ s : State, (s.mgtUp || s.responder) = true → s.aon.trip = true → s.allCool = true → ∃ t, exec .tripRelease s = .next t ∧
    t.aon = { s.aon with trip := false, tripBy := 0x3FF } ∧ Out.mctp (.tripRelease true) ∈ t.out ∧ t.ctxs = s.ctxs ∧ t.mem = s.mem) ∧
  (∀ s : State, (s.mgtUp || s.responder) = true → (s.aon.trip = false ∨ s.allCool = false) →
    exec .tripRelease s = .next { s with out := s.out ++ [.inBand, .mctp (.tripRelease false)] }) ∧
  (∀ s : State, (s.mgtUp || s.responder) = true → exec .tripStatus s = .next { s with out := s.out ++ [.inBand, .mctp (.tripStatus s.aon.tripBy s.allCool)] })

/-- From R416, R419, R412: what the management port reads and acknowledges. REC_READ answers with up to 4 slots, CPER_GET with the oldest
unacknowledged entry, CPER_RESEND sends each unacknowledged entry of class U, F or REPLACE again; CPER_ACK releases every entry up to its
number and keeps the number. R73, R387: a numeric sensor gives the hottest live reading, unavailable where there is none; every message goes
with an in-band interrupt. R74, R450: a request met while MC restarts waits for it. Model's choices: the order of the in-band interrupt (log 146), which requests stand behind MCTP_REGISTER_ACCESS (log 150). -/
def Obligations.ManagementPortRequests : Prop :=
  (∀ (s : State) (region : BitVec 2) (first : BitVec 32) (n : Nat), s.mgtUp = true → n ≤ 4 →
    exec (.recRead region first n) s = .next { s with out := s.out ++ [.inBand, .mctp (.recSlots (s.rcd.flash.slotsFrom region first n))] }) ∧
  (∀ s : State, s.mgtUp = true → exec .cperGet s = .next { s with out := s.out ++ [.inBand, .mctp (.cper s.rcd.cpers.head?)] }) ∧
  (∀ s : State, s.mgtUp = true → exec .cperResend s =
    .next { s with out := s.out ++ (s.rcd.cpers.filter (fun e => e.cls ≠ 0)).flatMap (fun e => [.inBand, .mctp (.cperNotify e)]) }) ∧
  (∀ (s : State) (q : BitVec 32), s.mgtUp = true → s.rcd.incomplete = false → ∃ t, exec (.cperAck q) s = .next t ∧ t.rcd.ackSeq = q ∧
    t.rcd.cpers = s.rcd.cpers.filter (fun e => decide (0 < (e.seq - q).toInt)) ∧ t.out = s.out ++ [.inBand, .mctp (.ack true)] ∧
    t.rcd.queue = s.rcd.queue ∧ t.ctxs = s.ctxs ∧ t.mem = s.mem) ∧
  (∀ (s : State) (off width : Nat), s.mgtUp = true → exec (.mctpRegisterAccess off width (.numericSensor 0)) s =
    .next { s with out := s.out ++ [.inBand, .mctp (.numericSensor 0 (s.hottest.map (fun h => tempParam h.2)))] }) ∧
  (∀ (s : State) (off width : Nat) (op : MctpOp), s.mgtUp = false → s.busUp = true → (s.proc mc).state = .restarting →
    exec (.mctpRegisterAccess off width op) s = .next { s with mgt := s.mgt ++ [.request (op.request off width)] })

/-! ## Memory and grain tags (chapter 03) -/

/-- R95: the engine never stores a tag of a state 0b101 to 0b111, whatever command or tick a step carries out; memory and tags keep their
canonical form (the model's own). A carried tag of such a state holds for no data, so that it is handled as a mismatch. -/
def Obligations.NoReservedTagStateIsEverStored : Prop :=
  (∀ s t : State, s.Sound → step s = .next t → t.Sound) ∧
  (∀ (rho : BitVec 61) (words : List (BitVec 32)) (tag : BitVec 64), 4 < (tagState tag).toNat → tagMatches rho words tag = false)

/-- The state after reset is sound: nothing is listed in memory or tags.
That unlisted bytes read 0 and unlisted tags are UNTAGGED is the model's choice (log 6, log 7), as are the values of state that is no register field (log 41). -/
def Obligations.ResetStateIsSound : Prop := State.reset.Sound ∧ State.reset.mem = [] ∧ State.reset.tags = []

/-- From R115, the read rows: the stored tag afterwards, the delivered tag and the event, for a keyed read without an ECC error, for one with an
ECC error, and for a read not keyed.
R103, R108, R115, R127: a job read of a stave of the job region that the port serves delivers the blank that serves the context, as the
memory gives it, with the tag of the read rows, and stores what the rows say; where the open span does not list the blank it changes no byte of memory and no
other tag. One listed in a single place of role 0 or 1 is captured: its tag goes to its slot of the bank (R293, R294). A tag line that is fetched with an uncorrectable error is first POISON_MEM
with fingerprint 0 for its eight blanks, whatever stood there (R106, R115; over R116 it is the model's reading, log 53). At a port that does not serve the
stave nothing changes. A host read delivers the data without a tag, with EP where the blank is poisoned (R113). Model's choices: the tag of a read not keyed (log 168), EP on the host read that finds the mismatch (log 56). -/
def Obligations.ReadsDeliverTheBlankUnderTheReadRows : Prop :=
  (∀ (stored : BitVec 64) (fp : BitVec 61), (tagState stored).toNat ≤ 4 →
    (∀ keyed, readRow keyed true stored fp = { stored := mkTag (if isPoison (tagState stored) then tagState stored else 1) (tagFp stored)
                                               delivered := mkTag (if isPoison (tagState stored) then tagState stored else 1) fp, event := some 0x4003 }) ∧
    readRow false false stored fp = { stored, delivered := stored, event := none } ∧
    (tagState stored = 4 → readRow true false stored fp = { stored, delivered := mkTag 4 fp, event := none }) ∧
    (tagState stored ≠ 4 → tagFp stored = fp → readRow true false stored fp = { stored, delivered := stored, event := none }) ∧
    (tagState stored ≠ 4 → tagFp stored ≠ fp → readRow true false stored fp =
      { stored := mkTag (if isPoison (tagState stored) then tagState stored else 1) (tagFp stored)
        delivered := mkTag (if isPoison (tagState stored) then tagState stored else 1) fp, event := some 0x4001 })) ∧
  (∀ (s : State) (g : Gtu) (c : Ctx) (addr : Nat) (n : Noise) (ecc le v ad : Bool) (a : Option Arr) (ex : Option ExecName), s.Sound → addr < jobRegionBlanks * 4096 →
    g.val < s.ports → serves g.val (addr / 4096 / 8) = true →
    let place := (s.mgtu.at g).readPlace c (addr / 4096)
    let stored := s.fetchedTag g place le (stackOf g) place
    ∃ t fp tag, exec (.jobRead g c addr n ecc le a v ad ex) s = .next t ∧
      (∀ rho, s.keyOf c = some rho → fp = fpOf rho (s.deliveredBlank (stackOf g) place n)) ∧
      tag = (readRow (s.keyOf c).isSome ecc stored fp).delivered ∧
      Out.jobData g c (s.deliveredBlank (stackOf g) place n) tag ∈ t.out ∧
      (∀ x, a = some x → Out.operandTag x c tag ∈ t.out) ∧
      (s.keyOf c = none ∨ s.unlisted c [0, 1] g (addr / 4096) → t.mem = s.mem ∧
        t.tagOf (stackOf g) place = (readRow (s.keyOf c).isSome ecc stored fp).stored ∧ OnlyFetched s t g place le) ∧
      (∀ sp r pos, (s.ctx c).prv.span = some sp → (s.keyOf c).isSome = true → r ≤ 1 → listedAt sp.plan sp.result r g (addr / 4096) = [pos] →
        listedAt sp.plan sp.result (1 - r) g (addr / 4096) = [] →
        let k : Capture := { role := r, pos, tag, pass := (s.ctx c).pass.index, replay := (s.ctx c).pass.replay }
        (takesCapture k sp.caps = true → t.mem = (s.engineWrite (sp.plan.bankAddr r sp.bank + 8 * pos) (tagBytes tag)).mem ∧
          (t.ctx c).prv.span = some { sp with caps := putCapture k sp.caps }) ∧
        (takesCapture k sp.caps = false → t.mem = s.mem ∧ (t.ctx c).prv.span = some sp))) ∧
  (∀ (s : State) (g : Gtu) (c : Ctx) (addr : Nat) (n : Noise) (ecc le v ad : Bool) (a : Option Arr) (ex : Option ExecName), addr < jobRegionBlanks * 4096 →
    serves g.val (addr / 4096 / 8) = false → exec (.jobRead g c addr n ecc le a v ad ex) s = .next s) ∧
  (∀ (s : State) (g : Gtu) (c : Option Ctx) (addr : Nat) (n : Noise) (ecc le : Bool), s.Sound → addr < jobRegionBlanks * 4096 → g.val < s.ports →
    serves g.val (addr / 4096 / 8) = true →
    let place := (s.mgtu.at g).place (addr / 4096)
    let stored := s.fetchedTag g place le (stackOf g) place
    ∃ t fp tag, exec (.hostRead g c addr n ecc le) s = .next t ∧ t.mem = s.mem ∧
      (∀ rho, c.bind s.keyOf = some rho → fp = fpOf rho (s.deliveredBlank (stackOf g) place n)) ∧
      tag = (readRow (c.bind s.keyOf).isSome ecc stored fp).delivered ∧
      Out.hostData g false (isPoison (tagState tag)) (s.deliveredBlank (stackOf g) place n) ∈ t.out ∧
      t.tagOf (stackOf g) place = (readRow (c.bind s.keyOf).isSome ecc stored fp).stored ∧ OnlyFetched s t g place le)

/-- R116, over the rows of R115: no access puts another POISON state in place of the one stored; a write that carries or causes one stores the fingerprint its row
states and leaves the state, and a read leaves the whole tag, with the event of its own cause. A poisoned blank returns to CLEAN only by a full write carrying CLEAN or a keyed host full write with EP clear,
an UNTAGGED one only by a full write of either kind. A tag line that is lost, which is no access to the blank, is outside this rule (log 53). -/
def Obligations.PoisonKeepsItsFirstCause : Prop :=
  ∀ (key : Option (BitVec 61)) (stored carried : BitVec 64) (st : BitVec 3) (g fp : BitVec 61) (data : List (BitVec 32)) (new old : WordWrites) (ep ecc keyed : Bool),
    (isPoison (tagState stored) = true →
      (readRow keyed ecc stored fp).stored = stored ∧
      (ecc = true → (readRow keyed ecc stored fp).event = some 0x4003) ∧
      (ecc = false → keyed = true → tagFp stored ≠ fp → (readRow keyed ecc stored fp).event = some 0x4001) ∧
      (isPoison (tagState (fullRow key stored carried data).1) = true → tagState (fullRow key stored carried data).1 = tagState stored ∧
        tagFp (fullRow key stored carried data).1 = (match key with | none => 0 | some rho => if tagMatches rho data carried then tagFp carried else fpOf rho data)) ∧
      tagState (partialRow key ecc stored st g new old).1 = tagState stored ∧
      (∀ rho, key = some rho → tagFp (partialRow key ecc stored st g new old).1 = deltaOf rho stored new old) ∧
      (key = none → (ecc = true ∨ isPoison st = true) → tagFp (partialRow key ecc stored st g new old).1 = 0) ∧
      (ep = true → hostFullRow key ep stored data = mkTag (tagState stored) (match key with | some rho => fpOf rho data | none => 0)) ∧
      tagState (hostPartialRow key ep ecc stored new old) = tagState stored ∧
      ((ep || ecc) = true → tagFp (hostPartialRow key ep ecc stored new old) = (match key with | some rho => deltaOf rho stored new old | none => 0)) ∧
      (tagState (fullRow key stored carried data).1 = 0 → key.isSome = true ∧ tagState carried = 0) ∧
      (tagState (hostFullRow key ep stored data) = 0 → key.isSome = true ∧ ep = false)) ∧
    (tagState stored = 4 → tagState (readRow keyed ecc stored fp).stored ≠ 0 ∧ tagState (partialRow key ecc stored st g new old).1 ≠ 0 ∧
      tagState (hostPartialRow key ep ecc stored new old) ≠ 0)

/-- From R109, R110, R115, R236: a write from the mesh to a blank that is not retained stores the words as they arrive, and the tag of the write rows,
in the blank that serves it; where the open span does not list it as an output it changes no other byte of memory and no other tag, but for those of a tag line lost in its fetch (R106). A GTU that has fenced the context drops its
writes, and so are those of an array under a pattern (R365). R107, R111, R117: the tag of an array's full write is made at the array, of the
words as it writes them under its context's key: CLEAN, or POISON_DERIVED while its latch is set. -/
def Obligations.MeshWritesStoreWordsAndTag : Prop :=
  (∀ (s : State) (g : Gtu) (c : Ctx) (addr : Nat) (data : List (BitVec 32)) (tag : BitVec 64) (le v ad : Bool) (w : Option Arr) (fl : Noise) (ex : Option ExecName), s.Sound →
    addr < jobRegionBlanks * 4096 → g.val < s.ports → serves g.val (addr / 4096 / 8) = true → s.fencedAt c (uMgtu g) = false →
    w.any s.isolated = false → s.retains g c (addr / 4096) = false → s.unlisted c [2] g (addr / 4096) →
    let place := (s.mgtu.at g).place (addr / 4096)
    let stored := s.fetchedTag g place le (stackOf g) place
    ∃ t, exec (.jobFullWrite g c addr data tag le v w ad fl ex) s = .next t ∧
      (∀ i, i < 1024 → t.wordAt (stackOf g) place i = data.getD i 0 ^^^ noiseAt fl i) ∧
      t.tagOf (stackOf g) place =
        (fullRow (s.keyOf c) stored (carriedTag s c w ((List.range 1024).map (fun i => data.getD i 0)) tag)
          ((List.range 1024).map (fun i => data.getD i 0 ^^^ noiseAt fl i))).1 ∧
      OnlyFetched s t g place le ∧
      (∀ a rho, w = some a → s.keyOf c = some rho → fl = [] → isPoison (tagState stored) = false →
        t.tagOf (stackOf g) place =
          mkTag (if (s.ctx c).tag.latches.contains a then 2 else 0) (fpOf rho ((List.range 1024).map (fun i => data.getD i 0))))) ∧
  (∀ (s : State) (g : Gtu) (c : Ctx) (addr : Nat) (words : WordWrites) (pfp : BitVec 61) (k : BitVec 3) (n : Noise) (ecc le v ad se : Bool) (w : Option Arr)
    (fl : Noise) (ex : Option ExecName), s.Sound → addr < jobRegionBlanks * 4096 → g.val < s.ports → serves g.val (addr / 4096 / 8) = true → s.fencedAt c (uMgtu g) = false →
    w.any s.isolated = false → s.retains g c (addr / 4096) = false → s.unlisted c [2] g (addr / 4096) → (∀ x ∈ words, x.1 < 1024) →
    let place := (s.mgtu.at g).place (addr / 4096)
    let ws := words.map (fun x => (x.1, x.2 ^^^ noiseAt fl x.1))
    ∃ t, exec (.jobPartialWrite g c addr words pfp k n ecc le v w ad fl se ex) s = .next t ∧
      t.mem = putWords s.mem (stackOf g) place ws ∧
      t.tagOf (stackOf g) place =
        (partialRow (s.keyOf c) ecc (s.fetchedTag g place le (stackOf g) place) (carriedPartial s c w words pfp k).2
          (carriedPartial s c w words pfp k).1 ws (oldWords s (stackOf g) place ws n)).1 ∧
      OnlyFetched s t g place le) ∧
  (∀ (s : State) (g : Gtu) (c : Ctx) (addr : Nat) (e v ad se : Bool) (w : Option Arr) (fl : Noise) (ex : Option ExecName),
    addr < stackSize → (s.fencedAt c (uMgtu g) = true ∨ w.any s.isolated = true) →
    (∀ (data : List (BitVec 32)) (tag : BitVec 64), exec (.jobFullWrite g c addr data tag e v w ad fl ex) s = .next s) ∧
    (∀ (ws : WordWrites) (pfp : BitVec 61) (k : BitVec 3) (n : Noise) (ecc : Bool), exec (.jobPartialWrite g c addr ws pfp k n ecc e v w ad fl se ex) s = .next s))

/-- From R103, R113, R114, R115, R130: a host write to a stave that the port serves stores the words as received and the tag of the host rows in the blank that serves it, completes, and
changes no other byte of memory and no other tag, but for those of a tag line lost in its fetch (R106; log 53). -/
def Obligations.HostWritesStoreWordsAndTag : Prop :=
  (∀ (s : State) (g : Gtu) (c : Option Ctx) (addr : Nat) (data : List (BitVec 32)) (ep le : Bool), s.Sound → addr < jobRegionBlanks * 4096 →
    g.val < s.ports → serves g.val (addr / 4096 / 8) = true →
    let place := (s.mgtu.at g).place (addr / 4096)
    ∃ t, exec (.hostFullWrite g c addr data ep le) s = .next t ∧
      t.mem = putWords s.mem (stackOf g) place (fullWords data) ∧
      t.tagOf (stackOf g) place = hostFullRow (s.keyFor c) ep (s.fetchedTag g place le (stackOf g) place) ((List.range 1024).map (fun i => data.getD i 0)) ∧
      Out.hostDone g false ∈ t.out ∧ OnlyFetched s t g place le) ∧
  (∀ (s : State) (g : Gtu) (c : Option Ctx) (addr : Nat) (words : WordWrites) (ep ecc le : Bool) (n : Noise), s.Sound → addr < jobRegionBlanks * 4096 →
    g.val < s.ports → serves g.val (addr / 4096 / 8) = true → (∀ x ∈ words, x.1 < 1024) →
    let place := (s.mgtu.at g).place (addr / 4096)
    ∃ t, exec (.hostPartialWrite g c addr words ep n ecc le) s = .next t ∧
      t.mem = putWords s.mem (stackOf g) place words ∧
      t.tagOf (stackOf g) place = hostPartialRow (s.keyFor c) ep ecc (s.fetchedTag g place le (stackOf g) place) words (oldWords s (stackOf g) place words n) ∧
      Out.hostDone g false ∈ t.out ∧ OnlyFetched s t g place le)

/-- From R126, R128: a write to a blank that the plan retains at the position goes to the context's retained copy, or into a free slot of its area;
the original blank and its tag are not touched, but for a tag line lost in its fetch (R106). A partial write that finds no copy yet first copies the whole original into the slot; one that
finds a copy goes to it. R235: where no copy is held and no slot is free the write is not carried out: RETENTION_OVERFLOW is a U fault of the port, the execution is aborted
with reason 9, and the context stops at its end. Model's choice: a slot taken holds no tag (log 54). -/
def Obligations.RetainedWritesLeaveTheOriginal : Prop :=
  ∀ (s : State) (g : Gtu) (c : Ctx) (addr : Nat) (v ad : Bool) (w : Option Arr) (fl : Noise) (ex : Option ExecName), s.Sound →
    addr < jobRegionBlanks * 4096 → g.val < s.ports → serves g.val (addr / 4096 / 8) = true → s.fencedAt c (uMgtu g) = false →
    w.any s.isolated = false → s.retains g c (addr / 4096) = true →
    let held := (s.mgtu.at g).provisionalOf c (addr / 4096)
    let spilt (t : State) : Prop := t.mem = s.mem ∧ t.tags = s.tags ∧ (t.mgtu.at g).retained = (s.mgtu.at g).retained ∧
      (∃ e ∈ t.fst.faultQ, e.code = 0x5008 ∧ e.cls = .u ∧ e.unit = uMgtu g ∧ e.ctx = some c) ∧
      (t.ctx c).exec.cause = some ((s.ctx c).exec.cause.getD { reason := 9, unit := uMgtu g }) ∧
      (t.ctx c).exec.stopAfter = some ((s.ctx c).exec.stopAfter.getD 0x5008)
    (∀ slot le, s.unlisted c [2] g (addr / 4096) → tagKey (stackOf g) slot ≠ tagKey (stackOf g) (addr / 4096) →
      (held.map (·.copy) = some slot ∨ (held = none ∧ s.freeSlot g c = some slot) →
        ∀ (data : List (BitVec 32)) (tag : BitVec 64), ∃ t, exec (.jobFullWrite g c addr data tag le v w ad fl ex) s = .next t ∧
          OnlyFetched s t g slot le ∧ (∀ i, i < 1024 → t.wordAt (stackOf g) slot i = data.getD i 0 ^^^ noiseAt fl i)) ∧
      (∀ (words : WordWrites) (pfp : BitVec 61) (k : BitVec 3) (n : Noise) (ecc se : Bool), (∀ x ∈ words, x.1 < 1024) →
        let ws := words.map (fun x => (x.1, x.2 ^^^ noiseAt fl x.1))
        (held.map (·.copy) = some slot → ∃ t, exec (.jobPartialWrite g c addr words pfp k n ecc le v w ad fl se ex) s = .next t ∧
          OnlyFetched s t g slot le ∧ t.mem = putWords s.mem (stackOf g) slot ws ∧
          t.tagOf (stackOf g) slot = (partialRow (s.keyOf c) ecc (s.fetchedTag g slot le (stackOf g) slot) (carriedPartial s c w words pfp k).2
            (carriedPartial s c w words pfp k).1 ws (oldWords s (stackOf g) slot ws n)).1) ∧
        (held = none → s.freeSlot g c = some slot →
          ∃ t, exec (.jobPartialWrite g c addr words pfp k n ecc le v w ad fl se ex) s = .next t ∧ (le = false → se = false → OnlyBlank s t (stackOf g) slot) ∧
            t.mem = putWords (putWords s.mem (stackOf g) slot (fullWords (s.deliveredBlank (stackOf g) ((s.mgtu.at g).place (addr / 4096)) n)))
              (stackOf g) slot ws))) ∧
    (held = none → s.freeSlot g c = none →
      (∀ (data : List (BitVec 32)) (tag : BitVec 64) (le : Bool), ∃ t, exec (.jobFullWrite g c addr data tag le v w ad fl ex) s = .next t ∧ spilt t) ∧
      (∀ (words : WordWrites) (pfp : BitVec 61) (k : BitVec 3) (n : Noise) (ecc le se : Bool),
        ∃ t, exec (.jobPartialWrite g c addr words pfp k n ecc le v w ad fl se ex) s = .next t ∧ spilt t))

/-- From R60: an access of a job or of the host to the gap or the tag region is not carried out: memory and tags stay, TAG_REGION_ACCESS is raised
as a C fault from the GTU, and a host access completes with an error.
R133, R229: a write to VX_MGTU_PROBE names the blank, and with GO starts a probe, which in its maintenance slot reads the tag of the blank
that serves its index, without changing one; a blank outside the job region or of the other port gives DONE and NOT_SERVED with a tag of 0. Model's
choices: a probe that meets an uncorrectable error in the tag line poisons its eight tags as any fetch does (log 169), GO takes the index as it stands (log 134). -/
def Obligations.TagRegionAccessesAndProbes : Prop :=
  (∀ (s : State) (g : Gtu) (addr : Nat), jobRegionBlanks * 4096 ≤ addr → addr < stackSize → g.val < s.ports →
    let shut (t : State) (c : Option Ctx) : Prop := t.mem = s.mem ∧ t.tags = s.tags ∧
      ∃ x ∈ t.fst.faultQ, x.code = 0x4005 ∧ x.cls = .c ∧ x.unit = uMgtu g ∧ x.ctx = c
    (∀ (c : Option Ctx) (n : Noise) (e le : Bool), ∃ t, exec (.hostRead g c addr n e le) s = .next t ∧ shut t c ∧ t.out = s.out ++ [.hostData g true false []]) ∧
    (∀ (c : Option Ctx) (d : List (BitVec 32)) (ep le : Bool), ∃ t, exec (.hostFullWrite g c addr d ep le) s = .next t ∧ shut t c ∧
      t.out = s.out ++ [.hostDone g true]) ∧
    (∀ (c : Option Ctx) (ws : WordWrites) (ep e le : Bool) (n : Noise), ∃ t, exec (.hostPartialWrite g c addr ws ep n e le) s = .next t ∧ shut t c ∧
      t.out = s.out ++ [.hostDone g true]) ∧
    (∀ (c : Ctx) (n : Noise) (e le v ad : Bool) (a : Option Arr) (ex : Option ExecName), s.aon.refOk = true → ∃ t, exec (.jobRead g c addr n e le a v ad ex) s = .next t ∧ shut t (some c)) ∧
    (∀ (c : Ctx) (w : Option Arr) (e le v ad se : Bool) (n fl : Noise) (ex : Option ExecName), s.aon.refOk = true → s.fencedAt c (uMgtu g) = false → w.any s.isolated = false →
      (∀ (d : List (BitVec 32)) (tag : BitVec 64), ∃ t, exec (.jobFullWrite g c addr d tag le v w ad fl ex) s = .next t ∧ shut t (some c)) ∧
      (∀ (ws : WordWrites) (pfp : BitVec 61) (k : BitVec 3), ∃ t, exec (.jobPartialWrite g c addr ws pfp k n e le v w ad fl se ex) s = .next t ∧ shut t (some c)))) ∧
  (∀ (s : State) (src : Src) (g : Gtu) (v : Reg), s.gate (0x400018 + 0x1000 * g.val) = .carry → ∃ t, exec (.mgtuProbe src g v) s = .next t ∧
    t.mgtu.at g = (if flag v 25 then { s.mgtu.at g with probe := field v 0 25, probing := true, done := false, notServed := false }
      else { s.mgtu.at g with probe := field v 0 25 }) ∧ (∀ h, h ≠ g → t.mgtu.at h = s.mgtu.at h) ∧ t.kept = s.kept) ∧
  (∀ (s : State) (g : Gtu) (le : Bool), (le = true → s.Sound) → (s.mgtu.at g).probing = true → servedBy g (s.mgtu.at g).probe.toNat = true →
    let place := (s.mgtu.at g).place (s.mgtu.at g).probe.toNat
    ∃ t, exec (.mgtuProbeRun g le) s = .next t ∧ (t.mgtu.at g).done = true ∧ (t.mgtu.at g).probing = false ∧ (t.mgtu.at g).notServed = false ∧
      (t.mgtu.at g).probeTag = s.fetchedTag g place le (stackOf g) place ∧ t.still = s.still ∧ t.mem = s.mem ∧
      (s.lineLost g place le = false → t.tags = s.tags) ∧ (s.lineLost g place le = true → ∀ st b, t.tagOf st b = s.fetchedTag g place le st b)) ∧
  (∀ (s : State) (g : Gtu) (e : Bool), (s.mgtu.at g).probing = true → servedBy g (s.mgtu.at g).probe.toNat = false → ∃ t,
    exec (.mgtuProbeRun g e) s = .next t ∧ (t.mgtu.at g).done = true ∧ (t.mgtu.at g).probing = false ∧ (t.mgtu.at g).notServed = true ∧
    (t.mgtu.at g).probeTag = 0 ∧ t.kept = s.kept) ∧
  (∀ (s : State) (g : Gtu) (e : Bool), (s.mgtu.at g).probing = false → exec (.mgtuProbeRun g e) s = .next s)

/-- From R230, R232: a copy-back writes the slot's data, as read, to the original with the tag of a full write that carries the slot's tag as read,
and frees the entry; no other byte of memory and no tag but these two change, but for those of a tag line, the slot's or the original's, lost in its fetch (R104, R106). R299, R300: a full-hash read of a blank
that the port serves (R103) sends the blank it was asked for with its tag as read, to the closed span that lists it as an output or into the open span that lists it as weight or input; at another port it
changes nothing. Model's choices: the key of a copy-back (log 29), no count of UNTAGGED_READS (log 131). -/
def Obligations.CopyBackAndFullHashRead : Prop :=
  (∀ (s : State) (g : Gtu) (c : Ctx) (blank : Nat) (n : Noise) (ecc le oe : Bool) (r : Retention), s.Sound →
    (s.mgtu.at g).retained.find? (fun r => r.committed && r.ctx = c && r.orig = blank) = some r →
    tagKey (stackOf g) r.copy ≠ tagKey (stackOf g) blank →
    let found := s.fetchedTag g r.copy le
    let after := afterLine (s.lineLost g blank oe) g blank
    ∃ t fp, exec (.copyback g c blank n ecc le oe) s = .next t ∧
    t.mem = putWords s.mem (stackOf g) blank (fullWords (s.deliveredBlank (stackOf g) r.copy n)) ∧
    (∀ rho, r.rho = some rho → fp = fpOf rho (s.deliveredBlank (stackOf g) r.copy n)) ∧
    t.tagOf (stackOf g) blank = (fullRow r.rho (after found (stackOf g) blank) (readRow r.rho.isSome ecc (found (stackOf g) r.copy) fp).delivered
      (s.deliveredBlank (stackOf g) r.copy n)).1 ∧
    (t.mgtu.at g).retained = (s.mgtu.at g).retained.erase r ∧
    (∀ st b, tagKey st b ≠ tagKey (stackOf g) blank → tagKey st b ≠ tagKey (stackOf g) r.copy → t.tagOf st b = after found st b)) ∧
  (∀ (s : State) (g : Gtu) (c : Ctx) (tensor blank : Nat) (n : Noise) (ecc le : Bool), (servedBy g blank = false ∨ s.ports ≤ g.val) →
    exec (.fullHashRead g c tensor blank n ecc le) s = .next s) ∧
  (∀ (s : State) (g : Gtu) (c : Ctx) (tensor blank : Nat) (n : Noise) (ecc le : Bool) (sp : Span), s.Sound → servedBy g blank = true → g.val < s.ports →
    let place := (s.mgtu.at g).readPlace c blank
    let stored := s.fetchedTag g place le (stackOf g) place
    ((s.ctx c).prv.span = some sp → sp.wants tensor g blank = true → sp.outputs g blank = false →
      s.prv.spans.find? (fun x => x.ctx = c && x.wants tensor g blank && x.outputs g blank) = none → ∃ t tag fp,
      exec (.fullHashRead g c tensor blank n ecc le) s = .next t ∧ t.mem = s.mem ∧ OnlyFetched s t g place le ∧ t.out = s.out ++ [.fullHashData g blank tag] ∧
      (∀ rho, s.keyOf c = some rho → fp = fpOf rho (s.deliveredBlank (stackOf g) place n)) ∧
      tag = (readRow (s.keyOf c).isSome ecc stored fp).delivered ∧
      (t.ctx c).prv.span = some (addFull tensor (g.val * 2 ^ 25 + blank) (s.deliveredBlank (stackOf g) place n) (isPoison (tagState tag)) sp)) ∧
    (s.prv.spans.find? (fun x => x.ctx = c && x.wants tensor g blank && x.outputs g blank) = some sp → ∃ t tag fp,
      exec (.fullHashRead g c tensor blank n ecc le) s = .next t ∧ Out.fullHashData g blank tag ∈ t.out ∧
      (∀ rho, s.keyOf c = some rho → fp = fpOf rho (s.deliveredBlank (stackOf g) place n)) ∧
      tag = (readRow (s.keyOf c).isSome ecc stored fp).delivered))

/-! ## Links (chapters 03, 08) -/

/-- From R120, R121: a frame whose tag agrees with its data under the sending context's key is sent with the key check of that context, and
changes nothing but the count of poisoned blanks sent, the retry buffer, which holds it, and, off its static route, the chatter count of a RELAXED context (R261); one whose tag does not agree is not sent: the link GTU raises
TAG_MISMATCH_SEND as a C fault, and the context's execution in progress, where the report names it or none, has an abort cause. A context without a key sends any tag of a state
that is not reserved (R95). R122: the frame held for a receiving context and number is sent again when that is asked for, and nothing else changes.
Model's choices: the retry buffer (log 126), what identifies a frame (log 135), where a rerouted frame counts (log 155), which execution a report without a name is of (log 154). -/
def Obligations.LinkFramesAreCheckedAndSent : Prop :=
  ∀ (s : State) (l : Lnk) (f : Frame) (c : Ctx) (blank : Nat) (ex : Option ExecName), s.hasLink l = true → (s.lgtu.at l).fenced = false →
    (s.fencedAt c (uLgtu l) = false → tagHolds (s.keyOf c) f.data f.tag = true → ∃ t, exec (.linkFrameSend l f c blank false ex) s = .next t ∧
      let out : Frame := { f with keyCheck := (s.ctx c).plan.keyCheck }
      t = { s with lgtu := t.lgtu, ctxs := t.ctxs, out := s.out ++ [.frame l out] } ∧ (∀ d, d ≠ c → t.ctx d = s.ctx d) ∧
      t.ctx c = (if (f.adaptive && s.relaxed c) = true then { s.ctx c with bar := { (s.ctx c).bar with chatter := (s.ctx c).bar.chatter.add 1 } } else s.ctx c) ∧ (∀ m, m ≠ l → t.lgtu.at m = s.lgtu.at m) ∧
      t.lgtu.at l = { s.lgtu.at l with sent := (t.lgtu.at l).sent
                                       poison := if isPoison (tagState f.tag) then bumpCtx (s.lgtu.at l).poison c else (s.lgtu.at l).poison } ∧
      (t.lgtu.at l).sent.find? (fun e => Frame.is e.2 f.ctx f.seq) = some (c, out)) ∧
    (s.fencedAt c (uLgtu l) = false → tagHolds (s.keyOf c) f.data f.tag = false →
      (ex = none → s.deciding c = true) → (∀ x, ex = some x → s.named c x.1 x.2 = .current) → ∃ t e, exec (.linkFrameSend l f c blank false ex) s = .next t ∧
      e ∈ t.fst.faultQ ∧ e.code = 0x4009 ∧ e.cls = .c ∧ e.unit = uLgtu l ∧ e.ctx = some c ∧ (∀ m g, Out.frame m g ∈ t.out → Out.frame m g ∈ s.out) ∧ t.lgtu = s.lgtu ∧ t.mem = s.mem ∧
      (t.ctx c).exec.cause = some ((s.ctx c).exec.cause.getD { reason := 4, unit := uLgtu l })) ∧
    (∀ e, (s.lgtu.at l).sent.find? (fun e => Frame.is e.2 f.ctx f.seq) = some e →
      exec (.linkFrameSend l f c blank true ex) s = .next { s with out := s.out ++ [.frame l e.2] }) ∧
    (s.fencedAt c (uLgtu l) = true → exec (.linkFrameSend l f c blank false ex) s = .next s)

/-- From R122, R123, R125: a received frame is delivered with its tag if key check and tag agree; a tag that does not agree asks for the blank
again, up to TAG_RETRY_LIMIT times, and then the blank is delivered as POISON_LINK with the U fault LINK_TAG_POISON; a wrong
key check delivers it as POISON_LINK at once, with the U fault LINK_KEY_MISMATCH. That a receiving context without a key has a wrong key check is the model's choice (log 136).
What identifies a frame under retry is too (log 135). -/
def Obligations.ReceivedFramesAreDeliveredOrRetried : Prop :=
  ∀ (s : State) (l : Lnk) (f : Frame) (ex : Option ExecName), s.hasLink l = true → (s.lgtu.at l).fenced = false →
    let key := (s.ctx f.ctx).plan
    let r := (s.lgtu.at l).retryOf f.ctx f.seq s.retryLimit.toNat
    (key.loaded = true → f.keyCheck = key.keyCheck → tagMatches key.rho f.data f.tag = true → ∃ t, exec (.linkFrameReceive l f ex) s = .next t ∧
      t.out = s.out ++ [.deliver l f.ctx f.data f.tag] ∧ t.fst = s.fst ∧ t.kept = s.kept) ∧
    (key.loaded = true → f.keyCheck = key.keyCheck → tagMatches key.rho f.data f.tag = false → r.made < r.limit →
      ∃ t, exec (.linkFrameReceive l f ex) s = .next t ∧ t.out = s.out ++ [.tagRetry l f.ctx f.seq] ∧ (t.lgtu.at l).retries = (s.lgtu.at l).retries + 1 ∧
        (t.lgtu.at l).retryOf f.ctx f.seq s.retryLimit.toNat = { r with made := r.made + 1 } ∧ t.fst = s.fst ∧ t.ctxs = s.ctxs ∧ t.kept = s.kept) ∧
    (key.loaded = true → f.keyCheck = key.keyCheck → tagMatches key.rho f.data f.tag = false → r.limit ≤ r.made → s.aon.refOk = true →
      ∃ t e tag, exec (.linkFrameReceive l f ex) s = .next t ∧ Out.deliver l f.ctx f.data tag ∈ t.out ∧ tagState tag = 3 ∧
        e ∈ t.fst.faultQ ∧ e.code = 0x4006 ∧ e.cls = .u ∧ e.unit = uLgtu l ∧ e.p32 = f.seq ∧ t.kept = s.kept) ∧
    (key.loaded = false ∨ f.keyCheck ≠ key.keyCheck → s.aon.refOk = true →
      ∃ t e tag, exec (.linkFrameReceive l f ex) s = .next t ∧ Out.deliver l f.ctx f.data tag ∈ t.out ∧ tagState tag = 3 ∧
        e ∈ t.fst.faultQ ∧ e.code = 0x4007 ∧ e.cls = .u ∧ e.unit = uLgtu l ∧ e.p16 = f.keyCheck ∧ t.kept = s.kept)

/-- From R65, R256, R264, R267: a link that trains runs at the width reached with the delay found, and LINK_WIDTH names the width and the lanes that failed where it is below eight lanes, where the link
was in use, or where it was fenced; a link that does not train is fenced, once. R336: the training of a link in use is a C fault that names the
width and the link retries before it. R266: a blank frame of a RELAXED context that the fenced link held goes again over the new link. RETRAIN
starts training anew where no loaded context's static routes use the link, and is refused otherwise.
Model's choices: static use of a link is a claim of it (log 18), a retired link stays fenced (log 33), the frames held for resending (log 126). -/
def Obligations.LinksTrainAndRetrain : Prop :=
  (∀ (s : State) (l : Lnk) (x : Trained) (n : Nat) (lost : List LostFrame), s.hasLink l = true → (s.lgtu.at l).retired = false → 0 < x.width → x.width ≤ 8 →
    ∃ t, exec (.linkTrained l x n lost) s = .next t ∧ (t.lgtu.at l).width = BitVec.ofNat 4 x.width ∧ (t.lgtu.at l).fenced = false ∧
      (t.lgtu.at l).delay = x.delay ∧ (∀ m, m ≠ l → t.lgtu.at m = s.lgtu.at m) ∧ t.kept = s.kept ∧
      (x.width < 8 ∨ (s.lgtu.at l).fenced = true ∨ s.linkInUse l = true →
        ∃ e ∈ t.rcd.intake, e.code = 0x6003 ∧ e.unit = uLgtu l ∧ e.p16 = BitVec.ofNat 16 x.width ∧ e.p32 = x.failed.setWidth 32) ∧
      (s.linkInUse l = true → ∃ e ∈ t.fst.faultQ, e.code = 0x3004 ∧ e.cls = .c ∧ e.unit = uLgtu l ∧ e.p16 = BitVec.ofNat 16 x.width ∧
        e.p32 = BitVec.ofNat 32 (min n (2 ^ 32 - 1)))) ∧
  (∀ (s : State) (l : Lnk) (x : Trained) (n : Nat), s.hasLink l = true → (s.lgtu.at l).retired = false → x.width = 0 → s.aon.refOk = true →
    ∃ t, exec (.linkTrained l x n []) s = .next t ∧ (t.lgtu.at l).fenced = true ∧ t.kept = s.kept ∧
      ((s.lgtu.at l).fenced = false → (t.lgtu.at l).width = 0 ∧ ∃ e ∈ t.fst.faultQ, e.code = 0x6004 ∧ e.cls = .c ∧ e.unit = uLgtu l)) ∧
  (∀ (s : State) (l via : Lnk) (x : Trained) (n : Nat) (f : Frame) (c : Ctx), s.hasLink l = true → (s.lgtu.at l).retired = false → x.width = 0 →
    (s.lgtu.at l).fenced = true → s.relaxed c = true → s.hasLink via = true → (s.lgtu.at via).fenced = false →
    (s.lgtu.at l).sent.find? (fun e => Frame.is e.2 f.ctx f.seq) = some (c, f) →
    ∃ t, exec (.linkTrained l x n [.blank f.ctx f.seq via]) s = .next t ∧ t.out = s.out ++ [.frame via { f with adaptive := true }] ∧
      (t.lgtu.at l).sent.find? (fun e => Frame.is e.2 f.ctx f.seq) = none ∧
      (t.lgtu.at via).sent.find? (fun e => Frame.is e.2 f.ctx f.seq) = some (c, { f with adaptive := true }) ∧
      (t.ctx c).bar.chatter = (s.ctx c).bar.chatter.add 1 ∧ t.kept = s.kept) ∧
  (∀ (s : State) (src : Src) (l : Lnk), s.gate 0x600018 = .carry → s.hasLink l = true → (s.lgtu.at l).retired = false →
    let i : BitVec 5 := BitVec.ofNat 5 l.val
    ((∀ c ∈ s.loadedCtxs, ∀ p, s.planOf c = some p → p.usesLink l.val = false) → ∃ t, exec (.retrain src i) s = .next t ∧
      Out.retrain l ∈ t.out ∧ t.spn.refused = false ∧ t.spn.linkSel = i ∧ t.lgtu = s.lgtu ∧ t.kept = s.kept) ∧
    (∀ c ∈ s.loadedCtxs, ∀ p, s.planOf c = some p → p.usesLink l.val = true → ∃ t, exec (.retrain src i) s = .next t ∧
      t.spn.refused = true ∧ t.lgtu = s.lgtu ∧ (Out.retrain l ∈ t.out → Out.retrain l ∈ s.out) ∧ t.kept = s.kept))

/-! ## The queue of commands and the whole machine -/

/-- A command at the front of the queue runs on the state with the queue's rest; with no command waiting, one unit of time passes (the
model's own reading, log 2), which changes no memory and no tag. -/
def Obligations.TheFrontCommandRuns : Prop :=
  (∀ (s : State) (c : Instr) (rest : List Instr), s.pending = c :: rest → step s = exec c { s with pending := rest }) ∧
  (∀ s : State, s.pending = [] → ∃ t, step s = .next t ∧ t.pending = [] ∧ t.mem = s.mem ∧ t.tags = s.tags ∧ t.fuses = s.fuses)

/-- Every command completes with a next state in every state, but for a memory command that names a byte outside its stack (R101), and that
one stops. -/
def Obligations.EveryCommandCompletes : Prop :=
  ∀ (c : Instr) (s : State), ((∀ a, memAddr c = some a → a < stackSize) → ∃ t, exec c s = .next t) ∧
    (∀ a, memAddr c = some a → stackSize ≤ a → exec c s = .fault .outsideStack)

/-- What no command but those named changes, in every state: the waiting commands (none does), the fuses (AON_POWER_VALID), the bytes of memory
(`writesMemory`: accesses that write or capture, copy-back, hashes and commits that may end a span's record, the hunt area, the flash dump,
and what carries a register access out), the stored tags (`writesTags`: these, the other reads, the probe, the end of an abort and a bring-up step), the tick (`movesTick`: power,
TICK_SYNC, its reply, an abandoned barrier and a barrier that fires). -/
def Obligations.OnlyTheNamedCommandsChangeMemory : Prop :=
  ∀ (c : Instr) (s t : State), exec c s = .next t → t.pending = s.pending ∧ ((∀ f x y z w, c ≠ .aonPowerValid f x y z w) → t.fuses = s.fuses) ∧
    (writesMemory c = false → t.mem = s.mem) ∧ (writesTags c = false → t.tags = s.tags) ∧ (movesTick c = false → t.time.tick = s.time.tick)

/-! ## The Calipers (chapters 04, 05) -/

/-- From R144, R147, R155, R170: a tile that starts at a free port is drawn its values from the pass seed and gets its place: it joins an open group of its own execution that is
not closing, opens one when it is short and the drain debt exceeds 8, and is checked alone otherwise; a group it cannot join is marked
closing. A descriptor that a port can refuse at once is CATCH_DESCRIPTOR; without one, nothing outside the port changes. R365: the port of an array under a
pattern ignores the tile. Model's choices: a tile that starts while one runs changes nothing (log 4), the code of a format and the cause of a tile with several
mismatches (logs 57, 137). -/
def Obligations.TileStartPlacesTheTile : Prop :=
  (∀ (s : State) (a : Arr) (d : TileDesc), s.isolated a = true → exec (.tileStart a d) s = .next s) ∧
  ∀ (s : State) (a : Arr) (d : TileDesc), (s.wce.ports.at a).cur = none → s.isolated a = false → (∀ p, s.planOf d.ctx = some p → p.isMonitor = false) →
    let p := s.wce.ports.at a
    let x := s.ctx d.ctx
    let short : Prop := tileLength d < 256
    let same (g : Group) : Prop := d.ctx = g.ctx ∧ x.pass.index = g.pass ∧ x.pass.replay = g.replay
    ∃ t tile, exec (.tileStart a d) s = .next t ∧ (t.wce.ports.at a).cur = some tile ∧ tile.desc = d ∧ tile.pass = x.pass.index ∧
      tile.replay = x.pass.replay ∧ (tile.rho, tile.lambda) = drawTile x.exec.seed a d.seq ∧ tile.slice = s.sliceFor (rowOf a) ∧
      tile.side.cycles = 0 ∧ tile.reading = false ∧ tile.tagBad = false ∧ (t.wce.ports.at a).park = p.park ∧ t.kept = s.kept ∧
      (p.group = none → ¬ (short ∧ 8 < p.debt) → tile.member = false ∧ (t.wce.ports.at a).group = none) ∧
      (p.group = none → short → 8 < p.debt → tile.member = true ∧ ∃ g, (t.wce.ports.at a).group = some g ∧ g.members = 1 ∧ g.ctx = d.ctx ∧
        g.pass = x.pass.index ∧ g.replay = x.pass.replay ∧ g.rho = tile.rho ∧ g.closing = d.lastOnPort) ∧
      (∀ g, p.group = some g → g.closing = true → tile.member = false) ∧
      (∀ g, p.group = some g → g.closing = false → ¬ (short ∧ same g) → tile.member = false ∧ (t.wce.ports.at a).group = some { g with closing := true }) ∧
      (∀ g, p.group = some g → g.closing = false → short → same g → tile.member = true ∧ ∃ h, (t.wce.ports.at a).group = some h ∧
        h.members = g.members + 1 ∧ h.closing = (decide (g.members + 1 = 255) || d.lastOnPort) ∧ h.rho = g.rho ∧ h.y = g.y ∧ h.bsum = g.bsum) ∧
      (descCause d = 0 → t.fst = s.fst ∧ t.out = s.out ∧ t.ctxs = s.ctxs ∧ t.wce.slices = s.wce.slices) ∧
      (descCause d ≠ 0 → ∃ e ∈ t.fst.faultQ, e.code = 0x2004 ∧ e.cls = .c ∧ e.unit = uPort a ∧ e.ctx = some d.ctx ∧ e.p32 = (descCause d).setWidth 32)

/-- From R149, R153, R157, R167, R168, R169, R174: a tile that is not under MONITOR parks with what its operand cycles gave, and the port is free
for the next; where no member read is running a member's read starts in that cycle; the debt at the end of it goes into MAX_DEBT, and a debt of 0 closes the group (R170). When twelve sets are
parked, the oldest whose read has not begun is overwritten, with DRAIN_OVERRUN and the verdict "not produced". A MONITOR tile leaves the port without a verdict (R181). Model's choice:
when a member's read begins (log 58). -/
def Obligations.TileParksWithItsOperandSide : Prop :=
  (∀ (s : State) (a : Arr) (ops : List OpCycle) (snoop : List Snoop) (tile : Tile), (s.wce.ports.at a).cur = some tile → tile.monitor = false →
    s.isolated a = false →
    let p := s.wce.ports.at a
    let v := vector64 (match tile.member, p.group with | true, some g => g.rho.toNat | _, _ => tile.rho.toNat)
    let parked : Tile := { tile with side := ops.foldl (takeCycle tile.desc v (if tile.member then tile.lambda.toNat else 1)) tile.side }
    (p.park.length < 12 → ∃ t, exec (.tilePark a ops snoop) s = .next t ∧ (t.wce.ports.at a).cur = none ∧
      (∀ b, b ≠ a → t.wce.ports.at b = s.wce.ports.at b) ∧ t.kept = s.kept ∧
      (t.wce.ports.at a).maxDebt = BitVec.ofNat 4 (min (max p.maxDebt.toNat (t.wce.ports.at a).debt) 15) ∧
      (t.wce.ports.at a).group = (if (t.wce.ports.at a).debt = 0 then p.group.map (fun g => { g with closing := true }) else p.group) ∧
      ((tile.member = false ∧ p.park.any (fun x => x.member) = false) ∨ p.park.any (fun x => x.reading && x.member) = true →
        (t.wce.ports.at a).park = p.park ++ [parked] ∧ t.out = s.out ∧ t.fst = s.fst ∧ t.wce.slices = s.wce.slices ∧ (snoop = [] → t.ctxs = s.ctxs)) ∧
      (tile.member = true → p.park.any (fun x => x.member) = false → parked.side.cause = 0 → sideCause parked.desc parked.side = 0 →
        (t.wce.ports.at a).park = p.park.map (fun x => if x = parked then { parked with reading := true } else x) ++ [{ parked with reading := true }] ∧
        t.out = s.out ∧ t.fst = s.fst ∧ t.wce.slices = s.wce.slices ∧ (snoop = [] → t.ctxs = s.ctxs))) ∧
    (∀ lost, 12 ≤ p.park.length → p.park.find? (fun x => !p.begun x) = some lost → p.caught.contains lost.exec = false → tile.member = false →
      p.park.any (fun x => x.member) = false →
      ∃ t e f, exec (.tilePark a ops []) s = .next t ∧ (t.wce.ports.at a).cur = none ∧ (t.wce.ports.at a).park = p.park.erase lost ++ [parked] ∧
        (t.wce.ports.at a).overruns = p.overruns + 1 ∧ t.fst.faultQ = s.fst.faultQ ++ [e] ∧ e.code = 0x2017 ∧ e.cls = .c ∧ e.unit = uPort a ∧
        e.p32 = BitVec.ofNat 32 p.debt ∧
        t.out = s.out ++ [.tileVerdict f] ∧ f.ctx = lost.desc.ctx ∧ f.verdict = .notProduced ∧ f.reason = 6 ∧ f.covers = 1 ∧ t.kept = s.kept)) ∧
  (∀ (s : State) (a : Arr) (ops : List OpCycle) (tile : Tile), (s.wce.ports.at a).cur = some tile → tile.monitor = true → tile.tagBad = false →
    s.isolated a = false → ∃ t, exec (.tilePark a ops []) s = .next t ∧ t.wce.ports.at a = { s.wce.ports.at a with cur := none, watched := some tile } ∧
      t.out = s.out ∧ t.fst = s.fst ∧ t.ctxs = s.ctxs ∧ t.kept = s.kept)

/-- From R168: the read of the oldest parked tile checked alone starts while no such read is running, and none of a later one. R154, R178: the
verdict of a tile checked alone, by the table of R154 and its precedence. The port that has sent no catch for the execution sends one TILE_VERDICT that
covers the tile; the tile leaves the park. R365: the port of an array under a pattern ignores a drain. Model's choice: what the read commands
stand for (log 58). -/
def Obligations.SingleReadGivesTheVerdict : Prop :=
  (∀ (s : State) (a : Arr) (seq : BitVec 32), (s.wce.ports.at a).open_.any (fun x => x.desc.seq = seq) = true →
    (∀ x, (s.wce.ports.at a).dueSingle = some x → x.desc.seq ≠ seq) → exec (.singleReadStart a seq) s = .next s) ∧
  (∀ (s : State) (a : Arr) (seq : BitVec 32), s.isolated a = true → exec (.singleReadStart a seq) s = .next s) ∧
  (∀ (s : State) (a : Arr) (tile : Tile), s.isolated a = false → (s.wce.ports.at a).park.any (fun x => x.reading && !x.member) = false →
    (s.wce.ports.at a).park.find? (fun x => !x.reading && !x.member) = some tile → tile.side.cause = 0 →
    tile.side.cycles = tileK tile.desc → descCause tile.desc = 0 → ∃ t, exec (.singleReadStart a tile.desc.seq) s = .next t ∧
      (t.wce.ports.at a).park = (s.wce.ports.at a).park.map (fun x => if x = tile then { tile with reading := true } else x) ∧
      t.out = s.out ∧ t.fst = s.fst ∧ t.ctxs = s.ctxs ∧ t.kept = s.kept) ∧
  (∀ (s : State) (a : Arr) (inexact : Bool) (acc : Accs) (x : Tile), (s.wce.ports.at a).park.find? (fun y => y.reading && !y.member) = some x →
    (s.wce.ports.at a).caught.contains x.exec = false →
    let differ := rowDiffs x.side.y (tapRows acc (tileAnchor x.desc) (vector64 x.rho.toNat)) ≠ []
    let own := x.side.low = true ∨ x.side.special = true
    ∃ t f, exec (.singleReadEnd a inexact acc) s = .next t ∧ Out.tileVerdict f ∈ t.out ∧ (t.wce.ports.at a).park = (s.wce.ports.at a).park.erase x ∧
      (t.wce.ports.at a).alone = (s.wce.ports.at a).alone + 1 ∧ t.kept = s.kept ∧
      f.ctx = x.desc.ctx ∧ f.port = uPort a ∧ f.seq = x.desc.seq ∧ f.covers = 1 ∧ f.replay = x.replay ∧ f.passLow = x.pass.setWidth 32 ∧
      (x.side.cause ≠ 0 → f.verdict = .catch ∧ f.reason = 4) ∧
      (x.side.cause = 0 → x.tagBad = true → f.verdict = .catch ∧ f.reason = 5) ∧
      (x.side.cause = 0 → x.tagBad = false → inexact = true → (own ∨ highP x.desc x.side = true) → f.verdict = .void ∧ f.reason = 0) ∧
      (x.side.cause = 0 → x.tagBad = false → inexact = true → ¬ own → highP x.desc x.side = false → f.verdict = .catch ∧ f.reason = 3 ∧
        ∃ e ∈ t.fst.faultQ, e.code = 0x2003 ∧ e.cls = .c ∧ e.unit = uPort a) ∧
      (x.side.cause = 0 → x.tagBad = false → inexact = false → own → f.verdict = .catch ∧ f.reason = 2 ∧
        ∃ e ∈ t.fst.faultQ, e.code = 0x2002 ∧ e.cls = .c ∧ e.unit = uPort a) ∧
      (x.side.cause = 0 → x.tagBad = false → inexact = false → ¬ own → differ → f.verdict = .catch ∧ f.reason = 1 ∧
        ∃ e ∈ t.fst.faultQ, e.code = 0x2001 ∧ e.cls = .c ∧ e.unit = uPort a) ∧
      (x.side.cause = 0 → x.tagBad = false → inexact = false → ¬ own → ¬ differ → f.verdict = .clean ∧ f.reason = 0 ∧ t.fst = s.fst ∧ t.ctxs = s.ctxs))

/-- From R157, R158, R171: a member without a verdict of its own enters Y and Bsum with its coefficient when its read ends; a void one leaves the group, and so does one
that is a catch of its own, with its verdict; a closing group whose members
are all read closes, with one verdict that covers those left in it: clean when Z and Y agree in every row, else a residue catch with CATCH_WITNESS. Model's choices:
what a member that leaves counts in (log 59), the chained bit of a group's catch (log 138). -/
def Obligations.GroupsAreCheckedAtTheirClose : Prop :=
  (∀ (s : State) (a : Arr) (acc : Accs) (inexact : Bool) (x : Tile) (g : Group), (s.wce.ports.at a).park.find? (fun y => y.reading && y.member) = some x → (s.wce.ports.at a).group = some g →
    x.side.cause = 0 → x.tagBad = false → ((s.wce.ports.at a).park.erase x).any (fun y => y.member) = false →
    ∃ t h, exec (.memberRead a inexact acc) s = .next t ∧ (t.wce.ports.at a).group = some h ∧ h.read = g.read + 1 ∧ h.members = g.members ∧ t.kept = s.kept ∧
      (t.wce.ports.at a).park = (s.wce.ports.at a).park.erase x ∧
      (inexact = false → x.side.low = false → x.side.special = false → h.left = g.left ∧ h.voids = g.voids ∧
        h.bsum = addRows g.bsum (memberRows acc (tileAnchor x.desc) x.lambda.toNat) ∧
        h.y = (List.range 64).map (fun i => res61 ((g.y.getD i 0).toNat + (x.side.y.getD i 0).toNat)) ∧ t.out = s.out ∧ t.ctxs = s.ctxs) ∧
      (inexact = true → (x.side.low || x.side.special || highP x.desc x.side) = true → h.voids = g.voids + 1 ∧ h.left = g.left ∧ h.y = g.y ∧ h.bsum = g.bsum ∧
        (t.ctx x.desc.ctx).cov.voids = (s.ctx x.desc.ctx).cov.voids + 1) ∧
      (inexact = true → (x.side.low || x.side.special || highP x.desc x.side) = false → (s.wce.ports.at a).caught.contains x.exec = false →
        h.left = g.left + 1 ∧ h.voids = g.voids ∧ h.y = g.y ∧ h.bsum = g.bsum ∧ ∃ f, Out.tileVerdict f ∈ t.out ∧ f.ctx = x.desc.ctx ∧
        f.verdict = .catch ∧ f.reason = 3)) ∧
  (∀ (s : State) (a : Arr) (g : Group), (s.wce.ports.at a).group = some g → g.closing = true → g.read = g.members →
    (s.wce.ports.at a).caught.contains (g.ctx, g.pass, g.replay) = false → ∃ t f, exec (.groupClose a) s = .next t ∧
      (t.wce.ports.at a).group = none ∧ (t.wce.ports.at a).park = (s.wce.ports.at a).park ∧ t.kept = s.kept ∧ Out.tileVerdict f ∈ t.out ∧ f.ctx = g.ctx ∧
      f.port = uPort a ∧ f.seq = g.seq ∧ f.covers = BitVec.ofNat 8 (g.members - g.left) ∧ f.voids = BitVec.ofNat 8 g.voids ∧
      (t.ctx g.ctx).cov.combined = (s.ctx g.ctx).cov.combined + BitVec.ofNat 64 (g.members - g.voids - g.left) ∧
      (rowDiffs g.y (groupZ g) = [] → f.verdict = .clean ∧ t.fst = s.fst) ∧
      (rowDiffs g.y (groupZ g) ≠ [] → f.verdict = .catch ∧ f.reason = 1 ∧
        ∃ e ∈ t.fst.faultQ, e.code = 0x2001 ∧ e.cls = .c ∧ e.unit = uPort a ∧ e.ctx = some g.ctx))

/-- From R112, R117, R119, R154, R176, R181: when the last of a blank's 1,024 words has passed the port in an execution, the sum over them under the
context's key is compared with the blank's tag; a blank that agrees changes nothing outside the port but for the latch that a poisoned tag sets. One that does not is
TAG_MISMATCH_OPERAND, a C fault of the port, where the tile has raised no event yet, and the tile is marked for the verdict with reason operand tag; the newest MONITOR tile
that has parked has its verdict at once. A blank compared once in an execution is not compared again, and words that pass in one tile count for the blank's end in a later one.
A blank is known by its index and the port it comes from. Model's choice: 16 blanks at a time, no seventeenth (log 128). -/
def Obligations.OperandBlanksAreChecked : Prop :=
  (∀ (s : State) (a : Arr) (c : Ctx) (seq : BitVec 32) (blank source : Nat) (tag : BitVec 64) (data : List (BitVec 32)) (rho : BitVec 61) (x : Tile),
    s.keyOf c = some rho → (s.wce.ports.at a).tileOf c seq = some x → (s.wce.ports.at a).tracked x.exec blank source = none →
    ((s.wce.ports.at a).blanks.filter (fun k => (k.exec.1 ≠ c || k.exec = x.exec) && !k.done)).length < 16 →
    let holds := tagMatches rho ((List.range 1024).map (fun i => data.getD i 0)) tag
    ∃ t, exec (.operandBlankComplete a c seq blank tag (fullWords data) source) s = .next t ∧ t.kept = s.kept ∧
      (∃ k, (t.wce.ports.at a).tracked x.exec blank source = some k ∧ k.done = true) ∧ (∀ b, b ≠ a → t.wce.ports.at b = s.wce.ports.at b) ∧
      (isPoison (tagState tag) = true → a ∈ (t.ctx c).tag.latches ∧ (t.ctx c).tag.consumed = bump (s.ctx c).tag.consumed) ∧
      (isPoison (tagState tag) = false → (t.ctx c).tag = (s.ctx c).tag) ∧
      (holds = true → t.fst = s.fst ∧ t.out = s.out ∧ (t.wce.ports.at a).cur = (s.wce.ports.at a).cur ∧ (t.wce.ports.at a).park = (s.wce.ports.at a).park) ∧
      (holds = false →
        (∀ y, (t.wce.ports.at a).cur = some y → y.desc.ctx = c → y.desc.seq = seq → y.tagBad = true) ∧
        (∀ y ∈ (t.wce.ports.at a).park, y.desc.ctx = c → y.desc.seq = seq → y.tagBad = true) ∧
        (x.side.cause = 0 → x.tagBad = false → (t.ctx c).cov.operand = bump (s.ctx c).cov.operand ∧ ∃ e ∈ t.fst.faultQ,
          e.code = 0x2040 ∧ e.cls = .c ∧ e.unit = uPort a ∧ e.ctx = some c ∧ e.p32 = BitVec.ofNat 32 blank) ∧
        (x.side.cause = 0 → x.tagBad = false → (s.wce.ports.at a).watched = some x → (s.wce.ports.at a).caught.contains x.exec = false →
          ∃ f, Out.tileVerdict f ∈ t.out ∧ f.ctx = c ∧ f.seq = seq ∧ f.verdict = .catch ∧ f.reason = 5) ∧
        ((x.side.cause ≠ 0 ∨ x.tagBad = true) → t.fst = s.fst ∧ t.out = s.out))) ∧
  (∀ (s : State) (a : Arr) (c : Ctx) (seq : BitVec 32) (blank source : Nat) (tag : BitVec 64) (words : WordWrites) (x : Tile) (k : Tracker),
    (s.wce.ports.at a).tileOf c seq = some x → (s.wce.ports.at a).tracked x.exec blank source = some k → k.done = true →
    ∃ t, exec (.operandBlankComplete a c seq blank tag words source) s = .next t ∧ t.fst = s.fst ∧ t.out = s.out ∧ t.ctxs = s.ctxs ∧ t.kept = s.kept) ∧
  (∀ (s : State) (a : Arr) (ops : List OpCycle) (w : Snoop) (x : Tile), (s.wce.ports.at a).cur = some x → s.isolated a = false →
    (s.wce.ports.at a).tracked x.exec w.blank w.source = none →
    ((s.wce.ports.at a).blanks.filter (fun k => (k.exec.1 ≠ x.exec.1 || k.exec = x.exec) && !k.done)).length < 16 →
    ∃ t, exec (.tilePark a ops [w]) s = .next t ∧ (t.wce.ports.at a).tracked x.exec w.blank w.source =
      some (w.words.foldl (Tracker.take (s.keyOf x.desc.ctx)) { exec := x.exec, blank := w.blank, source := w.source }))

/-- From R182, R183, R190: TAKEOVER hands the row of a serving slice to the free standby, RELEASE gives it back: the route for tiles that start from then on is the new
one, and the handover ends with HELD_BY and ROW_SERVED showing it; a reset in progress goes on (R188). A command of VX_WCE_SLICE_CTRL that is not legal, TAKEOVER, RELEASE, RESET or SELFTEST_NOW, sets REFUSED and
changes nothing else but MC's log. Model's choice: a refused command's log is MC's (log 47). -/
def Obligations.SliceHandovers : Prop :=
  (∀ (s : State) (src : Src) (r : Row), s.gate (sliceCtrlOff (rowSlice r)) = .carry → (s.wce.slices.at (rowSlice r)).state = .serving → s.standbyFree = true →
    ∃ t, exec (.sliceTakeover src (rowSlice r)) s = .next t ∧ t.wce.handover = some { row := r, away := true, reason := 4 } ∧ t.wce.reason = 4 ∧
      (t.wce.slices.at (rowSlice r)).state = .handover ∧ (t.wce.slices.at standby).state = .handover ∧ t.sliceFor r = 24 ∧ t.kept = s.kept ∧
      (t.wce.slices.at (rowSlice r)).refused = false ∧ ∃ e ∈ t.rcd.intake, e.code = 0x2010 ∧ e.unit = uSlice (rowSlice r) ∧ e.p32 = 4) ∧
  (∀ (s : State) (src : Src) (r : Row), s.gate (sliceCtrlOff (rowSlice r)) = .carry → (s.wce.slices.at (rowSlice r)).state = .idle →
    (s.wce.slices.at (rowSlice r)).heldBy = 24 → s.wce.handover = none → ∃ t, exec (.sliceRelease src (rowSlice r)) s = .next t ∧
      t.wce.handover = some { row := r, away := false, reason := s.wce.reason } ∧ t.sliceFor r = r.val ∧ t.kept = s.kept ∧
      ∃ e ∈ t.rcd.intake, e.code = 0x2011 ∧ e.unit = uSlice (rowSlice r)) ∧
  (∀ (s : State) (r : Row), s.wce.handover = some { row := r, away := true, reason := 4 } → s.wce.orders = [] → ∃ t, exec (.handoverComplete r) s = .next t ∧
      t.wce.handover = none ∧ (t.wce.slices.at (rowSlice r)).heldBy = 24 ∧ (t.wce.slices.at (rowSlice r)).row = 31 ∧
      (t.wce.slices.at (rowSlice r)).state = (s.wce.slices.at (rowSlice r)).unless_ .idle ∧ (t.wce.slices.at standby).row = BitVec.ofNat 5 r.val ∧
      (t.wce.slices.at standby).state = (s.wce.slices.at standby).unless_ .serving ∧ t.kept = s.kept) ∧
  (∀ (s : State) (r : Row) (why : BitVec 3), s.wce.handover = some { row := r, away := false, reason := why } → s.wce.orders = [] →
    ∃ t, exec (.handoverComplete r) s = .next t ∧ t.wce.handover = none ∧ t.wce.reason = 0 ∧
      (t.wce.slices.at (rowSlice r)).heldBy = BitVec.ofNat 5 r.val ∧ (t.wce.slices.at (rowSlice r)).state = (s.wce.slices.at (rowSlice r)).unless_ .serving ∧
      (t.wce.slices.at standby).state = (s.wce.slices.at standby).unless_ .idle ∧ (t.wce.slices.at standby).row = 31 ∧ t.kept = s.kept) ∧
  (∀ (s : State) (src : Src) (n : Slice), s.gate (sliceCtrlOff n) = .carry →
    let x := s.wce.slices.at n
    let refused : State := ((s.onSlice n (fun y => { y with refused := true })).logRefusal mc none src (sliceCtrlOff n)).complete src (sliceCtrlOff n) false 0 0
    ((n = standby ∨ x.state ≠ .serving ∨ s.standbyFree = false) → exec (.sliceTakeover src n) s = .next refused) ∧
    ((n = standby ∨ x.state ≠ .idle ∨ x.heldBy ≠ 24 ∨ s.wce.handover ≠ none) → exec (.sliceRelease src n) s = .next refused) ∧
    ((x.state = .retired ∨ s.sliceHeld n = true) → exec (.sliceReset src n) s = .next refused) ∧
    ((s.pwr.vs ≠ .vs0 ∨ (x.state ≠ .idle ∧ (x.state ≠ .serving ∨ n = standby ∨ s.standbyFree = false))) → exec (.selftestNow src n) s = .next refused))

/-- From R188: a slice reset of a serving row with no standby free resets its ports where they stand and holds the row: its state is RESET, with SLICE_RESET 1; of an idle
slice it is SLICE_RESET 0. The end of the reset is the slice's self-test where the standby holds the row, else the slice serves on, or goes on in its handover; an access that waited
for the reset is carried out then. A port reset drops the tiles of the port, with PORT_RESET. Model's choices: slices that serve no row, and a row held for
another reason (log 60). -/
def Obligations.SliceAndPortResets : Prop :=
  (∀ (s : State) (src : Src) (r : Row), s.gate (sliceCtrlOff (rowSlice r)) = .carry → s.mayResetSlice (rowSlice r) = true →
    (s.wce.slices.at (rowSlice r)).state = .serving → s.standbyFree = false → s.testOf (rowSlice r) = none →
    ∃ t, exec (.sliceReset src (rowSlice r)) s = .next t ∧
      (t.wce.slices.at (rowSlice r)).state = .reset ∧ (∀ a ∈ portsOf r, (t.wce.ports.at a).park = [] ∧ (t.wce.ports.at a).cur = none) ∧ t.kept = s.kept ∧
      ∃ e ∈ t.rcd.intake, e.code = 0x2016 ∧ e.unit = uSlice (rowSlice r) ∧ e.p16 = 1) ∧
  (∀ (s : State) (src : Src) (r : Row), s.gate (sliceCtrlOff (rowSlice r)) = .carry → s.mayResetSlice (rowSlice r) = true →
    (s.wce.slices.at (rowSlice r)).state = .serving → s.standbyFree = true → s.testOf (rowSlice r) = none →
    ∃ t, exec (.sliceReset src (rowSlice r)) s = .next t ∧
      t.wce.handover = some { row := r, away := true, reason := 2 } ∧ t.kept = s.kept ∧
      ∃ e ∈ t.rcd.intake, e.code = 0x2016 ∧ e.unit = uSlice (rowSlice r) ∧ e.p16 = 0) ∧
  (∀ (s : State) (src : Src) (n : Slice), s.gate (sliceCtrlOff n) = .carry → s.mayResetSlice n = true → (s.wce.slices.at n).state = .idle →
    s.testOf n = none → (n = standby → s.heldRow = none) → ∃ t, exec (.sliceReset src n) s = .next t ∧ (t.wce.slices.at n).state = .reset ∧
      t.wce.ports = s.wce.ports ∧ t.kept = s.kept ∧ ∃ e ∈ t.rcd.intake, e.code = 0x2016 ∧ e.unit = uSlice n ∧
        e.p16 = if n ≠ standby ∧ s.wce.handover = none ∧ s.standbyFree = false then 1 else 0) ∧
  (∀ (s : State) (r : Row), (s.wce.slices.at (rowSlice r)).state = .reset → (s.wce.slices.at (rowSlice r)).heldBy = 24 → s.wce.orders = [] →
    s.wce.handover = none → s.xing.waits = [] → ∃ t, exec (.sliceResetEnd (rowSlice r)) s = .next t ∧ t.kept = s.kept ∧
      (s.wce.reason = 2 → (t.wce.slices.at (rowSlice r)).state = .selftest ∧ t.testOf (rowSlice r) = some 2) ∧
      (s.wce.reason = 3 → t.wce.handover = some { row := r, away := false, reason := 3 }) ∧
      (s.wce.reason = 4 → (t.wce.slices.at (rowSlice r)).state = .idle ∧ t.wce.testing = s.wce.testing)) ∧
  (∀ (s : State) (r : Row), (s.wce.slices.at (rowSlice r)).state = .reset → (s.wce.slices.at (rowSlice r)).heldBy ≠ 24 → s.xing.waits = [] → s.wce.orders = [] →
    exec (.sliceResetEnd (rowSlice r)) s = .next (s.onSlice (rowSlice r)
      (fun x => { x with state := if s.wce.handover.any (fun h => h.row = r) then .handover else .serving }))) ∧
  (∀ (s : State) (r : Row) (w : XingWait) (y : RegAt), (s.wce.slices.at (rowSlice r)).state = .reset → (s.wce.slices.at (rowSlice r)).heldBy ≠ 24 →
    s.xing.waits = [w] → (w.domain, w.row) = (RegAt.wceSliceStatus (rowSlice r)).domain → s.clockStopped (w.domain, w.row) = false →
    regAt w.off = some y → (y = .wceSliceStatus (rowSlice r) ∨ y = .wceSliceCounts (rowSlice r)) → w.timedOut = false → w.acc = .read → s.wce.orders = [] →
    ∃ t, exec (.sliceResetEnd (rowSlice r)) s = .next t ∧ t.xing.waits = [] ∧ (w.src = .host → t.out = s.out ++ [.access .host w.off false (readReg t y)])) ∧
  (∀ (s : State) (src : Src) (a : Arr), s.gate (portCtrlOff a) = .carry → s.portInReset a = false → ∃ t e, exec (.portReset src a) s = .next t ∧
    (t.wce.ports.at a).cur = none ∧ (t.wce.ports.at a).park = [] ∧ (t.wce.ports.at a).group = none ∧ (t.wce.ports.at a).maxDebt = 0 ∧
    (t.wce.ports.at a).resets = (s.wce.ports.at a).resets + 1 ∧ e ∈ t.rcd.intake ∧ e.code = 0x2015 ∧ e.unit = uPort a ∧
    e.p32 = BitVec.ofNat 32 (s.wce.ports.at a).open_.length ∧ t.kept = s.kept)

/-- From R185, R186, R190: SELFTEST_NOW in VS0 tests an idle slice at once and a serving one through a takeover; a turn that is due while nothing is in its way begins the test of the slice whose
turn it is, through a takeover, or in place where no standby is free and the plans declare its row idle for the 3,200,000 cycles of the test (R187); a test that passes ends with PASSED and the slice free,
serving again where it was tested in place, or taking its row back; one that fails raises SLICE_SELFTEST_FAIL, and the standby takes the row of the failed slice where it is free, or fails
out of service itself. Several slices may be under test. Model's choices: the turns (logs 28, 61, 129). -/
def Obligations.SliceSelfTests : Prop :=
  (∀ (s : State) (src : Src) (n : Slice), s.gate (sliceCtrlOff n) = .carry → s.pwr.vs = .vs0 → (s.wce.slices.at n).state = .idle →
    ∃ t, exec (.selftestNow src n) s = .next t ∧ (t.wce.slices.at n).state = .selftest ∧ t.testOf n = some 4 ∧ (∀ m, m ≠ n → t.testOf m = s.testOf m) ∧
      t.wce.handover = s.wce.handover ∧ t.kept = s.kept) ∧
  (∀ (s : State) (src : Src) (r : Row), s.gate (sliceCtrlOff (rowSlice r)) = .carry → s.pwr.vs = .vs0 → (s.wce.slices.at (rowSlice r)).state = .serving →
    s.standbyFree = true → ∃ t, exec (.selftestNow src (rowSlice r)) s = .next t ∧ t.wce.handover = some { row := r, away := true, reason := 3 } ∧ t.kept = s.kept) ∧
  (∀ (s : State) (r : Row), s.wce.interval ≠ 0 → (s.fwp.procs.at 5).state = .run → s.pwr.vs = .vs0 → s.standbyFree = true →
    r.val < s.rows → s.wce.nextTurn = r.val → (s.wce.slices.at (rowSlice r)).state = .serving → ∃ t, exec .selftestTurnDue s = .next t ∧
    t.wce.handover = some { row := r, away := true, reason := 3 } ∧ t.wce.nextTurn = r.val + 1 ∧ t.wce.lastTurn = s.time.opsec ∧ t.kept = s.kept) ∧
  (∀ (s : State) (r : Row), s.wce.interval ≠ 0 → (s.fwp.procs.at 5).state = .run → s.pwr.vs = .vs0 → s.standbyFree = false →
    r.val < s.rows → s.wce.nextTurn = r.val → (s.wce.slices.at (rowSlice r)).state = .serving → s.rowDeclaredIdle r 3200000 = true →
    ∃ t, exec .selftestTurnDue s = .next t ∧ (t.wce.slices.at (rowSlice r)).state = .selftest ∧ t.testOf (rowSlice r) = some 5 ∧
      t.wce.handover = s.wce.handover ∧ t.wce.lastTurn = s.time.opsec ∧ t.kept = s.kept) ∧
  (∀ (s : State) (r : Row) (misr : BitVec 128), s.testOf (rowSlice r) = some 5 → misr = Config.sliceSignature s.fuses.stepping → s.wce.orders = [] →
    ∃ t, exec (.sliceSelftestEnd (rowSlice r) none misr) s = .next t ∧ (t.wce.slices.at (rowSlice r)).result = 1 ∧
      (t.wce.slices.at (rowSlice r)).state = .serving ∧ t.testOf (rowSlice r) = none ∧ (∀ m, m ≠ rowSlice r → t.testOf m = s.testOf m) ∧ t.kept = s.kept) ∧
  (∀ (s : State) (r : Row) (misr : BitVec 128) (why : BitVec 3), s.testOf (rowSlice r) = some why → (why = 2 ∨ why = 3) → misr = Config.sliceSignature s.fuses.stepping →
    ∃ t, exec (.sliceSelftestEnd (rowSlice r) none misr) s = .next t ∧ (t.wce.slices.at (rowSlice r)).result = 1 ∧
      t.wce.handover = some { row := r, away := false, reason := s.wce.reason } ∧ t.testOf (rowSlice r) = none ∧ t.kept = s.kept) ∧
  (∀ (s : State) (r : Row) (k : Fin 26) (misr : BitVec 128) (why : BitVec 3), s.testOf (rowSlice r) = some why → (s.wce.slices.at (rowSlice r)).heldBy ≠ 24 →
    (s.wce.slices.at (rowSlice r)).heldBy ≠ 31 → s.standbyFree = true → s.heldRow = none → s.wce.orders = [] → s.rowInReset r = false →
    ∃ t e, exec (.sliceSelftestEnd (rowSlice r) (some k) misr) s = .next t ∧ (t.wce.slices.at (rowSlice r)).result = 2 ∧
      t.wce.handover = some { row := r, away := true, reason := 1 } ∧ e ∈ t.fst.faultQ ∧ e.code = 0x2012 ∧ e.cls = .c ∧ e.unit = uSlice (rowSlice r) ∧ t.kept = s.kept) ∧
  (∀ (s : State) (misr : BitVec 128) (why : BitVec 3), s.testOf standby = some why → why ≠ 5 → misr = Config.sliceSignature s.fuses.stepping → s.wce.orders = [] →
    ∃ t, exec (.sliceSelftestEnd standby none misr) s = .next t ∧ (t.wce.slices.at standby).result = 1 ∧ (t.wce.slices.at standby).state = .idle ∧
      (t.wce.slices.at standby).runs = (s.wce.slices.at standby).runs + 1 ∧ t.testOf standby = none ∧ t.kept = s.kept) ∧
  (∀ (s : State) (k : Fin 26) (misr : BitVec 128) (why : BitVec 3), s.testOf standby = some why → ∃ t e,
    exec (.sliceSelftestEnd standby (some k) misr) s = .next t ∧ (t.wce.slices.at standby).result = 2 ∧ (t.wce.slices.at standby).state = .retired ∧ t.testOf standby = none ∧
      e ∈ t.fst.faultQ ∧ e.code = 0x2012 ∧ e.cls = .c ∧ e.unit = uSlice standby ∧ e.p16 = BitVec.ofNat 16 k.val ∧ e.p32 = misr.setWidth 32 ∧ t.kept = s.kept)

/-! ## Shadow passes (chapter 06) -/

/-- From R195, R214, R215, R216, R226: a comparison that names the execution a context decides is clean when the fingerprints agree and CATCH_SHADOW with the primary as its cause when they
differ. In the replay that decides a shadow catch the referee decides: the primary is caught again, the shadow is withdrawn, or the catch is unresolved and the context is to stop; what
one output blank of the slot has decided is not done twice. A comparison that cannot be made is SHADOW_MISSING with reason 3. One that names a committed execution is late when it
differs (ESCAPED_CATCH), and one of an aborted execution changes nothing.
Model's choices: which execution a late report names (log 69), no CATCH_SHADOW for a shadow, a referee or an unresolved end (log 66), the reason of an unresolved comparison (log 67), a comparison on an array that is no position (log 76). -/
def Obligations.ShadowComparisonsAreDecided : Prop :=
  ∀ (s : State) (c : Ctx) (x : Compare),
    let made (t : State) : Prop := (t.ctx c).exec.compares = (s.ctx c).exec.compares ++ [(x.logical, x.cls, x.kind)] ∧ t.kept = s.kept
    let caught (t : State) : Prop := made t ∧ (t.ctx c).exec.cause = some ((s.ctx c).exec.cause.getD { reason := 2, unit := s.primaryOf x.logical }) ∧
      (t.ctx c).cov.catches = (s.ctx c).cov.catches + 1 ∧ (x.logical, x.cls) ∈ (t.ctx c).cov.dirty ∧
      ∃ e ∈ t.fst.faultQ, e.code = 0x5101 ∧ e.cls = .c ∧ e.unit = s.primaryOf x.logical ∧ e.ctx = some c ∧ e.p16 = pairField x.logical x.cls
    let unresolved (t : State) : Prop := made t ∧ (t.ctx c).exec.stopAfter ≠ none ∧
      ∃ e ∈ t.fst.faultQ, e.code = 0x5107 ∧ e.cls = .u ∧ e.ctx = some c ∧ e.unit = s.primaryOf x.logical
    let late (t : State) (kind : BitVec 16) (n : BitVec 48) : Prop := t.kept = s.kept ∧ (t.ctx c).exec.compares = (s.ctx c).exec.compares ∧ t.fst.replace = true ∧
      t.fst.state ≠ .run ∧ ∀ code ∈ [0x500A#16, 0x1006#16], ∃ e ∈ t.fst.faultQ, e.code = code ∧ e.cls = .u ∧ e.unit = s.primaryOf x.logical ∧
        e.ctx = some c ∧ e.p16 = kind ∧ e.p32 = n.setWidth 32
    (s.named c x.pass x.replay = .current → (s.ctx c).refereeRun x = false → x.primaryFp = x.shadowFp → ∃ t, exec (.shadowCompare c x) s = .next t ∧
      made t ∧ (t.ctx c).cov.clean = (s.ctx c).cov.clean ++ [(x.logical, x.cls)] ∧
      (t.ctx c).exec.cause = (s.ctx c).exec.cause ∧ (∀ d, d ≠ c → t.ctx d = s.ctx d) ∧ t.fst = s.fst ∧ t.out = s.out ∧ t.shd = s.shd) ∧
    (s.named c x.pass x.replay = .current → (s.ctx c).refereeRun x = false → x.primaryFp ≠ x.shadowFp → ∃ t, exec (.shadowCompare c x) s = .next t ∧ caught t) ∧
    (∀ a fp, s.named c x.pass x.replay = .current → (s.ctx c).refereeRun x = true → x.referee = some (a, fp) →
      (x.primaryFp = x.shadowFp → ∃ t, exec (.shadowCompare c x) s = .next t ∧ made t ∧ (t.ctx c).exec.cause = (s.ctx c).exec.cause ∧
        (fp ≠ x.primaryFp → (s.ctx c).exec.settledSlot x = false → ∃ h ∈ t.fst.histQ, h.unit = uArr a ∧ h.act = .confirm)) ∧
      (x.primaryFp ≠ x.shadowFp → fp = x.shadowFp → ∃ t, exec (.shadowCompare c x) s = .next t ∧ caught t) ∧
      (x.primaryFp ≠ x.shadowFp → fp ≠ x.shadowFp → (s.ctx c).exec.settledSlot x = true → ∃ t, exec (.shadowCompare c x) s = .next t ∧ made t ∧
        t.fst = s.fst ∧ (t.ctx c).exec.cause = (s.ctx c).exec.cause) ∧
      (x.primaryFp ≠ x.shadowFp → fp = x.primaryFp → (s.ctx c).exec.settledSlot x = false → ∃ t e, exec (.shadowCompare c x) s = .next t ∧ made t ∧
        e ∈ t.fst.faultQ ∧ e.code = 0x5106 ∧ e.unit = uArr x.shadow ∧ e.ctx = some c ∧ ∃ h ∈ t.fst.histQ, h.unit = uArr x.shadow ∧ h.act = .declare 3) ∧
      (fp ≠ x.shadowFp → fp ≠ x.primaryFp → x.primaryFp ≠ x.shadowFp → (s.ctx c).exec.settledSlot x = false → ∃ t, exec (.shadowCompare c x) s = .next t ∧ unresolved t)) ∧
    (s.named c x.pass x.replay = .current → (s.ctx c).refereeRun x = true → x.referee = none →
      (x.primaryFp = x.shadowFp → ∃ t, exec (.shadowCompare c x) s = .next t ∧ made t ∧ t.fst = s.fst ∧ (t.ctx c).exec.cause = (s.ctx c).exec.cause) ∧
      (x.primaryFp ≠ x.shadowFp → (s.ctx c).exec.settledSlot x = true → ∃ t, exec (.shadowCompare c x) s = .next t ∧ made t ∧ t.fst = s.fst) ∧
      (x.primaryFp ≠ x.shadowFp → (s.ctx c).exec.settledSlot x = false → ∃ t, exec (.shadowCompare c x) s = .next t ∧ unresolved t)) ∧
    (∀ n, s.named c x.pass x.replay = .committed n → x.primaryFp ≠ x.shadowFp → ∃ t, exec (.shadowCompare c x) s = .next t ∧ late t 2 n) ∧
    (∀ n, s.named c x.pass x.replay = .committed n → x.primaryFp = x.shadowFp → exec (.shadowCompare c x) s = .next s) ∧
    (s.named c x.pass x.replay = .aborted → exec (.shadowCompare c x) s = .next s) ∧
    (s.named c x.pass x.replay = .current → ∃ t e, exec (.shadowMissing c x.logical x.cls x.shadow x.pass x.replay) s = .next t ∧ e ∈ t.fst.faultQ ∧ e.code = 0x5102 ∧
      e.cls = .c ∧ e.unit = s.primaryOf x.logical ∧ e.p16 = pairField x.logical x.cls ∧
      (t.ctx c).exec.cause = some ((s.ctx c).exec.cause.getD { reason := 3, unit := s.primaryOf x.logical }) ∧ t.kept = s.kept) ∧
    (∀ n, s.named c x.pass x.replay = .committed n → ∃ t, exec (.shadowMissing c x.logical x.cls x.shadow x.pass x.replay) s = .next t ∧ late t 3 n) ∧
    (s.named c x.pass x.replay = .aborted → exec (.shadowMissing c x.logical x.cls x.shadow x.pass x.replay) s = .next s)

/-- From R204, R205, R206, R220, R259: a void tile of a work array of a rotating plan is offered once for the execution; a chase slot of the row takes the next eligible tile offered, in order after
the array chased last, at the earliest where the row's chase window begins and never behind its end; a write of VX_SHD_PAIR_SEL selects a pair and clears VALID, which the answer sets.
Model's choices: the array chased last (log 77), offsets (log 127), the info register while VALID is 0 (log 91). -/
def Obligations.VoidTilesAndChases : Prop :=
  (∀ (s : State) (a : Arr) (c : Ctx) (seq : BitVec 32) (p : Plan) (l : Nat), s.planOf c = some p → s.logicalOf a = some l → s.deciding c = true →
    p.rotates = true → p.core.owned.any (fun o => o.logical = l ∧ o.role = 0) = true →
    exec (.voidTileOffer a c (s.ctx c).pass.index seq) s = .next (if (s.ctx c).cov.offers.contains (rowOf a, l, seq) then s
      else s.onCov c (fun x => { x with offers := x.offers ++ [(rowOf a, l, seq)] })) ∧
    (∀ pass, pass ≠ (s.ctx c).pass.index → exec (.voidTileOffer a c pass seq) s = .next s)) ∧
  (∀ (s : State) (c : Ctx) (r : Row) (p : Plan), s.planOf c = some p → (s.ctx c).pass.st = .running → p.rotates = true →
    (p.chaseOver r (s.ctx c).pos.offset.toNat = true → exec (.chaseSlotFill c r) s = .next s) ∧
    (p.chaseOver r (s.ctx c).pos.offset.toNat = false → ((s.ctx c).cov.chases.filter (fun o => o.1 = r)).length < p.chaseSlots r →
    ((∀ o, chaseNext p (s.ctx c).pos.position (s.ctx c).cov r (s.shd.rows.at r).chased = some o → ∃ t, exec (.chaseSlotFill c r) s = .next t ∧
      (t.ctx c).cov.chases = (s.ctx c).cov.chases ++ [o] ∧ (t.ctx c).cov.chased = (s.ctx c).cov.chased + 1 ∧ (t.shd.rows.at r).chased = o.2.1 % 24 ∧
      o ∈ (s.ctx c).cov.offers ∧ o.1 = r ∧ o ∉ (s.ctx c).cov.chases ∧ p.chaseable (s.ctx c).pos.position o.2.1 o.2.2 = true ∧
      (∀ k e, p.cover.chase.find? (fun k => k.row = r.val) = some k → s.endOf c = some e → k.begin_ ≤ e → e < 2 ^ 32 → k.begin_ ≤ (t.ctx c).pos.offset.toNat) ∧
      t.fst = s.fst ∧ t.out = s.out ∧ t.kept = s.kept) ∧
    (chaseNext p (s.ctx c).pos.position (s.ctx c).cov r (s.shd.rows.at r).chased = none → exec (.chaseSlotFill c r) s = .next s)))) ∧
  (∀ (s : State) (src : Src) (v : Reg), s.gate 0x004200 = .carry → exec (.shdPairSelWrite src v) s = .next (({ s with
    shd := { s.shd with selCtx := field v 0 5, selLog := field v 5 10, selCls := field v 15 3, valid := false } } : State).complete src 0x004200 false 0 0)) ∧
  (∀ s : State, exec .pairInfoReady s = .next { s with shd := { s.shd with valid := true } })

/-! ## Passes (chapter 07) -/

/-- From R146, R222, R223, R224, R241, R259: at cycle 0 of an execution its reports are empty, its pass seed and its replay number are set and the offset counts from the tick; at the end marker the
context stands at a boundary with its operand visits over, its groups closing and its offset at the cycle the plan gives it; the collected difference of the poison counts is the poison of the execution. An execution that may not start does not.
Offsets between the plan's points are the model's reading (log 127). -/
def Obligations.ExecutionsStartAndEnd : Prop :=
  (∀ (s : State) (c : Ctx) (p : Plan), s.planOf c = some p → s.mayStart c p = true →
    (∀ r, p.usesRow r = true → (s.shd.rows.at r).ready = true ∧ 0 < (s.shd.rows.at r).freeSpares) →
    let replay : BitVec 8 := match (s.ctx c).exec.used with | some u => u + 1 | none => 0
    ∃ t, exec (.executionStart c) s = .next t ∧ (t.ctx c).pass.st = .running ∧ (t.ctx c).pass.replay = replay ∧ (t.ctx c).exec.used = some replay ∧
      (t.ctx c).pass.index = (s.ctx c).pass.index ∧ (t.ctx c).exec.ended = false ∧ (t.ctx c).exec.injected = false ∧ (t.ctx c).exec.cause = none ∧
      (t.ctx c).exec.covers = [] ∧ (t.ctx c).exec.compares = [] ∧ (t.ctx c).exec.fenced = [] ∧ (t.ctx c).exec.catches = (s.ctx c).exec.catches ∧ (t.ctx c).cov.offers = [] ∧ (t.ctx c).cov.chases = [] ∧
      (t.ctx c).exec.seed = passSeed p.core.seed (s.ctx c).pass.index replay ∧ (t.ctx c).exec.poisonBase = s.poisonCount c ∧
      (t.ctx c).pos.start = s.time.tick ∧ (t.ctx c).pos.offset = 0 ∧ (t.ctx c).pos.position = (s.ctx c).pos.position ∧
      (∀ d, d ≠ c → t.ctx d = s.ctx d) ∧ t.wce = s.wce ∧ t.shd = s.shd ∧ t.kept = s.kept) ∧
  (∀ (s : State) (c : Ctx) (p : Plan), s.planOf c = some p → s.mayStart c p = false → exec (.executionStart c) s = .next s) ∧
  (∀ (s : State) (c : Ctx) (p : Plan), s.planOf c = some p → (s.ctx c).pass.st = .running → ∃ t, exec (.endMarker c) s = .next t ∧
    (t.ctx c).exec.ended = true ∧ (t.ctx c).exec.endTick = s.time.tick ∧ ((t.ctx c).pass.st = .boundary ∨ (t.ctx c).pass.st = .held) ∧
    (∀ a g, (t.wce.ports.at a).group = some g → g.ctx = c → g.closing = true) ∧ (∀ g v, v ∈ (t.mgtu.at g).visits → v.owner ≠ some c) ∧
    (∀ q, p.pos (s.ctx c).pos.position = some q → (t.ctx c).pos.offset = BitVec.ofNat 32 q.e) ∧
    (t.ctx c).cov.unchased = (s.ctx c).cov.unchased + BitVec.ofNat 16 ((s.ctx c).cov.offers.length - (s.ctx c).cov.chases.length) ∧
    (p.core.lockstep = true → (s.ctx c).lsc.partner = none → (t.ctx c).pass.st = .held ∧ (t.ctx c).pass.holdDigest = true) ∧
    (p.core.lockstep = false → (s.ctx c).exec.injected = false → (s.ctx c).pass.holdFw = false → (t.ctx c).pass.st = .boundary) ∧
    (∀ d, d ≠ c → t.ctx d = s.ctx d) ∧ t.fst = s.fst ∧ t.kept = s.kept) ∧
  (∀ (s : State) (c : Ctx) (p : Plan) (writes : List (BitVec 61)), s.planOf c = some p → (s.ctx c).exec.ended = true → (s.ctx c).exec.collected = false →
    (s.ctx c).exec.injected = false → p.extra.pair = none → ∃ t, exec (.poisonCollect c writes) s = .next t ∧ (t.ctx c).exec.collected = true ∧
      (t.ctx c).exec.poison = s.poisonCount c - (s.ctx c).exec.poisonBase ∧ (t.ctx c).lsc.writes = writes ∧ (t.ctx c).exec.cause = (s.ctx c).exec.cause ∧
      (t.ctx c).pass = (s.ctx c).pass ∧ (∀ d, d ≠ c → t.ctx d = s.ctx d) ∧ t.out = s.out ∧ t.fst = s.fst ∧ t.kept = s.kept)

/-- From R224, R225, R226, R227, R228, R237, R247, R448, R450: the decision at the injection cycle of an execution, outside lock-step. With every condition met COMMIT goes out with the verdict commit and the pass
index goes on by one; with an abort cause, a verdict or a comparison not produced, or poison it goes out with the verdict abort, PASS_ABORT is recorded and the index stays. Without the token of a
running pass controller a clean execution is HELD until the token comes or the hold times out, and then the decision is made on the reports present.
Model's choices: readiness tokens and the hold (log 73), tile counts (log 70). -/
def Obligations.TheCommitDecision : Prop :=
  ∀ (s : State) (c : Ctx) (p : Plan), s.planOf c = some p → (s.ctx c).exec.ended = true → (s.ctx c).exec.injected = false →
    let n := (s.ctx c).pass.index
    let x := (s.ctx c).exec
    let met : Prop := x.cause = none ∧ s.tileShort c p = none ∧ (s.ctx c).compareOwing p = none ∧ x.poison = 0
    let atBoundary : Prop := (s.ctx c).pass.st = .boundary ∨ (s.ctx c).pass.st = .held
    let committed (t : State) : Prop := (t.ctx c).pass.index = n + 1 ∧ (t.ctx c).pass.commitCount = n + 1 ∧ (t.ctx c).exec.injected = true ∧
      (t.ctx c).exec.committed = true ∧ (t.ctx c).pos.position = ((s.ctx c).pos.position + 1) % p.q ∧ Out.commit c n true ∈ t.out ∧ (t.ctx c).tag.latches = [] ∧
      ((s.ctx c).prv.span = none → t.kept = s.kept)
    let aborted (t : State) (k : AbortCause) : Prop := (t.ctx c).pass.st = .aborting ∧ (t.ctx c).pass.index = n ∧ (t.ctx c).exec.injected = true ∧
      (t.ctx c).exec.committed = false ∧ (t.ctx c).pass.aborts = (s.ctx c).pass.aborts + 1 ∧ Out.commit c n false ∈ t.out ∧ (t.ctx c).tag.latches = [] ∧ t.kept = s.kept ∧
      ∃ e ∈ t.rcd.intake, e.code = 0x5001 ∧ e.unit = k.unit ∧ e.ctx = some c ∧ e.p16 = k.reason.setWidth 16 ||| ((s.ctx c).pass.replay.setWidth 16 <<< 4)
    (x.collected = true → met → p.core.lockstep = false → s.tokenMissing c = false → x.stopAfter = none → ∃ t, exec (.commitInject c) s = .next t ∧ committed t) ∧
    (∀ k, x.collected = true → x.cause = some k → ∃ t, exec (.commitInject c) s = .next t ∧ aborted t k) ∧
    (∀ k, x.cause = some k → ∃ t, exec (.commitUnitAbort c) s = .next t ∧ aborted t k) ∧
    (∀ a, x.collected = true → x.cause = none → s.tileShort c p = some a → ∃ t, exec (.commitInject c) s = .next t ∧ aborted t { reason := 3, unit := uArr a }) ∧
    (∀ k, x.collected = true → x.cause = none → s.tileShort c p = none → (s.ctx c).compareOwing p = some k → ∃ t e, exec (.commitInject c) s = .next t ∧
      aborted t { reason := 3, unit := s.primaryOf k.1 } ∧ e ∈ t.fst.faultQ ∧ e.code = 0x5102) ∧
    (x.collected = true → x.cause = none → s.tileShort c p = none → (s.ctx c).compareOwing p = none → x.poison ≠ 0 → ∃ t e, exec (.commitInject c) s = .next t ∧
      aborted t { reason := 8, unit := s.commitUnit c } ∧ e ∈ t.fst.faultQ ∧ e.code = 0x5007 ∧ e.cls = .u ∧ (t.ctx c).exec.stopAfter ≠ none) ∧
    (x.collected = true → met → p.core.lockstep = false → s.tokenMissing c = true → x.tokenWait = false → atBoundary → ∃ t, exec (.commitInject c) s = .next t ∧
      (t.ctx c).pass.st = .held ∧ (t.ctx c).pass.holdFw = true ∧ (t.ctx c).exec.tokenWait = true ∧ (t.ctx c).exec.injected = false ∧ (t.ctx c).pass.index = n ∧ t.kept = s.kept) ∧
    (∀ token : BitVec 48, x.tokenWait = true → n.toNat + 1 ≤ token.toNat →
      (met → p.core.lockstep = false → x.stopAfter = none → ∃ t, exec (.readinessToken c token) s = .next t ∧ (t.ctx c).exec.token = token ∧ committed t) ∧
      (∀ k, x.cause = some k → ∃ t, exec (.readinessToken c token) s = .next t ∧ (t.ctx c).exec.token = token ∧ aborted t k)) ∧
    (x.tokenWait = true → s.tokenMissing c = true →
      (met → p.core.lockstep = false → x.stopAfter = none → atBoundary → ∃ t, exec (.commitHoldTimeout c) s = .next t ∧ committed t ∧ (t.ctx c).pass.st = .held) ∧
      (∀ k, x.cause = some k → ∃ t, exec (.commitHoldTimeout c) s = .next t ∧ aborted t k))

/-- From R67, R117, R129, R179, R181, R223, R226, R233, R236, R237, R241, R244: PARTING fences the context at a target; COMMIT with the verdict commit has arrived there, with the verdict abort it fences an array
and empties its port. A verdict of the execution in progress counts and a catch among them aborts it; one of a committed execution is late. When the last target is quiet the provisional copies, their
tags, the poison latches and the comparisons are gone and the replay is due; after three replays, or at the drain's time limit, the context stops. REPLAY_START waits for its credits, goes out with the next
replay number, and at the arrays ends the fence and gives the credits back.
Model's choices: which execution a report names (log 69, log 154), the stop cause after a drain's limit (log 68, log 122), a third catch of a unit (log 65). -/
def Obligations.ReportsDrainsAndReplays : Prop :=
  (∀ (s : State) (u : UnitId) (c : Ctx), (s.fenceTargets c).contains u = true → (s.deciding c = true ∨ (s.ctx c).pass.st = .aborting) → (s.ctx c).exec.fenced.contains u = false →
    exec (.parting u c) s = .next (s.onExec c (fun e => { e with fenced := e.fenced ++ [u] }))) ∧
  (∀ (s : State) (u : UnitId) (c : Ctx), (s.fenceTargets c).contains u = true → (s.ctx c).exec.committed = true → (s.ctx c).exec.got.contains u = false →
    exec (.commit u c) s = .next (s.onExec c (fun e => { e with got := e.got ++ [u] }))) ∧
  (∀ (s : State) (a : Arr) (c : Ctx), (s.fenceTargets c).contains (uArr a) = true → (s.ctx c).exec.committed = false → (s.ctx c).pass.st = .aborting →
    ∃ t, exec (.commit (uArr a) c) s = .next t ∧ (t.ctx c).exec.fenced.contains (uArr a) = true ∧
      (∀ x ∈ (t.wce.ports.at a).park, x.desc.ctx ≠ c) ∧ (∀ x, (t.wce.ports.at a).cur = some x → x.desc.ctx ≠ c) ∧
      (∀ b ∈ (t.wce.ports.at a).blanks, b.exec.1 ≠ c) ∧ t.out = s.out ∧ t.kept = s.kept) ∧
  (∀ (s : State) (a : Arr) (f : VerdictFlit), f.port = uPort a →
    (s.named f.ctx (s.passOf f.ctx f.passLow) f.replay = .current →
      (f.verdict = .clean ∨ f.verdict = .void → exec (.tileVerdict f) s = .next (s.onExec f.ctx (fun e => { e with covers := e.covers ++ [(a, f.covers.toNat)] }))) ∧
      (f.verdict = .catch ∨ f.verdict = .notProduced → ∃ t, exec (.tileVerdict f) s = .next t ∧ (t.ctx f.ctx).exec.cause =
        some ((s.ctx f.ctx).exec.cause.getD { reason := if f.verdict = .catch then 1 else 3, unit := uArr a }) ∧ t.kept = s.kept)) ∧
    (s.named f.ctx (s.passOf f.ctx f.passLow) f.replay = .aborted → exec (.tileVerdict f) s = .next s) ∧
    (∀ n, s.named f.ctx (s.passOf f.ctx f.passLow) f.replay = .committed n →
      (f.verdict = .clean ∨ f.verdict = .void → exec (.tileVerdict f) s = .next s) ∧
      (f.verdict = .catch ∨ f.verdict = .notProduced → ∃ t, exec (.tileVerdict f) s = .next t ∧ t.fst.replace = true ∧ t.fst.state ≠ .run ∧ t.kept = s.kept ∧
        (∃ e ∈ t.fst.faultQ, e.code = 0x1006 ∧ e.cls = .u ∧ e.unit = uPort a ∧ e.ctx = some f.ctx) ∧
        ∃ e ∈ t.fst.faultQ, e.code = 0x500A ∧ e.cls = .u ∧ e.unit = uPort a ∧ e.p16 = (if f.verdict = .catch then 1 else 3) ∧ e.p32 = n.setWidth 32))) ∧
  (∀ (s : State) (u : UnitId) (c : Ctx), (s.ctx c).pass.st = .aborting → (s.fenceTargets c).contains u = true → (s.ctx c).exec.quiet.contains u = false →
    (∀ w ∈ s.fenceTargets c, w = u ∨ (s.ctx c).exec.quiet.contains w = true) → ∃ t, exec (.targetQuiet u c) s = .next t ∧ t.mem = s.mem ∧ t.still = s.still ∧
      (t.ctx c).tag.latches = [] ∧ (∀ g r, r ∈ (t.mgtu.at g).retained → r.ctx = c → r.committed = true) ∧
      (∀ g r, r ∈ (s.mgtu.at g).discarded c → t.tagOf (stackOf g) r.copy = emptyTag) ∧
      (∀ st b, (∀ g r, r ∈ (s.mgtu.at g).discarded c → tagKey st b ≠ tagKey (stackOf g) r.copy) → t.tagOf st b = s.tagOf st b) ∧
      ((s.ctx c).exec.stopAfter = none → (s.ctx c).pass.sinceStart ≠ 3 → (t.ctx c).exec.replayDue = true ∧ (t.ctx c).exec.compares = [] ∧
        (t.ctx c).pass.index = (s.ctx c).pass.index ∧ ((t.ctx c).pass.st = .boundary ∨ (t.ctx c).pass.st = .held)) ∧
      (s.aon.refOk = true → (s.ctx c).pass.sinceStart = 3 → (t.ctx c).pass.st = .stopped ∧ (t.ctx c).pass.stopEvent = (s.ctx c).exec.stopAfter.getD 0x5006 ∧
        ∃ e ∈ t.fst.faultQ, e.code = 0x5006 ∧ e.cls = .u) ∧
      (∀ ev, s.aon.refOk = true → (s.ctx c).exec.stopAfter = some ev → (t.ctx c).pass.st = .stopped ∧ (t.ctx c).pass.stopEvent = ev)) ∧
  (∀ (s : State) (c : Ctx) (u : UnitId), (s.ctx c).pass.st = .aborting → s.notQuiet c = some u → s.aon.refOk = true → ∃ t e, exec (.abortDrainTimeout c) s = .next t ∧
    (t.ctx c).pass.st = .stopped ∧ (t.ctx c).pass.stopEvent = ((s.ctx c).exec.stopAfter).getD 0x5009 ∧ e ∈ t.fst.faultQ ∧ e.code = 0x5009 ∧ e.cls = .u ∧ e.unit = u ∧
    ((s.ctx c).pass.sinceStart = 3 → ∃ f ∈ t.fst.faultQ, f.code = 0x5006 ∧ f.cls = .u) ∧ (t.ctx c).tag.latches = [] ∧ t.mem = s.mem ∧ t.still = s.still) ∧
  (∀ (s : State) (c : Ctx) (n : BitVec 8), (s.ctx c).exec.replayDue = true → (s.ctx c).exec.replaySent = false → (s.ctx c).pass.st = .boundary →
    (s.fwp.procs.at (pcOf (s.home c))).state ≠ .restarting → (s.ctx c).exec.used = some n →
    ((s.ctx c).exec.startOut = false → ∃ t, exec (.replayStartSend c) s = .next t ∧
      t.out = s.out ++ [.replayStart c (s.ctx c).pass.index (n + 1)] ∧ (t.ctx c).exec.replaySent = true ∧ (t.ctx c).exec.startOut = true ∧
      (t.ctx c).pass.replays = (s.ctx c).pass.replays + 1 ∧ (∃ e ∈ t.rcd.intake, e.code = 0x5002 ∧ e.ctx = some c ∧ e.p16 = (n + 1).setWidth 16) ∧ t.kept = s.kept) ∧
    ((s.ctx c).exec.startOut = true → exec (.replayStartSend c) s = .next s)) ∧
  (∀ (s : State) (c : Ctx) (p : Plan), s.planOf c = some p → (s.ctx c).exec.startOut = true → ∃ t, exec (.replayStart c) s = .next t ∧
    (t.ctx c).exec.fenced = [] ∧ (t.ctx c).exec.startOut = false ∧ (t.ctx c).pass = (s.ctx c).pass ∧ (∀ d, d ≠ c → t.ctx d = s.ctx d) ∧
    (∀ q ∈ t.scr.running, s.patternOn p q = false) ∧ t.wce = s.wce ∧ t.kept = s.kept)

/-- From R249, R250, R251, R253: the driver's commands to a context. HOLD and RELEASE set and end its hold; STOP and ABORT_STOP stop at once a context that decides
nothing, after the drain one whose execution drains, and one that decides at its COMMIT, which an ABORT_STOP makes an abort with reason 7 where no cause came before; RESTART starts a stopped one
at its boundary with a new count of replays; each is recorded as PASS_COMMAND. A command that is not legal is refused: REFUSED is set, and the context is otherwise as it was, with the faults, the
records and the other contexts.
Which log a refusal goes to is the model's choice (log 47). -/
def Obligations.DriverCommandsToAContext : Prop :=
  ∀ (s : State) (src : Src) (c : Ctx), s.gate (passCtrlOff c) = .carry →
    let told (t : State) (n : BitVec 16) : Prop := (t.ctx c).pass.refused = false ∧ t.kept = s.kept ∧ ∃ e ∈ t.rcd.intake, e.code = 0x500C ∧ e.ctx = some c ∧ e.p16 = n
    let turned (t : State) : Prop := (t.ctx c).pass = { (s.ctx c).pass with refused := true } ∧ (t.ctx c).exec = (s.ctx c).exec ∧
      (∀ d, d ≠ c → t.ctx d = s.ctx d) ∧ t.wce = s.wce ∧ t.shd = s.shd ∧ t.fst = s.fst ∧ t.rcd = s.rcd ∧ t.kept = s.kept
    let stopped (t : State) : Prop := (t.ctx c).pass.st = .stopped ∧ (t.ctx c).pass.stopEvent = 0x500C ∧ (t.ctx c).pass.stopPass = (s.ctx c).pass.index
    let due (t : State) : Prop := (t.ctx c).pass.st = (s.ctx c).pass.st ∧ (t.ctx c).exec.stopAfter = some ((s.ctx c).exec.stopAfter.getD 0x500C)
    (s.idleCtx c = false → ∃ t, exec (.hold src c) s = .next t ∧ told t 1 ∧ (t.ctx c).pass.driverHold = true ∧
      (((s.ctx c).pass.st = .boundary ∨ (s.ctx c).pass.st = .held) → (s.ctx c).exec.injected = true → (t.ctx c).pass.st = .held) ∧
      ((s.ctx c).pass.st = .running → (t.ctx c).pass.st = .running)) ∧
    ((s.ctx c).pass.st = .held → (s.ctx c).pass.driverHold = true → ∃ t, exec (.release src c) s = .next t ∧ told t 2 ∧ (t.ctx c).pass.driverHold = false ∧
      ((s.ctx c).pass.holdFw = false → (s.ctx c).pass.holdDigest = false → s.subWait c = false → (t.ctx c).pass.st = .boundary)) ∧
    (s.idleCtx c = false → s.deciding c = false → (s.ctx c).pass.st ≠ .aborting → s.aon.refOk = true →
      (∃ t, exec (.stop src c) s = .next t ∧ told t 3 ∧ stopped t) ∧ ∃ t, exec (.abortStop src c) s = .next t ∧ told t 4 ∧ stopped t) ∧
    ((s.ctx c).pass.st = .aborting → s.deciding c = false →
      (∃ t, exec (.stop src c) s = .next t ∧ told t 3 ∧ due t) ∧ ∃ t, exec (.abortStop src c) s = .next t ∧ told t 4 ∧ due t) ∧
    (s.idleCtx c = false → s.deciding c = true → (s.ctx c).pass.st ≠ .aborting → ∃ t, exec (.stop src c) s = .next t ∧ told t 3 ∧ due t ∧
      (t.ctx c).exec.cause = (s.ctx c).exec.cause) ∧
    (s.idleCtx c = false → s.deciding c = true → ∃ t, exec (.abortStop src c) s = .next t ∧ told t 4 ∧ due t ∧
      (t.ctx c).exec.cause = some ((s.ctx c).exec.cause.getD { reason := 7, unit := s.commitUnit c })) ∧
    (s.mayRestart c = true → ∃ t, exec (.restart src c) s = .next t ∧ told t 5 ∧ ((t.ctx c).pass.st = .boundary ∨ (t.ctx c).pass.st = .held) ∧
      (t.ctx c).pass.sinceStart = 0 ∧ (t.ctx c).exec.cause = none ∧ (t.ctx c).exec.stopAfter = none ∧ (t.ctx c).pass.index = (s.ctx c).pass.index) ∧
    (s.idleCtx c = true → (∃ t, exec (.hold src c) s = .next t ∧ turned t) ∧ (∃ t, exec (.stop src c) s = .next t ∧ turned t) ∧
      ∃ t, exec (.abortStop src c) s = .next t ∧ turned t) ∧
    ((s.ctx c).pass.st ≠ .held ∨ (s.ctx c).pass.driverHold = false → ∃ t, exec (.release src c) s = .next t ∧ turned t) ∧
    (s.mayRestart c = false → ∃ t, exec (.restart src c) s = .next t ∧ turned t)

/-- From R57, R198, R243, R248, R356, R357: an array declared lasting that serves a logical position, with a free spare of its row, has its substitution ordered, which holds every context that uses the row at its boundary. A substitution ordered for a row goes to its row controller when every context that uses the row stands at a boundary and a spare is there; when it is carried out, the spare serves the logical column, SPARE_SUBSTITUTED is recorded and the array it
replaces is RETIRED; a command not answered in time is withdrawn with SUBSTITUTION_TIMEOUT, and its spare is declared lasting. Model's choices: the order in which orders are served (log 94), fence targets after a substitution (log 71). -/
def Obligations.SubstitutionAtABoundary : Prop :=
  (∀ (s : State) (r : Row) (o : SubOrder) (sp : Nat), s.fst.orderOf r = some o → o.issued = false → s.rowAtBoundary r = true → s.rowInReset r = false →
    (s.sparesOf r).head? = some sp → ∃ t, exec (.substitutionIssue r) s = .next t ∧ Out.substitute r o.col sp ∈ t.out ∧
      (∃ q, t.fst.orderOf r = some q ∧ q.issued = true ∧ q.spare = sp ∧ q.col = o.col ∧ q.at_ = s.time.tick) ∧ t.ctxs = s.ctxs ∧ t.shd = s.shd ∧ t.kept = s.kept) ∧
  (∀ (s : State) (a : Arr) (l : Nat) (e : HistEntry) (rest : List HistEntry) (cause : BitVec 8), s.fst.histQ = e :: rest → e.unit = uArr a → e.act = .declare cause →
    s.fst.declared (uArr a) = false → (s.proc mc).state = .run → s.logicalOf a = some l → s.spareFor (rowOf a) = true → ∃ t, exec .historyEntry s = .next t ∧
      t.fst.orders = s.fst.orders ++ [{ row := rowOf a, col := l % 24, spare := 31 }] ∧ (t.fst.unit (uArr a)).state = .lasting ∧
      (∀ c p, s.planOf c = some p → p.usesRow (rowOf a) = true → (s.ctx c).exec.injected = true → ((s.ctx c).pass.st = .boundary ∨ (s.ctx c).pass.st = .held) →
        (t.ctx c).pass.st = .held ∧ (t.ctx c).pass.holdSub = true) ∧ t.kept = s.kept) ∧
  (∀ (s : State) (r : Row), s.rowAtBoundary r = false → exec (.substitutionIssue r) s = .next s) ∧
  (∀ (s : State) (r : Row) (o : SubOrder), s.fst.orders = [o] → o.row = r → o.issued = true → o.redo = false → o.col < 24 → o.spare < 26 →
    (s.shd.rows.at r).place.length = 24 → (s.shd.rows.at r).lendTo = 31 → 2 ≤ (s.shd.rows.at r).freeSpares → o.spare ≠ (s.shd.rows.at r).place.getD o.col 0 →
    ∃ t, exec (.spareSubstituted r) s = .next t ∧
      t.physOf (r.val * 24 + o.col) = some (arrOf r o.spare) ∧ t.fst.orders = [] ∧
      (t.fst.unit (uArr (arrOf r ((s.shd.rows.at r).place.getD o.col 0)))).state = .retired ∧
      (∃ e ∈ t.rcd.intake, e.code = 0x1002 ∧ e.unit = uArr (arrOf r o.spare) ∧ e.p16 = BitVec.ofNat 16 (r.val * 24 + o.col)) ∧ t.kept = s.kept) ∧
  (∀ (s : State) (r : Row) (o : SubOrder), s.fst.orderOf r = some o → o.issued = true → s.aon.refOk = true → ∃ t e, exec (.substitutionTimeout r) s = .next t ∧
    Out.withdrawSubstitution r ∈ t.out ∧ e ∈ t.fst.faultQ ∧ e.code = 0x1003 ∧ e.cls = .u ∧ e.unit = uArr (arrOf r o.spare) ∧ t.fst.declared (uArr (arrOf r o.spare)) = true ∧ t.kept = s.kept)

/-! ## Spindle and lock-step (chapter 08) -/

/-- From R255 to R258, R262, R268, R270: a chip below the root sends its tick over its sync link, and answers a TICK_SYNC with its tick at reception and at the reply, stepping where the downstream is ahead. The reply gives the link's one-way delay and the offset, local less upstream
in 1/16 tick: within 10 µs the tick slews, by the offset and what the rate difference adds; behind by more, or at a first exchange, it steps forward with TICK_STEP; ahead by more the upstream is asked to step. Retries count. Without exchanges TICK_UNSYNCED is raised, a
C fault. Bits [63:30] of the tick are stored where they changed, once the flash answers (R410). A commit notice is kept for its pass; one missing too long stops the waiting context. VX_SPN_CFG takes its fields, with their least values; CHIP_NUMBER only while no plan is loaded.
Model's choices: the sign of the offset and what a step leaves of the slew (log 79), a changed CHIP_NUMBER under a loaded plan (log 81), seconds under a slew (log 156). -/
def Obligations.TickAlignmentAndNotices : Prop :=
  (∀ (s : State) (l : Lnk), s.syncLink = some l → exec .tickSyncSend s = .next { s with spn := { s.spn with sentTick := s.time.tick, sentFrac := s.time.frac }, out := s.out ++ [.control (.link l) 0x10 (.tickSync s.time.tick s.time.frac)] }) ∧
  (∀ (s : State) (l : Lnk) (tick : BitVec 64) (frac : BitVec 4) (n : Nat), s.hasLink l = true → (s.lgtu.at l).fenced = false →
    exec (.tickSync l tick frac none n) s = .next { s with spn := { s.spn with retries := s.spn.retries + BitVec.ofNat 16 n }, out := s.out ++ [.control (.link l) 0x10 (.tickSyncReply s.time.tick s.time.frac s.time.tick s.time.frac)] } ∧
    (∀ d : BitVec 64, s.startPending = false → ∃ t e, exec (.tickSync l tick frac (some d) n) s = .next t ∧ t.time.tick = BitVec.ofNat 64 ((s.time.tick.toNat * 16 + s.time.frac.toNat + d.toNat * 16) / 16) ∧
      t.rcd.intake = s.rcd.intake ++ [e] ∧ e.code = 0x6001 ∧ e.unit = uSpn ∧ e.p16 = 2 ∧ t.out = s.out ++ [.control (.link l) 0x10 (.tickSyncReply s.time.tick s.time.frac t.time.tick t.time.frac)] ∧ t.ctxs = s.ctxs ∧
      t.mem = s.mem ∧ t.tags = s.tags ∧ t.pending = s.pending ∧ t.fuses = s.fuses)) ∧
  (∀ (s : State) (l : Lnk) (rx tx : BitVec 64) (rxf txf : BitVec 4) (n : Nat), s.syncLink = some l →
    let t1 := tick16 s.spn.sentTick s.spn.sentFrac
    let t4 := tick16 s.time.tick s.time.frac
    let offset : Int := ((t1 - tick16 rx rxf) + (t4 - tick16 tx txf)) / 2
    let heard (t : State) : Prop := t.spn.synced = true ∧ t.spn.joined = true ∧ t.spn.offset = offset ∧ t.spn.retries = s.spn.retries + BitVec.ofNat 16 n ∧
      (t.lgtu.at l).delay = (((t4 - t1) - (tick16 tx txf - tick16 rx rxf)) / 2).toNat ∧ t.ctxs = s.ctxs ∧ t.mem = s.mem ∧ t.tags = s.tags ∧ t.pending = s.pending ∧ t.fuses = s.fuses
    (s.spn.joined = true → -160000 ≤ offset → offset ≤ 160000 → ∃ t, exec (.tickSyncReply l rx rxf tx txf n) s = .next t ∧ heard t ∧
      t.spn.lastSync = s.time.tick ∧ t.spn.rate = -(s.rateFrom offset) ∧ t.spn.slew = -(offset + s.rateFrom offset) ∧ t.spn.base = offset ∧ t.time = s.time ∧ t.out = s.out ∧ t.rcd = s.rcd) ∧
    (offset < 0 → (s.spn.joined = false ∨ offset < -160000) → s.startPending = false → ∃ t e, exec (.tickSyncReply l rx rxf tx txf n) s = .next t ∧ heard t ∧
      t.time.tick = BitVec.ofNat 64 ((s.time.tick.toNat * 16 + s.time.frac.toNat + offset.natAbs) / 16) ∧ t.spn.slew = -(s.rateFrom offset) ∧
      t.spn.lastSync = s.time.tick + BitVec.ofNat 64 (offset.natAbs / 16) ∧
      t.rcd.intake = s.rcd.intake ++ [e] ∧ e.code = 0x6001 ∧ e.unit = uSpn ∧ e.p16 = (if s.spn.joined then 1 else 0)) ∧
    (offset < -160000 → s.startPending = true → ∃ t, exec (.tickSyncReply l rx rxf tx txf n) s = .next t ∧ heard t ∧ t.time = s.time ∧ t.spn.deferred ≠ none) ∧
    (160000 < offset → ∃ t, exec (.tickSyncReply l rx rxf tx txf n) s = .next t ∧ heard t ∧ t.out = s.out ++ [.control (.link l) 0x10 (.stepUp s.time.tick)] ∧ t.time = s.time)) ∧
  (∀ (s : State) (src : Src) (v : Reg), s.gate 0x600008 = .carry → ∃ t, exec (.spnCfgWrite src v) s = .next t ∧ t.spn.master = flag v 12 ∧ t.spn.up = field v 13 5 ∧ t.spn.alt = field v 18 5 ∧
    t.spn.lead = BitVec.ofNat 8 (max 20 (field v 24 8 : BitVec 8).toNat) ∧ t.spn.armMs = BitVec.ofNat 16 (max 1 (field v 32 16 : BitVec 16).toNat) ∧
    t.spn.noticeMs = BitVec.ofNat 16 (max 1 (field v 48 16 : BitVec 16).toNat) ∧ t.spn.chip = (if s.loadedCtxs = [] then field v 0 12 else s.spn.chip) ∧ t.ctxs = s.ctxs ∧ t.kept = s.kept) ∧
  (∀ s : State, s.spn.master = false → s.spn.up ≠ 31 → ∃ t e, exec .tickUnsynced s = .next t ∧ t = { s with spn := { s.spn with synced := false }, fst := { s.fst with faultQ := s.fst.faultQ ++ [e] } } ∧
    e.code = 0x6002 ∧ e.cls = .c ∧ e.unit = uSpn ∧ e.p16 = s.spn.up.setWidth 16) ∧
  (∀ s : State, s.time.high ≠ (s.time.tick >>> 30).setWidth 34 → ∃ t, exec .tickHighStore s = .next t ∧ t.time.high = (s.time.tick >>> 30).setWidth 34 ∧
    (let w : BitVec 64 := ((s.time.tick >>> 30).setWidth 34 : BitVec 34).setWidth 64
      if s.rcd.flashOk = true then t.rcd.flash = s.rcd.flash.putItem 1 w s.time.tick else t.rcd.flash = s.rcd.flash ∧ t.rcd.confOut = s.rcd.confOut ++ [(1, w, s.time.tick)]) ∧ t.ctxs = s.ctxs ∧ t.out = s.out ∧ t.kept = s.kept) ∧
  (∀ (s : State) (chip : BitVec 16) (c : Ctx) (pass : BitVec 48) (n : Nat), ∃ t, exec (.commitNotice chip c pass n) s = .next t ∧ (chip, pass) ∈ (t.ctx c).bar.notices ∧
    (∀ x ∈ (s.ctx c).bar.notices, x ∈ (t.ctx c).bar.notices) ∧ (t.ctx c).pass = (s.ctx c).pass ∧ (∀ d, d ≠ c → t.ctx d = s.ctx d) ∧ t.out = s.out ∧ t.fst = s.fst ∧ t.kept = s.kept) ∧
  (∀ (s : State) (c : Ctx) (p : Plan) (d : Dependence), s.planOf c = some p → (s.ctx c).missingNotice p = some d → (s.ctx c).pass.st = .boundary → s.deciding c = false →
    s.aon.refOk = true → ∃ t e, exec (.noticeTimeout c) s = .next t ∧ (t.ctx c).pass.st = .stopped ∧ (t.ctx c).pass.stopEvent = 0x600A ∧ e ∈ t.fst.faultQ ∧ e.code = 0x600A ∧
      e.cls = .u ∧ e.ctx = some c ∧ e.p16 = BitVec.ofNat 16 d.chip ∧ t.kept = s.kept)

/-- From R271 to R275: the barrier of a context's group, whose frames go out over both routes of a member; of two copies of ARM the first acts. At its boundary the master sends ARM and a member, once it has seen ARM, answers ARMED; with every member armed the master sends one START tick, which members acknowledge; at the tick the context leaves its boundary. A
member that does not answer in time abandons the barrier; START_ACK not seen from all does too, and a member set back goes on to the next number; its fourth ABANDON is BARRIER_FAIL, and one for a barrier that has fired stops it, the first of its two copies.
Model's choices: the numbers of abandoned barriers (log 80), the chip at fault (log 35). -/
def Obligations.HeadstockBarriers : Prop :=
  let toAll (c : Ctx) (s t : State) (type : Byte) (x : Ctl) : Prop := ∀ m ∈ s.otherMembers c, ∀ r ∈ s.routesOf c m, Out.control (.member m r) type x ∈ t.out
  (∀ (s : State) (c : Ctx) (p : Plan), s.planOf c = some p → (s.ctx c).pass.st = .boundary → (s.ctx c).exec.injected = true → (s.ctx c).needsBarrier p = true → (s.ctx c).bar.waiting = false →
    (s.ctx c).bar.released = false → s.commitArrived c = true → (s.ctx c).noticesIn p = true → s.loadAllows c = true → ∃ t, exec (.barrierArrive c) s = .next t ∧ (t.ctx c).bar.waiting = true ∧
      (t.ctx c).pass = (s.ctx c).pass ∧ (∀ d, d ≠ c → t.ctx d = s.ctx d) ∧ t.kept = s.kept ∧
      (s.isMaster c = true → toAll c s t 0x11 (.arm (s.groupNo c) (t.ctx c).bar.number (s.checkOf c))) ∧
      (s.isMaster c = false → (s.ctx c).bar.armSeen = true → (t.ctx c).bar.state = 1 ∧
        t.out = (toMaster s c (.armed (s.groupNo c) (t.ctx c).bar.number (s.checkOf c) (!s.spn.synced && !s.spn.master))).out)) ∧
  (∀ (s : State) (c : Ctx) (g check : BitVec 16) (n : Nat), s.ctxOfGroup g = some c → s.isMaster c = false → (s.ctx c).bar.state ≠ 1 → (s.ctx c).bar.state ≠ 2 → (s.ctx c).bar.armSeen = false → (s.ctx c).bar.waiting = false →
    ∃ t, exec (.arm g (s.ctx c).bar.current check n) s = .next t ∧ (t.ctx c).bar.armSeen = true ∧ (t.ctx c).bar.peerCheck = check ∧ t.out = s.out ∧ (t.ctx c).pass = (s.ctx c).pass ∧ t.kept = s.kept) ∧
  (∀ (s : State) (c : Ctx) (g number check : BitVec 16) (n : Nat), s.ctxOfGroup g = some c → ((s.ctx c).bar.state = 1 ∨ (s.ctx c).bar.state = 2 ∨ (s.ctx c).bar.armSeen = true) →
    exec (.arm g number check n) s = .next (frameRetries s c n)) ∧
  (∀ (s : State) (c : Ctx) (chip : BitVec 12) (g check : BitVec 16) (n : Nat), s.ctxOfGroup g = some c → s.isMaster c = true → (s.ctx c).bar.state = 1 →
    (s.otherMembers c).contains (chip.setWidth 16) = true → ((s.pairOf c).isSome = true → check = s.checkOf c) → ∃ t, exec (.armed chip g (s.ctx c).bar.number check false n) s = .next t ∧
      chip.setWidth 16 ∈ (t.ctx c).bar.armed ∧ t.kept = s.kept ∧
      ((∀ m ∈ s.otherMembers c, m = chip.setWidth 16 ∨ m ∈ (s.ctx c).bar.armed) → (t.ctx c).bar.state = 2 ∧
        let at_ := s.time.tick + BitVec.ofNat 64 (max (s.spn.lead.toNat * 1000) (2 * s.deliveryBound c + 2000))
        (t.ctx c).bar.startAt = some at_ ∧ toAll c s t 0x13 (.start (s.groupNo c) (s.ctx c).bar.number at_)) ∧
      ((∃ m ∈ s.otherMembers c, m ≠ chip.setWidth 16 ∧ m ∉ (s.ctx c).bar.armed) → (t.ctx c).bar.state = 1 ∧ t.out = s.out)) ∧
  (∀ (s : State) (c : Ctx) (g : BitVec 16) (at_ : BitVec 64) (n : Nat), s.ctxOfGroup g = some c → s.isMaster c = false → (s.ctx c).bar.state = 1 →
    ∃ t, exec (.start g (s.ctx c).bar.number at_ n) s = .next t ∧ (t.ctx c).bar.state = 2 ∧ (t.ctx c).bar.startAt = some at_ ∧
      t.out = (toMaster s c (.startAck g (s.ctx c).bar.number)).out ∧ (t.ctx c).pass = (s.ctx c).pass ∧ t.kept = s.kept) ∧
  (∀ (s : State) (c : Ctx) (chip : BitVec 12) (g : BitVec 16) (n : Nat), s.ctxOfGroup g = some c → s.isMaster c = true → (s.ctx c).bar.state = 2 →
    ∃ t, exec (.startAck chip g (s.ctx c).bar.number n) s = .next t ∧ chip.setWidth 16 ∈ (t.ctx c).bar.acked ∧ (t.ctx c).bar.state = 2 ∧ t.out = s.out ∧ t.kept = s.kept) ∧
  (∀ (s : State) (c : Ctx) (at_ : BitVec 64), (s.ctx c).bar.state = 2 → (s.ctx c).bar.startAt = some at_ → (s.isMaster c = true → s.missingMember c (s.ctx c).bar.acked = none) →
    ∃ t, exec (.barrierFire c) s = .next t ∧ (t.ctx c).bar.state = 3 ∧ (t.ctx c).bar.released = true ∧ (t.ctx c).bar.waiting = false ∧ (t.ctx c).bar.startAt = none ∧
      (s.isMaster c = true → ∃ e ∈ t.rcd.intake, e.code = 0x6006 ∧ e.unit = uSpn ∧ e.ctx = some c) ∧ t.mem = s.mem ∧ t.tags = s.tags) ∧
  (∀ (s : State) (c : Ctx) (m : BitVec 16), s.isMaster c = true → (s.ctx c).bar.state = 1 → (s.ctx c).bar.waiting = true → s.missingMember c (s.ctx c).bar.armed = some m →
    (s.ctx c).bar.attempts ≠ 2 → ∃ t, exec (.armTimeout c) s = .next t ∧ (t.ctx c).bar.attempts = (s.ctx c).bar.attempts + 1 ∧ (t.ctx c).bar.number = (s.ctx c).bar.number + 1 ∧
      (∃ e ∈ t.rcd.intake, e.code = 0x6007 ∧ e.ctx = some c ∧ e.p32 = (s.ctx c).bar.number.setWidth 32 ||| (1 <<< 16) ||| ((m.setWidth 12 : BitVec 12).setWidth 32 <<< 20)) ∧
      toAll c s t 0x15 (.abandon (s.groupNo c) (s.ctx c).bar.number 1) ∧ t.kept = s.kept) ∧
  (∀ (s : State) (c : Ctx) (m : BitVec 16), s.isMaster c = true → (s.ctx c).bar.state = 2 → s.missingMember c (s.ctx c).bar.acked = some m → (s.ctx c).bar.attempts ≠ 2 →
    ∃ t, exec (.startAckDeadline c) s = .next t ∧ (t.ctx c).bar.attempts = (s.ctx c).bar.attempts + 1 ∧ (t.ctx c).bar.number = (s.ctx c).bar.number + 1 ∧
      toAll c s t 0x15 (.abandon (s.groupNo c) (s.ctx c).bar.number 2) ∧ t.kept = s.kept) ∧
  (∀ (s : State) (c : Ctx) (g : BitVec 16) (cause : BitVec 4) (n : Nat), s.ctxOfGroup g = some c → s.isMaster c = false →
    ((s.ctx c).bar.coming.attempts ≠ 3 → cause ≠ 4 → ∃ t, exec (.abandon g (s.ctx c).bar.current cause n) s = .next t ∧ (t.ctx c).bar.number = (s.ctx c).bar.current + 1 ∧
      (t.ctx c).bar.attempts = (s.ctx c).bar.coming.attempts + 1 ∧ (t.ctx c).bar.state = 4 ∧ (t.ctx c).bar.startAt = none ∧
      (∃ e ∈ t.rcd.intake, e.code = 0x6007 ∧ e.unit = uSpn ∧ e.ctx = some c) ∧ (t.ctx c).pass = (s.ctx c).pass ∧ t.mem = s.mem ∧ t.tags = s.tags) ∧
    ((s.ctx c).bar.coming.attempts = 3 → s.aon.refOk = true → ∃ t e, exec (.abandon g (s.ctx c).bar.current cause n) s = .next t ∧ (t.ctx c).bar.state = 5 ∧
      e ∈ t.fst.faultQ ∧ e.code = 0x6008 ∧ e.cls = .u ∧ e.unit = uSpn ∧ e.ctx = some c ∧ e.p16 = s.groupNo c ∧ t.kept = s.kept) ∧
    ((s.ctx c).bar.state = 3 → (s.ctx c).bar.split = true → exec (.abandon g (s.ctx c).bar.number cause n) s = .next (frameRetries s c n)) ∧
    ((s.ctx c).bar.state = 3 → (s.ctx c).bar.split = false → s.aon.refOk = true → ∃ t e, exec (.abandon g (s.ctx c).bar.number cause n) s = .next t ∧ (t.ctx c).bar.split = true ∧
      e ∈ t.fst.faultQ ∧ e.code = 0x6009 ∧ e.cls = .u ∧ e.unit = uSpn ∧ e.ctx = some c ∧ e.p16 = g ∧ t.kept = s.kept))

/-- From R281 to R287, R226: the 256 bits of a DIGEST frame spell it again. One of the pair's round that equals the local one lets the pass commit; one that differs aborts it with reason 6 and LOCKSTEP_MISMATCH, and starts the next round; pair checks that differ stop the context; one that contradicts a pass already committed is late. In the hunt the fingerprints are written to the hunt area, the first segment that
differs is sought, then the first write of it, with the array and the work item that wrote it; the reserve of the array's row then decides the locus. A digest that stays out aborts with LOCKSTEP_TIMEOUT, and PAIR_STOP stops the context.
Model's choices: how long the hunt stays armed (log 82), the hunt area written without a key (log 147), offsets (log 127). -/
def Obligations.LockStepDigestsAndHunt : Prop :=
  (∀ f : DigestFrame, digestFrame (digestWord f) = some f) ∧
  (∀ (s : State) (w : BitVec 256) (f : DigestFrame) (pr : Pair) (own : BitVec 61) (n : Nat), digestFrame w = some f → s.pairOf f.ctx = some pr → s.idleCtx f.ctx = false → f.pairCheck = pr.check →
    f.pass = (s.ctx f.ctx).pass.index → f.round = (s.ctx f.ctx).lsc.round → (s.ctx f.ctx).lsc.own = some own →
    (f.digest = own → ∃ t, exec (.digest w n) s = .next t ∧ (t.ctx f.ctx).lsc.equal = true ∧ (t.ctx f.ctx).pass.holdDigest = false ∧
      (t.ctx f.ctx).exec.cause = (s.ctx f.ctx).exec.cause ∧ t.fst = s.fst ∧ t.kept = s.kept) ∧
    (f.digest ≠ own → ∃ t e, exec (.digest w n) s = .next t ∧ (t.ctx f.ctx).exec.cause = some ((s.ctx f.ctx).exec.cause.getD { reason := 6, unit := s.commitUnit f.ctx }) ∧
      (t.ctx f.ctx).lsc.round = (s.ctx f.ctx).lsc.round + 1 ∧ (t.ctx f.ctx).lsc.mismatches = (s.ctx f.ctx).lsc.mismatches + 1 ∧ (t.ctx f.ctx).lsc.hunt = true ∧
      e ∈ t.fst.faultQ ∧ e.code = 0x600B ∧ e.cls = .c ∧ e.unit = uLsc ∧ t.kept = s.kept)) ∧
  (∀ (s : State) (w : BitVec 256) (f : DigestFrame) (pr : Pair) (n : Nat), digestFrame w = some f → s.pairOf f.ctx = some pr → s.idleCtx f.ctx = false → f.pairCheck = pr.check →
    (f.pass ≠ (s.ctx f.ctx).pass.index ∨ f.round ≠ (s.ctx f.ctx).lsc.round) →
    ((s.ctx f.ctx).lsc.contradicts f = false → exec (.digest w n) s = .next (frameRetries s f.ctx n)) ∧
    ((s.ctx f.ctx).lsc.contradicts f = true → s.aon.refOk = true → ∃ t e, exec (.digest w n) s = .next t ∧ e ∈ t.fst.faultQ ∧ e.code = 0x1006 ∧ e.cls = .u ∧ e.unit = s.commitUnit f.ctx ∧
      e.p16 = 6 ∧ e.p32 = f.pass.setWidth 32 ∧ t.fst.replace = true ∧ t.kept = s.kept)) ∧
  (∀ (s : State) (w : BitVec 256) (f : DigestFrame) (pr : Pair) (n : Nat), digestFrame w = some f → s.pairOf f.ctx = some pr → s.deciding f.ctx = true → s.idleCtx f.ctx = false → f.pairCheck ≠ pr.check →
    ∃ t e, exec (.digest w n) s = .next t ∧ (t.ctx f.ctx).exec.stopAfter ≠ none ∧ e ∈ t.fst.faultQ ∧ e.code = 0x600D ∧ e.cls = .u ∧ e.p16 = pr.check ∧ t.kept = s.kept) ∧
  (∀ (s : State) (c : Ctx) (p : Plan) (pr : Pair) (ws : List (BitVec 61)), s.planOf c = some p → p.extra.pair = some pr → (s.ctx c).exec.ended = true →
    (s.ctx c).exec.collected = false → (s.ctx c).exec.injected = false → (s.ctx c).lsc.hunt = true → ∃ t, exec (.poisonCollect c ws) s = .next t ∧ (t.ctx c).exec.collected = true ∧
      (t.ctx c).exec.poison = s.poisonCount c - (s.ctx c).exec.poisonBase ∧ (t.ctx c).lsc.writes = ws ∧ t.still = s.still ∧
      (∀ i st b, i < 8 * ws.length → s.enginePlace (pr.hunt + i) = some (st, b) →
        (∀ j y, j < 8 * ws.length → j ≠ i → s.enginePlace (pr.hunt + j) = some y → memKey y.1 y.2 ≠ memKey st b) →
        t.byteAt st b = BitVec.ofNat 8 ((ws.getD (i / 8) 0).toNat >>> (8 * (i % 8)))) ∧
      (∀ st b, (∀ j y, j < 8 * ws.length → s.enginePlace (pr.hunt + j) = some y → memKey y.1 y.2 ≠ memKey st b) → t.byteAt st b = s.byteAt st b)) ∧
  (∀ (s : State) (c : Ctx) (p : Plan) (ds : List (BitVec 61)) (n g : Nat), s.planOf c = some p → (s.ctx c).lsc.sentSegs = true →
    firstDiff (segmentDigests (digestKey p.core.seed (s.ctx c).pass.index) (s.ctx c).lsc.area) ds = some g → ∃ t, exec (.segment c ds n) s = .next t ∧
      (t.ctx c).lsc.segment = some g ∧ t.out = (sendPair s c (.huntTags (((s.ctx c).lsc.area.drop (4096 * g)).take 4096))).out ∧ (t.ctx c).pass = (s.ctx c).pass ∧ t.fst = s.fst ∧ t.kept = s.kept) ∧
  (∀ (s : State) (c : Ctx) (p : Plan) (fps : List (BitVec 61)) (n g i : Nat), s.planOf c = some p → (s.ctx c).lsc.segment = some g →
    firstDiff (((s.ctx c).lsc.area.drop (4096 * g)).take 4096) fps = some i → ∃ t, exec (.huntTags c fps n) s = .next t ∧
      (t.ctx c).lsc.locus = some (4096 * g + i, fps.getD i 0) ∧ (t.ctx c).lsc.index = BitVec.ofNat 32 (4096 * g + i) ∧ (t.ctx c).lsc.outcome = 0 ∧ (t.ctx c).lsc.valid = true ∧
      (∀ k, p.extra.writes.find? (fun k => k.position = (s.ctx c).pos.position && k.w = 4096 * g + i) = some k →
        (t.ctx c).lsc.logical = BitVec.ofNat 10 k.logical ∧ (t.ctx c).lsc.item = k.item) ∧
      (∃ e ∈ t.rcd.intake, e.code = 0x600E ∧ e.unit = uLsc ∧ e.p32 = BitVec.ofNat 32 (4096 * g + i)) ∧ t.kept = s.kept) ∧
  (∀ (s : State) (c : Ctx) (w : Nat) (mine theirs r : BitVec 61) (a : Arr), (s.ctx c).lsc.locus = some (w, theirs) → s.deciding c = true → s.huntReferee c = some a → ¬ (mine = r ∧ r = theirs) →
    ∃ t, exec (.huntCompare c mine r) s = .next t ∧ (t.ctx c).lsc.locus = none ∧ (t.ctx c).lsc.valid = true ∧
      (t.ctx c).lsc.outcome = (if r = theirs then 1 else if mine = theirs then 2 else if mine = r then 3 else 4) ∧
      (∃ e ∈ t.rcd.intake, e.code = 0x600E ∧ e.unit = uLsc) ∧ t.kept = s.kept ∧
      (r ≠ theirs → mine = theirs → ∃ h ∈ t.fst.histQ, h.unit = uArr a ∧ h.act = .confirm) ∧
      (r = theirs → (∃ h ∈ t.fst.histQ, h.unit = s.primaryOf (s.ctx c).lsc.logical.toNat ∧ h.act = .declare 3) ∧ (t.ctx c).exec.cause = some ((s.ctx c).exec.cause.getD { reason := 2, unit := s.primaryOf (s.ctx c).lsc.logical.toNat }) ∧
        ∃ e ∈ t.fst.faultQ, e.code = 0x600F ∧ e.cls = .c ∧ e.unit = s.primaryOf (s.ctx c).lsc.logical.toNat)) ∧
  (∀ (s : State) (c : Ctx) (w : Nat) (mine theirs r : BitVec 61), (s.ctx c).lsc.locus = some (w, theirs) → s.deciding c = true →
    (s.huntReferee c = none → ∃ t, exec (.huntCompare c mine r) s = .next t ∧ (t.ctx c).lsc.locus = none ∧ (t.ctx c).lsc.outcome = 5 ∧ (t.ctx c).lsc.valid = true ∧ t.kept = s.kept) ∧
    (∀ a, s.huntReferee c = some a → mine = r → r = theirs → ∃ t, exec (.huntCompare c mine r) s = .next t ∧ (t.ctx c).lsc.locus = none ∧ t.fst = s.fst ∧ t.rcd = s.rcd ∧ t.kept = s.kept)) ∧
  (∀ (s : State) (c : Ctx), (s.ctx c).lsc.own ≠ none → (s.ctx c).lsc.equal = false → (s.ctx c).lsc.partner = none → (s.ctx c).exec.injected = false → ∃ t e,
    exec (.lockstepTimeout c) s = .next t ∧ (t.ctx c).exec.cause = some ((s.ctx c).exec.cause.getD { reason := 6, unit := s.commitUnit c }) ∧ (t.ctx c).exec.stopAfter ≠ none ∧
      t.fst.faultQ = s.fst.faultQ ++ [e] ∧ e.code = 0x600C ∧ e.cls = .u ∧ e.unit = uLsc ∧ t.kept = s.kept) ∧
  (∀ (s : State) (c : Ctx) (pr : Pair) (n : Nat), s.pairOf c = some pr → s.idleCtx c = false → s.deciding c = false → (s.ctx c).pass.st ≠ .aborting → s.aon.refOk = true → ∃ t e,
    exec (.pairStop c n) s = .next t ∧ (t.ctx c).pass.st = .stopped ∧ (t.ctx c).pass.stopEvent = 0x6010 ∧ e ∈ t.fst.faultQ ∧ e.code = 0x6010 ∧ e.cls = .u ∧
      e.p16 = BitVec.ofNat 16 pr.chip ∧ t.kept = s.kept)

/-! ## Provenance (chapter 09) -/

/-- From R297, R298, R303, R306, R307, R310: a core's last leaf of a span ends: its hash is that of the slots as the bank holds them, and the record is formed. It takes the next RECORD_SEQ of the context, is written to its entry of the ring in memory, sets the context's pending bit and is recorded
as PRV_RECORD; a read error loses the role and is PRV_READ_ERROR, a C fault of the core. An acknowledgement not below the one before and not above the last record is kept, another is refused; a fetch reads the record that its selection names from the ring, or says ABSENT.
Model's choices: a full ring and a busy bank (log 83), the access of the engine's own reads (log 141). -/
def Obligations.ProvenanceRecordsAndFetches : Prop :=
  (∀ (s : State) (core : Fin 8) (sp : Span) (role leaf : Nat) (r : JobRead), s.prv.cores = Vector.ofFn (fun i => if i = core then some (sp.id, role, leaf) else none) →
    s.prv.spans = [sp] → sp.todo = [] → sp.busy = [(role, leaf)] → (∀ c, (s.ctx c).prv.stalled = false) →
    let bad := (leafBytes s sp role leaf r).2.1
    let done := sp.finish role leaf (sha3 (leafBytes s sp role leaf r).1) bad
    let seq := (s.ctx sp.ctx).prv.nextSeq
    let written := s.engineWrite (sp.plan.ringAddr seq) (recordBytes s done seq)
    (role ≠ 3 → (leafBytes s sp role leaf r).1 = clearStates (s.engineBytes (sp.plan.bankAddr role sp.bank + 8 * (131072 * leaf)) (8 * min 131072 (sp.count role - 131072 * leaf)) r)) ∧
    ∃ t, exec (.prvLeafDone core r) s = .next t ∧ t.prv.spans = [] ∧ t.prv.cores.at core = none ∧ t.mem = written.mem ∧ t.still = s.still ∧ (r.errors = [] → t.tags = written.tags) ∧
      (seq, sp.plan.ringAddr seq) ∈ (t.ctx sp.ctx).prv.ring ∧ ctxBit sp.ctx &&& t.irq.prv = ctxBit sp.ctx ∧ t.irq.status &&& 0x20 = 0x20 ∧
      (t.ctx sp.ctx).prv.lastSeq = seq ∧ (∃ e ∈ t.rcd.intake, e.code = 0x7001 ∧ e.unit = uPrv ∧ e.ctx = some sp.ctx ∧ e.p32 = seq) ∧
      (bad = true → (role < 3 → done.lost.getLsbD role = true) ∧
        ∃ e ∈ t.fst.faultQ, e.code = 0x7003 ∧ e.cls = .c ∧ e.unit = BitVec.ofNat 16 (0x7300 + core.val) ∧ e.ctx = some sp.ctx ∧ e.p16 = BitVec.ofNat 16 role) ∧
      (bad = false → t.fst = s.fst)) ∧
  (∀ (s : State) (src : Src) (c : Ctx) (v : Reg), s.gate (0x700200 + 8 * c.val) = .carry →
    let seq : BitVec 32 := field v 0 32
    let x := (s.ctx c).prv
    (x.lastSeq ≠ 0xFFFFFFFF → seq ≠ 0xFFFFFFFF → seqDiff seq x.lastSeq ≤ 0 → (x.ackSeq = 0xFFFFFFFF ∨ seqDiff x.ackSeq seq ≤ 0) → ∃ t, exec (.prvCtxAck src c v) s = .next t ∧
      (t.ctx c).prv.ackSeq = seq ∧ (t.ctx c).prv.refused = false ∧ (∀ d, (t.ctx d).pass = (s.ctx d).pass) ∧ t.kept = s.kept) ∧
    (x.lastSeq = 0xFFFFFFFF ∨ seq = 0xFFFFFFFF ∨ 0 < seqDiff seq x.lastSeq ∨ (x.ackSeq ≠ 0xFFFFFFFF ∧ 0 < seqDiff x.ackSeq seq) → ∃ t, exec (.prvCtxAck src c v) s = .next t ∧
      (t.ctx c).prv = { x with refused := true } ∧ (∀ d, d ≠ c → t.ctx d = s.ctx d) ∧ t.rcd = s.rcd ∧ t.kept = s.kept)) ∧
  (∀ (s : State) (src : Src) (v : Reg), s.gate 0x700408 = .carry → flag v 37 = true → exec (.prvReadGo src v) s = .next (({ s with
    prv := { s.prv with selCtx := field v 0 5, selSeq := field v 5 32, going := true, done := false } } : State).complete src 0x700408 false 0 0)) ∧
  (∀ (s : State) (r : JobRead), s.prv.going = true →
    let kept := (s.ctx (Fin.ofNat 32 s.prv.selCtx.toNat)).prv.ring.find? (fun e => e.1 = s.prv.selSeq)
    (kept = none → exec (.prvReadDone r) s = .next { s with prv := { s.prv with going := false, done := true, absent := true, data := [] } }) ∧
    (∀ q addr, kept = some (q, addr) → ∃ t, exec (.prvReadDone r) s = .next t ∧
      t.prv = { s.prv with going := false, done := true, absent := false, data := s.engineBytes addr 256 r } ∧ t.mem = s.mem ∧ t.still = s.still ∧
      (r.errors = [] → t.tags = s.tags ∧ t.fst = s.fst ∧ t.ctxs = s.ctxs)))

/-! ## The Turning Plan (chapter 10) -/

/-- From R316, R317, R325, R333: LOAD is accepted while no load is in progress and the engine takes loads: the context is queued, or validated at once, with the image as VX_PLN_CTX_IMAGE gives it. CANCEL ends a load before its switch with PLAN_CANCELLED, UNLOAD begins for a stopped context
and ends, once its copies are back, in NO_PLAN with the pass index at 0. A command that is not legal sets REFUSED.
Model's choices: the pass index after an unload (log 78), a load met by MC's restart (log 88), fields beside a refused command (log 46). -/
def Obligations.PlanCommands : Prop :=
  (∀ (s : State) (src : Src) (c : Ctx), s.gate (planCtrlOff c) = .carry → (s.ctx c).plan.phase = .none → s.loadsAccepted = true → c ∉ s.pln.queue → ∃ t, exec (.load src c) s = .next t ∧
    (t.ctx c).plan.from_ = (s.ctx c).plan.addr ∧ (t.ctx c).plan.kib = (s.ctx c).plan.lenKib ∧ (t.ctx c).plan.refused = false ∧
    ((t.ctx c).plan.phase = .queued ∧ c ∈ t.pln.queue ∨ (t.ctx c).plan.phase = .validating ∧ t.pln.validating = some c) ∧ (t.ctx c).pass = (s.ctx c).pass ∧ t.fst = s.fst ∧ t.kept = s.kept) ∧
  (∀ (s : State) (src : Src) (c : Ctx), s.gate (planCtrlOff c) = .carry → ((s.ctx c).plan.phase ≠ .none ∨ s.loadsAccepted = false) → ∃ t, exec (.load src c) s = .next t ∧
    (t.ctx c).plan = { (s.ctx c).plan with refused := true } ∧ t.pln = s.pln ∧ (∀ d, d ≠ c → t.ctx d = s.ctx d) ∧ t.rcd = s.rcd ∧ t.kept = s.kept) ∧
  (∀ (s : State) (src : Src) (c : Ctx), s.gate (planCtrlOff c) = .carry →
    ((s.ctx c).plan.phase = .queued ∨ (s.ctx c).plan.phase = .validating ∨ (s.ctx c).plan.phase = .distributing ∨ (s.ctx c).plan.phase = .pending) →
    ∃ t, exec (.cancel src c) s = .next t ∧ (t.ctx c).plan.phase = .none ∧ (t.ctx c).plan.pend = none ∧ (t.ctx c).plan.outcome = 3 ∧ (t.ctx c).plan.valid = true ∧
      (t.ctx c).plan.active = (s.ctx c).plan.active ∧ c ∉ t.pln.queue ∧ t.pln.validating ≠ some c ∧ (∃ e ∈ t.rcd.intake, e.code = 0xC006 ∧ e.unit = uPln ∧ e.ctx = some c ∧
        e.p16 = BitVec.ofNat 16 (s.ctx c).plan.phase.code) ∧ t.irq.status &&& 0x40 = 0x40 ∧ t.kept = s.kept) ∧
  (∀ (s : State) (src : Src) (c : Ctx), s.gate (planCtrlOff c) = .carry → (s.ctx c).plan.phase = .none → (s.ctx c).pass.st = .stopped → ∃ t, exec (.unload src c) s = .next t ∧
    (t.ctx c).plan.phase = .unloading ∧ (t.ctx c).plan.active = (s.ctx c).plan.active ∧ (t.ctx c).pass = (s.ctx c).pass ∧ (∀ d, d ≠ c → t.ctx d = s.ctx d) ∧ t.kept = s.kept) ∧
  (∀ (s : State) (c : Ctx), (s.ctx c).plan.phase = .unloading → s.copiesLeft c = 0 → ∃ t, exec (.planUnloaded c) s = .next t ∧ (t.ctx c).pass.st = .noPlan ∧ (t.ctx c).pass.index = 0 ∧
    (t.ctx c).plan.active = none ∧ (t.ctx c).plan.phase = .none ∧ (t.ctx c).plan.loaded = false ∧ (t.ctx c).prv.span = none ∧ (∀ d, d ≠ c → t.ctx d = s.ctx d) ∧
    (∃ e ∈ t.rcd.intake, e.code = 0xC007 ∧ e.unit = uPln ∧ e.ctx = some c ∧ e.p32 = (s.ctx c).pass.commitCount.setWidth 32) ∧ t.kept = s.kept)

/-- From R66, R67, R301, R315, R317 to R321: the image and the program are read in memory; a load that passes its checks is PLAN_VALIDATED and distributed, one that does not is refused with its outcome recorded and nothing of it left. A flit leaves when every target has taken the one
before; a unit has its pending bank for a section with the section's last flit, and once every unit has taken every flit, with the CRCs good again, the load is pending. At its application point, with the present configuration still allowing it, the context switches: the plan is the
new one from position 0, the pass index runs on from COMMIT_COUNT, and PLAN_DIST 0xFFFF tells the units.
Model's choices: causes among checks of one order (log 84), facts of the schedule (log 37), the targets of PLAN_DIST (log 142), its credits (log 152), the end of SWITCHING (log 87). -/
def Obligations.PlanValidationAndSwitch : Prop :=
  (∀ (s : State) (c : Ctx) (image program : JobRead) (work : WorkFacts), s.pln.validating = some c → c ∉ s.pln.queue →
    let bytes := s.engineBytes (s.ctx c).plan.from_.toNat (1024 * (s.ctx c).plan.kib.toNat) image
    let read := readImage bytes (s.ctx c).plan.kib.toNat work
    let code := if read.2.isSome then ([], (imageOf s c image).2) else programOf (imageOf s c image).2 read.1 program
    let told (t : State) : Prop := (t.ctx c).plan.active = (s.ctx c).plan.active ∧ (t.ctx c).pass = (s.ctx c).pass ∧ t.mem = s.mem ∧ t.still = s.still ∧
      (image.errors = [] → program.errors = [] → t.tags = s.tags)
    (validate code.2 c read.1 read.2 program = none → ∃ t, exec (.planValidated image program work) s = .next t ∧ told t ∧ (t.ctx c).plan.phase = .distributing ∧
      (t.ctx c).plan.pend = some read.1 ∧ (t.ctx c).plan.pendHash = sha3 code.1 ∧ (t.ctx c).plan.banks = [] ∧ (∃ d ∈ t.pln.dists, d.ctx = c) ∧
      (∀ k o rest, distFlits bytes = (k, o) :: rest → Out.planDist c k o (flitData bytes k o) ∈ t.out) ∧
      (t.ctx c).plan.pendKey = read.1.key ∧ (∀ k, read.1.key = some k → Out.planKey c k.1 k.2 ∈ t.out) ∧
      (∃ e ∈ t.rcd.intake, e.code = 0xC008 ∧ e.unit = uPln ∧ e.ctx = some c)) ∧
    (∀ x, validate code.2 c read.1 read.2 program = some x → ∃ t, exec (.planValidated image program work) s = .next t ∧ told t ∧ (t.ctx c).plan.phase = .none ∧ (t.ctx c).plan.pend = none ∧
      (t.ctx c).plan.outcome = 2 ∧ (t.ctx c).plan.valid = true ∧ (t.ctx c).plan.atApp = false ∧ (t.ctx c).plan.cause = BitVec.ofNat 8 x.cause ∧ (t.ctx c).plan.event = x.event ∧
      (∃ e ∈ t.rcd.intake, e.code = x.event ∧ e.unit = uPln ∧ e.ctx = some c))) ∧
  (∀ (s : State) (u : UnitId) (c : Ctx) (k : BitVec 16) (o : Nat) (x : BitVec 64) (p : Plan) (d : Dist), s.unitExists u = true → k ≠ 0xFFFF → (s.ctx c).plan.pend = some p →
    s.distOf c = some d → d.flit = some (k, o, x) → d.owing.contains u = true → ∃ t, exec (.planDist u c k o x) s = .next t ∧ t.kept = s.kept ∧ t.fst = s.fst ∧
      (t.ctx c).plan.phase = (s.ctx c).plan.phase ∧ (∀ e, e ≠ c → t.ctx e = s.ctx e) ∧
      (d.todo.any (fun f => f.1 = k) = false → (t.ctx c).plan.banks = (s.ctx c).plan.banks ++ [(u, k)]) ∧
      (d.todo.any (fun f => f.1 = k) = true → (t.ctx c).plan.banks = (s.ctx c).plan.banks) ∧
      (d.owing.erase u ≠ [] → t.out = s.out ∧ t.distOf c = some { d with owing := d.owing.erase u }) ∧
      (d.owing.erase u = [] → ∀ k' o' rest, d.todo = (k', o') :: rest → ∃ y, t.out = s.out ++ [.planDist c k' o' y] ∧
        t.distOf c = some { d with todo := rest, flit := some (k', o', y), owing := s.distTargets p })) ∧
  (∀ (s : State) (u : UnitId) (c : Ctx) (o : Nat) (x : BitVec 64), s.unitExists u = true → exec (.planDist u c 0xFFFF o x) s =
    .next (if (s.ctx c).plan.owed.contains u then s.onPlan c (fun q => { q with onNew := q.onNew ++ [u], owed := q.owed.erase u }) else s)) ∧
  (∀ (s : State) (c : Ctx) (image : JobRead) (p : Plan), (s.ctx c).plan.pend = some p → (s.ctx c).plan.phase = .distributing →
    (s.distTaken c = false → exec (.distributionDone c image) s = .next s) ∧ (s.distTaken c = true →
    let bytes := s.engineBytes (s.ctx c).plan.from_.toNat (1024 * (s.ctx c).plan.kib.toNat) image
    let told (t : State) : Prop := (t.ctx c).pass = (s.ctx c).pass ∧ t.distOf c = none ∧ t.mem = s.mem ∧ t.still = s.still ∧ (image.errors = [] → t.tags = s.tags)
    (badHeader bytes (s.ctx c).plan.kib.toNat = false → badCrc bytes = none → ∃ t, exec (.distributionDone c image) s = .next t ∧ told t ∧ (t.ctx c).plan.phase = .pending ∧
      (t.ctx c).plan.pend = some p ∧ (t.ctx c).plan.pendHash = sha3 (ascii "IM" ++ (s.ctx c).plan.pendHash ++ sha3 (bytes.take p.core.imageLen)) ∧ (t.ctx c).plan.banks = (s.ctx c).plan.banks) ∧
    (badHeader bytes (s.ctx c).plan.kib.toNat = true ∨ badCrc bytes ≠ none → ∃ t, exec (.distributionDone c image) s = .next t ∧ told t ∧ (t.ctx c).plan.phase = .none ∧
      (t.ctx c).plan.pend = none ∧ (t.ctx c).plan.outcome = 2 ∧ (t.ctx c).plan.banks = []))) ∧
  (∀ (s : State) (c : Ctx) (p : Plan), (s.ctx c).plan.pend = some p → (s.ctx c).plan.phase = .pending → s.atPoint c = true → presentChecks s c p = none →
    let n := if (s.ctx c).pass.st = .noPlan then 0 else (s.ctx c).pass.commitCount
    ((s.ctx c).plan.owed ≠ [] → exec (.planSwitch c) s = .next s) ∧
    ((s.ctx c).plan.owed = [] → ∃ t, exec (.planSwitch c) s = .next t ∧ (t.ctx c).plan.owed = s.switchTargets c p ∧ (t.ctx c).plan.active = some p ∧ (t.ctx c).plan.pend = none ∧ (t.ctx c).plan.phase = .switching ∧
      (t.ctx c).plan.hash = (s.ctx c).plan.pendHash ∧ (t.ctx c).pass.index = n ∧ (t.ctx c).pass.commitCount = n ∧ (t.ctx c).pos.position = 0 ∧ (t.ctx c).pass.st ≠ .noPlan ∧
      (t.ctx c).pass.st ≠ .stopped ∧ (t.ctx c).prv.span = none ∧ Out.planDist c 0xFFFF 0 (n.setWidth 64) ∈ t.out ∧ (∀ d, d ≠ c → t.ctx d = s.ctx d) ∧ t.mgtu = s.mgtu ∧ t.kept = s.kept)) ∧
  (∀ (s : State) (c : Ctx) (p : Plan) (x : PlanBad), (s.ctx c).plan.pend = some p → (s.ctx c).plan.phase = .pending → s.atPoint c = true → presentChecks s c p = some x →
    ∃ t, exec (.planSwitch c) s = .next t ∧ (t.ctx c).plan.active = (s.ctx c).plan.active ∧ (t.ctx c).plan.pend = none ∧ (t.ctx c).plan.phase = .none ∧ (t.ctx c).plan.outcome = 2 ∧
      (t.ctx c).plan.atApp = true ∧ (t.ctx c).pass = (s.ctx c).pass ∧ t.kept = s.kept) ∧
  (∀ (s : State) (c : Ctx), (s.ctx c).plan.pend ≠ none → s.atPoint c = false → exec (.planSwitch c) s = .next s)

/-! ## The fault steward (chapter 11) -/

/-- From R337 to R341, R345 to R347: the fault that waits is taken by its class. A free slot captures it and FAULT is set; an identical fault is counted in its slot; another C fault escalates to U, another U fault to F, but a C fault that would escalate twice is counted in the U slot's overflow; an F fault in a free slot begins a drain of every context with a
plan and ends VX_ALIVE, another F fault, or a U fault that escalates to it, is a hard stop. Model's choices: the class a fault counts under (log 89), the access type of events that name none (log 93). -/
def Obligations.FaultsAreTakenBySlots : Prop :=
  ∀ (s : State) (e : Ev), s.fst.faultQ = [e] → s.early = false → s.fst.state ≠ .halted →
    let captured (t : State) (k : Fin 3) : Prop := (t.fst.slots.at k).valid = true ∧ (t.fst.slots.at k).event = e.code ∧ (t.fst.slots.at k).unit = e.unit ∧
      (t.fst.slots.at k).acc = e.acc ∧ (t.fst.slots.at k).addr = e.addr ∧ (t.fst.slots.at k).tick = s.time.tick ∧ t.irq.status &&& 1 = 1
    let taken (t : State) : Prop := exec .faultTaken s = .next t ∧ t.fst.faultQ = [] ∧ t.kept = s.kept
    (e.cls = .c → (s.fst.slots.at 0).valid = false → ∃ t, taken t ∧ captured t 0 ∧ t.fst.cFaults = s.fst.cFaults + 1 ∧ t.fst.slots.at 1 = s.fst.slots.at 1 ∧
      t.fst.slots.at 2 = s.fst.slots.at 2 ∧ t.fst.state = s.fst.state ∧ t.ctxs = s.ctxs) ∧
    (e.cls = .u → (s.fst.slots.at 1).valid = false → ∃ t, taken t ∧ captured t 1 ∧ t.fst.uFaults = s.fst.uFaults + 1 ∧ t.fst.slots.at 0 = s.fst.slots.at 0 ∧
      t.fst.state = s.fst.state ∧ t.ctxs = s.ctxs) ∧
    (e.cls = .c → (s.fst.slots.at 0).sameAs e = true → ∃ t, taken t ∧ (t.fst.slots.at 0).reps = BitVec.ofNat 24 (min ((s.fst.slots.at 0).reps.toNat + 1) 0xFFFFFF) ∧
      (t.fst.slots.at 0).addr = (s.fst.slots.at 0).addr ∧ (t.fst.slots.at 0).tick = (s.fst.slots.at 0).tick ∧ t.fst.uFaults = s.fst.uFaults ∧ t.ctxs = s.ctxs) ∧
    (e.cls = .c → (s.fst.slots.at 0).valid = true → (s.fst.slots.at 0).sameAs e = false → (s.fst.slots.at 1).valid = false → ∃ t, taken t ∧ captured t 1 ∧
      (t.fst.slots.at 1).esc = true ∧ t.fst.escal = s.fst.escal + 1 ∧ t.fst.cFaults = s.fst.cFaults + 1 ∧ t.fst.uFaults = s.fst.uFaults + 1 ∧
      t.fst.slots.at 0 = s.fst.slots.at 0 ∧ t.ctxs = s.ctxs) ∧
    (e.cls = .u → (s.fst.slots.at 1).sameAs e = true → ∃ t, taken t ∧ (t.fst.slots.at 1).reps = BitVec.ofNat 24 (min ((s.fst.slots.at 1).reps.toNat + 1) 0xFFFFFF) ∧
      (t.fst.slots.at 1).addr = (s.fst.slots.at 1).addr ∧ t.fst.slots.at 2 = s.fst.slots.at 2 ∧ t.fst.fFaults = s.fst.fFaults ∧ t.ctxs = s.ctxs) ∧
    (e.cls = .c → (s.fst.slots.at 0).valid = true → (s.fst.slots.at 0).sameAs e = false → (s.fst.slots.at 1).valid = true → (s.fst.slots.at 1).sameAs e = false →
      ∃ t, taken t ∧ (t.fst.slots.at 1).overflow = BitVec.ofNat 16 (min ((s.fst.slots.at 1).overflow.toNat + 1) 0xFFFF) ∧ (t.fst.slots.at 1).event = (s.fst.slots.at 1).event ∧
        t.fst.escal = s.fst.escal + 1 ∧ t.fst.uFaults = s.fst.uFaults + 1 ∧ t.fst.fFaults = s.fst.fFaults ∧ t.fst.slots.at 0 = s.fst.slots.at 0 ∧
        t.fst.slots.at 2 = s.fst.slots.at 2 ∧ t.fst.state = s.fst.state ∧ t.ctxs = s.ctxs) ∧
    (e.cls = .u → e.esc = false → (s.fst.slots.at 1).valid = true → (s.fst.slots.at 1).sameAs e = false → (s.fst.slots.at 2).valid = false → s.fst.state = .run → s.aon.refOk = true →
      ∃ t, taken t ∧ captured t 2 ∧ (t.fst.slots.at 2).esc = true ∧ t.fst.escal = s.fst.escal + 1 ∧ t.fst.uFaults = s.fst.uFaults + 1 ∧ t.fst.fFaults = s.fst.fFaults + 1 ∧
        t.fst.slots.at 0 = s.fst.slots.at 0 ∧ t.fst.slots.at 1 = s.fst.slots.at 1 ∧ t.fst.cause = 1 ∧ (t.fst.state = .draining ∨ t.fst.state = .drained) ∧
        t.aon.alive = false ∧ t.pwr.ready = false) ∧
    (e.cls = .u → e.esc = false → (s.fst.slots.at 1).valid = true → (s.fst.slots.at 1).sameAs e = false → (s.fst.slots.at 2).valid = true → (s.fst.slots.at 2).sameAs e = false →
      s.aon.refOk = true → ∃ t, taken t ∧ t.fst.state = .halted ∧ t.fst.escal = s.fst.escal + 1 ∧ t.fst.slots.at 1 = s.fst.slots.at 1 ∧ t.fst.slots.at 2 = s.fst.slots.at 2) ∧
    (e.cls = .f → (s.fst.slots.at 2).valid = false → s.fst.state = .run → s.aon.refOk = true → ∃ t, taken t ∧ captured t 2 ∧ t.fst.fFaults = s.fst.fFaults + 1 ∧
      t.fst.cause = 1 ∧ (t.fst.state = .draining ∨ t.fst.state = .drained) ∧ t.aon.alive = false ∧ t.pwr.ready = false ∧
      (∀ c, (s.ctx c).pass.st ≠ .noPlan → (t.ctx c).pass.st = .stopped ∨ (t.ctx c).exec.stopAfter ≠ none)) ∧
    (e.cls = .f → (s.fst.slots.at 2).valid = true → (s.fst.slots.at 2).sameAs e = false → s.aon.refOk = true → ∃ t, taken t ∧ t.fst.state = .halted ∧
      t.fst.slots.at 2 = s.fst.slots.at 2 ∧ t.aon.alive = false ∧ t.pwr.ready = false ∧ (∀ c, (s.ctx c).pass.st ≠ .noPlan → Out.parting c ((s.ctx c).pass.index.setWidth 16) ∈ t.out))

/-- From R336, R343, R349 to R353, R355, R356, R362: what else the fault steward does: writing 1 to a slot's VALID frees it; MC enters the oldest waiting outcome in the history of its unit; operating and wall time are stored, or wait while the flash does not answer (R410); the window rule is configured while no plan is loaded; the T9's error reports
are forwarded; a unit is selected and its answer given.
Model's choices: the reason of ARRAY_SEQUENCER's verdicts (log 25), the record of a unit that becomes RETIRED (log 90), the answer while VALID is 0 (log 91). -/
def Obligations.FaultStewardHistoryAndReports : Prop :=
  (∀ (s : State) (src : Src) (k : Fin 3), s.gate (0x100100 + 0x20 * k.val) = .carry →
    ((k ≠ 2 ∨ s.fst.state = .run ∨ s.fst.state = .drained) → ∃ t, exec (.fstSlotAck src k) s = .next t ∧ (t.fst.slots.at k).valid = false ∧
      (∀ j, j ≠ k → t.fst.slots.at j = s.fst.slots.at j) ∧ t.fst.state = s.fst.state ∧ t.ctxs = s.ctxs ∧ t.kept = s.kept) ∧
    (k = 2 → (s.fst.state = .draining ∨ s.fst.state = .halted) → ∃ t, exec (.fstSlotAck src k) s = .next t ∧ t.fst = { s.fst with refused := true } ∧ t.ctxs = s.ctxs ∧ t.aon = s.aon ∧ t.kept = s.kept)) ∧
  (∀ (s : State) (e : HistEntry) (rest : List HistEntry), s.fst.histQ = e :: rest → ((s.fwp.procs.at mc).state = .hold ∨ (s.fwp.procs.at mc).state = .run) → uClass e.unit ≠ 1 →
    (e.act = .undecided → ∃ t, exec .historyEntry s = .next t ∧ t.fst.histQ = rest ∧ (t.fst.unit e.unit).undecided = (s.fst.unit e.unit).undecided + 1 ∧
      (t.fst.unit e.unit).state = (s.fst.unit e.unit).state ∧ (t.fst.unit e.unit).confirmed = (s.fst.unit e.unit).confirmed ∧ t.mgtu = s.mgtu ∧ t.kept = s.kept) ∧
    (e.act = .report → ∃ t, exec .historyEntry s = .next t ∧ t.fst.histQ = rest ∧ (t.fst.unit e.unit).reports = (s.fst.unit e.unit).reports + 1 ∧ t.kept = s.kept) ∧
    (e.act = .confirm → (s.fst.unit e.unit).state ≠ .lasting → (s.fst.unit e.unit).state ≠ .retired → s.fst.wouldMeet e.unit e.opsec e.col = false → ∃ t, exec .historyEntry s = .next t ∧
      t.fst.histQ = rest ∧ (t.fst.unit e.unit).confirmed = (s.fst.unit e.unit).confirmed + 1 ∧ (t.fst.unit e.unit).state = .watch ∧
      (t.fst.unit e.unit).stamps = confirmStamps (s.fst.unit e.unit).stamps e.opsec e.col (s.fst.window.toNat * 3600) ∧ t.kept = s.kept) ∧
    (∀ (cause : BitVec 8) (n : Sensor), e.act = .declare cause → e.unit = uSensor n → (s.fst.unit e.unit).state ≠ .lasting → (s.fst.unit e.unit).state ≠ .retired → ∃ t, exec .historyEntry s = .next t ∧
      t.fst.histQ = rest ∧ (t.fst.unit e.unit).state = .retired ∧ (t.thm.sensors.at n).state = .retired ∧
      (∃ x ∈ t.rcd.intake, x.code = 0x1001 ∧ x.unit = e.unit ∧ x.p16 = cause.setWidth 16) ∧ t.kept = s.kept)) ∧
  (∀ (s : State), (s.fwp.procs.at mc).state ≠ .hold → (s.fwp.procs.at mc).state ≠ .run → exec .historyEntry s = .next s) ∧
  (∀ (s : State) (src : Src) (v : Reg), s.gate 0x100010 = .carry →
    (s.loadedCtxs = [] → s.aon.refOk = true → ∃ t, exec (.fstHistoryCfgWrite src v) s = .next t ∧ t.fst.window = BitVec.ofNat 14 (max 1 (min 8760 (field v 0 14 : BitVec 14).toNat)) ∧
      t.fst.threshold = BitVec.ofNat 4 (max 1 (min 8 (field v 14 4 : BitVec 4).toNat)) ∧ t.fst.cfgRefused = false ∧ t.kept = s.kept) ∧
    (s.loadedCtxs ≠ [] → ∃ t, exec (.fstHistoryCfgWrite src v) s = .next t ∧ t.fst = { s.fst with cfgRefused := true } ∧ t.ctxs = s.ctxs ∧ t.rcd = s.rcd ∧ t.kept = s.kept)) ∧
  (∀ s : State, exec .optimeStore s = .next { s with rcd := if s.rcd.flashOk then { s.rcd with
      flash := (s.rcd.flash.putItem 2 (s.time.opsec.setWidth 64) s.time.tick).putItem 3 (s.time.wall.setWidth 64) s.time.tick }
    else { s.rcd with confOut := s.rcd.confOut ++ [(2, s.time.opsec.setWidth 64, s.time.tick), (3, s.time.wall.setWidth 64, s.time.tick)] } }) ∧
  (∀ (s : State) (a : Arr) (code : BitVec 16) (c : Option Ctx), ∃ t e h, exec (.arrayParity a code c) s = .next t ∧ t = { s with fst := { s.fst with
    faultQ := s.fst.faultQ ++ [e], histQ := s.fst.histQ ++ [h] } } ∧ e.code = 0x3001 ∧ e.cls = .c ∧ e.unit = uArr a ∧ e.ctx = c ∧ e.p16 = code ∧ h.unit = uArr a ∧ h.act = .report) ∧
  (∀ (s : State) (a : Arr) (code : BitVec 16) (c : Option Ctx), ∃ t, exec (.arraySequencer a code c) s = .next t ∧ (t.wce.ports.at a).cur = none ∧ (t.wce.ports.at a).park = [] ∧
    (∃ e ∈ t.fst.faultQ, e.code = 0x3002 ∧ e.cls = .u ∧ e.unit = uArr a ∧ e.p16 = code) ∧ (∃ h ∈ t.fst.histQ, h.unit = uArr a ∧ h.act = .report) ∧
    (∀ x ∈ (s.wce.ports.at a).open_, x.monitor = false → (s.wce.ports.at a).caught.contains x.exec = false → ∃ f, Out.tileVerdict f ∈ t.out ∧ f.ctx = x.desc.ctx ∧ f.verdict = .notProduced) ∧ t.kept = s.kept) ∧
  (∀ (s : State) (g : Gtu) (count addr : Nat), (count < s.fst.ceStorm.toNat → exec (.memCeStorm g count addr) s = .next s) ∧
    (s.fst.ceStorm.toNat ≤ count → ∃ e, e.code = 0x3003 ∧ e.cls = .c ∧ e.unit = uMgtu g ∧ e.p32 = BitVec.ofNat 32 (addr / 4096) ∧
      exec (.memCeStorm g count addr) s = .next { s with fst := { s.fst with faultQ := s.fst.faultQ ++ [e] } })) ∧
  (∀ (s : State) (bit : BitVec 16), ∃ e f, e.code = 0x3005 ∧ e.cls = .c ∧ e.unit = 0x7501 ∧ e.p16 = bit ∧ f.code = 0x3006 ∧ f.cls = .u ∧ f.unit = 0x7501 ∧ f.p16 = bit ∧
    exec (.pcieCorrectable bit) s = .next { s with fst := { s.fst with faultQ := s.fst.faultQ ++ [e] } } ∧
    exec (.pcieUncorrectable bit) s = .next { s with fst := { s.fst with faultQ := s.fst.faultQ ++ [f] } }) ∧
  (∀ (s : State) (src : Src) (v : Reg), s.gate 0x100200 = .carry → exec (.fstUnitSelWrite src v) s = .next (({ s with fst := { s.fst with unitSel := field v 0 16, infoValid := false } } : State).complete
    src 0x100200 false 0 0)) ∧
  (∀ s : State, exec .unitInfoReady s = .next { s with fst := { s.fst with infoValid := true } })

/-! ## Field screening (chapter 12) -/

/-- From R363 to R374, R381: TC starts a pattern on a GTU that is due, on the array it chooses while the array generator is free (a retest pending first, then TEST_NOW's, then the oldest, lowest index first, each with an idle run long enough), and on an array where its SCREEN plan places one, once in the execution; the unit is isolated. At its
end the pattern is judged on its MISR and cycles: a pass is noted, a first failure is SCREEN_FAIL and sets the retest, a retest that passes is a confirmed catch and one that fails goes to MC as a declaration, with its exposure recorded; while TC does not run it waits for the judgement until TC is in RUN again (R450). A unit overdue in the rotation is recorded once. TEST_NOW names the selected unit, once; the selection is stored and answered.
Model's choices: the events of screening (log 96), when a context takes its arrays back (log 97), expected MISRs (log 12). -/
def Obligations.FieldScreening : Prop :=
  (∀ (s : State) (g : Gtu) (slot : Bool), s.eligible (uMgtu g) = true → s.tcRuns = true → s.pwr.vs = .vs0 → s.scr.running.any (fun q => q.unit = uMgtu g) = false →
    ((s.scr.unit (uMgtu g)).round = false ∨ (s.scr.unit (uMgtu g)).retest ≠ none ∨ s.scr.testNow = some (uMgtu g)) → ∃ t q, exec (.screenPatternStart (uMgtu g) slot) s = .next t ∧
      t.scr.running = s.scr.running ++ [q] ∧ q.unit = uMgtu g ∧ q.start = s.time.tick ∧ ((s.scr.unit (uMgtu g)).retest = none → q.pattern = BitVec.ofNat 16 (0x0100 + s.scr.rotation % 4)) ∧
      (∀ pat x, (s.scr.unit (uMgtu g)).retest = some (pat, x) → q.pattern = pat) ∧ t.scr.testNow ≠ some (uMgtu g) ∧
      t.out = s.out ++ [.isolate (uMgtu g) q.pattern true] ∧ t.ctxs = s.ctxs ∧ t.mgtu = s.mgtu ∧ t.kept = s.kept) ∧
  (∀ (s : State) (a : Arr), s.eligible (uArr a) = true → s.tcRuns = true → s.pwr.vs = .vs0 → s.scr.running.any (fun q => q.unit = uArr a) = false →
    (s.chosenArray = some a → s.scr.running.any (fun q => q.field && uClass q.unit = 0) = false → ∃ t q, exec (.screenPatternStart (uArr a) false) s = .next t ∧
      t.scr.running = s.scr.running ++ [q] ∧ q.unit = uArr a ∧ q.start = s.time.tick ∧ (∀ pat x, (s.scr.unit (uArr a)).retest = some (pat, x) → q.pattern = pat) ∧
      t.out = s.out ++ [.isolate (uArr a) q.pattern true] ∧ t.ctxs = s.ctxs ∧ t.kept = s.kept) ∧
    (s.chosenArray ≠ some a ∨ s.scr.running.any (fun q => q.field && uClass q.unit = 0) = true → exec (.screenPatternStart (uArr a) false) s = .next s) ∧
    (s.screenSlot a = none → exec (.screenPatternStart (uArr a) true) s = .next s) ∧
    (∀ c y, s.screenSlot a = some (c, y) → (s.ctx c).exec.tests.contains y = false ∧ y.arr = a.val ∧ ∃ t, exec (.screenPatternStart (uArr a) true) s = .next t ∧
      (∃ q, t.scr.running = s.scr.running ++ [q] ∧ q.unit = uArr a ∧ q.pattern = BitVec.ofNat 16 y.pattern ∧ q.retest = false) ∧
      (t.ctx c).exec.tests = (s.ctx c).exec.tests ++ [y] ∧ (∀ d, d ≠ c → t.ctx d = s.ctx d) ∧ Out.isolate (uArr a) (BitVec.ofNat 16 y.pattern) true ∈ t.out ∧ t.kept = s.kept)) ∧
  (∀ (s : State) (a : Arr), s.chosenArray = some a → s.testable a = true ∧ s.idleArray a 2884096 = true ∧ ∀ b, s.testable b = true →
    ((s.scr.unit (uArr b)).retest ≠ none → (s.scr.unit (uArr a)).retest ≠ none) ∧
    ((s.scr.unit (uArr a)).retest = none → s.scr.testNow = some (uArr b) → a = b) ∧
    ((s.scr.unit (uArr a)).retest = none → s.scr.testNow ≠ some (uArr a) → s.lastRank a ≤ s.lastRank b ∧ (s.lastRank a = s.lastRank b → a ≤ b))) ∧
  (∀ (s : State) (q : Pattern) (misr : BitVec 128) (cycles : BitVec 32), s.scr.running.find? (fun y => y.unit = q.unit) = some q →
    (s.tcRuns = false → exec (.screenPatternEnd q.unit misr cycles) s = .next { s with
      scr := { s.scr with running := s.scr.running.filter (fun y => y.unit ≠ q.unit), ended := s.scr.ended ++ [(q, misr, cycles)] }
      out := s.out ++ [.isolate q.unit q.pattern false] }) ∧ (s.tcRuns = true →
    let good := misr = Config.expectedMisr q.pattern (s.unitKind q.unit) s.fuses.stepping ∧ cycles = patternCycles q.pattern
    ∃ t, exec (.screenPatternEnd q.unit misr cycles) s = .next t ∧ t.scr.running = s.scr.running.filter (fun y => y.unit ≠ q.unit) ∧ t.scr.resUnit = q.unit ∧ t.scr.resPat = q.pattern ∧
      t.scr.cycles = cycles ∧ t.scr.misr = misr ∧ Out.isolate q.unit q.pattern false ∈ t.out ∧ t.ctxs = s.ctxs ∧ t.kept = s.kept ∧
      (good → t.scr.result = 1 ∧ t.fst.faultQ = s.fst.faultQ ∧ (t.scr.unit q.unit).lastPass = some s.time.tick ∧ (q.retest = true → (t.scr.unit q.unit).retest = none) ∧
        (∀ x, q.retest = true → (s.scr.unit q.unit).retest = some x → (∃ h ∈ t.fst.histQ, h.unit = q.unit ∧ h.act = .confirm ∧ h.event = 0xD001) ∧
          ∃ e ∈ t.rcd.intake, e.code = 0xD003 ∧ e.unit = q.unit ∧ e.p16 = q.pattern)) ∧
      (¬ good → q.retest = false → t.scr.result = 2 ∧ (t.scr.unit q.unit).retest = some (q.pattern, s.time.tick) ∧
        ∃ e ∈ t.fst.faultQ, e.code = 0xD001 ∧ e.cls = .c ∧ e.unit = q.unit ∧ e.p16 = q.pattern ∧ e.p32 = misr.setWidth 32) ∧
      (¬ good → q.retest = true → t.scr.result = 2 ∧ (t.scr.unit q.unit).retest = none ∧ (∃ h ∈ t.fst.histQ, h.unit = q.unit ∧ h.act = .declare 4) ∧
        (∃ e ∈ t.rcd.intake, e.code = 0xD004 ∧ e.unit = q.unit) ∧ ∃ e ∈ t.rcd.intake, e.code = 0xD005 ∧ e.unit = q.unit ∧ e.glued = true))) ∧
  (∀ (s : State) (u : UnitId), s.overdue u = true → (s.scr.unit u).late = false → ∃ t, exec (.screenRotationLate u) s = .next t ∧ (t.scr.unit u).late = true ∧
    (∃ e ∈ t.rcd.intake, e.code = 0xD007 ∧ e.unit = u) ∧ t.ctxs = s.ctxs ∧ t.kept = s.kept) ∧
  (∀ (s : State) (src : Src), s.gate 0xD00030 = .carry →
    (s.eligible s.scr.sel = true → s.scr.testNow = none → exec (.testNow src) s = .next (({ s with scr := { s.scr with testNow := some s.scr.sel, refused := false } } : State).complete src 0xD00030 false 0 0)) ∧
    (s.eligible s.scr.sel = false ∨ s.scr.testNow ≠ none → ∃ t, exec (.testNow src) s = .next t ∧ t.scr = { s.scr with refused := true } ∧ t.ctxs = s.ctxs ∧ t.kept = s.kept)) ∧
  (∀ (s : State) (src : Src) (v : Reg), s.gate 0xD00100 = .carry → exec (.scrUnitSelWrite src v) s = .next (({ s with scr := { s.scr with sel := field v 0 16, valid := false } } : State).complete src 0xD00100 false 0 0)) ∧
  (∀ s : State, exec .scrUnitInfoReady s = .next { s with scr := { s.scr with valid := true } })

/-! ## Thermal guard (chapter 13) -/

/-- From R383, R384, R386, R388, R391 to R393, R395, R401: in VS0 to VS2 a sample of a LIVE sensor that passes its checks is its reading and may raise its peak, one out of range fails the sensor with SENSOR_FAILED; the third in a row at the CRIT_C of the last throttle update stops the engine, and the stop names the hottest LIVE sensor (R400). In VS3 a sample counts toward neither that stop nor the throttle; in VS4 the range check
goes on. The comparator at 100 °C follows every sample. A throttle update takes m down at once to the target of the law and up by
at most two, and recomputes the trims. The limits of VX_THM_CFG are stored where they are in order and refused otherwise.
Model's choices: the order of a sample's checks (log 98), sensors not yet read (log 99), compensation without a sensor (log 101), VS4 samples (log 160). -/
def Obligations.SensorsAndThrottle : Prop :=
  (∀ (s : State) (n : Sensor) (x : Sample), s.unitExists (uSensor n) = true → s.aon.valid = true → s.pwr.vs.code ≤ 2 → (s.thm.sensors.at n).state = .live → x.delivered = true → x.refDiff = none →
    ((s.thm.sensors.at n).known = false ∨ x.code ≠ (s.thm.sensors.at n).code) →
    (-640 ≤ x.reading.toInt → x.reading.toInt ≤ 2400 → x.reading.toInt < s.thm.critNow.toNat * 16 → ∃ t, exec (.sensorSample n x) s = .next t ∧ (t.thm.sensors.at n).reading = x.reading ∧
      (t.thm.sensors.at n).state = .live ∧ (t.thm.sensors.at n).crit = 0 ∧ (t.thm.sensors.at n).hot = decide (1600 ≤ x.reading.toInt) ∧ (t.thm.sensors.at n).peak = (if (s.thm.sensors.at n).peak.toInt < x.reading.toInt then x.reading else (s.thm.sensors.at n).peak) ∧
      (∀ k, k ≠ n → t.thm.sensors.at k = s.thm.sensors.at k) ∧ t.ctxs = s.ctxs ∧ t.fst = s.fst ∧ t.kept = s.kept) ∧
    (x.reading.toInt < -640 ∨ 2400 < x.reading.toInt → ∃ t, exec (.sensorSample n x) s = .next t ∧ (t.thm.sensors.at n).state = .range ∧ t.thm.fails = s.thm.fails + 1 ∧
      (∃ e ∈ t.fst.faultQ, e.code = 0x8004 ∧ e.cls = .c ∧ e.unit = uSensor n ∧ e.p16 = 2) ∧ t.irq.status &&& 8 = 8 ∧ t.ctxs = s.ctxs ∧ t.kept = s.kept) ∧
    (s.thm.critNow.toNat * 16 ≤ x.reading.toInt → x.reading.toInt ≤ 2400 → 2 ≤ (s.thm.sensors.at n).crit → s.thm.stopped = false → s.aon.refOk = true → ∃ t, exec (.sensorSample n x) s = .next t ∧
      t.thm.stopped = true ∧ t.thm.m = 40 ∧ (∃ e ∈ t.fst.faultQ, e.code = 0x8006 ∧ e.cls = .f ∧ e.p16 = 1 ∧ ∃ h : Sensor, e.unit = uSensor h ∧ (t.thm.sensors.at h).state = .live ∧
        ∀ k, s.unitExists (uSensor k) = true → (t.thm.sensors.at k).state = .live → (t.thm.sensors.at k).known = true → (t.thm.sensors.at k).reading.toInt ≤ (t.thm.sensors.at h).reading.toInt) ∧
      (∀ c, (s.ctx c).pass.st ≠ .noPlan → (t.ctx c).pass.st = .stopped ∨ (t.ctx c).exec.stopAfter ≠ none) ∧ t.kept = s.kept)) ∧
  (∀ (s : State) (n : Sensor) (x : Sample), s.unitExists (uSensor n) = true → s.aon.valid = true → (s.thm.sensors.at n).state = .live → x.delivered = true → x.refDiff = none →
    (s.pwr.vs = .vs3 → -640 ≤ x.reading.toInt → x.reading.toInt ≤ 2400 → ∃ t, exec (.sensorSample n x) s = .next t ∧ (t.thm.sensors.at n).reading = x.reading ∧
      (t.thm.sensors.at n).crit = (s.thm.sensors.at n).crit ∧ (t.thm.sensors.at n).maxNew = (s.thm.sensors.at n).maxNew ∧ t.thm.stopped = s.thm.stopped ∧ t.fst = s.fst ∧ t.kept = s.kept) ∧
    (s.pwr.vs = .vs4 → (x.reading.toInt < -640 ∨ 2400 < x.reading.toInt) → ∃ t, exec (.sensorSample n x) s = .next t ∧ (t.thm.sensors.at n).state = .range ∧
      (∃ e ∈ t.fst.faultQ, e.code = 0x8004 ∧ e.cls = .c ∧ e.unit = uSensor n ∧ e.p16 = 2) ∧ t.kept = s.kept)) ∧
  (∀ (s : State) (te : Int), s.pwr.vs = .vs0 → s.tEff = some te → s.thm.stopped = false → ∃ t, exec .throttleUpdate s = .next t ∧
    t.thm.m = (if mTarget te s.thm.throttle.toNat < s.thm.m then mTarget te s.thm.throttle.toNat else min (mTarget te s.thm.throttle.toNat) (s.thm.m + 2)) ∧
    (∀ n, (t.thm.sensors.at n).maxNew = none ∧ (t.thm.sensors.at n).failNew = false ∧ (t.thm.sensors.at n).reading = (s.thm.sensors.at n).reading) ∧
    (s.thm.m = 100 → t.thm.m < 100 → ∃ e ∈ t.rcd.intake, e.code = 0x8001 ∧ e.unit = uThm ∧ e.p16 = BitVec.ofNat 16 t.thm.m) ∧ t.ctxs = s.ctxs ∧ t.kept = s.kept) ∧
  (∀ te : Int, ∀ c : Nat, (te ≤ c * 16 → mTarget te c = 100) ∧ (c * 16 + 240 ≤ te → mTarget te c = 40) ∧ (40 ≤ mTarget te c ∧ mTarget te c ≤ 100)) ∧
  (∀ (s : State) (m : Int), s.aon.valid = true → 3 ≤ s.pwr.vs.code → medianHigh s.compReadings = some m → exec .compensationUpdate s = .next { s with thm := { s.thm with compAt := some m, compLost := false } }) ∧
  (∀ (s : State) (src : Src) (v : Reg), s.gate 0x800000 = .carry →
    let t := (field v 0 8 : BitVec 8).toNat
    let c := (field v 8 8 : BitVec 8).toNat
    let r := (field v 16 8 : BitVec 8).toNat
    (70 ≤ t → t ≤ 105 → t + 20 ≤ c → c + 5 ≤ r → r ≤ 125 → s.thm.stopped = false → s.aon.trip = false → ∃ u, exec (.thermalConfig src v) s = .next u ∧
      u.thm = { s.thm with throttle := field v 0 8, crit := field v 8 8, trip := field v 16 8, refused := false } ∧
      (∃ e ∈ u.rcd.intake, e.code = 0x8009 ∧ e.unit = uThm ∧ e.p16 = BitVec.ofNat 16 t) ∧ u.ctxs = s.ctxs ∧ u.kept = s.kept) ∧
    (t < 70 ∨ 105 < t ∨ c < t + 20 ∨ r < c + 5 ∨ 125 < r ∨ s.thm.stopped = true ∨ s.aon.trip = true → ∃ u, exec (.thermalConfig src v) s = .next u ∧
      u.thm = { s.thm with refused := true } ∧ u.ctxs = s.ctxs ∧ u.rcd = s.rcd ∧ u.kept = s.kept)) ∧
  (∀ (s : State) (src : Src) (v : Reg), s.gate 0x800010 = .carry → exec (.thmSensorSelWrite src v) s = .next (({ s with thm := { s.thm with sel := field v 0 10, valid := false } } : State).complete src 0x800010 false 0 0)) ∧
  (∀ s : State, exec .sensorInfoReady s = .next { s with thm := { s.thm with valid := true } })

/-- From R390: a monitor's request in VS0 stretches the clock by its steps, the largest of those in force holds, and CLOCK_STRETCH is recorded when the first begins; a monitor's end takes away its own request, and what no request holds is released by one step an update, also under a smaller request. A
margin violation of 1 ms at the full stretch, or with the divider at 40, makes an orderly stop with cause 2.
Whose requests are taken back is the model's reading (log 100). -/
def Obligations.ClockStretch : Prop :=
  (∀ (s : State) (k : Fin 17) (mon : BitVec 32), k.val ≠ 0 → s.pwr.vs = .vs0 → s.thm.asks = [] → ∃ t e, exec (.clockStretch k mon) s = .next t ∧
    t = { s with thm := { s.thm with asks := [(mon, k.val)], stretch := max s.thm.stretch k.val, stretches := s.thm.stretches + 1 }, rcd := { s.rcd with intake := s.rcd.intake ++ [e] } } ∧
    e.code = 0x8003 ∧ e.unit = uThm ∧ e.p16 = BitVec.ofNat 16 k.val ∧ e.p32 = mon ∧ t.thm.pct = max 40 (min s.thm.m (100 - max s.thm.stretch k.val))) ∧
  (∀ (s : State) (k : Fin 17) (mon : BitVec 32), k.val ≠ 0 → s.pwr.vs = .vs0 → s.thm.asks ≠ [] → exec (.clockStretch k mon) s = .next { s with
    thm := { s.thm with asks := s.thm.asks.filter (fun a => a.1 ≠ mon) ++ [(mon, k.val)], stretch := max s.thm.stretch k.val } }) ∧
  (∀ (s : State) (mon : BitVec 32), exec (.clockStretchEnd mon) s = .next { s with thm := { s.thm with asks := s.thm.asks.filter (fun a => a.1 ≠ mon) } }) ∧
  (∀ s : State, s.pwr.vs.code ≤ 2 → ∃ t, exec .throttleUpdate s = .next t ∧ t.thm.asks = s.thm.asks ∧ t.kept = s.kept ∧
    ((∃ a ∈ s.thm.asks, s.thm.stretch ≤ a.2) → t.thm.stretch = s.thm.stretch) ∧
    ((∀ a ∈ s.thm.asks, a.2 < s.thm.stretch) → t.thm.stretch = s.thm.stretch - 1)) ∧
  (∀ s : State, s.pwr.vs = .vs0 → ((∃ a ∈ s.thm.asks, a.2 = 16) ∨ s.thm.pct = 40) → s.thm.stopped = false → s.aon.refOk = true → ∃ t, exec .marginViolationTimeout s = .next t ∧
    t.thm.stopped = true ∧ t.thm.m = 40 ∧ (∃ e ∈ t.fst.faultQ, e.code = 0x8006 ∧ e.cls = .f ∧ e.unit = uThm ∧ e.p16 = 2) ∧ t.kept = s.kept)

/-! ## The event recorder (chapter 14) -/

/-- From R404 to R408, R410, R413 to R415: an event that repeats the open record before its window ends counts in it, another becomes a record with the next number; the append machine writes history records first, then closed records in order, into the ring, and into the permanent region those of class F, of
the priority codes, and the first of each code; a lost flash is REC_FLASH_LOST, and once it answers again the configuration items that waited are written in their order. Wall time, settings, fetch and dump do what their registers say.
Model's choices: merging and what is lost (log 20, log 102), erased slots (log 22), the place of a job address (log 36). -/
def Obligations.RecordsFromIntakeToFlash : Prop :=
  (∀ (s : State) (e : Ev), s.rcd.intake = [e] → e.glued = false → s.rcd.openTill = none → s.rcd.queue.length < 4096 → s.rcd.seqSet = true → ∃ t, exec .recordIntake s = .next t ∧ t.rcd.intake = [] ∧
    t.rcd.queue = s.rcd.queue ++ [{ record := { e.toRec with seq := s.rcd.nextSeq }, numbered := true }] ∧ t.rcd.nextSeq = nextNumber s.rcd.nextSeq ∧
    t.rcd.flash = s.rcd.flash ∧ t.ctxs = s.ctxs ∧ t.fst = s.fst ∧ t.kept = s.kept) ∧
  (∀ (s : State) (e : Ev) (x : Staged) (q : List Staged) (till : BitVec 64), s.rcd.intake = [e] → e.glued = false → s.rcd.queue = q ++ [x] → s.rcd.openTill = some till → s.merges = true →
    e.tick.toNat < till.toNat → x.record.sameAs e = true → ∃ t, exec .recordIntake s = .next t ∧ t.rcd.intake = [] ∧
    t.rcd.queue = q ++ [{ x with record := { x.record with reps := x.record.reps + 1 } }] ∧ t.rcd.nextSeq = s.rcd.nextSeq ∧ t.out = s.out ∧ t.kept = s.kept) ∧
  (∀ s : State, exec .mergeWindowExpiry s = .next { s with rcd := { s.rcd with openTill := none } }) ∧
  (∀ (s : State) (q : Staged) (rest : List Staged), s.rcd.flashOk = true → s.rcd.histOut = [] → s.rcd.queue = q :: rest → s.rcd.seqSet = true → q.numbered = true → (rest ≠ [] ∨ s.rcd.openTill = none) →
    ∃ t, exec (.recordAppend none) s = .next t ∧ t.rcd.queue = rest ∧ t.rcd.flash.ring.getLast? = some (.entry q.record) ∧ t.ctxs = s.ctxs ∧ t.kept = s.kept ∧
      (s.rcd.codes.contains q.record.code = true → q.record.cls ≠ .f → priorityCodes.contains q.record.code = false → t.rcd.flash.perm = s.rcd.flash.perm) ∧
      (s.rcd.codes.contains q.record.code = false ∨ q.record.cls = .f ∨ priorityCodes.contains q.record.code = true → s.rcd.flash.perm.length < 262144 →
        t.rcd.flash.perm = s.rcd.flash.perm ++ [.entry { q.record with perm := true }])) ∧
  (∀ (s : State) (h : HistRec) (rest : List HistRec), s.rcd.flashOk = true → s.rcd.histOut = h :: rest → s.rcd.flash.hist.length + 1 < 98304 → ∃ t, exec (.recordAppend none) s = .next t ∧
    t.rcd.histOut = rest ∧ t.rcd.flash.hist = s.rcd.flash.hist ++ [h] ∧ t.rcd.queue = s.rcd.queue ∧ t.rcd.flash.ring = s.rcd.flash.ring ∧ t.ctxs = s.ctxs ∧ t.kept = s.kept) ∧
  (∀ (s : State) (b : Bool), s.rcd.flashOk = true → ∃ e, e.code = 0x9005 ∧ e.cls = .u ∧ e.unit = uRec ∧ e.p32 = BitVec.ofNat 32 s.rcd.queue.length ∧
    exec (.recFlashLost b) s = .next { s with rcd := { s.rcd with flashOk := false }, fst := { s.fst with faultQ := s.fst.faultQ ++ [e] } }) ∧
  (∀ s : State, exec (.flashRetry true) s = .next { s with rcd := { s.rcd with
      flashOk := true, confOut := [], flash := s.rcd.confOut.foldl (fun f x => f.putItem x.1 x.2.1 x.2.2) s.rcd.flash } } ∧ exec (.flashRetry false) s = .next s) ∧
  (∀ (s : State) (src : Src) (v : Reg), s.gate 0x900018 = .carry → ∃ t, exec (.recWallWrite src v) s = .next t ∧ t.time.wall = field v 0 40 ∧ t.time.wallSet = true ∧ t.time.tick = s.time.tick ∧
    (field v 0 40 ≠ s.time.wall ∨ s.time.wallSet = false → ∃ e ∈ t.rcd.intake, e.code = 0x9002 ∧ e.unit = uRec ∧ e.p32 = s.time.wall.setWidth 32) ∧ t.ctxs = s.ctxs ∧ t.kept = s.kept) ∧
  (∀ (s : State) (src : Src) (v : Reg), s.gate 0x900010 = .carry → ∃ t, exec (.recCfgWrite src v) s = .next t ∧ t.rcd.mergeMs = BitVec.ofNat 14 (min 10000 (field v 0 14 : BitVec 14).toNat) ∧
    t.rcd.queueIrq = BitVec.ofNat 12 (max 1 (field v 16 12 : BitVec 12).toNat) ∧ t.rcd.openTill = s.rcd.openTill ∧ t.ctxs = s.ctxs ∧ t.kept = s.kept) ∧
  (∀ (s : State) (src : Src) (v : Reg), s.gate 0x900028 = .carry → flag v 34 = true → ∃ t, exec (.recReadGo src v) s = .next t ∧ t.rcd.read.region = field v 0 2 ∧ t.rcd.read.index = field v 2 32 ∧
    t.rcd.read.going = true ∧ t.rcd.read.done = false ∧ t.rcd.flash = s.rcd.flash ∧ t.ctxs = s.ctxs ∧ t.kept = s.kept) ∧
  (∀ s : State, s.rcd.read.going = true → ∃ t, exec .recReadDone s = .next t ∧ t.rcd.read.done = true ∧ t.rcd.read.going = false ∧ t.rcd.flash = s.rcd.flash ∧ t.out = s.out ∧ t.kept = s.kept ∧
    (s.rcd.flash.slot s.rcd.read.region s.rcd.read.index = none → t.rcd.read.absent = true) ∧
    (∀ b v, s.rcd.flash.slot s.rcd.read.region s.rcd.read.index = some (b, v) → t.rcd.read.absent = false ∧ t.rcd.read.data = b ∧ t.rcd.read.void = v)) ∧
  (∀ (s : State) (src : Src) (v : Reg), s.gate 0x900070 = .carry → flag v 24 = true → s.rcd.read.busy = false → (field v 0 22 : BitVec 22) ≠ 0 → ∃ t, exec (.recDumpGo src v) s = .next t ∧
    t.rcd.read.busy = true ∧ t.rcd.read.dDone = false ∧ t.rcd.read.copied = 0 ∧ t.rcd.read.count = field v 0 22 ∧ t.rcd.read.dRegion = field v 22 2 ∧ t.ctxs = s.ctxs ∧ t.kept = s.kept) ∧
  (∀ s : State, s.rcd.read.busy = true → ∃ t, exec .recDumpDone s = .next t ∧ t.rcd.read.busy = false ∧ t.rcd.read.dDone = true ∧ t.rcd.read.copied = s.rcd.read.count.setWidth 32 ∧
    t.irq.status &&& 0x10 = 0x10 ∧ t.ctxs = s.ctxs ∧ t.still = s.still ∧
    let slots := (s.rcd.flash.slotsFrom s.rcd.read.dRegion s.rcd.read.first s.rcd.read.count.toNat).flatten
    (∀ i st b x, slots[i]? = some x → s.enginePlace (s.rcd.read.addr.toNat + i) = some (st, b) →
      (∀ j y, j < slots.length → j ≠ i → s.enginePlace (s.rcd.read.addr.toNat + j) = some y → memKey y.1 y.2 ≠ memKey st b) → t.byteAt st b = x) ∧
    (∀ st b, (∀ j y, j < slots.length → s.enginePlace (s.rcd.read.addr.toNat + j) = some y → memKey y.1 y.2 ≠ memKey st b) → t.byteAt st b = s.byteAt st b))

/-! ## Firmware processors (chapter 15) -/

/-- From R426 to R430, R447 to R453: a watchdog that expires restarts its processor under its latches, and a restart with two counted in the last 60 s fails it; RESTART is taken in RUN and does not count; an uncorrectable error of the code part fails it, one elsewhere and a store to the code part restart it, a corrected one is counted; where its clock does not run none of this happens (R447, R476). A release of the latches brings it back to its entry point in RUN, with FWP_RESTART recorded, or in HOLD where no host has agreed a
protocol yet, with none; one that does not come back fails. A load is accepted for targets that may be loaded; the image is read in memory, and starts them in HOLD or is refused with its cause.
Model's choices: states and causes of a load (log 106), records open at a restart (log 110), what a processor keeps (log 112), corrected errors and the code part (log 163). -/
def Obligations.ProcessorsRestartAndLoad : Prop :=
  (∀ (s : State) (p : Proc) (pc : BitVec 32), (s.fwRuns p = false → exec (.watchdogExpiry p pc) s = .next s) ∧ (s.fwRuns p = true →
    (((s.proc p).counted s.time.opsec).length < 2 → ∃ t, exec (.watchdogExpiry p pc) s = .next t ∧ (t.proc p).state = .restarting ∧ (t.proc p).latches = true ∧ (t.proc p).cause = 1 ∧
      (t.proc p).restarts = (s.proc p).restarts + 1 ∧ (t.proc p).expiries = (s.proc p).expiries + 1 ∧ (t.proc p).pc = pc ∧ (t.proc p).from_ = s.time.tick ∧ (∀ c, (t.ctx c).pass = (s.ctx c).pass) ∧ t.kept = s.kept) ∧
    (2 ≤ ((s.proc p).counted s.time.opsec).length → s.aon.refOk = true → ∃ t e, exec (.watchdogExpiry p pc) s = .next t ∧ (t.proc p).state = .failed ∧ e ∈ t.fst.faultQ ∧ e.code = 0xB003 ∧
      e.cls = (if p = mc then .f else .u) ∧ e.unit = uProc p ∧ e.p16 = 2 ∧ e.p32 = pc ∧ ((∀ c, (s.ctx c).exec.tokenWait = false) → t.kept = s.kept)))) ∧
  (∀ (s : State) (src : Src) (p : Proc) (pc : BitVec 32), s.gate (fwpCtrlOff p) = .carry →
    ((s.proc p).state = .run → ∃ t, exec (.fwpCtrlRestart src p pc) s = .next t ∧ (t.proc p).state = .restarting ∧ (t.proc p).cause = 2 ∧ (t.proc p).refused = false ∧
      (t.proc p).recent = (s.proc p).counted s.time.opsec ∧ t.kept = s.kept) ∧
    ((s.proc p).state ≠ .run → ∃ t, exec (.fwpCtrlRestart src p pc) s = .next t ∧ (t.proc p).refused = true ∧ (t.proc p).state = (s.proc p).state ∧ t.ctxs = s.ctxs ∧ t.kept = s.kept)) ∧
  (∀ (s : State) (p : Proc) (pc : BitVec 32), (∀ code corrected, s.coreRuns p = false → exec (.tcmError p code pc corrected) s = .next s) ∧ (s.coreRuns p = true →
    (∀ code, ∃ t, exec (.tcmError p code pc true) s = .next t ∧ t = { s with fwp := t.fwp } ∧ t.proc p = { s.proc p with ecc := bump (s.proc p).ecc } ∧ (∀ q, q ≠ p → t.proc q = s.proc q)) ∧
    (((s.proc p).counted s.time.opsec).length < 2 → ∃ t, exec (.tcmError p false pc false) s = .next t ∧ (t.proc p).state = .restarting ∧ (t.proc p).cause = 5 ∧ t.kept = s.kept) ∧
    (s.aon.refOk = true → ∃ t e, exec (.tcmError p true pc false) s = .next t ∧ (t.proc p).state = .failed ∧ e ∈ t.fst.faultQ ∧ e.code = 0xB003 ∧ e.p16 = 3 ∧ e.unit = uProc p ∧ ((∀ c, (s.ctx c).exec.tokenWait = false) → t.kept = s.kept)))) ∧
  (∀ (s : State) (p : Proc), (s.proc p).state = .restarting → s.clocked p = true → (p = mc → s.mgt = []) → ∃ t, exec (.latchRelease p []) s = .next t ∧ (t.proc p).latches = false ∧
    (t.proc p).pc = (s.proc p).entry ∧ (t.proc p).state = (if (s.proc p).greeted then .run else .hold) ∧ t.kept = s.kept ∧
    ((s.proc p).greeted = true → ∃ e ∈ t.rcd.intake, e.code = 0xB002 ∧ e.unit = uProc p ∧ e.p16 = (s.proc p).cause.setWidth 16) ∧
    ((s.proc p).greeted = true → (s.proc p).cause = 1 ∨ (s.proc p).cause = 3 ∨ (s.proc p).cause = 5 → ∃ x ∈ t.fst.faultQ, x.code = 0xB001 ∧ x.cls = .c ∧ x.unit = uProc p) ∧
    ((s.proc p).greeted = false → p ≠ mc → t.rcd = s.rcd ∧ t.fst = s.fst ∧ t.ctxs = s.ctxs)) ∧
  (∀ (s : State) (p : Proc) (acts : List FwAct), (s.proc p).state ≠ .restarting ∨ s.clocked p = false → exec (.latchRelease p acts) s = .next s) ∧
  (∀ (s : State) (p : Proc) (word : Nat) (v : BitVec 32), (s.proc p).state = .restarting → s.clocked p = true → word < tcmWords p .code → (s.proc p).locked = true →
    ((s.proc p).counted s.time.opsec).length < 2 → ∃ t, exec (.latchRelease p [.store .code word v]) s = .next t ∧ (t.proc p).state = .restarting ∧ (t.proc p).cause = 5 ∧ t.kept = s.kept) ∧
  (∀ (s : State), (s.proc mc).state = .restarting → s.clocked mc = true → s.mgt ≠ [] → ∃ t, exec (.latchRelease mc []) s = .next t ∧ t.mgt = [] ∧ (t.proc mc).state ≠ .restarting ∧
    (s.mgt = [.tripStatus] → Out.mctp (.tripStatus s.aon.tripBy s.allCool) ∈ t.out)) ∧
  (∀ (s : State) (p : Proc) (pc : BitVec 32), (s.proc p).state = .restarting → s.aon.refOk = true → ∃ t e, exec (.fwpFailed p pc) s = .next t ∧ (t.proc p).state = .failed ∧ e ∈ t.fst.faultQ ∧
    e.code = 0xB003 ∧ e.p16 = 1 ∧ e.unit = uProc p ∧ ((∀ c, (s.ctx c).exec.tokenWait = false) → t.kept = s.kept)) ∧
  (∀ (s : State) (p : Proc), exec (.recentRestartExpiry p) s = .next { s with fwp := { s.fwp with procs := s.fwp.procs.upd p (fun x => { x with recent := x.recent.filter (fun t => decide ((s.time.opsec - t).toNat < 60)) }) } }) ∧
  (∀ (s : State) (src : Src) (v : Reg), s.gate 0xB00008 = .carry →
    let mask : BitVec 6 := field v 0 6
    (s.fwp.busy = false → mask ≠ 0 → mask.getLsbD 0 = false → (∀ p, mask.getLsbD p.val = true → s.mayLoad p = true) → ∃ t, exec (.fwpLoadGo src v) s = .next t ∧ t.fwp.busy = true ∧ t.fwp.refused = false ∧
      t.fwp.job = mask ∧ t.fwp.result = 0 ∧ (∀ p, (t.proc p).state = if mask.getLsbD p.val then .loading else (s.proc p).state) ∧ t.ctxs = s.ctxs ∧ t.kept = s.kept) ∧
    (s.fwp.busy = true ∨ mask = 0 ∨ mask.getLsbD 0 = true → ∃ t, exec (.fwpLoadGo src v) s = .next t ∧ t.fwp.refused = true ∧ t.fwp.busy = s.fwp.busy ∧ t.fwp.job = s.fwp.job ∧
      (∀ p, (t.proc p).state = (s.proc p).state) ∧ t.kept = s.kept)) ∧
  (∀ (s : State) (image : JobRead), s.fwp.busy = true → s.fwRuns mc = true → s.fwp.job.getLsbD 0 = false →
    let b := s.engineBytes s.fwp.base.toNat (1024 * s.fwp.kib.toNat) image
    let ecc := JobRead.ecc image (1024 * s.fwp.kib.toNat)
    let read (t : State) : Prop := t.mem = s.mem ∧ t.still = s.still ∧ (image.errors = [] → t.tags = s.tags)
    (imageCause s b ecc = 0 → ∃ t, exec (.fwpLoadDone image) s = .next t ∧ t.fwp.busy = false ∧ t.fwp.result = 1 ∧ read t ∧
      (∀ p, s.fwp.job.getLsbD p.val = true → (t.proc p).state = .hold ∧ (t.proc p).greeted = false ∧ (t.proc p).version = BitVec.ofNat 32 (imageField b 12 4) ∧ (t.proc p).recent = [] ∧
        ∃ e ∈ t.rcd.intake, e.code = 0xB005 ∧ e.unit = uProc p)) ∧
    (imageCause s b ecc ≠ 0 → ∃ t, exec (.fwpLoadDone image) s = .next t ∧ t.fwp.busy = false ∧ t.fwp.result = 2 ∧ t.fwp.cause = imageCause s b ecc ∧ read t ∧
      (∀ p, s.fwp.job.getLsbD p.val = true → (t.proc p).state = if s.fwp.was.getLsbD p.val then .failed else .off) ∧ ∃ e ∈ t.rcd.intake, e.code = 0xB006 ∧ e.unit = uProc mc))

/-- From R431 to R440: RING copies the request and the exchange begins, or is refused while one is in progress or from the other side; a processor that runs answers with the 64 bytes of R432: the row's own payload where the request is good, status 4 and MBX_BAD_REQUEST where its CRC is not, and a repeat of the last answered
request gets the same response again. A request not answered in time is MBX_TIMEOUT, once. R425, R426, R454, R455: what the firmware did since its last event comes first: log entries, enabled trace points, words stored, registers written.
Model's choices: the order of the checks (log 107), opcodes outside the table (log 108), RING to a processor that does not run (log 109), what the firmware does comes as an operand (log 163). -/
def Obligations.MailboxExchanges : Prop :=
  (∀ (s : State) (src : Src) (p : Proc) (side : Fin 2), s.gate (mbxCtrlOff (mboxOf p side)) = .carry →
    ((s.fwp.mbox.at (mboxOf p side)).busy = false → (side = 0 ↔ src = .host) → (s.proc p).state ≠ .failed → ∃ t, exec (.mbxRing src p side) s = .next t ∧
      t.fwp.mbox.at (mboxOf p side) = { s.fwp.mbox.at (mboxOf p side) with inReq := (s.fwp.mbox.at (mboxOf p side)).req, busy := true, done := false, timedOut := false, refused := false } ∧
      t.fwp.procs = s.fwp.procs ∧ t.ctxs = s.ctxs ∧ t.kept = s.kept) ∧
    ((s.fwp.mbox.at (mboxOf p side)).busy = true → ∃ t, exec (.mbxRing src p side) s = .next t ∧
      t.fwp.mbox.at (mboxOf p side) = { s.fwp.mbox.at (mboxOf p side) with refused := true } ∧ t.ctxs = s.ctxs ∧ t.kept = s.kept)) ∧
  (∀ (s : State) (p : Proc) (side : Fin 2), (s.fwp.mbox.at (mboxOf p side)).busy = true → (s.fwp.mbox.at (mboxOf p side)).timedOut = false → ∃ t e, exec (.mbxTimeout p side) s = .next t ∧
    t.fwp.mbox.at (mboxOf p side) = { s.fwp.mbox.at (mboxOf p side) with timedOut := true } ∧ t.fst.faultQ = s.fst.faultQ ++ [e] ∧ e.code = 0xA001 ∧ e.cls = .c ∧ e.unit = uProc p ∧ t.ctxs = s.ctxs ∧ t.kept = s.kept) ∧
  (∀ (s0 : State) (p : Proc) (side : Fin 2) (acts : List FwAct),
    let s := fwActs s0 p acts
    (s.fwp.mbox.at (mboxOf p side)).busy = true → s.fwRuns p = true →
    let m := s.fwp.mbox.at (mboxOf p side)
    let x := s.proc p
    let q := requestOf m.bytes
    let seal_ (status : Nat) (payload : List Byte) : MboxRegs := toRegs (([x.major, x.minor] ++ leBytes 2 q.opcode ++ [BitVec.ofNat 8 q.tag, BitVec.ofNat 8 status, BitVec.ofNat 8 payload.length, 1] ++ exactly 52 payload) ++
      leBytes 4 (crc32c ([x.major, x.minor] ++ leBytes 2 q.opcode ++ [BitVec.ofNat 8 q.tag, BitVec.ofNat 8 status, BitVec.ofNat 8 payload.length, 1] ++ exactly 52 payload)).toNat)
    let answered (c : Instr) (rsp : MboxRegs) : Prop := ∃ t, exec c s0 = .next t ∧ (t.fwp.mbox.at (mboxOf p side)).rsp = rsp ∧ (t.fwp.mbox.at (mboxOf p side)).busy = false ∧
      (t.fwp.mbox.at (mboxOf p side)).done = true ∧ t.irq.mbx = s.irq.mbx ||| (1#12 <<< (mboxOf p side).val) ∧ (side = 0 → t.irq.status &&& 2 = 2) ∧ (s.scr.ended = [] → t.ctxs = s.ctxs) ∧ t.kept = s.kept
    let good : Prop := q.crcOk = true ∧ q.major = x.major.toNat ∧ q.length ≤ 52 ∧ m.last.filter (fun r => r.1.toNat = q.tag && r.2.1.toNat = q.opcode) = none
    (good → q.opcode = 1 → answered (.hello p side acts) (seal_ 0 (leBytes 4 x.version.toNat ++ [x.major, x.minor, BitVec.ofNat 8 (min q.minor x.minor.toNat),
      if side = 0 ∧ x.state = .hold then 3 else BitVec.ofNat 8 x.state.code]))) ∧
    (good → q.opcode = 2 → answered (.getStatus p side acts) (seal_ 0 ([BitVec.ofNat 8 x.state.code, x.cause.setWidth 8] ++ leBytes 2 x.restarts.toNat ++ leBytes 8 x.from_.toNat ++ leBytes 2 x.period.toNat))) ∧
    (good → q.opcode = 3 → answered (.echo p side acts) (seal_ 0 (q.payload.take q.length))) ∧
    (good → q.opcode = 4 → 1 ≤ p.val → p.val ≤ 4 → x.state = .run → ∀ c : Ctx, imageField q.payload 0 1 = c.val → ∃ w : BitVec 64, answered (.queueStatus p side acts)
      (seal_ 0 (leBytes 6 (s.ctx c).exec.token.toNat ++ leBytes 2 w.toNat ++ [if (s.ctx c).exec.replayDue && !(s.ctx c).exec.replaySent then 1 else 0]))) ∧
    (good → q.opcode = 5 → p ≠ mc → 64 ≤ imageField q.payload 0 1 → answered (.traceName p side acts) (seal_ 0 (exactly 48 (Config.traceName x.code x.table (imageField q.payload 0 1))))) ∧
    (∀ r, q.opcode = 3 → q.crcOk = true → m.last = some (BitVec.ofNat 8 q.tag, 3, r) → answered (.echo p side acts) r) ∧
    (q.opcode = 3 → q.crcOk = false → answered (.echo p side acts) (seal_ 4 []) ∧ ∃ t, exec (.echo p side acts) s0 = .next t ∧ ∃ e ∈ t.rcd.intake, e.code = 0xA002 ∧ e.unit = uProc p)) ∧
  (∀ (s : State) (p : Proc) (side : Fin 2), (s.fwp.mbox.at (mboxOf p side)).busy = false →
    ∀ f ∈ ([(.hello p side ·), (.getStatus p side ·), (.echo p side ·), (.queueStatus p side ·), (.traceName p side ·)] : List (List FwAct → Instr)),
      (∀ acts, s.coreRuns p = false → exec (f acts) s = .next s) ∧
      (s.coreRuns p = true →
        (∀ arg, exec (f [.kick arg]) s = .next (if (s.proc p).traces 1 then s.logTo p 1 none false arg else s)) ∧
        (∀ arg, exec (f [.loop arg]) s = .next (if (s.proc p).traces 0 then s.logTo p 0 none false arg else s)) ∧
        (∀ (code : BitVec 16) (c : Option Ctx) (arg : BitVec 32), 0x100 ≤ code.toNat → code.toNat < 0x8000 → exec (f [.message code c arg]) s = .next (s.logTo p code c false arg)) ∧
        (∀ (part : TcmPart) (word : Nat) (v : BitVec 32), part ≠ .code → word < tcmWords p part → ∃ t, exec (f [.store part word v]) s = .next t ∧ t = { s with fwp := t.fwp } ∧
          (∀ q, q ≠ p → t.proc q = s.proc q) ∧ t.proc p = (match part with
            | .retained => { s.proc p with retained := tcmPut word v (s.proc p).retained }
            | _ => { s.proc p with working := tcmPut word v (s.proc p).working })) ∧
        (∀ (i : Fin 32) (v : BitVec 32), ∃ t, exec (f [.reg i v]) s = .next t ∧ (t.proc p).regs.at i = (if i = 0 then (s.proc p).regs.at 0 else v) ∧
          (∀ j, j ≠ i → (t.proc p).regs.at j = (s.proc p).regs.at j) ∧ t.kept = s.kept)))

/-- From R441 to R446: the operations of a processor on the channels. OPEN takes a free dynamic channel, and of two in one control cycle the lower processor index has it (R445); SEND puts its entry behind the others where the credits allow, and says NO_CREDIT otherwise; RECV takes the oldest entry of the channel that is chosen; the waits end at once where nothing is in their way and otherwise hold the processor; CLOSE frees an empty channel and drains another. A cycle of
blocked senders is QUEUE_CYCLE, a U fault, and its highest member restarts.
Model's choices: channels that close (log 111), the credits a WAIT_SEND waits for (log 39). -/
def Obligations.ChannelOperations : Prop :=
  (∀ (s : State) (p receiver : Proc) (ch : Chan) (priority : BitVec 2), s.mayOperate p = true →
    (10 ≤ ch.val → (s.fwp.chans.at ch).state = .free → ∃ t, exec (.open_ p ch receiver priority) s = .next t ∧ t.fwp.chans.at ch = { s.fwp.chans.at ch with
        state := .open_, sender := BitVec.ofNat 3 p.val, receiver := BitVec.ofNat 3 receiver.val, prio := priority, told := [], closedAt := none, openedAt := some s.time.tick } ∧
      (∀ d, d ≠ ch → t.fwp.chans.at d = s.fwp.chans.at d) ∧ t.out = s.out ++ [.chan p .ok] ∧ t.fwp.procs = s.fwp.procs ∧ t.kept = s.kept) ∧
    (∀ q : Proc, 10 ≤ ch.val → s.outranks p ch = true → (s.fwp.chans.at ch).sender.toNat = q.val → ∃ t, exec (.open_ p ch receiver priority) s = .next t ∧
      (t.fwp.chans.at ch).heldBy p = true ∧ (t.fwp.chans.at ch).receiver = BitVec.ofNat 3 receiver.val ∧ t.out = amend s.out (.chan q .ok) (.chan q .busy) ++ [.chan p .ok] ∧ t.fwp.procs = s.fwp.procs ∧ t.kept = s.kept) ∧
    (ch.val < 10 ∨ ((s.fwp.chans.at ch).state ≠ .free ∧ s.outranks p ch = false) → exec (.open_ p ch receiver priority) s = .next { s with out := s.out ++ [.chan p .busy] })) ∧
  (∀ (s : State) (p : Proc) (ch : Chan) (e : ChanEntry), s.mayOperate p = true → (s.fwp.chans.at ch).heldBy p = true → (s.fwp.chans.at ch).told.contains p = false →
    ((s.fwp.chans.at ch).entries.length + (if e.kind = 1 then 1 else 2) ≤ 16 → (∀ q : Proc, (s.fwp.chans.at ch).receiver.toNat = q.val → (s.proc q).waitRecv = false ∧ (s.proc q).waitSend = none) →
      ∃ t, exec (.send p ch e) s = .next t ∧ (t.fwp.chans.at ch).entries = (s.fwp.chans.at ch).entries ++ [e] ∧ (t.fwp.chans.at ch).sent = (s.fwp.chans.at ch).sent + 1 ∧
        (∀ d, d ≠ ch → t.fwp.chans.at d = s.fwp.chans.at d) ∧ t.out = s.out ++ [.chan p .ok] ∧ t.ctxs = s.ctxs ∧ t.kept = s.kept) ∧
    (16 < (s.fwp.chans.at ch).entries.length + (if e.kind = 1 then 1 else 2) → exec (.send p ch e) s = .next { s with out := s.out ++ [.chan p .noCredit] })) ∧
  (∀ (s : State) (p : Proc) (ch : Chan) (any : Bool), s.mayOperate p = true → (s.fwp.chans.at ch).heldBy p = true → (s.fwp.chans.at ch).told.contains p = false →
    ((s.fwp.chans.at ch).entries.length ≤ 14 → ∃ t, exec (.waitSend p ch any) s = .next t ∧ t.out = s.out ++ [.chan p .ok] ∧ (t.proc p).waitSend = none ∧ t.fwp.chans = s.fwp.chans ∧ t.kept = s.kept) ∧
    (14 < (s.fwp.chans.at ch).entries.length → any = false → ∃ t, exec (.waitSend p ch any) s = .next t ∧ t.out = s.out ++ [.chan p .waiting] ∧ (t.proc p).waitSend = some (ch, false) ∧
      (t.fwp.chans.at ch).sendWait = true ∧ (t.fwp.chans.at ch).entries = (s.fwp.chans.at ch).entries ∧ t.kept = s.kept)) ∧
  (∀ (s : State) (p : Proc) (c : Chan) (e : ChanEntry) (rest : List ChanEntry), s.mayOperate p = true → s.chosen p = some c → (s.fwp.chans.at c).entries = e :: rest → (s.fwp.chans.at c).told.contains p = false →
    ∃ t, exec (.recv p) s = .next t ∧ (t.fwp.chans.at c).entries = rest ∧ (t.proc p).served = c.val ∧ Out.chan p (.entry c e) ∈ t.out ∧ (∀ d, d ≠ c → t.fwp.chans.at d = s.fwp.chans.at d) ∧
      (∀ d, (s.fwp.chans.at d).receiver.toNat = p.val → (s.fwp.chans.at d).entries ≠ [] → (s.fwp.chans.at d).prio.toNat ≤ (s.fwp.chans.at c).prio.toNat) ∧ t.ctxs = s.ctxs ∧ t.kept = s.kept) ∧
  (∀ (s : State) (p : Proc), s.mayOperate p = true → (∀ d, (s.fwp.chans.at d).receiver.toNat = p.val → (s.fwp.chans.at d).entries = []) →
    exec (.recv p) s = .next { s with out := s.out ++ [.chan p .empty] } ∧
    ∃ t, exec (.waitRecv p) s = .next t ∧ (t.proc p).waitRecv = true ∧ t.out = s.out ++ [.chan p .waiting] ∧ t.fwp.chans = s.fwp.chans ∧ t.kept = s.kept) ∧
  (∀ (s : State) (p : Proc) (ch : Chan), s.mayOperate p = true → 10 ≤ ch.val → (s.fwp.chans.at ch).heldBy p = true → ∃ t, exec (.close p ch) s = .next t ∧ t.out = s.out ++ [.chan p .ok] ∧
    (t.fwp.chans.at ch).entries = (s.fwp.chans.at ch).entries ∧ (t.fwp.chans.at ch).state = (if (s.fwp.chans.at ch).entries = [] then .free else .draining) ∧
    (∀ d, d ≠ ch → t.fwp.chans.at d = s.fwp.chans.at d) ∧ t.fwp.procs = s.fwp.procs ∧ t.kept = s.kept) ∧
  (∀ (s : State) (p q : Proc) (c d : Chan), p.val < q.val → s.blockedOn p = some (q, c) → s.blockedOn q = some (p, d) → ((s.proc q).counted s.time.opsec).length < 2 → ∃ t e, exec (.queueCycle p) s = .next t ∧
    (t.proc q).state = .restarting ∧ (t.proc q).cause = 4 ∧ e ∈ t.fst.faultQ ∧ e.code = 0xB004 ∧ e.cls = .u ∧ e.unit = uProc q ∧ e.p16 = (1#16 <<< p.val) ||| (1#16 <<< q.val) ∧
    e.p32 = (1#32 <<< c.val) ||| (1#32 <<< d.val) ∧ t.kept = s.kept)

/-! ## Bring-up, shutdown, reset domains, power states (chapter 16), and what reset leaves (chapter 17) -/

/-- From R461 to R464, R115, R345, R375, R376, R467: each step of bring-up ends where its condition holds, is recorded where nothing failed in it, and the next begins: step 1 needs
the Sentinel and the three power-good inputs, step 2 a running MC (it chooses the warm path only as R467 allows), step 3 the reference clock, step 4 leaves every tag UNTAGGED
on the full path and keeps them on the warm path, step 5 needs every link trained or fenced, step 6 TC loaded, and judges the known-answer runs (a run that passes when made again is a transient, a second failure
declares the unit lasting with cause 4), step 7 all six processors in RUN: its end is recorded, ENGINE_READY is recorded, and READY is set, unless a drain or a thermal stop has begun or the engine is below VS0 (R478).
Model's choices: the path of step 1's record (log 113), the flag word (log 114), the ends of steps 5 and 6 (log 115), the runs' records (log 144), READY in a stop (log 161). -/
def Obligations.BringUpStepsLeadToReady : Prop :=
  (∀ (s : State) (x : StepReport), s.aon.valid = true → s.pwr.down = none → s.pwr.step = 1 →
    (s.aon.sentinel = true → s.aon.pgMain = true → s.aon.pgMem = true → s.aon.pgIo = true → ∃ t e, exec (.bringupStep x) s = .next t ∧ t.pwr.step = 2 ∧ t.pwr.vs = .vs2 ∧
      t.rcd.intake = s.rcd.intake ++ [e] ∧ e.code = 0xE001 ∧ e.unit = 0x7A00 ∧ e.p16 = 9 ∧ e.p32 = BitVec.ofNat 32 x.timeUs ∧ t.ctxs = s.ctxs ∧ t.kept = s.kept) ∧
    ((s.aon.sentinel && s.aon.pgMain && s.aon.pgMem && s.aon.pgIo) = false → exec (.bringupStep x) s = .next s)) ∧
  (∀ (s : State) (x : StepReport), s.aon.valid = true → s.pwr.down = none → s.pwr.step = 2 →
    (s.mcRuns = false → exec (.bringupStep x) s = .next s) ∧
    (s.mcRuns = true → x.confCrc = [] → ∃ t, exec (.bringupStep x) s = .next t ∧ t.pwr.step = 3 ∧ t.pwr.vs = .vs0 ∧ t.pwr.cleanDown = false ∧ t.ctxs = s.ctxs ∧ t.kept = s.kept ∧
      t.pwr.path = (if s.rcd.seqSet && s.pwr.cleanDown && flag ((s.rcd.flash.item 8).getD 0) 0 && flag ((s.rcd.flash.item 8).getD 0) 5 then 2 else 1) ∧
      t.thm.trip = field ((s.rcd.flash.item 7).getD 0x7D735F) 16 8 ∧ t.time.opsec = field ((s.rcd.flash.item 2).getD 0) 0 40)) ∧
  (∀ (s : State) (x : StepReport), s.aon.valid = true → s.pwr.down = none → s.pwr.step = 3 →
    (s.aon.refOk = false → exec (.bringupStep x) s = .next s) ∧
    (s.aon.refOk = true → x.failed = [] → x.refFail = [] → ∃ t e, exec (.bringupStep x) s = .next t ∧ t.pwr.step = 4 ∧ t.pwr.path = s.pwr.path ∧
      t.rcd.intake = s.rcd.intake ++ [e] ∧ e.code = 0xE001 ∧ e.p16 = BitVec.ofNat 16 (3 + 8 * s.pwr.path.toNat) ∧ t.ctxs = s.ctxs ∧ t.kept = s.kept)) ∧
  (∀ (s : State) (x : StepReport), s.aon.valid = true → s.pwr.down = none → s.pwr.step = 4 → x.failed = [] → ∃ t, exec (.bringupStep x) s = .next t ∧ t.pwr.step = 5 ∧
    t.mem = s.mem ∧ t.pending = s.pending ∧ t.ctxs = s.ctxs ∧ (s.pwr.path ≠ 2 → t.tags = []) ∧ (s.pwr.path = 2 → x.cold = [] → t.tags = s.tags) ∧
    (∀ g : Gtu, s.unitExists (uMgtu g) = true → (s.fst.unit (uMgtu g)).state ≠ .retired → (t.mgtu.at g).ready = true ∧ (t.mgtu.at g).tagOk = true)) ∧
  (∀ (s : State) (x : StepReport), s.aon.valid = true → s.pwr.down = none → s.pwr.step = 5 → x.failed = [] → x.widths = [] →
    (s.linksDone = false → exec (.bringupStep x) s = .next s) ∧
    (s.linksDone = true → s.fst.units = [] → ∃ t, exec (.bringupStep x) s = .next t ∧ t.pwr.step = 6 ∧ t.ctxs = s.ctxs ∧ t.lgtu = s.lgtu ∧ t.kept = s.kept)) ∧
  (∀ (s : State) (x : StepReport), s.aon.valid = true → s.pwr.down = none → s.pwr.step = 6 →
    ((s.proc 5).state = .off ∨ (s.proc 5).state = .loading ∨ s.fst.orders ≠ [] → exec (.bringupStep x) s = .next s) ∧
    ((s.proc 5).state ≠ .off → (s.proc 5).state ≠ .loading → s.fst.orders = [] → x.failed = [] → x.kaRuns = [] → ∃ t, exec (.bringupStep x) s = .next t ∧ t.pwr.step = 7 ∧
      (if s.allRun then t.pwr.ready = decide (s.pwr.vs = .vs0 ∧ s.thm.stopped = false ∧ s.fst.state = .run) ∧ t.pwr.waitDrv = false ∧ (∃ e ∈ t.rcd.intake, e.code = 0xE002 ∧ e.unit = 0x7A00) else t.pwr.waitDrv = true ∧ t.pwr.ready = s.pwr.ready) ∧
      (∀ a : Arr, uArr a ∈ s.screened → s.kaRuns (uArr a) = true → (s.fst.unit (uArr a)).state ≠ .lasting → (t.scr.unit (uArr a)).lastPass = some (x.rounds.getD (colOf a) 0) ∧
        (t.scr.unit (uArr a)).lastTick = some (x.rounds.getD (colOf a) 0) ∧ (t.scr.unit (uArr a)).lastOp = s.time.opsec) ∧ t.ctxs = s.ctxs ∧ t.kept = s.kept) ∧
    (∀ k : KaUnit, (s.proc 5).state ≠ .off → (s.proc 5).state ≠ .loading → s.fst.orders = [] → x.failed = [] → x.kaRuns = [k] → s.kaRuns k.unit = true → s.kaPass k.unit k.first = false →
      (s.kaPass k.unit k.again = true → ∃ t, exec (.bringupStep x) s = .next t ∧ t.pwr.step = 7 ∧ (∃ e ∈ t.fst.faultQ, e.code = 0xD008 ∧ e.cls = .c ∧ e.unit = k.unit ∧ e.p32 = k.first.misr.setWidth 32) ∧
        (∃ e ∈ t.rcd.intake, e.code = 0xD003 ∧ e.unit = k.unit) ∧ (∃ h ∈ t.fst.histQ, h.unit = k.unit ∧ h.act = .confirm ∧ h.event = 0xD001) ∧ t.kept = s.kept) ∧
      (s.kaPass k.unit k.again = false → s.fst.declared k.unit = false → ∃ t, exec (.bringupStep x) s = .next t ∧ (∃ e ∈ t.fst.faultQ, e.code = 0xD008 ∧ e.unit = k.unit ∧ e.p32 = k.again.misr.setWidth 32) ∧
        (∃ e ∈ t.rcd.intake, e.code = 0x1001 ∧ e.unit = k.unit ∧ e.p16 = 4) ∧ t.kept = s.kept)) ∧
    (∀ (u : UnitId) (k : KaRun), s.kaPass u k = true ↔ if uClass u = 2 then k.pos = none ∧ k.misr = Config.sliceSignature s.fuses.stepping
      else k.misr = Config.expectedMisr (bringupPattern u) (s.unitKind u) s.fuses.stepping ∧ k.cycles = patternCycles (bringupPattern u))) ∧
  (∀ (s : State) (x : StepReport), s.aon.valid = true → s.pwr.down = none → s.pwr.step = 7 →
    (s.pwr.waitDrv = true → s.allRun = true → ∃ t, exec (.bringupStep x) s = .next t ∧ t.pwr.ready = decide (s.pwr.vs = .vs0 ∧ s.thm.stopped = false ∧ s.fst.state = .run) ∧ t.pwr.waitDrv = false ∧
      (∃ e ∈ t.rcd.intake, e.code = 0xE001 ∧ e.p16 = BitVec.ofNat 16 (7 + 8 * s.pwr.path.toNat)) ∧ (∃ e ∈ t.rcd.intake, e.code = 0xE002 ∧ e.unit = 0x7A00 ∧ e.p32 = BitVec.ofNat 32 (s.pwr.bringUs / 1000)) ∧ t.ctxs = s.ctxs ∧ t.kept = s.kept) ∧
    (s.pwr.waitDrv = false ∨ s.allRun = false → exec (.bringupStep x) s = .next s))

/-- From R476 to R479, R469, R377 to R379: GO moves one state at a time within VS0 to VS2 where the change is allowed, wakes VS3, and from the host VS4, into bring-up step 2, and is refused for a
state that cannot be reached, while a reset is BUSY and during a shutdown. SHUTDOWN with TARGET 3 or 4 begins the orderly shutdown and is otherwise refused; a context not
stopped in time is given ABORT_STOP; with everything unloaded and stored the times are stored and the self-test begins, its items are judged by their limits, and with the flag word stored the engine is in
the state it was to enter, every context in NO_PLAN. R410: while the flash does not answer, what is to be stored waits. Model's choices: a wake in step 1 of a power-up (log 117), fields beside a refused
command (log 46). -/
def Obligations.PowerStatesAndTheOrderlyShutdown : Prop :=
  (∀ (s : State) (src : Src) (v : Reg), s.gate 0xE00008 = .carry → flag v 4 = false →
    (s.pwr.resets = [] → s.pwr.down = none →
      (s.pwr.vs = .vs0 → (field v 0 3 : BitVec 3) = 1 → s.allStopped = true → s.prv.spans = [] → s.scr.running = [] → s.wce.testing = [] → ∃ t e, exec (.powerStateGo src v) s = .next t ∧
        t.pwr.vs = .vs1 ∧ t.pwr.ready = false ∧ t.pwr.refused = false ∧ t.xing.stopped = [1] ∧ t.rcd.intake = s.rcd.intake ++ [e] ∧ e.code = 0xE006 ∧ e.p16 = 8 ∧ e.p32 = 1 ∧
        t.ctxs = s.ctxs ∧ t.fst = s.fst ∧ t.kept = s.kept) ∧
      (s.pwr.vs = .vs0 → (field v 0 3 : BitVec 3) = 1 → (s.allStopped = false ∨ s.prv.spans ≠ [] ∨ s.scr.running.any (fun q => uClass q.unit = 0) = true) → ∃ t, exec (.powerStateGo src v) s = .next t ∧ t.pwr.refused = true ∧ t.pwr.vs = .vs0 ∧
        t.ctxs = s.ctxs ∧ t.kept = s.kept) ∧
      (s.pwr.vs = .vs1 → (field v 0 3 : BitVec 3) = 2 → ∃ t, exec (.powerStateGo src v) s = .next t ∧ t.pwr.vs = .vs2 ∧ t.pwr.ready = false ∧ t.xing.stopped.length = 65 ∧ t.ctxs = s.ctxs ∧ t.kept = s.kept) ∧
      (s.thm.stopped = false → s.pwr.vs = .vs2 → (field v 0 3 : BitVec 3) = 1 → ∃ t, exec (.powerStateGo src v) s = .next t ∧ t.pwr.vs = .vs1 ∧ t.xing.stopped = [1] ∧ t.ctxs = s.ctxs ∧ t.kept = s.kept) ∧
      (s.thm.stopped = false → s.pwr.vs = .vs1 → (field v 0 3 : BitVec 3) = 0 → ∃ t, exec (.powerStateGo src v) s = .next t ∧ t.pwr.vs = .vs0 ∧ t.pwr.ready = decide (s.pwr.step = 7 ∧ s.pwr.waitDrv = false ∧ s.fst.state = .run) ∧ t.xing.stopped = [] ∧
        t.ctxs = s.ctxs ∧ t.kept = s.kept) ∧
      (s.pwr.vs = .vs3 → (field v 0 3 : BitVec 3) = 0 → ∃ t e, exec (.powerStateGo src v) s = .next t ∧ t.pwr.vs = .vs2 ∧ t.pwr.step = 2 ∧ t.pwr.path = 0 ∧ t.pwr.ready = false ∧
        t.rcd.intake = s.rcd.intake ++ [e] ∧ e.code = 0xE006 ∧ e.p16 = 3 ∧ e.p32 = 4 ∧ t.ctxs = s.ctxs ∧ t.kept = s.kept) ∧
      (s.pwr.vs = .vs4 → s.pwr.step ≠ 1 → (field v 0 3 : BitVec 3) = 0 → src = .host → s.aon.refOk = true → ∃ t, exec (.powerStateGo src v) s = .next t ∧ t.pwr.vs = .vs2 ∧ t.pwr.step = 2 ∧
        t.pwr.ready = false ∧ t.ctxs = s.ctxs ∧ t.kept = s.kept) ∧
      (s.pwr.vs = .vs4 → (src = .mgt ∨ s.aon.refOk = false) → ∃ t, exec (.powerStateGo src v) s = .next t ∧ t.pwr.refused = true ∧ t.pwr.vs = .vs4 ∧ t.ctxs = s.ctxs ∧ t.kept = s.kept)) ∧
    (s.pwr.resets ≠ [] ∨ s.pwr.down.isSome = true ∨ 3 ≤ (field v 0 3 : BitVec 3).toNat ∨ (s.pwr.vs = .vs0 ∧ (field v 0 3 : BitVec 3) = 2) → ∃ t, exec (.powerStateGo src v) s = .next t ∧
      t.pwr.refused = true ∧ t.pwr.vs = s.pwr.vs ∧ t.pwr.down = s.pwr.down ∧ t.ctxs = s.ctxs ∧ t.xing = s.xing ∧ t.kept = s.kept)) ∧
  (∀ (s : State) (src : Src) (v : Reg), s.gate 0xE00008 = .carry → flag v 3 = false →
    (s.pwr.resets = [] → s.pwr.down = none → s.pwr.vs.code ≤ 2 → ((field v 0 3 : BitVec 3) = 3 ∨ (field v 0 3 : BitVec 3) = 4) → s.aon.refOk = true →
      ∃ t, exec (.shutdown src v) s = .next t ∧ t.pwr.down = some { target := (field v 0 3 : BitVec 3).setWidth 4, from_ := s.time.tick } ∧ t.pwr.refused = false ∧ t.kept = s.kept) ∧
    (s.pwr.resets ≠ [] ∨ s.pwr.down.isSome = true ∨ 2 < s.pwr.vs.code ∨ ((field v 0 3 : BitVec 3) ≠ 3 ∧ (field v 0 3 : BitVec 3) ≠ 4) → ∃ t, exec (.shutdown src v) s = .next t ∧
      t.pwr.refused = true ∧ t.pwr.vs = s.pwr.vs ∧ t.pwr.down = s.pwr.down ∧ t.ctxs = s.ctxs ∧ t.kept = s.kept)) ∧
  (∀ (s : State) (c : Ctx), (s.pwr.down = none → exec (.shutdownStopTimeout c) s = .next s) ∧
    (s.pwr.down.isSome = true → (s.ctx c).pass.st = .running → ∃ t, exec (.shutdownStopTimeout c) s = .next t ∧ (t.ctx c).exec.stopAfter.isSome = true ∧
      (t.ctx c).exec.cause.isSome = true ∧ (t.ctx c).pass = (s.ctx c).pass ∧ (∀ d, d ≠ c → t.ctx d = s.ctx d) ∧ t.kept = s.kept) ∧
    (s.pwr.down.isSome = true → ((s.ctx c).pass.st = .stopped ∨ (s.ctx c).pass.st = .noPlan) → exec (.shutdownStopTimeout c) s = .next s)) ∧
  (∀ (s : State) (d : Shutdown), s.pwr.down = some d → d.testing = false →
    (s.readyForTest = false → exec .shutdownSelftestStart s = .next s) ∧
    (s.readyForTest = true → s.rcd.flash.conf.length + 2 < 15360 → s.noTest = false → ∃ t, exec .shutdownSelftestStart s = .next t ∧ t.pwr.down = some { d with testing := true } ∧ t.pwr.vs = s.pwr.vs ∧
      (s.rcd.flashOk = true → t.rcd.flash.item 2 = some (s.time.opsec.setWidth 64) ∧ t.rcd.flash.item 3 = some (s.time.wall.setWidth 64)) ∧
      (s.rcd.flashOk = false → t.rcd.flash = s.rcd.flash ∧ t.rcd.confOut = s.rcd.confOut ++ [(2, s.time.opsec.setWidth 64, s.time.tick), (3, s.time.wall.setWidth 64, s.time.tick)]) ∧ t.ctxs = s.ctxs ∧ t.kept = s.kept) ∧
    (s.readyForTest = true → s.noTest = true → d.target = 3 → ∃ t, exec .shutdownSelftestStart s = .next t ∧ t.pwr.vs = .vs3 ∧ t.pwr.cleanDown = false ∧ t.pwr.down = none ∧
      (∀ k, (t.ctx k).pass.st = .noPlan) ∧ t.kept = s.kept)) ∧
  (∀ (s : State) (d : Shutdown) (items : List TestItem), s.pwr.down = some d → d.testing = true → (d.target = 3 ∨ d.target = 4) → s.rcd.flash.conf.length + 1 < 15360 →
    ∃ t, exec (.shutdownSelftestEnd items) s = .next t ∧ t.pwr.vs = (if d.target = 3 then .vs3 else .vs4) ∧ t.pwr.cleanDown = true ∧ t.pwr.down = none ∧ (∀ k, (t.ctx k).pass.st = .noPlan) ∧ t.kept = s.kept ∧
      ∃ w, (s.rcd.flashOk = true → t.rcd.flash.item 8 = some w) ∧ (s.rcd.flashOk = false → (8, w, s.time.tick) ∈ t.rcd.confOut) ∧ flag w 0 = true ∧
      ((∀ x ∈ items, s.hasItem x.unit = true → (itemGroup x.unit = 1 → x.value.toInt.natAbs ≤ 10) ∧ (itemGroup x.unit = 2 → x.value.toInt.natAbs ≤ 24) ∧
        (itemGroup x.unit = 3 → x.value.toNat ≤ 448) ∧ (itemGroup x.unit = 4 → x.lockUs ≤ 50 ∧ x.value.toInt.natAbs ≤ 100)) → w = 0xFFFF0021 ||| ((s.time.tick >>> 32) <<< 32)) ∧
      (∀ x ∈ items, s.hasItem x.unit = true → (itemGroup x.unit = 1 → 10 < x.value.toInt.natAbs → flag w 4 = true) ∧ (itemGroup x.unit = 2 → 24 < x.value.toInt.natAbs → flag w 1 = true) ∧
        (itemGroup x.unit = 3 → 448 < x.value.toNat → flag w 3 = true) ∧ (itemGroup x.unit = 4 → (50 < x.lockUs ∨ 100 < x.value.toInt.natAbs) → flag w 2 = true)))

/-- From R471 to R475: GO resets a domain whose conditions hold and is refused, with no effect on it, where they do not, while a reset is in progress and during a shutdown. A partition, a row
or a die drains first; when the drain ends, what has not finished is counted and RESET_ABSORBED raised once, and the clocks of the domain stop; at its end BUSY clears, OUTCOME tells whether
anything was absorbed and RESET_DONE is recorded. A register access that waits for the domain is absorbed too: it ends with an error. A whole reset begins with the orderly shutdown. Model's choices:
whole resets (log 118), a die reset (log 119). -/
def Obligations.ResetDomains : Prop :=
  (∀ (s : State) (src : Src) (v : Reg), s.gate 0xE00010 = .carry →
    let d : BitVec 4 := field v 0 4
    let i : BitVec 12 := field v 4 12
    (s.pwr.resets = [] → s.pwr.down = none → s.resetAllowed d i.toNat = true →
      (d ≠ 4 → d ≠ 0xB → s.aon.refOk = true → ∃ t, exec (.resetGo src v) s = .next t ∧ t.pwr.resets = [{ domain := d, index := i, from_ := s.time.tick }] ∧ t.pwr.outcome = 0 ∧ t.pwr.absorbed = 0 ∧
        t.pwr.rRefused = false ∧ t.xing = s.xing ∧ t.kept = s.kept) ∧
      (d = 4 ∨ d = 0xB → ∃ t, exec (.resetGo src v) s = .next t ∧ t.pwr.whole = some { domain := d, index := i, from_ := s.time.tick } ∧ t.pwr.down = some { target := 0xF, from_ := s.time.tick } ∧
        t.pwr.resets = [] ∧ t.kept = s.kept)) ∧
    (s.pwr.resets ≠ [] ∨ s.pwr.down.isSome = true ∨ s.resetAllowed d i.toNat = false → ∃ t, exec (.resetGo src v) s = .next t ∧ t.pwr.rRefused = true ∧
      t.pwr.resets = s.pwr.resets ∧ t.pwr.whole = s.pwr.whole ∧ t.pwr.down = s.pwr.down ∧ t.ctxs = s.ctxs ∧ t.xing = s.xing ∧ t.wce = s.wce ∧ t.kept = s.kept)) ∧
  (∀ (s : State) (j : ResetJob) (rest : List ResetJob) (items : Nat), s.pwr.resets = j :: rest → j.drained = false →
    let n := items + (s.xing.waits.filter (s.bound j)).length
    ((j.domain = 3 ∨ j.domain = 9) → s.aon.refOk = true → ∃ t, exec (.resetDrainTimeout items) s = .next t ∧ t.pwr.resets = { j with drained := true } :: rest ∧ t.pwr.absorbed = BitVec.ofNat 16 (min n 0xFFFF) ∧
      t.xing.waits = s.xing.waits.filter (fun w => !s.bound j w) ∧ (∀ w ∈ s.xing.waits, s.bound j w = true → w.src = .host → Out.access .host w.off true (errorData w.acc) ∈ t.out) ∧
      (∀ r ∈ s.jobRows j, r ∈ t.xing.rows) ∧ t.kept = s.kept ∧ (n = 0 → j.domain = 3 → t.fst = s.fst) ∧
      (n ≠ 0 → ∃ e ∈ t.fst.faultQ, e.code = 0xE005 ∧ e.cls = .c ∧ e.unit = 0x7A00 ∧ e.p16 = j.domain.setWidth 16 ||| (j.index.setWidth 16 <<< 4))) ∧
    (j.domain ≠ 3 → j.domain ≠ 9 → j.domain ≠ 10 → exec (.resetDrainTimeout items) s = .next s)) ∧
  (∀ (s : State) (j : ResetJob) (rest : List ResetJob), s.pwr.resets = j :: rest →
    ((j.domain = 8 ∨ (j.domain = 9 ∧ j.drained = true)) → s.wce.orders = [] → ∃ t e, exec .resetEnd s = .next t ∧ t.pwr.resets = rest ∧ t.pwr.outcome = (if s.pwr.absorbed = 0 then 1 else 2) ∧
      t.rcd.intake = s.rcd.intake ++ [e] ∧ e.code = 0xE004 ∧ e.unit = 0x7A00 ∧ e.p16 = j.domain.setWidth 16 ||| (j.index.setWidth 16 <<< 4) ∧ (∀ r ∈ s.jobRows j, r ∉ t.xing.rows) ∧
      t.ctxs = s.ctxs ∧ t.wce = s.wce ∧ t.kept = s.kept) ∧
    ((j.domain = 3 ∨ j.domain = 9 ∨ j.domain = 10) → j.drained = false → exec .resetEnd s = .next s)) ∧
  (∀ s : State, s.pwr.resets = [] → exec .resetEnd s = .next s ∧ ∀ items, exec (.resetDrainTimeout items) s = .next s)

/-- R487 and R488 whole: what VX_ID reads on every product with stepping 0x00, grade -A and -B, and what the 32 channel registers reset to. -/
def Obligations.IdentityAndChannelResetValues : Prop :=
  (∀ s : State, s.fuses.stepping = 0 →
    let b : Reg := if s.fuses.gradeB then 0x100000 else 0
    (s.fuses.product = 0 → s.fuses.rowCnt = 24 → s.fuses.stackCnt = 20 → s.fuses.linkCnt = 24 → readReg s .id = 0x0000000C53000001 + b) ∧
    (s.fuses.product = 1 → s.fuses.rowCnt = 24 → s.fuses.stackCnt = 20 → s.fuses.linkCnt = 24 → readReg s .id = 0x0000000C53010001 + b) ∧
    (s.fuses.product = 2 → s.fuses.rowCnt = 18 → s.fuses.stackCnt = 15 → s.fuses.linkCnt = 18 → readReg s .id = 0x000000093E420001 + b) ∧
    (s.fuses.product = 3 → s.fuses.rowCnt = 12 → s.fuses.stackCnt = 10 → s.fuses.linkCnt = 12 → readReg s .id = 0x0000000629830001 + b)) ∧
  (∀ h : Chan, 10 ≤ h.val → readReg State.reset (.fwpChanStatus h) = 0x1F8) ∧
  (∀ h : Chan, ∀ a b : Nat, ([(0, 1), (0, 2), (0, 3), (0, 4), (1, 0), (2, 0), (3, 0), (4, 0), (0, 5), (5, 0)] : List (Nat × Nat))[h.val]? = some (a, b) →
    readReg State.reset (.fwpChanStatus h) = BitVec.ofNat 64 (0x605 + 8 * a + 0x40 * b)) ∧
  (readReg State.reset (.fwpChanStatus 0) = 0x645 ∧ readReg State.reset (.fwpChanStatus 1) = 0x685 ∧ readReg State.reset (.fwpChanStatus 2) = 0x6C5 ∧ readReg State.reset (.fwpChanStatus 3) = 0x705 ∧
   readReg State.reset (.fwpChanStatus 4) = 0x60D ∧ readReg State.reset (.fwpChanStatus 5) = 0x615 ∧ readReg State.reset (.fwpChanStatus 6) = 0x61D ∧ readReg State.reset (.fwpChanStatus 7) = 0x625 ∧
   readReg State.reset (.fwpChanStatus 8) = 0x745 ∧ readReg State.reset (.fwpChanStatus 9) = 0x62D)

/-- Chapter 17's Reset column, one or more registers of every block, in State.reset. -/
def Obligations.RegistersResetToTheirIndexValues : Prop :=
  (∀ c : Ctx, readReg State.reset (.ctxIntegrity c) = 0 ∧ readReg State.reset (.ctxPass c) = 0 ∧ readReg State.reset (.ctxPassCtrl c) = 0x10000 ∧
    readReg State.reset (.ctxBarrier c) = 0x0FFF0000 ∧ readReg State.reset (.lscCtxStatus c) = 0x07FF803E ∧ readReg State.reset (.prvCtxStatus c) = 0xFFFFFFFF ∧
    readReg State.reset (.prvCtxAck c) = 0xFFFFFFFF ∧ readReg State.reset (.plnCtxResult c) = 0x0FF0000000000000 ∧ readReg State.reset (.plnCtxStatus c) = 0) ∧
  (∀ k : Fin 3, readReg State.reset (.fstCapInfo k) = 0xFF0000000000) ∧
  readReg State.reset .shdPairLast = 0xFFFFFFFFFFFF ∧ readReg State.reset .fstHistoryCfg = 0xC018 ∧ readReg State.reset .fstCfg = 0x400 ∧ readReg State.reset .wceCfg = 0x3C ∧
  (∀ n : Slice, readReg State.reset (.wceSliceStatus n) = if n.val = 24 then 0x1F3F else BitVec.ofNat 64 (n.val + 0x100 * n.val)) ∧
  (∀ a : Arr, readReg State.reset (.wcePortStatus a) = 0x07F80000) ∧ (∀ g : Gtu, readReg State.reset (.mgtuStatus g) = 0 ∧ readReg State.reset (.mgtuLastEvent g) = 0xFF00000000) ∧
  (∀ l : Lnk, readReg State.reset (.lgtuStatus l) = 0) ∧ readReg State.reset .gtuCfg = 4 ∧ readReg State.reset .spnCfg = 0x006403E8147FEFFF ∧ readReg State.reset .lscCfg = 0x14 ∧
  readReg State.reset .thmCfg = 0x7D735F ∧ readReg State.reset .thmStatus = 0x6403FF0000 ∧ readReg State.reset .recCfg = 0x0C0003E8 ∧ readReg State.reset .recRing = 0xFFFFFFFF00000000 ∧
  (∀ p : Proc, readReg State.reset (.fwpStatus p) = (if p = 0 then 2 else 0) ∧
    readReg State.reset (.fwpWdt p) = (if p = 0 then 0x14 else if p = 5 then 0x32 else 2)) ∧
  readReg State.reset .plnCaps = 0x20100001 ∧ readReg State.reset .scrCfg = 0x3C ∧ readReg State.reset .scrStatus = 0xFFFF0000 ∧ readReg State.reset .scrLastResult = 0xFFFF ∧
  readReg State.reset .scrUnitInfo = 0xFFFFFFFF00 ∧ readReg State.reset .pwrStatus = 0x14 ∧ readReg State.reset .pwrCtrl = 0 ∧ readReg State.reset .irqStatus = 0
end

