-- ==== Sys2Proof/Laws/Memory.lean ====
section
/-! SUPPORT. The sparse lists of memory and tags: what a read gives after a write, that every write keeps the canonical form, and what
the named memory operations do. -/

-- One proof at a time: the package is also compiled as one text, and proofs in parallel would need more memory than the check allows.
set_option Elab.async false

namespace Sys2Proof.Machine

theorem alAbove_iff {α : Type} {k : Nat} {l : List (Nat × α)} : alAbove k l = true ↔ ∀ e ∈ l, k < e.1 := by simp [alAbove]

variable {α : Type} [DecidableEq α] {d v : α} {l : List (Nat × α)} {k n : Nat}

theorem alWf_cons {w : α} : alWf d ((k, w) :: l) = true ↔ w ≠ d ∧ (∀ e ∈ l, k < e.1) ∧ alWf d l = true := by
  simp [alWf, alAbove, and_assoc]

/-- An entry of a written list is an old entry or the one written. -/
theorem mem_alPut {e : Nat × α} (h : e ∈ alPut d l n v) : e ∈ l ∨ (e = (n, v) ∧ v ≠ d) := by
  induction l with
  | nil => unfold alPut at h; split at h <;> simp_all
  | cons x xs ih =>
    obtain ⟨k, w⟩ := x
    unfold alPut at h
    split at h
    · split at h
      · exact .inl h
      · rcases List.mem_cons.mp h with h | h
        · exact .inr ⟨h, ‹_›⟩
        · exact .inl h
    · split at h
      · split at h
        · exact .inl (List.mem_cons_of_mem _ h)
        · rcases List.mem_cons.mp h with h | h
          · subst_vars; exact .inr ⟨rfl, ‹_›⟩
          · exact .inl (List.mem_cons_of_mem _ h)
      · rcases List.mem_cons.mp h with h | h
        · exact .inl (by simp [h])
        · rcases ih h with h | h
          · exact .inl (by simp [h])
          · exact .inr h

/-- A write keeps the canonical form. -/
theorem alPut_wf (h : alWf d l = true) : alWf d (alPut d l n v) = true := by
  induction l with
  | nil => unfold alPut; split <;> simp_all [alWf, alAbove]
  | cons x xs ih =>
    obtain ⟨k, w⟩ := x
    obtain ⟨hw, ha, hx⟩ := alWf_cons.mp h
    unfold alPut
    split
    · split
      · exact h
      · refine alWf_cons.mpr ⟨‹_›, fun e he => ?_, h⟩
        rcases List.mem_cons.mp he with rfl | he
        · assumption
        · exact Nat.lt_trans ‹_› (ha e he)
    · split
      · split
        · exact hx
        · exact alWf_cons.mpr ⟨‹_›, ha, hx⟩
      · refine alWf_cons.mpr ⟨hw, fun e he => ?_, ih hx⟩
        rcases mem_alPut he with he | ⟨rfl, -⟩
        · exact ha e he
        · show k < n; omega

omit [DecidableEq α] in
theorem alGet_of_above (h : ∀ e ∈ l, n < e.1) : alGet d l n = d := by
  induction l with
  | nil => rfl
  | cons x xs ih =>
    obtain ⟨k, w⟩ := x
    have := h (k, w) (by simp)
    unfold alGet
    rw [if_neg (by intro e; subst e; exact Nat.lt_irrefl _ this)]
    exact ih (fun e he => h e (by simp [he]))

/-- What was written is read back. -/
theorem alGet_alPut_same (h : alWf d l = true) : alGet d (alPut d l n v) n = v := by
  induction l with
  | nil => unfold alPut; split <;> simp_all [alGet]
  | cons x xs ih =>
    obtain ⟨k, w⟩ := x
    obtain ⟨-, ha, hx⟩ := alWf_cons.mp h
    unfold alPut
    split
    · split
      · subst_vars
        exact alGet_of_above fun e he => by
          rcases List.mem_cons.mp he with rfl | he
          · assumption
          · exact Nat.lt_trans ‹_› (ha e he)
      · simp [alGet]
    · split
      · subst_vars
        split
        · subst_vars; exact alGet_of_above ha
        · simp [alGet]
      · unfold alGet; rw [if_neg ‹_›]; exact ih hx

/-- Every other key reads as before. -/
theorem alGet_alPut_other {m : Nat} (hm : m ≠ n) : alGet d (alPut d l n v) m = alGet d l m := by
  induction l with
  | nil => unfold alPut; split <;> simp_all [alGet]
  | cons x xs ih =>
    obtain ⟨k, w⟩ := x
    unfold alPut
    split
    · split <;> simp [alGet, hm]
    · split
      · subst_vars; split <;> simp [alGet, hm]
      · simp [alGet, ih]

/-- Leaving out entries keeps the canonical form. -/
theorem filter_wf {p : Nat × α → Bool} (h : alWf d l = true) : alWf d (l.filter p) = true := by
  induction l with
  | nil => rfl
  | cons x xs ih =>
    obtain ⟨k, w⟩ := x
    obtain ⟨hw, ha, hx⟩ := alWf_cons.mp h
    rw [List.filter_cons]
    split
    · exact alWf_cons.mpr ⟨hw, fun e he => ha e (List.mem_filter.mp he).1, ih hx⟩
    · exact ih hx

/-! ## The named operations -/

theorem memKey_add (st a : Nat) : memKey st a = memKey st 0 + a := by unfold memKey; omega

theorem putByte_wf {m : List Host.Cell} {st a : Nat} {b : Byte} (h : Memory.wf m = true) : Memory.wf (putByte m st a b) = true := alPut_wf h

theorem putWord_wf {m : List Host.Cell} {st b i : Nat} {w : BitVec 32} (h : Memory.wf m = true) : Memory.wf (putWord m st b i w) = true :=
  putByte_wf (putByte_wf (putByte_wf (putByte_wf h)))

/-- A run of word writes keeps the canonical form. -/
theorem putWords_wf {m : List Host.Cell} {st b : Nat} {ws : List (Nat × BitVec 32)} (h : Memory.wf m = true) :
    Memory.wf (putWords m st b ws) = true := by
  induction ws generalizing m with
  | nil => exact h
  | cons x xs ih =>
    have e : putWords m st b (x :: xs) = putWords (putWord m st b x.1 x.2) st b xs := rfl
    rw [e]
    exact ih (putWord_wf h)

/-- A byte outside a word keeps its value when the word is written. -/
theorem alGet_putWord {m : List Host.Cell} {st b i : Nat} {w : BitVec 32} {x : Nat}
    (h : x < memKey st (b * 4096 + 4 * i) ∨ memKey st (b * 4096 + 4 * i) + 4 ≤ x) :
    alGet emptyByte (putWord m st b i w) x = alGet emptyByte m x := by
  unfold memKey at h
  unfold putWord putByte memKey
  simp only
  rw [alGet_alPut_other (by omega), alGet_alPut_other (by omega), alGet_alPut_other (by omega), alGet_alPut_other (by omega)]

/-- A byte outside a blank keeps its value when words of the blank are written. -/
theorem alGet_putWords {m : List Host.Cell} {st b : Nat} {ws : List (Nat × BitVec 32)} {x : Nat} (hw : ∀ e ∈ ws, e.1 < 1024)
    (h : x < memKey st (b * 4096) ∨ memKey st (b * 4096) + 4096 ≤ x) :
    alGet emptyByte (putWords m st b ws) x = alGet emptyByte m x := by
  unfold putWords
  induction ws generalizing m with
  | nil => rfl
  | cons e es ih =>
    rw [List.foldl_cons, ih fun y hy => hw y (by simp [hy])]
    have hi := hw e (by simp)
    have ho : x < memKey st (b * 4096 + 4 * e.1) ∨ memKey st (b * 4096 + 4 * e.1) + 4 ≤ x := by
      rw [memKey_add] at h ⊢
      generalize b * 4096 = k at h ⊢
      omega
    exact alGet_putWord ho

/-! ## Words -/

/-- A list of bytes reads as one word of a blank. -/
def wordOf (m : List Host.Cell) (st b i : Nat) : BitVec 32 := ({ mem := m } : State).wordAt st b i

theorem wordAt_eq (s : State) (st b i : Nat) : s.wordAt st b i = wordOf s.mem st b i := rfl

theorem bytes_word (w : BitVec 32) :
    BitVec.ofNat 32 (leNat [w.setWidth 8, (w >>> 8).setWidth 8, (w >>> 16).setWidth 8, (w >>> 24).setWidth 8]) = w := by
  apply BitVec.eq_of_toNat_eq
  have h := w.isLt
  simp [leNat, BitVec.toNat_setWidth, BitVec.toNat_ushiftRight, Nat.shiftRight_eq_div_pow]
  omega

/-- Four bytes written in a row are read back. -/
theorem fourBytes {m : List Host.Cell} (h : Memory.wf m = true) (st a : Nat) (x y z u : Byte) :
    [alGet emptyByte (putByte (putByte (putByte (putByte m st a x) st (a + 1) y) st (a + 2) z) st (a + 3) u) (memKey st a),
     alGet emptyByte (putByte (putByte (putByte (putByte m st a x) st (a + 1) y) st (a + 2) z) st (a + 3) u) (memKey st (a + 1)),
     alGet emptyByte (putByte (putByte (putByte (putByte m st a x) st (a + 1) y) st (a + 2) z) st (a + 3) u) (memKey st (a + 2)),
     alGet emptyByte (putByte (putByte (putByte (putByte m st a x) st (a + 1) y) st (a + 2) z) st (a + 3) u) (memKey st (a + 3))] = [x, y, z, u] := by
  have k := memKey_add st
  unfold putByte
  rw [k a, k (a + 1), k (a + 2), k (a + 3)]
  generalize memKey st 0 = K
  rw [alGet_alPut_other (by omega : K + a ≠ K + (a + 3)), alGet_alPut_other (by omega : K + a ≠ K + (a + 2)),
    alGet_alPut_other (by omega : K + a ≠ K + (a + 1)), alGet_alPut_same h,
    alGet_alPut_other (by omega : K + (a + 1) ≠ K + (a + 3)), alGet_alPut_other (by omega : K + (a + 1) ≠ K + (a + 2)),
    alGet_alPut_same (alPut_wf h), alGet_alPut_other (by omega : K + (a + 2) ≠ K + (a + 3)),
    alGet_alPut_same (alPut_wf (alPut_wf h)), alGet_alPut_same (alPut_wf (alPut_wf (alPut_wf h)))]

/-- A word that was written is read back. -/
theorem wordOf_putWord {m : List Host.Cell} (h : Memory.wf m = true) (st b i : Nat) (w : BitVec 32) : wordOf (putWord m st b i w) st b i = w :=
  (congrArg (fun l => BitVec.ofNat 32 (leNat l)) (fourBytes h st (b * 4096 + 4 * i) _ _ _ _)).trans (bytes_word w)

/-- Another word of the blank keeps its value. -/
theorem wordOf_putWord_other {m : List Host.Cell} (st b : Nat) {i j : Nat} (hij : i ≠ j) (w : BitVec 32) :
    wordOf (putWord m st b j w) st b i = wordOf m st b i := by
  unfold wordOf State.wordAt State.byteAt
  dsimp only
  have k := memKey_add st
  have o : ∀ d, d < 4 → alGet emptyByte (putWord m st b j w) (memKey st (b * 4096 + 4 * i + d)) = alGet emptyByte m (memKey st (b * 4096 + 4 * i + d)) := by
    intro d hd
    refine alGet_putWord ?_
    rw [k (b * 4096 + 4 * i + d), k (b * 4096 + 4 * j)]
    generalize b * 4096 = a
    omega
  have o0 := o 0 (by omega)
  rw [Nat.add_zero] at o0
  rw [o0, o 1 (by omega), o 2 (by omega), o 3 (by omega)]

/-- What a run of writes leaves in a word: the last value written to it, else what stood there. -/
theorem wordOf_putWords {m : List Host.Cell} (h : Memory.wf m = true) (st b i : Nat) (ws : List (Nat × BitVec 32)) :
    wordOf (putWords m st b ws) st b i = ws.foldl (fun x e => if e.1 = i then e.2 else x) (wordOf m st b i) := by
  induction ws generalizing m with
  | nil => rfl
  | cons e es ih =>
    have q : putWords m st b (e :: es) = putWords (putWord m st b e.1 e.2) st b es := rfl
    rw [q, ih (putWord_wf h), List.foldl_cons]
    congr 1
    split
    · subst_vars; exact wordOf_putWord h ..
    · exact wordOf_putWord_other st b (fun x => ‹¬_› x.symm) _

theorem foldl_indexed (f : Nat → BitVec 32) (x : BitVec 32) (i n : Nat) :
    ((List.range n).map (fun j => (j, f j))).foldl (fun x e => if e.1 = i then e.2 else x) x = if i < n then f i else x := by
  induction n with
  | zero => rfl
  | succ n ih =>
    rw [List.range_succ, List.map_append, List.foldl_append, ih]
    simp only [List.map_cons, List.map_nil, List.foldl_cons, List.foldl_nil]
    by_cases h : n = i
    · subst h; simp
    · rw [if_neg h]
      by_cases k : i < n
      · rw [if_pos k, if_pos (by omega)]
      · rw [if_neg k, if_neg (by omega)]

/-- A full write leaves its data in every word of the blank. -/
theorem wordOf_fullWords {m : List Host.Cell} (h : Memory.wf m = true) (st b : Nat) {i : Nat} (hi : i < 1024) (data : List (BitVec 32)) :
    wordOf (putWords m st b (fullWords data)) st b i = data.getD i 0 := by
  rw [wordOf_putWords h]
  exact (foldl_indexed (fun j => data.getD j 0) _ i 1024).trans (if_pos hi)

end Sys2Proof.Machine
end

