-- ==== Sys2Proof/Laws/KeptCore.lean ====
section
/-! SUPPORT. The shape of the frame lemmas: a definition leaves the waiting commands, the fuses, the tick, memory and tags alone. -/

-- One proof at a time: the package is also compiled as one text, and proofs in parallel would need more memory than the check allows.
set_option Elab.async false

namespace Sys2Proof.Machine

/-- An answer is a next state with the same waiting commands, fuses, tick, memory and tags. -/
def Keeps (s : State) (r : Res) : Prop := ∃ t, r = .next t ∧ t.kept = s.kept

@[simp] theorem keeps_next (s t : State) : Keeps s (.next t) ↔ t.kept = s.kept := by
  unfold Keeps
  constructor
  · rintro ⟨u, h, k⟩
    cases h
    exact k
  · exact fun h => ⟨t, rfl, h⟩

@[simp] theorem kept_ite (p : Prop) [Decidable p] (a b : State) : (if p then a else b).kept = if p then a.kept else b.kept := by
  split <;> rfl

@[simp] theorem kept_mk (p : List Instr) (o : List Out) (f : Nat) (fu : Fuses) (a : Aon) (x : Xing) (i : Irq) (ti : Time) (sp : Spn)
    (cs : Tab 32 CtxSt) (m : List Host.Cell) (tg : List (Nat × BitVec 64)) (mg : Tab 40 Mgtu) (lg : Tab 24 Lgtu) (rl : BitVec 4)
    (w : Wce) (sh : Shd) (fs : Fst) (pr : Prv) (pl : Pln) (th : Thm) (rc : RecSt) (fw : Fwp) (sc : Scr) (mt : List MgtWait) (pw : Pwr)
    (jm : List Config.JobRange) : (State.mk p o f fu a x i ti sp cs m tg mg lg rl w sh fs pr pl th rc fw sc mt pw jm).kept = ((p, fu, ti.tick), m, tg) := rfl

@[simp] theorem kept_fold (s : State) : ((s.pending, s.fuses, s.time.tick), s.mem, s.tags) = s.kept := rfl

@[simp] theorem fresh_kept (s : State) : s.fresh.2.kept = s.kept := rfl

/-- A step done for each member of a list keeps what the step keeps. -/
theorem State.each_kept {α : Type} (s : State) (xs : List α) (f : State → α → State) (h : ∀ t x, (f t x).kept = t.kept) :
    (s.each xs f).kept = s.kept := by
  unfold State.each
  induction xs generalizing s with
  | nil => rfl
  | cons x xs ih => rw [List.foldl_cons, ih, h]

end Sys2Proof.Machine
end

