-- ==== Sys2Proof/Laws/KeptBase.lean ====
section
/-! SUPPORT. Shared operations: what they leave alone (`State.kept`), one lemma for each definition. -/

-- One proof at a time: the package is also compiled as one text, and proofs in parallel would need more memory than the check allows.
set_option Elab.async false

namespace Sys2Proof.Machine

@[simp] theorem State.onCtx_kept (s : State) (c : Ctx) (f : CtxSt → CtxSt) : (State.onCtx s c f).kept = s.kept := by rfl

@[simp] theorem State.onPass_kept (s : State) (c : Ctx) (f : PassSt → PassSt) : (State.onPass s c f).kept = s.kept := by rfl

@[simp] theorem State.onExec_kept (s : State) (c : Ctx) (f : ExecSt → ExecSt) : (State.onExec s c f).kept = s.kept := by rfl

@[simp] theorem State.onPos_kept (s : State) (c : Ctx) (f : PosSt → PosSt) : (State.onPos s c f).kept = s.kept := by rfl

@[simp] theorem State.onPlan_kept (s : State) (c : Ctx) (f : PlanSt → PlanSt) : (State.onPlan s c f).kept = s.kept := by rfl

@[simp] theorem State.onBar_kept (s : State) (c : Ctx) (f : BarSt → BarSt) : (State.onBar s c f).kept = s.kept := by rfl

@[simp] theorem State.onLsc_kept (s : State) (c : Ctx) (f : LscSt → LscSt) : (State.onLsc s c f).kept = s.kept := by rfl

@[simp] theorem State.onPrv_kept (s : State) (c : Ctx) (f : PrvCtx → PrvCtx) : (State.onPrv s c f).kept = s.kept := by rfl

@[simp] theorem State.onCov_kept (s : State) (c : Ctx) (f : CovSt → CovSt) : (State.onCov s c f).kept = s.kept := by rfl

@[simp] theorem State.onTag_kept (s : State) (c : Ctx) (f : TagSt → TagSt) : (State.onTag s c f).kept = s.kept := by rfl

@[simp] theorem State.onMgtu_kept (s : State) (g : Gtu) (f : Mgtu → Mgtu) : (State.onMgtu s g f).kept = s.kept := by rfl

@[simp] theorem State.onLgtu_kept (s : State) (l : Lnk) (f : Lgtu → Lgtu) : (State.onLgtu s l f).kept = s.kept := by rfl

@[simp] theorem State.onWce_kept (s : State) (f : Wce → Wce) : (State.onWce s f).kept = s.kept := by rfl

@[simp] theorem State.onPort_kept (s : State) (a : Arr) (f : Port → Port) : (State.onPort s a f).kept = s.kept := by rfl

@[simp] theorem State.onSlice_kept (s : State) (n : Slice) (f : SliceSt → SliceSt) : (State.onSlice s n f).kept = s.kept := by rfl

@[simp] theorem State.onRow_kept (s : State) (r : Row) (f : ShdRow → ShdRow) : (State.onRow s r f).kept = s.kept := by rfl

@[simp] theorem State.onShd_kept (s : State) (f : Shd → Shd) : (State.onShd s f).kept = s.kept := by rfl

@[simp] theorem State.onFst_kept (s : State) (f : Fst → Fst) : (State.onFst s f).kept = s.kept := by rfl

@[simp] theorem State.onThm_kept (s : State) (f : Thm → Thm) : (State.onThm s f).kept = s.kept := by rfl

@[simp] theorem State.onSensor_kept (s : State) (n : Sensor) (f : SensorSt → SensorSt) : (State.onSensor s n f).kept = s.kept := by rfl

@[simp] theorem State.onRec_kept (s : State) (f : RecSt → RecSt) : (State.onRec s f).kept = s.kept := by rfl

@[simp] theorem State.onFlash_kept (s : State) (f : Flash → Flash) : (State.onFlash s f).kept = s.kept := by rfl

@[simp] theorem State.onFwp_kept (s : State) (f : Fwp → Fwp) : (State.onFwp s f).kept = s.kept := by rfl

@[simp] theorem State.onProc_kept (s : State) (p : Proc) (f : ProcSt → ProcSt) : (State.onProc s p f).kept = s.kept := by rfl

@[simp] theorem State.onChan_kept (s : State) (c : Chan) (f : ChanSt → ChanSt) : (State.onChan s c f).kept = s.kept := by rfl

@[simp] theorem State.onMbox_kept (s : State) (i : Fin 12) (f : Mbox → Mbox) : (State.onMbox s i f).kept = s.kept := by rfl

@[simp] theorem State.onScr_kept (s : State) (f : Scr → Scr) : (State.onScr s f).kept = s.kept := by rfl

@[simp] theorem State.onPwr_kept (s : State) (f : Pwr → Pwr) : (State.onPwr s f).kept = s.kept := by rfl

@[simp] theorem State.onPrvEng_kept (s : State) (f : Prv → Prv) : (State.onPrvEng s f).kept = s.kept := by rfl

@[simp] theorem State.onPln_kept (s : State) (f : Pln → Pln) : (State.onPln s f).kept = s.kept := by rfl

@[simp] theorem State.onSpn_kept (s : State) (f : Spn → Spn) : (State.onSpn s f).kept = s.kept := by rfl

@[simp] theorem State.onAon_kept (s : State) (f : Aon → Aon) : (State.onAon s f).kept = s.kept := by rfl

@[simp] theorem State.onAllCtx_kept (s : State) (f : Ctx → CtxSt → CtxSt) : (State.onAllCtx s f).kept = s.kept := by
  simp [State.onAllCtx]

@[simp] theorem State.send_kept (s : State) (o : Out) : (State.send s o).kept = s.kept := by rfl

@[simp] theorem State.sendCtl_kept (s : State) (d : Dest) (x : Ctl) : (State.sendCtl s d x).kept = s.kept := by rfl

@[simp] theorem State.sendMctp_kept (s : State) (m : Mctp) : (State.sendMctp s m).kept = s.kept := by rfl

@[simp] theorem State.irqSet_kept (s : State) (mask : BitVec 8) : (State.irqSet s mask).kept = s.kept := by rfl

@[simp] theorem State.setAon_kept (s : State) (f : Aon → Aon) : (State.setAon s f).kept = s.kept := by simp [State.setAon]

@[simp] theorem State.emit_kept (s : State) (e : Ev) : (State.emit s e).kept = s.kept := by
  unfold State.emit; split <;> simp

@[simp] theorem State.notifyPass_kept (s : State) (c : Ctx) : (State.notifyPass s c).kept = s.kept := by rfl

@[simp] theorem State.logTo_kept (s : State) (p : Proc) (code : BitVec 16) (ctx : Option Ctx) (hw : Bool) (arg : BitVec 32) :
    (State.logTo s p code ctx hw arg).kept = s.kept := by rfl

@[simp] theorem State.logRefusal_kept (s : State) (p : Proc) (ctx : Option Ctx) (src : Src) (off : Nat) :
    (State.logRefusal s p ctx src off).kept = s.kept := by rfl

@[simp] theorem noteUse_kept (s : State) : (noteUse s).kept = s.kept := by
  unfold noteUse
  repeat' first | (simp; done) | intro _ | with_reducible refine (State.each_kept _ _ _ ?_).trans ?_ | simp | split

@[simp] theorem withdrawSpare_kept (s : State) (a : Arr) : (withdrawSpare s a).kept = s.kept := by simp [withdrawSpare]

@[simp] theorem closeGroups_kept (s : State) (r : Row) : (closeGroups s r).kept = s.kept := by
  unfold closeGroups
  repeat' first | (simp; done) | intro _ | with_reducible refine (State.each_kept _ _ _ ?_).trans ?_ | simp | split

@[simp] theorem beginTest_kept (s : State) (n : Slice) (why : BitVec 3) : (beginTest s n why).kept = s.kept := by rfl

@[simp] theorem dropTest_kept (s : State) (n : Slice) : (dropTest s n).kept = s.kept := by rfl

@[simp] theorem cutSelftest_kept (s : State) (n : Slice) : (cutSelftest s n).kept = s.kept := by
  unfold cutSelftest; split <;> simp

@[simp] theorem cutTestOf_kept (s : State) (ns : List Slice) : (cutTestOf s ns).kept = s.kept := by
  unfold cutTestOf
  repeat' first | (simp; done) | intro _ | with_reducible refine (State.each_kept _ _ _ ?_).trans ?_ | simp | split

@[simp] theorem giveBack_kept (s : State) (m : Row) (reason : BitVec 3) : (giveBack s m reason).kept = s.kept := by simp [giveBack]

@[simp] theorem rowLost_kept (s : State) (r : Row) (cs : List Ctx) : (rowLost s r cs).kept = s.kept := by rfl

@[simp] theorem withdrawStandby_kept (lose : State → Row → State) (s : State) (h : ∀ t r, (lose t r).kept = t.kept) :
    (withdrawStandby lose s).kept = s.kept := by
  unfold withdrawStandby
  dsimp only
  refine (State.each_kept _ _ _ h).trans ?_
  repeat' first | (simp [h]; done) | split

@[simp] theorem State.complete_kept (s : State) (src : Src) (off : Nat) (error : Bool) (event : BitVec 16) (data : Reg) :
    (State.complete s src off error event data).kept = s.kept := by
  unfold State.complete; split <;> simp

@[simp] theorem State.emitOpen_kept (s : State) (e : Ev) : (State.emitOpen s e).kept = s.kept := by simp [State.emitOpen]

@[simp] theorem accessError_kept (s : State) (code : BitVec 16) (src : Src) (off : Nat) (acc : Access) :
    (accessError s code src off acc).kept = s.kept := by simp [accessError]

@[simp] theorem accessEarly_kept (s : State) (src : Src) (off : Nat) (acc : Access) :
    (accessEarly s src off acc).kept = s.kept := by simp [accessEarly]

@[simp] theorem accessWait_kept (s : State) (src : Src) (off : Nat) (acc : Access) (domain : BitVec 8) (row : Option Row) :
    (accessWait s src off acc domain row).kept = s.kept := by rfl

@[simp] theorem gatedWrite_kept (s : State) (src : Src) (off : Nat) (v : Reg) (eff : State → State) (h : (eff s).kept = s.kept) :
    (gatedWrite s src off v eff).kept = s.kept := by
  unfold gatedWrite; split <;> simp [h]

@[simp] theorem cutOne_kept (cause : BitVec 4) (s : State) (p : Pattern) : (cutOne cause s p).kept = s.kept := by rfl

@[simp] theorem cutPatterns_kept (s : State) (which : Pattern → Bool) (cause : BitVec 4) : (cutPatterns s which cause).kept = s.kept := by
  unfold cutPatterns
  repeat' first | (simp; done) | intro _ | with_reducible refine (State.each_kept _ _ _ ?_).trans ?_ | simp | split

@[simp] theorem State.putItem_kept (s : State) (item : BitVec 16) (value : BitVec 64) : (State.putItem s item value).kept = s.kept := by rfl

@[simp] theorem State.storeTimes_kept (s : State) : (State.storeTimes s).kept = s.kept := by rfl

@[simp] theorem flashAnswers_kept (s : State) : (flashAnswers s).kept = s.kept := by rfl

@[simp] theorem clearEngine_kept (s : State) (mcKept : Bool) : (clearEngine s mcKept).kept = s.kept := by rfl

@[simp] theorem recordMove_kept (s : State) (dest : Vs) (cause : BitVec 32) :
    (recordMove s dest cause).kept = s.kept := by simp [recordMove]

@[simp] theorem closeRecord_kept (s : State) : (closeRecord s).kept = s.kept := by rfl

@[simp] theorem noteLinks_kept (s : State) : (noteLinks s).kept = s.kept := by simp [noteLinks]

@[simp] theorem State.histPut_kept (s : State) (e : HistEntry) : (State.histPut s e).kept = s.kept := by rfl

@[simp] theorem State.histRecord_kept (s : State) (u : UnitId) (kind : BitVec 8) (col : BitVec 8) (event : BitVec 16) (param : BitVec 32)
    (ctx : Option Ctx) : (State.histRecord s u kind col event param ctx).kept = s.kept := by rfl

@[simp] theorem rotationCheck_kept (s : State) : (rotationCheck s).kept = s.kept := by simp [rotationCheck]

@[simp] theorem retireUnit_kept (s : State) (u : UnitId) : (retireUnit s u).kept = s.kept := by simp [retireUnit]

@[simp] theorem leaveService_kept (s : State) (u : UnitId) : (leaveService s u).kept = s.kept := by
  unfold leaveService
  repeat' (first | (simp; done) | split)

@[simp] theorem endDrain_kept (s : State) : (endDrain s).kept = s.kept := by
  unfold endDrain
  repeat' first | (simp; done) | intro _ | with_reducible refine (State.each_kept _ _ _ ?_).trans ?_ | simp | split

@[simp] theorem stopTest_kept (s : State) (n : Slice) : (stopTest s n).kept = s.kept := by
  unfold stopTest
  repeat' first | (simp; done) | intro _ | with_reducible refine (State.each_kept _ _ _ ?_).trans ?_ | simp | split

@[simp] theorem moveWithin_kept (s : State) (dest : Vs) (cause : BitVec 32) :
    (moveWithin s dest cause).kept = s.kept := by
  unfold moveWithin
  repeat' first | (simp; done) | intro _ | with_reducible refine (State.each_kept _ _ _ ?_).trans ?_ | simp | split

@[simp] theorem enterLow_kept (s : State) (dest : Vs) (cause : BitVec 32) : (enterLow s dest cause).kept = s.kept := by
  unfold enterLow
  repeat' first | (simp; done) | intro _ | with_reducible refine (State.each_kept _ _ _ ?_).trans ?_ | simp | split

@[simp] theorem loadOutcome_kept (s : State) (c : Ctx) (outcome : BitVec 2) (event : BitVec 16) (atApp : Bool) (cause : BitVec 8) (cls :
    BitVec 4)
    (index : BitVec 16) (conflict : BitVec 8) : (loadOutcome s c outcome event atApp cause cls index conflict).kept = s.kept := by rfl

@[simp] theorem discardLoad_kept (s : State) (c : Ctx) : (discardLoad s c).kept = s.kept := by rfl

@[simp] theorem planApplied_kept (s : State) (c : Ctx) : (planApplied s c).kept = s.kept := by rfl

@[simp] theorem endLoad_kept (s : State) (c : Ctx) : (endLoad s c).kept = s.kept := by
  unfold endLoad; split <;> simp

@[simp] theorem exposure_kept (s : State) (c : Ctx) (unit : UnitId) (r : Nat × BitVec 3 × BitVec 48 × BitVec 32) :
    (exposure s c unit r).kept = s.kept := by rfl

@[simp] theorem histCatch_kept (s : State) (c : Ctx) (k : OpenCatch) (act : HistAct) (event : BitVec 16) (sliceAct : HistAct) :
    (histCatch s c k act event sliceAct).kept = s.kept := by
  unfold histCatch; split <;> simp

@[simp] theorem afterStop_kept (s : State) : (afterStop s).kept = s.kept := by
  unfold afterStop
  repeat' first | (simp; done) | intro _ | with_reducible refine (State.each_kept _ _ _ ?_).trans ?_ | simp | split

@[simp] theorem endStall_kept (s : State) (c : Ctx) : (endStall s c).kept = s.kept := by simp [endStall]

@[simp] theorem enterStopped_kept (s : State) (c : Ctx) (event : BitVec 16) : (enterStopped s c event).kept = s.kept := by
  unfold enterStopped
  repeat' first | (simp; done) | intro _ | with_reducible refine (State.each_kept _ _ _ ?_).trans ?_ | simp | split

@[simp] theorem noteCause_kept (s : State) (c : Ctx) (reason : BitVec 4) (unit : UnitId) : (noteCause s c reason unit).kept = s.kept := by rfl

@[simp] theorem stopCtx_kept (s : State) (c : Ctx) (event : BitVec 16) : (stopCtx s c event).kept = s.kept := by
  unfold stopCtx; split <;> simp

@[simp] theorem abortStopCtx_kept (s : State) (c : Ctx) (event : BitVec 16) :
    (abortStopCtx s c event).kept = s.kept := by simp [abortStopCtx]

@[simp] theorem startDrain_kept (s : State) (cause : BitVec 3) : (startDrain s cause).kept = s.kept := by
  unfold startDrain
  repeat' first | (simp; done) | intro _ | with_reducible refine (State.each_kept _ _ _ ?_).trans ?_ | simp | split

@[simp] theorem setReplace_kept (s : State) (cause : BitVec 3) (unit : UnitId) :
    (setReplace s cause unit).kept = s.kept := by simp [setReplace]

@[simp] theorem hardStop_kept (s : State) (slotF : BitVec 16) (second : BitVec 16) (unit : UnitId) :
    (hardStop s slotF second unit).kept = s.kept := by
  unfold hardStop
  repeat' first | (simp; done) | intro _ | with_reducible refine (State.each_kept _ _ _ ?_).trans ?_ | simp | split

@[simp] theorem reachOffset_kept (s : State) (c : Ctx) (n : Nat) : (reachOffset s c n).kept = s.kept := by simp [reachOffset]

end Sys2Proof.Machine
end

