-- ==== Sys2Proof/Laws/KeptRecord.lean ====
section
/-! SUPPORT. The recorder and the export: what they leave alone (`State.kept`), one lemma for each definition. -/

-- One proof at a time: the package is also compiled as one text, and proofs in parallel would need more memory than the check allows.
set_option Elab.async false

namespace Sys2Proof.Machine

@[simp] theorem countLost_kept (s : State) : (countLost s).kept = s.kept := by rfl

@[simp] theorem queueRecord_kept (s : State) (x : Rec) : (queueRecord s x).1.kept = s.kept := by simp [queueRecord]

@[simp] theorem takeEvent_kept (s : State) (e : Ev) : (takeEvent s e).1.kept = s.kept := by
  unfold takeEvent
  repeat' first | (simp; done) | intro _ | with_reducible refine (State.each_kept _ _ _ ?_).trans ?_ | simp | split

@[simp] theorem cperDropped_kept (s : State) (e : Cper) : (cperDropped s e).kept = s.kept := by rfl

@[simp] theorem cperNotify_kept (s : State) (e : Cper) : (cperNotify s e).kept = s.kept := by simp [cperNotify]

@[simp] theorem cperQueue_kept (s : State) (e : Cper) : (cperQueue s e).kept = s.kept := by simp [cperQueue]

@[simp] theorem cperPut_kept (s : State) (e : Cper) : (cperPut s e).kept = s.kept := by
  unfold cperPut
  repeat' first | (simp; done) | intro _ | with_reducible refine (State.each_kept _ _ _ ?_).trans ?_ | simp | split

@[simp] theorem signEvent_kept (s : State) (e : Ev) (number : Option (BitVec 32)) : (signEvent s e number).kept = s.kept := by
  unfold signEvent; split <;> simp

@[simp] theorem intakeOne_kept (s : State) : (intakeOne s).kept = s.kept := by
  unfold intakeOne; repeat' (first | (simp; done) | split)

@[simp] theorem execRecordIntake_kept (s : State) : Keeps s (execRecordIntake s) := by simp [execRecordIntake]

@[simp] theorem execMergeWindowExpiry_kept (s : State) : Keeps s (execMergeWindowExpiry s) := ⟨_, rfl, rfl⟩

@[simp] theorem programFail_kept (s : State) (region : BitVec 16) (addr : Nat) : (programFail s region addr).kept = s.kept := by rfl

@[simp] theorem permCopy_kept (s : State) (r : Rec) (bad : Bool) : (permCopy s r bad).kept = s.kept := by simp [permCopy]

@[simp] theorem histCompact_kept (s : State) : (histCompact s).kept = s.kept := by simp [histCompact]

@[simp] theorem reportLost_kept (s : State) : (reportLost s).kept = s.kept := by simp [reportLost]

@[simp] theorem confFail_kept (s : State) : (confFail s).kept = s.kept := by
  unfold confFail
  repeat' first | (simp; done) | intro _ | with_reducible refine (State.each_kept _ _ _ ?_).trans ?_ | simp | split

@[simp] theorem appendHistory_kept (s : State) (r : HistRec) (bad : Bool) : (appendHistory s r bad).kept = s.kept := by simp [appendHistory]

@[simp] theorem appendRecord_kept (s : State) (r : Rec) (fail : Option (BitVec 2)) :
    (appendRecord s r fail).kept = s.kept := by simp [appendRecord]

@[simp] theorem execRecordAppend_kept (fail : Option (BitVec 2)) (s : State) : Keeps s (execRecordAppend fail s) := by
  unfold execRecordAppend
  repeat' first | (simp; done) | intro _ | with_reducible refine (State.each_kept _ _ _ ?_).trans ?_ | simp | split

@[simp] theorem execRecFlashLost_kept (eraseFailed : Bool) (s : State) : Keeps s (execRecFlashLost eraseFailed s) := by
  unfold execRecFlashLost; split <;> simp

@[simp] theorem execFlashRetry_kept (answers : Bool) (s : State) : Keeps s (execFlashRetry answers s) := by simp [execFlashRetry]

@[simp] theorem wallWrite_kept (src : Src) (v : Reg) (s : State) : (wallWrite src v s).kept = s.kept := by simp [wallWrite]

@[simp] theorem execRecWallWrite_kept (src : Src) (v : Reg) (s : State) : Keeps s (execRecWallWrite src v s) := by simp [execRecWallWrite]

@[simp] theorem recCfgWrite_kept (v : Reg) (s : State) : (recCfgWrite v s).kept = s.kept := by rfl

@[simp] theorem execRecCfgWrite_kept (src : Src) (v : Reg) (s : State) : Keeps s (execRecCfgWrite src v s) := by
  unfold execRecCfgWrite
  first
  | (simp; done)
  | with_reducible rfl
  | (repeat' (first | (simp; done) | (intro _) | (with_reducible refine (State.each_kept _ _ _ ?_).trans ?_) | (with_reducible refine State.each_kept _ _ _ ?_) | simp | split))

@[simp] theorem recReadSel_kept (v : Reg) (s : State) : (recReadSel v s).kept = s.kept := by rfl

@[simp] theorem execRecReadGo_kept (src : Src) (v : Reg) (s : State) : Keeps s (execRecReadGo src v s) := by
  unfold execRecReadGo
  first
  | (simp; done)
  | with_reducible rfl
  | (repeat' (first | (simp; done) | (intro _) | (with_reducible refine (State.each_kept _ _ _ ?_).trans ?_) | (with_reducible refine State.each_kept _ _ _ ?_) | simp | split))

@[simp] theorem execRecReadDone_kept (s : State) : Keeps s (execRecReadDone s) := by
  unfold execRecReadDone
  repeat' first | (simp; done) | intro _ | with_reducible refine (State.each_kept _ _ _ ?_).trans ?_ | simp | split

@[simp] theorem recDumpCtrl_kept (src : Src) (v : Reg) (s : State) : (recDumpCtrl src v s).kept = s.kept := by simp [recDumpCtrl]

@[simp] theorem execRecDumpGo_kept (src : Src) (v : Reg) (s : State) : Keeps s (execRecDumpGo src v s) := by simp [execRecDumpGo]

@[simp] theorem State.mgtServe_kept (s : State) (w : MgtWait) (f : State → State) (h : (f s).kept = s.kept) :
    (State.mgtServe s w f).kept = s.kept := by
  unfold State.mgtServe; split
  · exact h
  · split <;> rfl

@[simp] theorem recRead_kept (region : BitVec 2) (first : BitVec 32) (count : Nat) (s : State) :
    (recRead region first count s).kept = s.kept := by rfl

@[simp] theorem execRecRead_kept (region : BitVec 2) (first : BitVec 32) (count : Nat) (s : State) :
    Keeps s (execRecRead region first count s) := by
  unfold execRecRead
  first
  | (simp; done)
  | with_reducible rfl
  | (repeat' (first | (simp; done) | (intro _) | (with_reducible refine (State.each_kept _ _ _ ?_).trans ?_) | (with_reducible refine State.each_kept _ _ _ ?_) | simp | split))

@[simp] theorem cperRebuild_kept (s : State) : (cperRebuild s).kept = s.kept := by
  unfold cperRebuild
  repeat' first | (simp; done) | intro _ | with_reducible refine (State.each_kept _ _ _ ?_).trans ?_ | simp | split

@[simp] theorem cperRefill_kept (s : State) (newest : BitVec 32) : (cperRefill s newest).kept = s.kept := by
  unfold cperRefill
  repeat' first | (simp; done) | intro _ | with_reducible refine (State.each_kept _ _ _ ?_).trans ?_ | simp | split

@[simp] theorem cperGet_kept (s : State) : (cperGet s).kept = s.kept := by rfl

@[simp] theorem execCperGet_kept (s : State) : Keeps s (execCperGet s) := by
  unfold execCperGet
  first
  | (simp; done)
  | with_reducible rfl
  | (repeat' (first | (simp; done) | (intro _) | (with_reducible refine (State.each_kept _ _ _ ?_).trans ?_) | (with_reducible refine State.each_kept _ _ _ ?_) | simp | split))

@[simp] theorem storeAck_kept (s : State) : (storeAck s).kept = s.kept := by
  unfold storeAck
  repeat' first | (simp; done) | intro _ | with_reducible refine (State.each_kept _ _ _ ?_).trans ?_ | simp | split

@[simp] theorem cperAck_kept (seq : BitVec 32) (s : State) : (cperAck seq s).kept = s.kept := by simp [cperAck]

@[simp] theorem execCperAck_kept (seq : BitVec 32) (s : State) : Keeps s (execCperAck seq s) := by simp [execCperAck]

@[simp] theorem cperResend_kept (s : State) : (cperResend s).kept = s.kept := by
  unfold cperResend
  repeat' first | (simp; done) | intro _ | with_reducible refine (State.each_kept _ _ _ ?_).trans ?_ | simp | split

@[simp] theorem execCperResend_kept (s : State) : Keeps s (execCperResend s) := by simp [execCperResend]

@[simp] theorem healthEvent_kept (s : State) : (healthEvent s).kept = s.kept := by simp [healthEvent]

@[simp] theorem recordAs_kept (s : State) (e : Ev) : (recordAs s e).kept = s.kept := by rfl

@[simp] theorem exportSig_kept (s : State) (e : Ev) (cls : BitVec 8) : (exportSig s e cls).kept = s.kept := by simp [exportSig]

@[simp] theorem recordFault_kept (s : State) (e : Ev) : (recordFault s e).kept = s.kept := by simp [recordFault]

@[simp] theorem replaceAndDrain_kept (s : State) (cause : BitVec 3) (unit : UnitId) :
    (replaceAndDrain s cause unit).kept = s.kept := by simp [replaceAndDrain]

end Sys2Proof.Machine
end

