-- ==== Sys2Proof/Laws/KeptUnits.lean ====
section
/-! SUPPORT. Slices, roles, the fault steward, catches and the Calipers: what they leave alone (`State.kept`), one lemma for each definition. -/

-- One proof at a time: the package is also compiled as one text, and proofs in parallel would need more memory than the check allows.
set_option Elab.async false

namespace Sys2Proof.Machine

@[simp] theorem noteServed_kept (s : State) (a : Arr) (slice : Nat) : (noteServed s a slice).kept = s.kept := by
  unfold noteServed; split <;> simp

@[simp] theorem sendVerdict_kept (s : State) (a : Arr) (slice : Nat) (e : Ctx × BitVec 48 × BitVec 8) (seq : BitVec 32) (v :
    Verdict) (covers voids : Nat)
    (reason : BitVec 4) : (sendVerdict s a slice e seq v covers voids reason).kept = s.kept := by simp [sendVerdict]

@[simp] theorem loseTiles_kept (s : State) (ps : List Arr) (only : Option Nat) (reason : BitVec 4) :
    (loseTiles s ps only reason).kept = s.kept := by
  unfold loseTiles
  repeat' first | (simp; done) | intro _ | with_reducible refine (State.each_kept _ _ _ ?_).trans ?_ | simp | split

@[simp] theorem startTakeover_kept (s : State) (r : Row) (reason : BitVec 3) :
    (startTakeover s r reason).kept = s.kept := by simp [startTakeover]

@[simp] theorem startRelease_kept (s : State) (r : Row) : (startRelease s r).kept = s.kept := by simp [startRelease]

@[simp] theorem awaitRetire_kept (s : State) (u : UnitId) : (awaitRetire s u).kept = s.kept := by simp [awaitRetire]

@[simp] theorem sliceLost_kept (s : State) (r : Row) : (sliceLost s r).kept = s.kept := by
  unfold sliceLost
  repeat' first | (simp; done) | intro _ | with_reducible refine (State.each_kept _ _ _ ?_).trans ?_ | simp | split

@[simp] theorem keepRow_kept (s : State) (r : Row) : (keepRow s r).kept = s.kept := by simp [keepRow]

@[simp] theorem orderSlice_kept (s : State) (r : Row) : (orderSlice s r).kept = s.kept := by
  unfold orderSlice; repeat' (first | (simp; done) | split)

@[simp] theorem retireStandby_kept (s : State) : (retireStandby s).kept = s.kept := by simp [retireStandby]

@[simp] theorem settle_kept (s : State) (c : Ctx) : (settle s c).kept = s.kept := by simp [settle]

@[simp] theorem settleAll_kept (s : State) : (settleAll s).kept = s.kept := by
  unfold settleAll
  repeat' first | (simp; done) | intro _ | with_reducible refine (State.each_kept _ _ _ ?_).trans ?_ | simp | split

@[simp] theorem noDonor_kept (s : State) (r : Row) : (noDonor s r).kept = s.kept := by
  unfold noDonor
  repeat' first | (simp; done) | intro _ | with_reducible refine (State.each_kept _ _ _ ?_).trans ?_ | simp | split

@[simp] theorem takeDonor_kept (s : State) (r d : Row) : (takeDonor s r d).kept = s.kept := by simp [takeDonor]

@[simp] theorem borrowCheck_kept (s : State) (r : Row) : (borrowCheck s r).kept = s.kept := by
  unfold borrowCheck; split <;> simp

@[simp] theorem idleBorrow_kept (s : State) (r : Row) : (idleBorrow s r).kept = s.kept := by simp [idleBorrow]

@[simp] theorem capture_kept (s : State) (k : Fin 3) (e : Ev) : (capture s k e).kept = s.kept := by rfl

@[simp] theorem repeated_kept (s : State) (k : Fin 3) (e : Ev) : (repeated s k e).kept = s.kept := by rfl

@[simp] theorem escalated_kept (s : State) : (escalated s).kept = s.kept := by rfl

@[simp] theorem takeF_kept (s : State) (e : Ev) : (takeF s e).kept = s.kept := by simp [takeF]

@[simp] theorem takeU_kept (s : State) (e : Ev) : (takeU s e).kept = s.kept := by simp [takeU]

@[simp] theorem takeC_kept (s : State) (e : Ev) : (takeC s e).kept = s.kept := by simp [takeC]

@[simp] theorem takeFault_kept (s : State) (e : Ev) : (takeFault s e).kept = s.kept := by
  unfold takeFault; repeat' (first | (simp; done) | split)

@[simp] theorem execFaultTaken_kept (s : State) : Keeps s (execFaultTaken s) := by
  unfold execFaultTaken; repeat' (first | (simp; done) | split)

@[simp] theorem slotAck_kept (src : Src) (k : Fin 3) (s : State) : (slotAck src k s).kept = s.kept := by simp [slotAck]

@[simp] theorem execFstSlotAck_kept (src : Src) (k : Fin 3) (s : State) : Keeps s (execFstSlotAck src k s) := by simp [execFstSlotAck]

@[simp] theorem standbyFault_kept (s : State) (u : UnitId) (out : State → State) (h : ∀ t, (out t).kept = t.kept) :
    (standbyFault s u out).kept = s.kept := by
  unfold standbyFault
  dsimp only
  split
  · simp
  · split
    · rw [h]; simp
    · simp

@[simp] theorem sparesExhausted_kept (s : State) (u : UnitId) (r : Row) : (sparesExhausted s u r).kept = s.kept := by simp [sparesExhausted]

@[simp] theorem orderSubstitution_kept (s : State) (a : Arr) (logical : Nat) :
    (orderSubstitution s a logical).kept = s.kept := by simp [orderSubstitution]

@[simp] theorem unitLost_kept (s : State) (u : UnitId) (p : Plan → Bool) : (unitLost s u p).kept = s.kept := by
  unfold unitLost
  repeat' first | (simp; done) | intro _ | with_reducible refine (State.each_kept _ _ _ ?_).trans ?_ | simp | split

@[simp] theorem fenceLink_kept (s : State) (l : Lnk) (why : BitVec 16) : (fenceLink s l why).kept = s.kept := by
  unfold fenceLink
  repeat' first | (simp; done) | intro _ | with_reducible refine (State.each_kept _ _ _ ?_).trans ?_ | simp | split

@[simp] theorem actOnLasting_kept (s : State) (u : UnitId) : (actOnLasting s u).kept = s.kept := by
  unfold actOnLasting; repeat' (first | (simp; done) | split)

@[simp] theorem declareLasting_kept (s : State) (u0 : UnitId) (cause : BitVec 8) (event : BitVec 16) :
    (declareLasting s u0 cause event).kept = s.kept := by
  unfold declareLasting
  repeat' first | (simp; done) | intro _ | with_reducible refine (State.each_kept _ _ _ ?_).trans ?_ | simp | split

@[simp] theorem lateReport_kept (s : State) (c : Ctx) (unit : UnitId) (kind : BitVec 16) (pass : BitVec 48) :
    (lateReport s c unit kind pass).kept = s.kept := by simp [lateReport]

@[simp] theorem enterConfirmed_kept (s : State) (e : HistEntry) : (enterConfirmed s e).kept = s.kept := by simp [enterConfirmed]

@[simp] theorem enterAndJudge_kept (s : State) (e : HistEntry) : (enterAndJudge s e).kept = s.kept := by
  unfold enterAndJudge
  repeat' first | (simp; done) | intro _ | with_reducible refine (State.each_kept _ _ _ ?_).trans ?_ | simp | split

@[simp] theorem stopIfNoSpare_kept (s : State) (e : HistEntry) : (stopIfNoSpare s e).kept = s.kept := by
  unfold stopIfNoSpare; split <;> simp

@[simp] theorem takeHistory_kept (s : State) (e0 : HistEntry) : (takeHistory s e0).kept = s.kept := by
  unfold takeHistory
  repeat' first | (simp; done) | intro _ | with_reducible refine (State.each_kept _ _ _ ?_).trans ?_ | simp | split

@[simp] theorem execHistoryEntry_kept (s : State) : Keeps s (execHistoryEntry s) := by
  unfold execHistoryEntry; repeat' (first | (simp; done) | split)

@[simp] theorem historyCfg_kept (src : Src) (v : Reg) (s : State) : (historyCfg src v s).kept = s.kept := by
  unfold historyCfg
  repeat' first | (simp; done) | intro _ | with_reducible refine (State.each_kept _ _ _ ?_).trans ?_ | simp | split

@[simp] theorem execFstHistoryCfgWrite_kept (src : Src) (v : Reg) (s : State) :
    Keeps s (execFstHistoryCfgWrite src v s) := by simp [execFstHistoryCfgWrite]

@[simp] theorem execOptimeStore_kept (s : State) : Keeps s (execOptimeStore s) := ⟨_, rfl, rfl⟩

@[simp] theorem arrayReport_kept (s : State) (a : Arr) (code : BitVec 16) (cls : Cls) (t9 : BitVec 16) (c : Option Ctx) :
    (arrayReport s a code cls t9 c).kept = s.kept := by simp [arrayReport]

@[simp] theorem execArrayParity_kept (a : Arr) (code : BitVec 16) (c : Option Ctx) (s : State) : Keeps s (execArrayParity a code c s) := ⟨_, rfl, rfl⟩

@[simp] theorem execArraySequencer_kept (a : Arr) (code : BitVec 16) (c : Option Ctx) (s : State) :
    Keeps s (execArraySequencer a code c s) := by simp [execArraySequencer]

@[simp] theorem execMemCeStorm_kept (g : Gtu) (count : Nat) (addr : Nat) (s : State) : Keeps s (execMemCeStorm g count addr s) := by
  unfold execMemCeStorm; split <;> simp

@[simp] theorem execPcieCorrectable_kept (bit : BitVec 16) (s : State) : Keeps s (execPcieCorrectable bit s) := ⟨_, rfl, rfl⟩

@[simp] theorem execPcieUncorrectable_kept (bit : BitVec 16) (s : State) : Keeps s (execPcieUncorrectable bit s) := ⟨_, rfl, rfl⟩

@[simp] theorem unitSel_kept (v : Reg) (s : State) : (unitSel v s).kept = s.kept := by rfl

@[simp] theorem execFstUnitSelWrite_kept (src : Src) (v : Reg) (s : State) : Keeps s (execFstUnitSelWrite src v s) := by
  unfold execFstUnitSelWrite
  first
  | (simp; done)
  | with_reducible rfl
  | (repeat' (first | (simp; done) | (intro _) | (with_reducible refine (State.each_kept _ _ _ ?_).trans ?_) | (with_reducible refine State.each_kept _ _ _ ?_) | simp | split))

@[simp] theorem execUnitInfoReady_kept (s : State) : Keeps s (execUnitInfoReady s) := ⟨_, rfl, rfl⟩

@[simp] theorem noteCatch_kept (s : State) (c : Ctx) (unit : UnitId) (slice : Option (BitVec 8 × BitVec 8)) (shadow : Option Compare) :
    (noteCatch s c unit slice shadow).kept = s.kept := by
  unfold noteCatch
  repeat' first | (simp; done) | intro _ | with_reducible refine (State.each_kept _ _ _ ?_).trans ?_ | simp | split

@[simp] theorem reportCause_kept (s : State) (c : Ctx) (reason : BitVec 4) (unit : UnitId) (ex : Option ExecName) :
    (reportCause s c reason unit ex).kept = s.kept := by
  unfold reportCause
  repeat' first | (simp; done) | intro _ | with_reducible refine (State.each_kept _ _ _ ?_).trans ?_ | simp | split

@[simp] theorem partingSend_kept (s : State) (slice : Nat) (e : Ctx × BitVec 48 × BitVec 8) : (partingSend s slice e).kept = s.kept := by
  unfold partingSend; split <;> simp

@[simp] theorem countSliceCatch_kept (s : State) (slice : Nat) : (countSliceCatch s slice).kept = s.kept := by
  unfold countSliceCatch; split <;> simp

@[simp] theorem detect_kept (s : State) (a : Arr) (t : Tile) (code : BitVec 16) (p32 : BitVec 32) :
    (detect s a t code p32).kept = s.kept := by simp [detect]

@[simp] theorem detectDescriptor_kept (s : State) (a : Arr) (t : Tile) (cause : BitVec 4) :
    (detectDescriptor s a t cause).kept = s.kept := by simp [detectDescriptor]

@[simp] theorem detectVerdict_kept (s : State) (a : Arr) (t : Tile) (reason : BitVec 4) (low special high : Bool) (diffs : List Nat) :
    (detectVerdict s a t reason low special high diffs).kept = s.kept := by simp [detectVerdict]

@[simp] theorem countVoid_kept (s : State) (c : Ctx) : (countVoid s c).kept = s.kept := by rfl

@[simp] theorem execTileStart_kept (a : Arr) (d : TileDesc) (s : State) : Keeps s (execTileStart a d s) := by
  unfold execTileStart
  repeat' first | (simp; done) | intro _ | with_reducible refine (State.each_kept _ _ _ ?_).trans ?_ | simp | split

@[simp] theorem setLatch_kept (s : State) (a : Arr) (c : Ctx) : (setLatch s a c).kept = s.kept := by rfl

@[simp] theorem passWords_kept (s : State) (a : Arr) (e : Ctx × BitVec 48 × BitVec 8) (blank source : Nat) (tag : BitVec 64)
    (words : WordWrites) : (passWords s a e blank source tag words).kept = s.kept := by
  unfold passWords
  repeat' first | (simp; done) | intro _ | with_reducible refine (State.each_kept _ _ _ ?_).trans ?_ | simp | split

@[simp] theorem operandCatch_kept (s : State) (a : Arr) (t : Tile) (blank : Nat) :
    (operandCatch s a t blank).kept = s.kept := by simp [operandCatch]

@[simp] theorem execOperandBlankComplete_kept (a : Arr) (c : Ctx) (tileSeq : BitVec 32) (blank : Nat) (tag : BitVec 64) (words : WordWrites)
    (s : State) (source : Nat) : Keeps s (execOperandBlankComplete a c tileSeq blank tag words s source) := by
  unfold execOperandBlankComplete
  split
  · simp
  · rename_i t _
    dsimp only
    have h := passWords_kept s a t.exec blank source tag words
    generalize passWords s a t.exec blank source tag words = u at h ⊢
    split
    · simp [h]
    · split
      · simp [h]
      · rw [keeps_next, kept_ite, operandCatch_kept, State.onPort_kept, h, ite_self]

@[simp] theorem overrun_kept (s : State) (a : Arr) : (overrun s a).kept = s.kept := by
  unfold overrun
  repeat' first | (simp; done) | intro _ | with_reducible refine (State.each_kept _ _ _ ?_).trans ?_ | simp | split

@[simp] theorem drainCheck_kept (s : State) (a : Arr) (t : Tile) : (drainCheck s a t).1.kept = s.kept := by
  unfold drainCheck; split <;> simp

@[simp] theorem beginRead_kept (s : State) (a : Arr) (t : Tile) : (beginRead s a t).kept = s.kept := by
  have h := drainCheck_kept s a t
  unfold beginRead
  generalize drainCheck s a t = r at h ⊢
  rcases r with ⟨t1, n⟩
  exact h

@[simp] theorem memberStart_kept (s : State) (a : Arr) : (memberStart s a).kept = s.kept := by
  unfold memberStart
  repeat' first | (simp; done) | intro _ | with_reducible refine (State.each_kept _ _ _ ?_).trans ?_ | simp | split

@[simp] theorem snoopAll_kept (s : State) (a : Arr) (t : Tile) (snoop : List Snoop) : (snoopAll s a t snoop).kept = s.kept := by
  unfold snoopAll
  repeat' first | (simp; done) | intro _ | with_reducible refine (State.each_kept _ _ _ ?_).trans ?_ | simp | split

@[simp] theorem execTilePark_kept (a : Arr) (ops : List OpCycle) (snoop : List Snoop) (s : State) :
    Keeps s (execTilePark a ops s snoop) := by
  unfold execTilePark; repeat' (first | (simp; done) | split)

@[simp] theorem execSingleReadStart_kept (a : Arr) (seq : BitVec 32) (s : State) : Keeps s (execSingleReadStart a seq s) := by
  unfold execSingleReadStart
  repeat' first | (simp; done) | intro _ | with_reducible refine (State.each_kept _ _ _ ?_).trans ?_ | simp | split

@[simp] theorem execSingleReadEnd_kept (a : Arr) (inexact : Bool) (acc : Accs) (s : State) :
    Keeps s (execSingleReadEnd a inexact acc s) := by
  unfold execSingleReadEnd
  repeat' first | (simp; done) | intro _ | with_reducible refine (State.each_kept _ _ _ ?_).trans ?_ | simp | split

@[simp] theorem readMember_kept (s : State) (a : Arr) (t : Tile) (g : Group) (inexact : Bool) (acc : Accs) :
    (readMember s a t g inexact acc).kept = s.kept := by
  unfold readMember
  repeat' first | (simp; done) | intro _ | with_reducible refine (State.each_kept _ _ _ ?_).trans ?_ | simp | split

@[simp] theorem execMemberRead_kept (a : Arr) (inexact : Bool) (acc : Accs) (s : State) : Keeps s (execMemberRead a inexact acc s) := by
  unfold execMemberRead
  repeat' first | (simp; done) | intro _ | with_reducible refine (State.each_kept _ _ _ ?_).trans ?_ | simp | split

@[simp] theorem execGroupClose_kept (a : Arr) (s : State) : Keeps s (execGroupClose a s) := by
  unfold execGroupClose
  repeat' first | (simp; done) | intro _ | with_reducible refine (State.each_kept _ _ _ ?_).trans ?_ | simp | split

@[simp] theorem sliceRefuse_kept (s : State) (src : Src) (n : Slice) : (sliceRefuse s src n).kept = s.kept := by rfl

@[simp] theorem sliceAccept_kept (s : State) (n : Slice) : (sliceAccept s n).kept = s.kept := by rfl

@[simp] theorem takeoverCmd_kept (src : Src) (n : Slice) (s : State) : (takeoverCmd src n s).kept = s.kept := by
  unfold takeoverCmd; split <;> simp

@[simp] theorem execSliceTakeover_kept (src : Src) (n : Slice) (s : State) :
    Keeps s (execSliceTakeover src n s) := by simp [execSliceTakeover]

@[simp] theorem releaseCmd_kept (src : Src) (n : Slice) (s : State) : (releaseCmd src n s).kept = s.kept := by
  unfold releaseCmd; split <;> simp

@[simp] theorem execSliceRelease_kept (src : Src) (n : Slice) (s : State) : Keeps s (execSliceRelease src n s) := by simp [execSliceRelease]

@[simp] theorem nextOrder_kept (s : State) : (nextOrder s).kept = s.kept := by
  unfold nextOrder; repeat' (first | (simp; done) | split)

@[simp] theorem execHandoverComplete_kept (r : Row) (s : State) : Keeps s (execHandoverComplete r s) := by
  unfold execHandoverComplete; repeat' (first | (simp; done) | split)

@[simp] theorem portResetDone_kept (s : State) (a : Arr) (tiles : List Tile) : (portResetDone s a tiles).kept = s.kept := by
  unfold portResetDone
  repeat' first | (simp; done) | intro _ | with_reducible refine (State.each_kept _ _ _ ?_).trans ?_ | simp | split

@[simp] theorem resetPorts_kept (s : State) (ps : List Arr) (only : Option Nat) : (resetPorts s ps only).kept = s.kept := by
  unfold resetPorts
  repeat' first | (simp; done) | intro _ | with_reducible refine (State.each_kept _ _ _ ?_).trans ?_ | simp | split

@[simp] theorem resetPort_kept (s : State) (a : Arr) : (resetPort s a).kept = s.kept := by simp [resetPort]

@[simp] theorem resetRow_kept (s : State) (r : Row) : (resetRow s r).kept = s.kept := by simp [resetRow]

@[simp] theorem portResetCmd_kept (src : Src) (a : Arr) (s : State) : (portResetCmd src a s).kept = s.kept := by simp [portResetCmd]

@[simp] theorem execPortReset_kept (src : Src) (a : Arr) (s : State) : Keeps s (execPortReset src a s) := by simp [execPortReset]

@[simp] theorem recordSliceReset_kept (s : State) (n : Slice) (how : BitVec 16) : (recordSliceReset s n how).kept = s.kept := by rfl

@[simp] theorem enterReset_kept (s : State) (n : Slice) : (enterReset s n).kept = s.kept := by rfl

@[simp] theorem resetSlice_kept (s : State) (n : Slice) : (resetSlice s n).kept = s.kept := by
  unfold resetSlice
  repeat' first | (simp; done) | intro _ | with_reducible refine (State.each_kept _ _ _ ?_).trans ?_ | simp | split

@[simp] theorem sliceResetCmd_kept (src : Src) (n : Slice) (s : State) : (sliceResetCmd src n s).kept = s.kept := by simp [sliceResetCmd]

@[simp] theorem execSliceReset_kept (src : Src) (n : Slice) (s : State) : Keeps s (execSliceReset src n s) := by simp [execSliceReset]

@[simp] theorem afterReset_kept (s : State) (n : Slice) : (afterReset s n).kept = s.kept := by
  unfold afterReset
  repeat' first | (simp; done) | intro _ | with_reducible refine (State.each_kept _ _ _ ?_).trans ?_ | simp | split

@[simp] theorem startTest_kept (s : State) (n : Slice) : (startTest s n).kept = s.kept := by
  unfold startTest; split <;> simp

@[simp] theorem selftestCmd_kept (src : Src) (n : Slice) (s : State) : (selftestCmd src n s).kept = s.kept := by simp [selftestCmd]

@[simp] theorem execSelftestNow_kept (src : Src) (n : Slice) (s : State) : Keeps s (execSelftestNow src n s) := by simp [execSelftestNow]

@[simp] theorem testInPlace_kept (s : State) (n : Slice) : (testInPlace s n).kept = s.kept := by rfl

@[simp] theorem advanceTurn_kept (s : State) : (advanceTurn s).kept = s.kept := by rfl

@[simp] theorem turnNow_kept (s : State) : (turnNow s).kept = s.kept := by
  unfold turnNow
  repeat' first | (simp; done) | intro _ | with_reducible refine (State.each_kept _ _ _ ?_).trans ?_ | simp | split

@[simp] theorem execSelftestTurnDue_kept (s : State) : Keeps s (execSelftestTurnDue s) := by
  unfold execSelftestTurnDue
  repeat' first | (simp; done) | intro _ | with_reducible refine (State.each_kept _ _ _ ?_).trans ?_ | simp | split

@[simp] theorem execSliceSelftestEnd_kept (n : Slice) (failPos : Option (Fin 26)) (misr : BitVec 128) (s : State) :
    Keeps s (execSliceSelftestEnd n failPos misr s) := by
  unfold execSliceSelftestEnd
  repeat' first | (simp; done) | intro _ | with_reducible refine (State.each_kept _ _ _ ?_).trans ?_ | simp | split

end Sys2Proof.Machine
end

