-- ==== Sys2Proof/Laws/KeptTags.lean ====
section
/-! SUPPORT. The parts of tag unit and link commands that write no tag: what they leave alone (`State.kept`), one lemma for each definition. -/

-- One proof at a time: the package is also compiled as one text, and proofs in parallel would need more memory than the check allows.
set_option Elab.async false

namespace Sys2Proof.Machine

@[simp] theorem mgtuEvent_kept (s : State) (g : Gtu) (c : Option Ctx) (code : BitVec 16) (cls : Cls) (index : Nat) (st : BitVec 3) (p16 :
    BitVec 16)
    (p32 : Nat) (acc : BitVec 8) (addr : Nat) : (mgtuEvent s g c code cls index st p16 p32 acc addr).kept = s.kept := by simp [mgtuEvent]

@[simp] theorem countChatter_kept (s : State) (c : Ctx) (adaptive : Bool) :
    (countChatter s c adaptive).kept = s.kept := by simp [countChatter]

@[simp] theorem countPoison_kept (s : State) (g : Gtu) (c : Ctx) (st : BitVec 3) :
    (countPoison s g c st).kept = s.kept := by simp [countPoison]

@[simp] theorem retentionOverflow_kept (s : State) (g : Gtu) (c : Ctx) (blank : Nat) : (retentionOverflow s g c blank).kept = s.kept := by rfl

@[simp] theorem readFp_kept (s : State) (key : Option (BitVec 61)) (ecc : Bool) (data : List (BitVec 32)) :
    (readFp s key ecc data).2.kept = s.kept := by
  unfold readFp; repeat' (first | (simp; done) | split)

@[simp] theorem checkRead_kept (s : State) (g : Gtu) (c : Option Ctx) (key : Option (BitVec 61)) (blank : Nat) (noise : Noise) (ecc :
    Bool) (acc : BitVec 8) : (checkRead s g c key blank noise ecc acc).1.kept = s.kept := by
  unfold checkRead
  repeat' first | (simp; done) | intro _ | with_reducible refine (State.each_kept _ _ _ ?_).trans ?_ | simp | split

@[simp] theorem jobRegion_kept (s : State) (g : Gtu) (c : Ctx) (acc : BitVec 8) (addr : Nat) (ex : Option ExecName) :
    (jobRegion s g c acc addr ex).kept = s.kept := by
  unfold jobRegion
  repeat' first | (simp; done) | intro _ | with_reducible refine (State.each_kept _ _ _ ?_).trans ?_ | simp | split

@[simp] theorem hostRegion_kept (s : State) (g : Gtu) (c : Option Ctx) (acc : BitVec 8) (addr : Nat) :
    (hostRegion s g c acc addr).kept = s.kept := by
  unfold hostRegion
  repeat' first | (simp; done) | intro _ | with_reducible refine (State.each_kept _ _ _ ?_).trans ?_ | simp | split

@[simp] theorem sendOperandTag_kept (s : State) (a : Option Arr) (c : Ctx) (tag : BitVec 64) :
    (sendOperandTag s a c tag).kept = s.kept := by
  unfold sendOperandTag; split <;> simp

@[simp] theorem writeMismatch_kept (s : State) (g : Gtu) (c : Ctx) (place : Nat) (st : BitVec 3) (partial_ : BitVec 16) (acc : BitVec 8)
    (ex : Option ExecName) : (writeMismatch s g c place st partial_ acc ex).kept = s.kept := by simp [writeMismatch]

@[simp] theorem eccEvent_kept (s : State) (g : Gtu) (c : Option Ctx) (blank : Nat) (before after : BitVec 3) (acc : BitVec 8) :
    (eccEvent s g c blank before after acc).kept = s.kept := by
  unfold eccEvent
  repeat' first | (simp; done) | intro _ | with_reducible refine (State.each_kept _ _ _ ?_).trans ?_ | simp | split

@[simp] theorem hostWriteNote_kept (s : State) (g : Gtu) (blank : Nat) : (hostWriteNote s g blank).kept = s.kept := by
  unfold hostWriteNote
  repeat' first | (simp; done) | intro _ | with_reducible refine (State.each_kept _ _ _ ?_).trans ?_ | simp | split

@[simp] theorem poisonedWrite_kept (s : State) (g : Gtu) (c : Option Ctx) (ep : Bool) (place : Nat) (st : BitVec 3) :
    (poisonedWrite s g c ep place st).kept = s.kept := by simp [poisonedWrite]

@[simp] theorem probeCmd_kept (g : Gtu) (v : Reg) (s : State) : (probeCmd g v s).kept = s.kept := by rfl

@[simp] theorem execMgtuProbe_kept (src : Src) (g : Gtu) (v : Reg) (s : State) : Keeps s (execMgtuProbe src g v s) := by
  unfold execMgtuProbe
  first
  | (simp; done)
  | with_reducible rfl
  | (repeat' (first | (simp; done) | (intro _) | (with_reducible refine (State.each_kept _ _ _ ?_).trans ?_) | (with_reducible refine State.each_kept _ _ _ ?_) | simp | split))

@[simp] theorem resendFrame_kept (s : State) (l : Lnk) (c : Ctx) (seq : BitVec 32) : (resendFrame s l c seq).kept = s.kept := by
  unfold resendFrame; split <;> simp

@[simp] theorem execLinkFrameSend_kept (l : Lnk) (f : Frame) (srcCtx : Ctx) (blank : Nat) (again : Bool) (s : State)
    (ex : Option ExecName) : Keeps s (execLinkFrameSend l f srcCtx blank s again ex) := by
  unfold execLinkFrameSend; repeat' (first | (simp; done) | split)

@[simp] theorem deliverFrame_kept (s : State) (l : Lnk) (f : Frame) (made : Nat) (tag : BitVec 64) :
    (deliverFrame s l f made tag).kept = s.kept := by simp [deliverFrame]

@[simp] theorem linkPoisonTag_kept (s : State) (f : Frame) : (linkPoisonTag s f).2.kept = s.kept := by
  unfold linkPoisonTag; split <;> simp

@[simp] theorem frameEvent_kept (s : State) (l : Lnk) (f : Frame) (code p16 : BitVec 16) (p32 : BitVec 32) :
    (frameEvent s l f code p16 p32).kept = s.kept := by rfl

@[simp] theorem linkPoisoned_kept (s : State) (l : Lnk) (c : Ctx) (ex : Option ExecName) : (linkPoisoned s l c ex).kept = s.kept := by simp [linkPoisoned]

@[simp] theorem execLinkFrameReceive_kept (l : Lnk) (f : Frame) (s : State) (ex : Option ExecName) :
    Keeps s (execLinkFrameReceive l f s ex) := by
  unfold execLinkFrameReceive
  repeat' first | (simp; done) | intro _ | with_reducible refine (State.each_kept _ _ _ ?_).trans ?_ | simp | split

@[simp] theorem sendTickSync_kept (s : State) (l : Lnk) : (sendTickSync s l).kept = s.kept := by rfl

@[simp] theorem resendControl_kept (s : State) (c : Ctx) (d : Dest) (x : Ctl) : (resendControl s c d x).kept = s.kept := by
  unfold resendControl; repeat' (first | (simp; done) | split)

@[simp] theorem resendBlank_kept (s : State) (l : Lnk) (dst : Ctx) (seq : BitVec 32) (via : Lnk) :
    (resendBlank s l dst seq via).kept = s.kept := by
  unfold resendBlank; split <;> simp

@[simp] theorem resendLost_kept (s : State) (l : Lnk) (lost : List LostFrame) : (resendLost s l lost).kept = s.kept := by
  unfold resendLost
  repeat' first | (simp; done) | intro _ | with_reducible refine (State.each_kept _ _ _ ?_).trans ?_ | simp | split

@[simp] theorem retrainFault_kept (s : State) (l : Lnk) (width retries : Nat) : (retrainFault s l width retries).kept = s.kept := by rfl

@[simp] theorem execLinkTrained_kept (l : Lnk) (t : Trained) (retries : Nat) (lost : List LostFrame) (s : State) :
    Keeps s (execLinkTrained l t retries s lost) := by
  unfold execLinkTrained
  repeat' first | (simp; done) | intro _ | with_reducible refine (State.each_kept _ _ _ ?_).trans ?_ | simp | split

@[simp] theorem retrainCmd_kept (src : Src) (n : BitVec 5) (s : State) : (retrainCmd src n s).kept = s.kept := by
  unfold retrainCmd; split <;> simp

@[simp] theorem linkCtrl_kept (src : Src) (v : Reg) (s : State) : (linkCtrl src v s).kept = s.kept := by simp [linkCtrl]

@[simp] theorem execRetrain_kept (src : Src) (l : BitVec 5) (s : State) : Keeps s (execRetrain src l s) := by simp [execRetrain]

end Sys2Proof.Machine
end

