-- ==== Sys2Proof/Laws/KeptPasses.lean ====
section
/-! SUPPORT. The shadow scheduler, provenance and passes: what they leave alone (`State.kept`), one lemma for each definition. -/

-- One proof at a time: the package is also compiled as one text, and proofs in parallel would need more memory than the check allows.
set_option Elab.async false

namespace Sys2Proof.Machine

@[simp] theorem beginBorrow_kept (s : State) (c : Ctx) (p : Plan) : (beginBorrow s c p).kept = s.kept := by rfl

@[simp] theorem recordCompare_kept (s : State) (c : Ctx) (x : Compare) (ok : Bool) : (recordCompare s c x ok).kept = s.kept := by rfl

@[simp] theorem catchShadow_kept (s : State) (c : Ctx) (x : Compare) (refereeRun : Bool) :
    (catchShadow s c x refereeRun).kept = s.kept := by simp [catchShadow]

@[simp] theorem settleShadow_kept (s : State) (c : Ctx) (x : Compare) : (settleShadow s c x).kept = s.kept := by rfl

@[simp] theorem withdrawShadow_kept (s : State) (c : Ctx) (x : Compare) : (withdrawShadow s c x).kept = s.kept := by simp [withdrawShadow]

@[simp] theorem unresolved_kept (s : State) (c : Ctx) (x : Compare) (ref : Nat) : (unresolved s c x ref).kept = s.kept := by rfl

@[simp] theorem refereeDecision_kept (s : State) (c : Ctx) (x : Compare) (a : Arr) (fp : BitVec 61) :
    (refereeDecision s c x a fp).kept = s.kept := by simp [refereeDecision]

@[simp] theorem noReferee_kept (s : State) (c : Ctx) (x : Compare) : (noReferee s c x).kept = s.kept := by simp [noReferee]

@[simp] theorem compareNow_kept (s : State) (c : Ctx) (x : Compare) : (compareNow s c x).kept = s.kept := by
  unfold compareNow; repeat' (first | (simp; done) | split)

@[simp] theorem execShadowCompare_kept (c : Ctx) (x : Compare) (s : State) : Keeps s (execShadowCompare c x s) := by
  unfold execShadowCompare; split <;> simp

@[simp] theorem compareMissing_kept (s : State) (c : Ctx) (logical : Nat) (cls : BitVec 3) (shadow : Nat) :
    (compareMissing s c logical cls shadow).kept = s.kept := by simp [compareMissing]

@[simp] theorem execShadowMissing_kept (c : Ctx) (logical : Nat) (cls : BitVec 3) (shadow : Arr) (pass : BitVec 48) (replay : BitVec 8)
    (s : State) : Keeps s (execShadowMissing c logical cls shadow s pass replay) := by
  unfold execShadowMissing; split <;> simp

@[simp] theorem execVoidTileOffer_kept (a : Arr) (c : Ctx) (pass : BitVec 48) (seq : BitVec 32) (s : State) :
    Keeps s (execVoidTileOffer a c pass seq s) := by
  unfold execVoidTileOffer; repeat' (first | (simp; done) | split)

@[simp] theorem execChaseSlotFill_kept (c : Ctx) (r : Row) (s : State) : Keeps s (execChaseSlotFill c r s) := by
  unfold execChaseSlotFill
  repeat' first | (simp; done) | intro _ | with_reducible refine (State.each_kept _ _ _ ?_).trans ?_ | simp | split

@[simp] theorem countUnchased_kept (s : State) (c : Ctx) : (countUnchased s c).kept = s.kept := by rfl

@[simp] theorem pairSel_kept (v : Reg) (s : State) : (pairSel v s).kept = s.kept := by rfl

@[simp] theorem execShdPairSelWrite_kept (src : Src) (v : Reg) (s : State) : Keeps s (execShdPairSelWrite src v s) := by
  unfold execShdPairSelWrite
  first
  | (simp; done)
  | with_reducible rfl
  | (repeat' (first | (simp; done) | (intro _) | (with_reducible refine (State.each_kept _ _ _ ?_).trans ?_) | (with_reducible refine State.each_kept _ _ _ ?_) | simp | split))

@[simp] theorem execPairInfoReady_kept (s : State) : Keeps s (execPairInfoReady s) := ⟨_, rfl, rfl⟩

@[simp] theorem openSpan_kept (s : State) (c : Ctx) (p : Plan) : (openSpan s c p).kept = s.kept := by
  unfold openSpan
  repeat' first | (simp; done) | intro _ | with_reducible refine (State.each_kept _ _ _ ?_).trans ?_ | simp | split

@[simp] theorem feedCore_kept (s : State) (k : Fin 8) : (feedCore s k).kept = s.kept := by
  unfold feedCore; repeat' (first | (simp; done) | split)

@[simp] theorem feedCores_kept (s : State) : (feedCores s).kept = s.kept := by
  unfold feedCores
  repeat' first | (simp; done) | intro _ | with_reducible refine (State.each_kept _ _ _ ?_).trans ?_ | simp | split

@[simp] theorem stall_kept (s : State) (c : Ctx) : (stall s c).kept = s.kept := by simp [stall]

@[simp] theorem unstall_kept (s : State) (c : Ctx) : (unstall s c).kept = s.kept := by simp [unstall]

@[simp] theorem noteCommit_kept (s : State) (c : Ctx) (p : Plan) : (noteCommit s c p).kept = s.kept := by rfl

@[simp] theorem dropSpan_kept (s : State) (c : Ctx) (report : Bool) : (dropSpan s c report).kept = s.kept := by
  unfold dropSpan; split <;> simp

@[simp] theorem ctxAck_kept (src : Src) (c : Ctx) (v : Reg) (s : State) : (ctxAck src c v s).kept = s.kept := by
  unfold ctxAck
  repeat' first | (simp; done) | intro _ | with_reducible refine (State.each_kept _ _ _ ?_).trans ?_ | simp | split

@[simp] theorem execPrvCtxAck_kept (src : Src) (c : Ctx) (v : Reg) (s : State) :
    Keeps s (execPrvCtxAck src c v s) := by simp [execPrvCtxAck]

@[simp] theorem prvReadSel_kept (v : Reg) (s : State) : (prvReadSel v s).kept = s.kept := by rfl

@[simp] theorem execPrvReadGo_kept (src : Src) (v : Reg) (s : State) : Keeps s (execPrvReadGo src v s) := by
  unfold execPrvReadGo
  first
  | (simp; done)
  | with_reducible rfl
  | (repeat' (first | (simp; done) | (intro _) | (with_reducible refine (State.each_kept _ _ _ ?_).trans ?_) | (with_reducible refine State.each_kept _ _ _ ?_) | simp | split))

@[simp] theorem assess_kept (s : State) (c : Ctx) (p : Plan) : (assess s c p).kept = s.kept := by
  unfold assess; repeat' (first | (simp; done) | split)

@[simp] theorem sendPair_kept (s : State) (c : Ctx) (x : Ctl) : (sendPair s c x).kept = s.kept := by
  unfold sendPair; split <;> simp

@[simp] theorem digestMismatch_kept (s : State) (c : Ctx) : (digestMismatch s c).kept = s.kept := by simp [digestMismatch]

@[simp] theorem compareDigests_kept (s : State) (c : Ctx) : (compareDigests s c).kept = s.kept := by
  unfold compareDigests
  repeat' first | (simp; done) | intro _ | with_reducible refine (State.each_kept _ _ _ ?_).trans ?_ | simp | split

@[simp] theorem sendDigest_kept (s : State) (c : Ctx) (p : Plan) : (sendDigest s c p).kept = s.kept := by
  unfold sendDigest; split <;> simp

@[simp] theorem abortNow_kept (s : State) (c : Ctx) (k : AbortCause) : (abortNow s c k).kept = s.kept := by simp [abortNow]

@[simp] theorem contextPoisoned_kept (s : State) (c : Ctx) (n : Nat) : (contextPoisoned s c n).kept = s.kept := by simp [contextPoisoned]

@[simp] theorem shadowsTransient_kept (s : State) (c : Ctx) (u : UnitId) : (shadowsTransient s c u).kept = s.kept := by
  unfold shadowsTransient
  repeat' first | (simp; done) | intro _ | with_reducible refine (State.each_kept _ _ _ ?_).trans ?_ | simp | split

@[simp] theorem catchTransient_kept (c : Ctx) (replay : BitVec 8) (s : State) (k : OpenCatch) :
    (catchTransient c replay s k).kept = s.kept := by simp [catchTransient]

@[simp] theorem sendNotices_kept (s : State) (c : Ctx) (p : Plan) : (sendNotices s c p).kept = s.kept := by
  unfold sendNotices
  repeat' first | (simp; done) | intro _ | with_reducible refine (State.each_kept _ _ _ ?_).trans ?_ | simp | split

@[simp] theorem notifyCommit_kept (s : State) (c : Ctx) : (notifyCommit s c).kept = s.kept := by simp [notifyCommit]

@[simp] theorem commitHeld_kept (s : State) (c : Ctx) : (commitHeld s c).kept = s.kept := by simp [commitHeld]

@[simp] theorem stopDue_kept (s : State) (c : Ctx) : (stopDue s c).kept = s.kept := by
  unfold stopDue; split <;> simp

@[simp] theorem waitToken_kept (s : State) (c : Ctx) : (waitToken s c).kept = s.kept := by simp [waitToken]

@[simp] theorem replayLimit_kept (s : State) (c : Ctx) : (replayLimit s c).kept = s.kept := by simp [replayLimit]

@[simp] theorem cutOwned_kept (s : State) (c : Ctx) (p : Plan) : (cutOwned s c p).kept = s.kept := by simp [cutOwned]

@[simp] theorem claimArrays_kept (s : State) (p : Plan) : (claimArrays s p).kept = s.kept := by rfl

@[simp] theorem beginExecution_kept (s : State) (c : Ctx) (p : Plan) : (beginExecution s c p).kept = s.kept := by
  unfold beginExecution
  repeat' first | (simp; done) | intro _ | with_reducible refine (State.each_kept _ _ _ ?_).trans ?_ | simp | split

@[simp] theorem execExecutionStart_kept (c : Ctx) (s : State) : Keeps s (execExecutionStart c s) := by
  unfold execExecutionStart
  repeat' first | (simp; done) | intro _ | with_reducible refine (State.each_kept _ _ _ ?_).trans ?_ | simp | split

@[simp] theorem closeCtxGroups_kept (s : State) (c : Ctx) : (closeCtxGroups s c).kept = s.kept := by simp [closeCtxGroups]

@[simp] theorem execEndMarker_kept (c : Ctx) (s : State) : Keeps s (execEndMarker c s) := by
  unfold execEndMarker; repeat' (first | (simp; done) | split)

@[simp] theorem execCommitUnitAbort_kept (c : Ctx) (s : State) : Keeps s (execCommitUnitAbort c s) := by
  unfold execCommitUnitAbort; repeat' (first | (simp; done) | split)

@[simp] theorem execParting_kept (target : UnitId) (c : Ctx) (s : State) : Keeps s (execParting target c s) := by
  unfold execParting; split <;> simp

@[simp] theorem execCommit_kept (target : UnitId) (c : Ctx) (s : State) : Keeps s (execCommit target c s) := by
  unfold execCommit; repeat' (first | (simp; done) | split)

@[simp] theorem takeVerdict_kept (s : State) (f : VerdictFlit) (a : Arr) : (takeVerdict s f a).kept = s.kept := by
  unfold takeVerdict; split <;> simp

@[simp] theorem execTileVerdict_kept (f : VerdictFlit) (s : State) : Keeps s (execTileVerdict f s) := by
  unfold execTileVerdict; repeat' (first | (simp; done) | split)

@[simp] theorem execReplayStartSend_kept (c : Ctx) (s : State) : Keeps s (execReplayStartSend c s) := by
  unfold execReplayStartSend
  repeat' first | (simp; done) | intro _ | with_reducible refine (State.each_kept _ _ _ ?_).trans ?_ | simp | split

@[simp] theorem execReplayStart_kept (c : Ctx) (s : State) : Keeps s (execReplayStart c s) := by
  unfold execReplayStart
  repeat' first | (simp; done) | intro _ | with_reducible refine (State.each_kept _ _ _ ?_).trans ?_ | simp | split

@[simp] theorem passRefuse_kept (s : State) (src : Src) (c : Ctx) : (passRefuse s src c).kept = s.kept := by rfl

@[simp] theorem passAccept_kept (s : State) (c : Ctx) (k : BitVec 16) : (passAccept s c k).kept = s.kept := by rfl

@[simp] theorem holdCmd_kept (src : Src) (c : Ctx) (s : State) : (holdCmd src c s).kept = s.kept := by simp [holdCmd]

@[simp] theorem ctxReleaseCmd_kept (src : Src) (c : Ctx) (s : State) : (ctxReleaseCmd src c s).kept = s.kept := by simp [ctxReleaseCmd]

@[simp] theorem stopCmd_kept (src : Src) (c : Ctx) (s : State) : (stopCmd src c s).kept = s.kept := by simp [stopCmd]

@[simp] theorem abortStopCmd_kept (src : Src) (c : Ctx) (s : State) : (abortStopCmd src c s).kept = s.kept := by simp [abortStopCmd]

@[simp] theorem restartCmd_kept (src : Src) (c : Ctx) (s : State) : (restartCmd src c s).kept = s.kept := by
  unfold restartCmd
  repeat' first | (simp; done) | intro _ | with_reducible refine (State.each_kept _ _ _ ?_).trans ?_ | simp | split

@[simp] theorem passCtrl_kept (src : Src) (c : Ctx) (v : Reg) (s : State) : (passCtrl src c v s).kept = s.kept := by simp [passCtrl]

@[simp] theorem execHold_kept (src : Src) (c : Ctx) (s : State) : Keeps s (execHold src c s) := by simp [execHold]

@[simp] theorem execRelease_kept (src : Src) (c : Ctx) (s : State) : Keeps s (execRelease src c s) := by simp [execRelease]

@[simp] theorem execStop_kept (src : Src) (c : Ctx) (s : State) : Keeps s (execStop src c s) := by simp [execStop]

@[simp] theorem execAbortStop_kept (src : Src) (c : Ctx) (s : State) : Keeps s (execAbortStop src c s) := by simp [execAbortStop]

@[simp] theorem execRestart_kept (src : Src) (c : Ctx) (s : State) : Keeps s (execRestart src c s) := by simp [execRestart]

@[simp] theorem State.setOrder_kept (s : State) (o : SubOrder) (by_ : List SubOrder) : (State.setOrder s o by_).kept = s.kept := by rfl

@[simp] theorem orderFails_kept (s : State) (o : SubOrder) : (orderFails s o).kept = s.kept := by simp [orderFails]

@[simp] theorem execSubstitutionIssue_kept (r : Row) (s : State) : Keeps s (execSubstitutionIssue r s) := by
  unfold execSubstitutionIssue; repeat' (first | (simp; done) | split)

@[simp] theorem execSpareSubstituted_kept (r : Row) (s : State) : Keeps s (execSpareSubstituted r s) := by
  unfold execSpareSubstituted
  repeat' first | (simp; done) | intro _ | with_reducible refine (State.each_kept _ _ _ ?_).trans ?_ | simp | split

@[simp] theorem execSubstitutionTimeout_kept (r : Row) (s : State) : Keeps s (execSubstitutionTimeout r s) := by
  unfold execSubstitutionTimeout; repeat' (first | (simp; done) | split)

end Sys2Proof.Machine
end

