-- ==== Sys2Proof/Laws/KeptSpindle.lean ====
section
/-! SUPPORT. The Spindle, lock-step and plans: what they leave alone (`State.kept`), one lemma for each definition. -/

-- One proof at a time: the package is also compiled as one text, and proofs in parallel would need more memory than the check allows.
set_option Elab.async false

namespace Sys2Proof.Machine

@[simp] theorem execTickSyncSend_kept (s : State) : Keeps s (execTickSyncSend s) := by
  unfold execTickSyncSend; split <;> simp

@[simp] theorem execTickUnsynced_kept (s : State) : Keeps s (execTickUnsynced s) := by
  unfold execTickUnsynced; split <;> simp

@[simp] theorem execTickHighStore_kept (s : State) : Keeps s (execTickHighStore s) := by
  unfold execTickHighStore
  repeat' first | (simp; done) | intro _ | with_reducible refine (State.each_kept _ _ _ ?_).trans ?_ | simp | split

@[simp] theorem frameRetries_kept (s : State) (c : Ctx) (n : Nat) : (frameRetries s c n).kept = s.kept := by rfl

@[simp] theorem execCommitNotice_kept (chip : BitVec 16) (c : Ctx) (pass : BitVec 48) (retries : Nat) (s : State) :
    Keeps s (execCommitNotice chip c pass retries s) := ⟨_, rfl, rfl⟩

@[simp] theorem execNoticeTimeout_kept (c : Ctx) (s : State) : Keeps s (execNoticeTimeout c s) := by
  unfold execNoticeTimeout; repeat' (first | (simp; done) | split)

@[simp] theorem sendBoth_kept (s : State) (c : Ctx) (chip ofMember : BitVec 16) (x : Ctl) :
    (sendBoth s c chip ofMember x).kept = s.kept := by
  unfold sendBoth
  repeat' first | (simp; done) | intro _ | with_reducible refine (State.each_kept _ _ _ ?_).trans ?_ | simp | split

@[simp] theorem toMembers_kept (s : State) (c : Ctx) (x : Ctl) : (toMembers s c x).kept = s.kept := by
  unfold toMembers
  repeat' first | (simp; done) | intro _ | with_reducible refine (State.each_kept _ _ _ ?_).trans ?_ | simp | split

@[simp] theorem toMaster_kept (s : State) (c : Ctx) (x : Ctl) : (toMaster s c x).kept = s.kept := by
  unfold toMaster; split <;> simp

@[simp] theorem answerArmed_kept (s : State) (c : Ctx) : (answerArmed s c).kept = s.kept := by simp [answerArmed]

@[simp] theorem sendStart_kept (s : State) (c : Ctx) : (sendStart s c).kept = s.kept := by simp [sendStart]

@[simp] theorem startIfArmed_kept (s : State) (c : Ctx) : (startIfArmed s c).kept = s.kept := by simp [startIfArmed]

@[simp] theorem sendArm_kept (s : State) (c : Ctx) : (sendArm s c).kept = s.kept := by simp [sendArm]

@[simp] theorem execBarrierArrive_kept (c : Ctx) (s : State) : Keeps s (execBarrierArrive c s) := by
  unfold execBarrierArrive
  repeat' first | (simp; done) | intro _ | with_reducible refine (State.each_kept _ _ _ ?_).trans ?_ | simp | split

@[simp] theorem execArm_kept (group number check : BitVec 16) (retries : Nat) (s : State) :
    Keeps s (execArm group number check retries s) := by
  unfold execArm
  repeat' first | (simp; done) | intro _ | with_reducible refine (State.each_kept _ _ _ ?_).trans ?_ | simp | split

@[simp] theorem recordAbandon_kept (s : State) (c : Ctx) (cause : BitVec 4) (chip : BitVec 12) :
    (recordAbandon s c cause chip).kept = s.kept := by rfl

@[simp] theorem planMismatch_kept (s : State) (c : Ctx) (theirs : BitVec 16) :
    (planMismatch s c theirs).kept = s.kept := by simp [planMismatch]

@[simp] theorem barrierFail_kept (s : State) (c : Ctx) : (barrierFail s c).kept = s.kept := by simp [barrierFail]

@[simp] theorem abandonBarrier_kept (s : State) (c : Ctx) (cause : BitVec 4) (chip : BitVec 12) :
    (abandonBarrier s c cause chip).kept = s.kept := by simp [abandonBarrier]

@[simp] theorem execArmed_kept (chip : BitVec 12) (group number check : BitVec 16) (unsynced : Bool) (retries : Nat) (s : State) :
    Keeps s (execArmed chip group number check unsynced retries s) := by
  unfold execArmed
  repeat' first | (simp; done) | intro _ | with_reducible refine (State.each_kept _ _ _ ?_).trans ?_ | simp | split

@[simp] theorem execStart_kept (group number : BitVec 16) (at_ : BitVec 64) (retries : Nat) (s : State) :
    Keeps s (execStart group number at_ retries s) := by
  unfold execStart
  repeat' first | (simp; done) | intro _ | with_reducible refine (State.each_kept _ _ _ ?_).trans ?_ | simp | split

@[simp] theorem execStartAck_kept (chip : BitVec 12) (group number : BitVec 16) (retries : Nat) (s : State) :
    Keeps s (execStartAck chip group number retries s) := by
  unfold execStartAck
  repeat' first | (simp; done) | intro _ | with_reducible refine (State.each_kept _ _ _ ?_).trans ?_ | simp | split

@[simp] theorem execArmTimeout_kept (c : Ctx) (s : State) : Keeps s (execArmTimeout c s) := by
  unfold execArmTimeout
  repeat' first | (simp; done) | intro _ | with_reducible refine (State.each_kept _ _ _ ?_).trans ?_ | simp | split

@[simp] theorem execStartAckDeadline_kept (c : Ctx) (s : State) : Keeps s (execStartAckDeadline c s) := by
  unfold execStartAckDeadline
  repeat' first | (simp; done) | intro _ | with_reducible refine (State.each_kept _ _ _ ?_).trans ?_ | simp | split

@[simp] theorem takeDigest_kept (s : State) (c : Ctx) (f : DigestFrame) (check : BitVec 16) :
    (takeDigest s c f check).kept = s.kept := by simp [takeDigest]

@[simp] theorem execDigest_kept (frame : BitVec 256) (retries : Nat) (s : State) : Keeps s (execDigest frame retries s) := by
  unfold execDigest; repeat' (first | (simp; done) | split)

@[simp] theorem execSegment_kept (c : Ctx) (digests : List (BitVec 61)) (retries : Nat) (s : State) :
    Keeps s (execSegment c digests retries s) := by
  unfold execSegment
  repeat' first | (simp; done) | intro _ | with_reducible refine (State.each_kept _ _ _ ?_).trans ?_ | simp | split

@[simp] theorem recordHunt_kept (s : State) (c : Ctx) (outcome : BitVec 3) : (recordHunt s c outcome).kept = s.kept := by rfl

@[simp] theorem execHuntTags_kept (c : Ctx) (fps : List (BitVec 61)) (retries : Nat) (s : State) :
    Keeps s (execHuntTags c fps retries s) := by
  unfold execHuntTags
  repeat' first | (simp; done) | intro _ | with_reducible refine (State.each_kept _ _ _ ?_).trans ?_ | simp | split

@[simp] theorem huntSuspect_kept (s : State) (c : Ctx) : (huntSuspect s c).kept = s.kept := by rfl

@[simp] theorem execHuntCompare_kept (c : Ctx) (primaryFp r : BitVec 61) (s : State) : Keeps s (execHuntCompare c primaryFp r s) := by
  unfold execHuntCompare
  repeat' first | (simp; done) | intro _ | with_reducible refine (State.each_kept _ _ _ ?_).trans ?_ | simp | split

@[simp] theorem execLockstepTimeout_kept (c : Ctx) (s : State) : Keeps s (execLockstepTimeout c s) := by
  unfold execLockstepTimeout
  repeat' first | (simp; done) | intro _ | with_reducible refine (State.each_kept _ _ _ ?_).trans ?_ | simp | split

@[simp] theorem execPairStop_kept (c : Ctx) (retries : Nat) (s : State) : Keeps s (execPairStop c retries s) := by
  unfold execPairStop
  repeat' first | (simp; done) | intro _ | with_reducible refine (State.each_kept _ _ _ ?_).trans ?_ | simp | split

@[simp] theorem spnCfg_kept (src : Src) (v : Reg) (s : State) : (spnCfg src v s).kept = s.kept := by simp [spnCfg]

@[simp] theorem execSpnCfgWrite_kept (src : Src) (v : Reg) (s : State) : Keeps s (execSpnCfgWrite src v s) := by simp [execSpnCfgWrite]

@[simp] theorem lscCfg_kept (v : Reg) (s : State) : (lscCfg v s).kept = s.kept := by rfl

@[simp] theorem planRefuse_kept (s : State) (src : Src) (c : Ctx) : (planRefuse s src c).kept = s.kept := by rfl

@[simp] theorem planAccept_kept (s : State) (c : Ctx) : (planAccept s c).kept = s.kept := by rfl

@[simp] theorem planNext_kept (s : State) : (planNext s).kept = s.kept := by
  unfold planNext; split <;> simp

@[simp] theorem planRequeue_kept (s : State) : (planRequeue s).kept = s.kept := by
  unfold planRequeue; split <;> simp

@[simp] theorem loadCmd_kept (src : Src) (c : Ctx) (s : State) : (loadCmd src c s).kept = s.kept := by simp [loadCmd]

@[simp] theorem cancelCmd_kept (src : Src) (c : Ctx) (s : State) : (cancelCmd src c s).kept = s.kept := by
  unfold cancelCmd; split <;> simp

@[simp] theorem unloadCmd_kept (src : Src) (c : Ctx) (s : State) : (unloadCmd src c s).kept = s.kept := by simp [unloadCmd]

@[simp] theorem planCtrl_kept (src : Src) (c : Ctx) (v : Reg) (s : State) : (planCtrl src c v s).kept = s.kept := by simp [planCtrl]

@[simp] theorem execLoad_kept (src : Src) (c : Ctx) (s : State) : Keeps s (execLoad src c s) := by simp [execLoad]

@[simp] theorem execCancel_kept (src : Src) (c : Ctx) (s : State) : Keeps s (execCancel src c s) := by simp [execCancel]

@[simp] theorem execUnload_kept (src : Src) (c : Ctx) (s : State) : Keeps s (execUnload src c s) := by simp [execUnload]

@[simp] theorem refuseLoad_kept (s : State) (c : Ctx) (x : PlanBad) (atApp : Bool) : (refuseLoad s c x atApp).kept = s.kept := by rfl

@[simp] theorem distSend_kept (b : List Byte) (targets : List UnitId) (s : State) (d : Dist) :
    (distSend b targets s d).1.kept = s.kept := by
  unfold distSend; split <;> simp

@[simp] theorem State.putDist_kept (s : State) (d : Dist) : (State.putDist s d).kept = s.kept := by rfl

@[simp] theorem takeFlit_kept (s : State) (c : Ctx) (p : Plan) (d : Dist) (target : UnitId) (sec_ : BitVec 16) :
    (takeFlit s c p d target sec_).kept = s.kept := by simp [takeFlit]

@[simp] theorem execPlanDist_kept (target : UnitId) (c : Ctx) (section_ : BitVec 16) (offset : Nat) (data : BitVec 64) (s : State) :
    Keeps s (execPlanDist target c section_ s offset data) := by
  unfold execPlanDist
  repeat' first | (simp; done) | intro _ | with_reducible refine (State.each_kept _ _ _ ?_).trans ?_ | simp | split

@[simp] theorem sendKey_kept (s : State) (c : Ctx) (p : Plan) : (sendKey s c p).kept = s.kept := by
  unfold sendKey; split <;> simp

@[simp] theorem finishDist_kept (s : State) (c : Ctx) : (finishDist s c).kept = s.kept := by
  unfold finishDist
  repeat' first | (simp; done) | intro _ | with_reducible refine (State.each_kept _ _ _ ?_).trans ?_ | simp | split

@[simp] theorem forgetExecutions_kept (s : State) (c : Ctx) : (forgetExecutions s c).kept = s.kept := by simp [forgetExecutions]

@[simp] theorem switchPlan_kept (s : State) (c : Ctx) (p : Plan) : (switchPlan s c p).kept = s.kept := by simp [switchPlan]

@[simp] theorem execPlanSwitch_kept (c : Ctx) (s : State) : Keeps s (execPlanSwitch c s) := by
  unfold execPlanSwitch; repeat' (first | (simp; done) | split)

@[simp] theorem unloadPlan_kept (s : State) (c : Ctx) : (unloadPlan s c).kept = s.kept := by simp [unloadPlan]

@[simp] theorem execPlanUnloaded_kept (c : Ctx) (s : State) : Keeps s (execPlanUnloaded c s) := by simp [execPlanUnloaded]

end Sys2Proof.Machine
end

