-- ==== Sys2Proof/Laws/KeptEngine.lean ====
section
/-! SUPPORT. Screening, thermal guard, firmware, boundary and power: what they leave alone (`State.kept`), one lemma for each definition. -/

-- One proof at a time: the package is also compiled as one text, and proofs in parallel would need more memory than the check allows.
set_option Elab.async false

namespace Sys2Proof.Machine

@[simp] theorem beginPattern_kept (s : State) (u : UnitId) (pattern : BitVec 16) (field held : Bool) :
    (beginPattern s u pattern field held).kept = s.kept := by rfl

@[simp] theorem beginSlot_kept (s : State) (a : Arr) (c : Ctx) (y : PatternAt) : (beginSlot s a c y).kept = s.kept := by simp [beginSlot]

@[simp] theorem execScreenPatternStart_kept (unit : UnitId) (slot : Bool) (s : State) : Keeps s (execScreenPatternStart unit slot s) := by
  unfold execScreenPatternStart; repeat' (first | (simp; done) | split)

@[simp] theorem patternPass_kept (s : State) (q : Pattern) : (patternPass s q).kept = s.kept := by
  unfold patternPass
  repeat' first | (simp; done) | intro _ | with_reducible refine (State.each_kept _ _ _ ?_).trans ?_ | simp | split

@[simp] theorem exposureRecords_kept (s : State) (unit : UnitId) (pattern : BitVec 16) :
    (exposureRecords s unit pattern).kept = s.kept := by rfl

@[simp] theorem patternFail_kept (s : State) (q : Pattern) (misr : BitVec 128) :
    (patternFail s q misr).kept = s.kept := by simp [patternFail]

@[simp] theorem judgePattern_kept (s : State) (e : Pattern × BitVec 128 × BitVec 32) : (judgePattern s e).kept = s.kept := by
  unfold judgePattern
  repeat' first | (simp; done) | intro _ | with_reducible refine (State.each_kept _ _ _ ?_).trans ?_ | simp | split

@[simp] theorem judgeEnded_kept (s : State) : (judgeEnded s).kept = s.kept := by
  unfold judgeEnded
  repeat' first | (simp; done) | intro _ | with_reducible refine (State.each_kept _ _ _ ?_).trans ?_ | simp | split

@[simp] theorem execScreenPatternEnd_kept (unit : UnitId) (misr : BitVec 128) (cycles : BitVec 32) (s : State) :
    Keeps s (execScreenPatternEnd unit misr cycles s) := by
  unfold execScreenPatternEnd
  repeat' first | (simp; done) | intro _ | with_reducible refine (State.each_kept _ _ _ ?_).trans ?_ | simp | split

@[simp] theorem execScreenRotationLate_kept (unit : UnitId) (s : State) : Keeps s (execScreenRotationLate unit s) := by
  unfold execScreenRotationLate
  repeat' first | (simp; done) | intro _ | with_reducible refine (State.each_kept _ _ _ ?_).trans ?_ | simp | split

@[simp] theorem testNowCmd_kept (src : Src) (s : State) : (testNowCmd src s).kept = s.kept := by simp [testNowCmd]

@[simp] theorem scrCtrl_kept (src : Src) (v : Reg) (s : State) : (scrCtrl src v s).kept = s.kept := by simp [scrCtrl]

@[simp] theorem execTestNow_kept (src : Src) (s : State) : Keeps s (execTestNow src s) := by simp [execTestNow]

@[simp] theorem scrUnitSel_kept (v : Reg) (s : State) : (scrUnitSel v s).kept = s.kept := by rfl

@[simp] theorem execScrUnitSelWrite_kept (src : Src) (v : Reg) (s : State) : Keeps s (execScrUnitSelWrite src v s) := by
  unfold execScrUnitSelWrite
  first
  | (simp; done)
  | with_reducible rfl
  | (repeat' (first | (simp; done) | (intro _) | (with_reducible refine (State.each_kept _ _ _ ?_).trans ?_) | (with_reducible refine State.each_kept _ _ _ ?_) | simp | split))

@[simp] theorem execScrUnitInfoReady_kept (s : State) : Keeps s (execScrUnitInfoReady s) := ⟨_, rfl, rfl⟩

@[simp] theorem scrCfg_kept (v : Reg) (s : State) : (scrCfg v s).kept = s.kept := by rfl

@[simp] theorem thermalEvent_kept (s : State) (e : Ev) : (thermalEvent s e).kept = s.kept := by simp [thermalEvent]

@[simp] theorem thermalStop_kept (s : State) (unit : UnitId) (cause : BitVec 16) (reading : BitVec 16) :
    (thermalStop s unit cause reading).kept = s.kept := by
  unfold thermalStop
  repeat' first | (simp; done) | intro _ | with_reducible refine (State.each_kept _ _ _ ?_).trans ?_ | simp | split

@[simp] theorem sensorFail_kept (s : State) (n : Sensor) (st : SensorState) (cause reading : BitVec 16) :
    (sensorFail s n st cause reading).kept = s.kept := by rfl

@[simp] theorem recoverySample_kept (s : State) (n : Sensor) (ok : Bool) (r : BitVec 16) :
    (recoverySample s n ok r).kept = s.kept := by
  unfold recoverySample
  repeat' first | (simp; done) | intro _ | with_reducible refine (State.each_kept _ _ _ ?_).trans ?_ | simp | split

@[simp] theorem referenceSample_kept (s : State) (n : Sensor) (x : Sample) (diff : BitVec 16) :
    (referenceSample s n x diff).kept = s.kept := by
  unfold referenceSample
  repeat' first | (simp; done) | intro _ | with_reducible refine (State.each_kept _ _ _ ?_).trans ?_ | simp | split

@[simp] theorem liveSample_kept (s : State) (n : Sensor) (r : BitVec 16) : (liveSample s n r).kept = s.kept := by
  unfold liveSample
  repeat' first | (simp; done) | intro _ | with_reducible refine (State.each_kept _ _ _ ?_).trans ?_ | simp | split

@[simp] theorem temperatureSample_kept (s : State) (n : Sensor) (x : Sample) : (temperatureSample s n x).kept = s.kept := by
  unfold temperatureSample
  repeat' first | (simp; done) | intro _ | with_reducible refine (State.each_kept _ _ _ ?_).trans ?_ | simp | split

@[simp] theorem sentinelSample_kept (s : State) (n : Sensor) (x : Sample) : (sentinelSample s n x).kept = s.kept := by
  unfold sentinelSample
  repeat' first | (simp; done) | intro _ | with_reducible refine (State.each_kept _ _ _ ?_).trans ?_ | simp | split

@[simp] theorem compareHot_kept (s : State) (n : Sensor) (x : Sample) : (compareHot s n x).kept = s.kept := by
  unfold compareHot
  repeat' first | (simp; done) | intro _ | with_reducible refine (State.each_kept _ _ _ ?_).trans ?_ | simp | split

@[simp] theorem execSensorSample_kept (n : Sensor) (x : Sample) (s : State) : Keeps s (execSensorSample n x s) := by
  unfold execSensorSample
  repeat' first | (simp; done) | intro _ | with_reducible refine (State.each_kept _ _ _ ?_).trans ?_ | simp | split

@[simp] theorem setM_kept (s : State) (tEff : Int) : (setM s tEff).kept = s.kept := by
  unfold setM
  repeat' first | (simp; done) | intro _ | with_reducible refine (State.each_kept _ _ _ ?_).trans ?_ | simp | split

@[simp] theorem compensate_kept (s : State) : (compensate s).kept = s.kept := by
  unfold compensate
  repeat' first | (simp; done) | intro _ | with_reducible refine (State.each_kept _ _ _ ?_).trans ?_ | simp | split

@[simp] theorem execCompensationUpdate_kept (s : State) : Keeps s (execCompensationUpdate s) := by simp [execCompensationUpdate]

@[simp] theorem execThrottleUpdate_kept (s : State) : Keeps s (execThrottleUpdate s) := by
  unfold execThrottleUpdate
  repeat' first | (simp; done) | intro _ | with_reducible refine (State.each_kept _ _ _ ?_).trans ?_ | simp | split

@[simp] theorem execClockStretch_kept (steps : Fin 17) (monitor : BitVec 32) (s : State) : Keeps s (execClockStretch steps monitor s) := by
  unfold execClockStretch
  repeat' first | (simp; done) | intro _ | with_reducible refine (State.each_kept _ _ _ ?_).trans ?_ | simp | split

@[simp] theorem execClockStretchEnd_kept (monitor : BitVec 32) (s : State) : Keeps s (execClockStretchEnd s monitor) := ⟨_, rfl, rfl⟩

@[simp] theorem execMarginViolationTimeout_kept (s : State) : Keeps s (execMarginViolationTimeout s) := by simp [execMarginViolationTimeout]

@[simp] theorem tripFault_kept (s : State) (e : Ev) : (tripFault s e).kept = s.kept := by simp [tripFault]

@[simp] theorem execThermalTrip_kept (n : Sensor) (s : State) : Keeps s (execThermalTrip n s) := by
  unfold execThermalTrip
  repeat' first | (simp; done) | intro _ | with_reducible refine (State.each_kept _ _ _ ?_).trans ?_ | simp | split

@[simp] theorem thermalConfig_kept (src : Src) (v : Reg) (s : State) : (thermalConfig src v s).kept = s.kept := by
  unfold thermalConfig
  repeat' first | (simp; done) | intro _ | with_reducible refine (State.each_kept _ _ _ ?_).trans ?_ | simp | split

@[simp] theorem execThermalConfig_kept (src : Src) (v : Reg) (s : State) :
    Keeps s (execThermalConfig src v s) := by simp [execThermalConfig]

@[simp] theorem sensorSel_kept (v : Reg) (s : State) : (sensorSel v s).kept = s.kept := by rfl

@[simp] theorem execThmSensorSelWrite_kept (src : Src) (v : Reg) (s : State) : Keeps s (execThmSensorSelWrite src v s) := by
  unfold execThmSensorSelWrite
  first
  | (simp; done)
  | with_reducible rfl
  | (repeat' (first | (simp; done) | (intro _) | (with_reducible refine (State.each_kept _ _ _ ?_).trans ?_) | (with_reducible refine State.each_kept _ _ _ ?_) | simp | split))

@[simp] theorem execSensorInfoReady_kept (s : State) : Keeps s (execSensorInfoReady s) := ⟨_, rfl, rfl⟩

@[simp] theorem traceAs_kept (s : State) (p : Proc) (point : Nat) (c : Option Ctx) (arg : BitVec 32) :
    (traceAs s p point c arg).kept = s.kept := by simp [traceAs]

@[simp] theorem tracePoint_kept (s : State) (p : Proc) (point : Nat) : (tracePoint s p point).kept = s.kept := by simp [tracePoint]

@[simp] theorem closeChan_kept (p : Proc) (s : State) (c : Chan) : (closeChan p s c).kept = s.kept := by
  unfold closeChan
  repeat' first | (simp; done) | intro _ | with_reducible refine (State.each_kept _ _ _ ?_).trans ?_ | simp | split

@[simp] theorem closeChans_kept (s : State) (p : Proc) : (closeChans s p).kept = s.kept := by
  unfold closeChans
  repeat' first | (simp; done) | intro _ | with_reducible refine (State.each_kept _ _ _ ?_).trans ?_ | simp | split

@[simp] theorem postResponse_kept (s : State) (p : Proc) (side : Fin 2) (rsp : MboxRegs) :
    (postResponse s p side rsp).kept = s.kept := by simp [postResponse]

@[simp] theorem answerFailed_kept (s : State) (p : Proc) (side : Fin 2) : (answerFailed s p side).kept = s.kept := by simp [answerFailed]

@[simp] theorem closeOwnRecord_kept (s : State) (p : Proc) : (closeOwnRecord s p).kept = s.kept := by
  unfold closeOwnRecord; split <;> simp

@[simp] theorem reachRun_kept (s : State) (p : Proc) : (reachRun s p).kept = s.kept := by
  unfold reachRun
  repeat' first | (simp; done) | intro _ | with_reducible refine (State.each_kept _ _ _ ?_).trans ?_ | simp | split

@[simp] theorem latchRelease_kept (s : State) (p : Proc) : (latchRelease s p).kept = s.kept := by simp [latchRelease]

@[simp] theorem execRecentRestartExpiry_kept (p : Proc) (s : State) : Keeps s (execRecentRestartExpiry p s) := ⟨_, rfl, rfl⟩

@[simp] theorem fwpLoadCtrl_kept (src : Src) (v : Reg) (s : State) : (fwpLoadCtrl src v s).kept = s.kept := by
  unfold fwpLoadCtrl
  repeat' first | (simp; done) | intro _ | with_reducible refine (State.each_kept _ _ _ ?_).trans ?_ | simp | split

@[simp] theorem execFwpLoadGo_kept (src : Src) (v : Reg) (s : State) : Keeps s (execFwpLoadGo src v s) := by simp [execFwpLoadGo]

@[simp] theorem keepState_kept (s : State) (p : Proc) : (keepState s p).kept = s.kept := by
  unfold keepState
  repeat' first | (simp; done) | intro _ | with_reducible refine (State.each_kept _ _ _ ?_).trans ?_ | simp | split

@[simp] theorem startImage_kept (b : List Byte) (s : State) (p : Proc) : (startImage b s p).kept = s.kept := by
  unfold startImage
  repeat' first | (simp; done) | intro _ | with_reducible refine (State.each_kept _ _ _ ?_).trans ?_ | simp | split

@[simp] theorem mbxRing_kept (src : Src) (m : Fin 12) (s : State) : (mbxRing src m s).kept = s.kept := by simp [mbxRing]

@[simp] theorem execMbxRing_kept (src : Src) (p : Proc) (side : Fin 2) (s : State) :
    Keeps s (execMbxRing src p side s) := by simp [execMbxRing]

@[simp] theorem execMbxTimeout_kept (p : Proc) (side : Fin 2) (s : State) : Keeps s (execMbxTimeout p side s) := by
  unfold execMbxTimeout
  repeat' first | (simp; done) | intro _ | with_reducible refine (State.each_kept _ _ _ ?_).trans ?_ | simp | split

@[simp] theorem badRequest_kept (s : State) (p : Proc) (side : Fin 2) (q : Request) (status : Nat) :
    (badRequest s p side q status).state.kept = s.kept := by rfl

@[simp] theorem answerHello_kept (s : State) (p : Proc) (side : Fin 2) (q : Request) :
    (answerHello s p side q).state.kept = s.kept := by simp [answerHello]

@[simp] theorem refuseHello_kept (s : State) (p : Proc) (side : Fin 2) (q : Request) : (refuseHello s p side q).state.kept = s.kept := by rfl

@[simp] theorem answerStatus_kept (s : State) (p : Proc) : (answerStatus s p).state.kept = s.kept := by rfl

@[simp] theorem answerQueue_kept (s : State) (p : Proc) (side : Fin 2) (q : Request) : (answerQueue s p side q).state.kept = s.kept := by
  unfold answerQueue; split <;> simp

@[simp] theorem answerName_kept (s : State) (p : Proc) (side : Fin 2) (q : Request) : (answerName s p side q).state.kept = s.kept := by
  unfold answerName
  repeat' first | (simp; done) | intro _ | with_reducible refine (State.each_kept _ _ _ ?_).trans ?_ | simp | split

@[simp] theorem carryOut_kept (s : State) (p : Proc) (side : Fin 2) (q : Request) : (carryOut s p side q).state.kept = s.kept := by
  unfold carryOut
  repeat' first | (simp; done) | intro _ | with_reducible refine (State.each_kept _ _ _ ?_).trans ?_ | simp | split

@[simp] theorem serveRequest_kept (s : State) (p : Proc) (side : Fin 2) (q : Request) : (serveRequest s p side q).kept = s.kept := by
  unfold serveRequest
  repeat' first | (simp; done) | intro _ | with_reducible refine (State.each_kept _ _ _ ?_).trans ?_ | simp | split

@[simp] theorem serveOpcode_kept (opcode : Nat) (p : Proc) (side : Fin 2) (s : State) :
    (serveOpcode opcode p side s).kept = s.kept := by simp [serveOpcode]

@[simp] theorem State.returns_kept (s : State) (p : Proc) (r : ChanResult) : (State.returns s p r).kept = s.kept := by rfl

@[simp] theorem openChan_kept (s : State) (p : Proc) (ch : Chan) (receiver : Proc) (priority : BitVec 2) :
    (openChan s p ch receiver priority).kept = s.kept := by rfl

@[simp] theorem execOpen_kept (p : Proc) (ch : Chan) (receiver : Proc) (priority : BitVec 2) (s : State) :
    Keeps s (execOpen p ch receiver priority s) := by
  unfold execOpen
  repeat' first | (simp; done) | intro _ | with_reducible refine (State.each_kept _ _ _ ?_).trans ?_ | simp | split

@[simp] theorem endSendWait_kept (s : State) (q : Proc) (c : Chan) (r : ChanResult) : (endSendWait s q c r).kept = s.kept := by rfl

@[simp] theorem endCycleWait_kept (s : State) (x : Proc × Chan) : (endCycleWait s x).kept = s.kept := by simp [endCycleWait]

@[simp] theorem wakeReceiver_kept (s : State) (q : Proc) : (wakeReceiver s q).kept = s.kept := by
  unfold wakeReceiver; repeat' (first | (simp; done) | split)

@[simp] theorem execSend_kept (p : Proc) (ch : Chan) (e : ChanEntry) (s : State) : Keeps s (execSend p ch e s) := by
  unfold execSend
  repeat' first | (simp; done) | intro _ | with_reducible refine (State.each_kept _ _ _ ?_).trans ?_ | simp | split

@[simp] theorem execWaitSend_kept (p : Proc) (ch : Chan) (any : Bool) (s : State) : Keeps s (execWaitSend p ch any s) := by
  unfold execWaitSend
  repeat' first | (simp; done) | intro _ | with_reducible refine (State.each_kept _ _ _ ?_).trans ?_ | simp | split

@[simp] theorem wakeSender_kept (s : State) (c : Chan) : (wakeSender s c).kept = s.kept := by
  unfold wakeSender; split <;> simp

@[simp] theorem execRecv_kept (p : Proc) (s : State) : Keeps s (execRecv p s) := by
  unfold execRecv
  repeat' first | (simp; done) | intro _ | with_reducible refine (State.each_kept _ _ _ ?_).trans ?_ | simp | split

@[simp] theorem execWaitRecv_kept (p : Proc) (s : State) : Keeps s (execWaitRecv p s) := by
  unfold execWaitRecv; repeat' (first | (simp; done) | split)

@[simp] theorem execClose_kept (p : Proc) (ch : Chan) (s : State) : Keeps s (execClose p ch s) := by
  unfold execClose
  repeat' first | (simp; done) | intro _ | with_reducible refine (State.each_kept _ _ _ ?_).trans ?_ | simp | split

@[simp] theorem execStrapSample_kept (pins : BitVec 4) (s : State) : Keeps s (execStrapSample pins s) := by simp [execStrapSample]

@[simp] theorem execSentinelReady_kept (s : State) (checks : Bool) : Keeps s (execSentinelReady s checks) := by
  unfold execSentinelReady
  repeat' first | (simp; done) | intro _ | with_reducible refine (State.each_kept _ _ _ ?_).trans ?_ | simp | split

@[simp] theorem execRefclkFallback_kept (s : State) : Keeps s (execRefclkFallback s) := by
  unfold execRefclkFallback
  repeat' first | (simp; done) | intro _ | with_reducible refine (State.each_kept _ _ _ ?_).trans ?_ | simp | split

@[simp] theorem execRefclkRestored_kept (s : State) : Keeps s (execRefclkRestored s) := by simp [execRefclkRestored]

@[simp] theorem execPowerLoss_kept (main mem io : Bool) (s : State) : Keeps s (execPowerLoss main mem io s) := by
  unfold execPowerLoss; repeat' (first | (simp; done) | split)

@[simp] theorem beginBringup_kept (s : State) (cause : BitVec 32) : (beginBringup s cause).kept = s.kept := by simp [beginBringup]

@[simp] theorem returnFromLoss_kept (s : State) : (returnFromLoss s).kept = s.kept := by simp [returnFromLoss]

@[simp] theorem execPowerGoodReturn_kept (s : State) (main mem io : Bool) : Keeps s (execPowerGoodReturn s main mem io) := by
  unfold execPowerGoodReturn; split <;> simp

@[simp] theorem tripRelease_kept (s : State) : (tripRelease s).kept = s.kept := by simp [tripRelease]

@[simp] theorem execTripRelease_kept (s : State) : Keeps s (execTripRelease s) := by simp [execTripRelease]

@[simp] theorem tripStatus_kept (s : State) : (tripStatus s).kept = s.kept := by rfl

@[simp] theorem execTripStatus_kept (s : State) : Keeps s (execTripStatus s) := by
  unfold execTripStatus
  first
  | (simp; done)
  | with_reducible rfl
  | (repeat' (first | (simp; done) | (intro _) | (with_reducible refine (State.each_kept _ _ _ ?_).trans ?_) | (with_reducible refine State.each_kept _ _ _ ?_) | simp | split))

@[simp] theorem execI3cDaa_kept (how : Daa) (s : State) : Keeps s (execI3cDaa how s) := by
  unfold execI3cDaa; repeat' (first | (simp; done) | split)

@[simp] theorem execI3cHdrEntry_kept (s : State) : Keeps s (execI3cHdrEntry s) := by simp [execI3cHdrEntry]

@[simp] theorem execI3cHdrExit_kept (s : State) : Keeps s (execI3cHdrExit s) := ⟨_, rfl, rfl⟩

@[simp] theorem applyHist_kept (live : Bool) (s : State) (r : HistRec) : (applyHist live s r).kept = s.kept := by simp [applyHist]

@[simp] theorem rebuildHistory_kept (s : State) : (rebuildHistory s).kept = s.kept := by
  unfold rebuildHistory
  repeat' first | (simp; done) | intro _ | with_reducible refine (State.each_kept _ _ _ ?_).trans ?_ | simp | split

@[simp] theorem applyRetired_kept (s : State) : (applyRetired s).kept = s.kept := by
  unfold applyRetired
  repeat' first | (simp; done) | intro _ | with_reducible refine (State.each_kept _ _ _ ?_).trans ?_ | simp | split

@[simp] theorem loadItems_kept (s : State) : (loadItems s).kept = s.kept := by rfl

@[simp] theorem numberQueue_kept (s : State) : (numberQueue s).kept = s.kept := by simp [numberQueue]

@[simp] theorem readFlags_kept (s : State) : (readFlags s).kept = s.kept := by simp [readFlags]

@[simp] theorem recordStep_kept (s : State) (n : Nat) (path : BitVec 2) (us : Nat) : (recordStep s n path us).kept = s.kept := by rfl

@[simp] theorem toStep_kept (s : State) (n : BitVec 3) : (toStep s n).kept = s.kept := by rfl

@[simp] theorem endStep1_kept (x : StepReport) (s : State) : (endStep1 x s).kept = s.kept := by simp [endStep1]

@[simp] theorem State.spoiled_kept (s : State) : s.spoiled.2.kept = s.kept := by simp [State.spoiled]

@[simp] theorem confBad_kept (s : State) (bad : List (Nat × BitVec 32)) : (confBad s bad).kept = s.kept := by
  unfold confBad
  repeat' first | (simp; done) | intro _ | with_reducible refine (State.each_kept _ _ _ ?_).trans ?_ | simp | split

@[simp] theorem histBad_kept (s : State) (bad : List (Nat × BitVec 32)) : (histBad s bad).kept = s.kept := by
  unfold histBad
  repeat' first | (simp; done) | intro _ | with_reducible refine (State.each_kept _ _ _ ?_).trans ?_ | simp | split

@[simp] theorem endStep2_kept (x : StepReport) (s : State) : (endStep2 x s).kept = s.kept := by
  unfold endStep2
  repeat' first | (simp; done) | intro _ | with_reducible refine (State.each_kept _ _ _ ?_).trans ?_ | simp | split

@[simp] theorem declareFailed_kept (s : State) (us : List UnitId) : (declareFailed s us).kept = s.kept := by
  unfold declareFailed
  repeat' first | (simp; done) | intro _ | with_reducible refine (State.each_kept _ _ _ ?_).trans ?_ | simp | split

@[simp] theorem refFailed_kept (s : State) (n : Sensor) : (refFailed s n).kept = s.kept := by simp [refFailed]

@[simp] theorem endStep3_kept (x : StepReport) (s : State) : (endStep3 x s).kept = s.kept := by
  unfold endStep3
  repeat' first | (simp; done) | intro _ | with_reducible refine (State.each_kept _ _ _ ?_).trans ?_ | simp | split

@[simp] theorem portReady_kept (s : State) (g : Gtu) : (portReady s g).kept = s.kept := by simp [portReady]

@[simp] theorem trainLink_kept (s : State) (x : Lnk × Trained) : (trainLink s x).kept = s.kept := by simp [trainLink]

@[simp] theorem reapplySpare_kept (s : State) (a : Arr) : (reapplySpare s a).kept = s.kept := by simp [reapplySpare]

@[simp] theorem reapplyArray_kept (s : State) (a : Arr) : (reapplyArray s a).kept = s.kept := by
  unfold reapplyArray; split <;> simp

@[simp] theorem reapplySlice_kept (s : State) (n : Slice) : (reapplySlice s n).kept = s.kept := by
  unfold reapplySlice; split <;> simp

@[simp] theorem reapply_kept (s : State) : (reapply s).kept = s.kept := by
  unfold reapply
  repeat' first | (simp; done) | intro _ | with_reducible refine (State.each_kept _ _ _ ?_).trans ?_ | simp | split

@[simp] theorem endStep5_kept (x : StepReport) (s : State) : (endStep5 x s).kept = s.kept := by
  unfold endStep5
  repeat' first | (simp; done) | intro _ | with_reducible refine (State.each_kept _ _ _ ?_).trans ?_ | simp | split

@[simp] theorem kaPattern_kept (s : State) (u : UnitId) : (kaPattern s u).2.kept = s.kept := by
  unfold kaPattern; split <;> simp

@[simp] theorem ranBringup_kept (s : State) (u : UnitId) (tick : BitVec 64) (pass : Bool) : (ranBringup s u tick pass).kept = s.kept := by rfl

@[simp] theorem showRun_kept (s : State) (u : UnitId) (r : KaRun) : (showRun s u r).kept = s.kept := by
  unfold showRun
  repeat' first | (simp; done) | intro _ | with_reducible refine (State.each_kept _ _ _ ?_).trans ?_ | simp | split

@[simp] theorem kaJudge_kept (s : State) (x : KaUnit) : (kaJudge s x).kept = s.kept := by
  unfold kaJudge
  repeat' first | (simp; done) | intro _ | with_reducible refine (State.each_kept _ _ _ ?_).trans ?_ | simp | split

@[simp] theorem unitPassed_kept (x : StepReport) (s : State) (u : UnitId) : (unitPassed x s u).kept = s.kept := by
  unfold unitPassed
  repeat' first | (simp; done) | intro _ | with_reducible refine (State.each_kept _ _ _ ?_).trans ?_ | simp | split

@[simp] theorem becomeReady_kept (s : State) : (becomeReady s).kept = s.kept := by
  unfold becomeReady
  repeat' first | (simp; done) | intro _ | with_reducible refine (State.each_kept _ _ _ ?_).trans ?_ | simp | split

@[simp] theorem allRoles_kept (s : State) : (allRoles s).kept = s.kept := by
  unfold allRoles
  repeat' first | (simp; done) | intro _ | with_reducible refine (State.each_kept _ _ _ ?_).trans ?_ | simp | split

@[simp] theorem leaveStep6_kept (x : StepReport) (s : State) : (leaveStep6 x s).kept = s.kept := by
  unfold leaveStep6
  repeat' first | (simp; done) | intro _ | with_reducible refine (State.each_kept _ _ _ ?_).trans ?_ | simp | split

@[simp] theorem endStep6_kept (x : StepReport) (s : State) : (endStep6 x s).kept = s.kept := by
  unfold endStep6
  repeat' first | (simp; done) | intro _ | with_reducible refine (State.each_kept _ _ _ ?_).trans ?_ | simp | split

@[simp] theorem endStep7_kept (s : State) : (endStep7 s).kept = s.kept := by simp [endStep7]

@[simp] theorem beginShutdown_kept (s : State) (target : BitVec 4) : (beginShutdown s target).kept = s.kept := by
  unfold beginShutdown
  repeat' first | (simp; done) | intro _ | with_reducible refine (State.each_kept _ _ _ ?_).trans ?_ | simp | split

@[simp] theorem execShutdownStopTimeout_kept (c : Ctx) (s : State) :
    Keeps s (execShutdownStopTimeout c s) := by simp [execShutdownStopTimeout]

@[simp] theorem applyWhole_kept (s : State) (chip : Bool) : (applyWhole s chip).kept = s.kept := by simp [applyWhole]

@[simp] theorem finishShutdown_kept (s : State) (d : Shutdown) (ran : Bool) :
    (finishShutdown s d ran).kept = s.kept := by simp [finishShutdown]

@[simp] theorem execShutdownSelftestStart_kept (s : State) : Keeps s (execShutdownSelftestStart s) := by
  unfold execShutdownSelftestStart
  repeat' first | (simp; done) | intro _ | with_reducible refine (State.each_kept _ _ _ ?_).trans ?_ | simp | split

@[simp] theorem execShutdownSelftestEnd_kept (items : List TestItem) (s : State) : Keeps s (execShutdownSelftestEnd items s) := by
  unfold execShutdownSelftestEnd
  repeat' first | (simp; done) | intro _ | with_reducible refine (State.each_kept _ _ _ ?_).trans ?_ | simp | split

@[simp] theorem pwrRefuse_kept (s : State) (src : Src) : (pwrRefuse s src).kept = s.kept := by rfl

@[simp] theorem goCmd_kept (src : Src) (s : State) : (goCmd src s).kept = s.kept := by
  unfold goCmd; repeat' (first | (simp; done) | split)

@[simp] theorem shutdownCmd_kept (src : Src) (s : State) : (shutdownCmd src s).kept = s.kept := by simp [shutdownCmd]

@[simp] theorem pwrCtrl_kept (src : Src) (v : Reg) (s : State) : (pwrCtrl src v s).kept = s.kept := by simp [pwrCtrl]

@[simp] theorem execPowerStateGo_kept (src : Src) (v : Reg) (s : State) : Keeps s (execPowerStateGo src v s) := by simp [execPowerStateGo]

@[simp] theorem execShutdown_kept (src : Src) (v : Reg) (s : State) : Keeps s (execShutdown src v s) := by simp [execShutdown]

@[simp] theorem resetRefuse_kept (s : State) (src : Src) : (resetRefuse s src).kept = s.kept := by rfl

@[simp] theorem beginReset_kept (s : State) (d : BitVec 4) (i : BitVec 12) : (beginReset s d i).kept = s.kept := by
  unfold beginReset; repeat' (first | (simp; done) | split)

@[simp] theorem pwrReset_kept (src : Src) (v : Reg) (s : State) : (pwrReset src v s).kept = s.kept := by simp [pwrReset]

@[simp] theorem execResetGo_kept (src : Src) (v : Reg) (s : State) : Keeps s (execResetGo src v s) := by simp [execResetGo]

@[simp] theorem stopClocks_kept (s : State) (j : ResetJob) : (stopClocks s j).kept = s.kept := by rfl

@[simp] theorem startClocks_kept (s : State) (j : ResetJob) : (startClocks s j).kept = s.kept := by rfl

@[simp] theorem downDie_kept (s : State) (k : Nat) : (downDie s k).kept = s.kept := by
  unfold downDie
  repeat' first | (simp; done) | intro _ | with_reducible refine (State.each_kept _ _ _ ?_).trans ?_ | simp | split

@[simp] theorem absorbAccess_kept (s : State) (w : XingWait) : (absorbAccess s w).kept = s.kept := by simp [absorbAccess]

@[simp] theorem absorbAccesses_kept (s : State) (j : ResetJob) : (absorbAccesses s j).kept = s.kept := by
  unfold absorbAccesses
  repeat' first | (simp; done) | intro _ | with_reducible refine (State.each_kept _ _ _ ?_).trans ?_ | simp | split

@[simp] theorem execResetDrainTimeout_kept (items : Nat) (s : State) : Keeps s (execResetDrainTimeout items s) := by
  unfold execResetDrainTimeout
  repeat' first | (simp; done) | intro _ | with_reducible refine (State.each_kept _ _ _ ?_).trans ?_ | simp | split

@[simp] theorem freshRow_kept (s : State) (r : Row) : (freshRow s r).kept = s.kept := by
  unfold freshRow
  repeat' first | (simp; done) | intro _ | with_reducible refine (State.each_kept _ _ _ ?_).trans ?_ | simp | split

@[simp] theorem endDie_kept (s : State) (k : Nat) : (endDie s k).kept = s.kept := by
  unfold endDie
  repeat' first | (simp; done) | intro _ | with_reducible refine (State.each_kept _ _ _ ?_).trans ?_ | simp | split

end Sys2Proof.Machine
end

