-- ==== Sys2Proof/Laws/KeptRegs.lean ====
section
/-! SUPPORT. Register accesses and the management port: what they leave alone (`State.kept`), one lemma for each definition. -/

-- One proof at a time: the package is also compiled as one text, and proofs in parallel would need more memory than the check allows.
set_option Elab.async false

namespace Sys2Proof.Machine

@[simp] theorem irqClear_kept (mask setNow : BitVec 8) (s : State) : (irqClear mask setNow s).kept = s.kept := by rfl

@[simp] theorem irqEnableSet_kept (v : BitVec 8) (s : State) : (irqEnableSet v s).kept = s.kept := by rfl

@[simp] theorem xingClear_kept (s : State) : (xingClear s).kept = s.kept := by rfl

@[simp] theorem sliceCtrl_kept (src : Src) (n : Slice) (v : Reg) (s : State) : (sliceCtrl src n v s).kept = s.kept := by simp [sliceCtrl]

@[simp] theorem wdtWrite_kept (p : Proc) (v : Reg) (s : State) : (wdtWrite p v s).kept = s.kept := by rfl

@[simp] theorem execXingTimeoutClear_kept (src : Src) (s : State) : Keeps s (execXingTimeoutClear src s) := by
  unfold execXingTimeoutClear
  first
  | (simp; done)
  | with_reducible rfl
  | (repeat' (first | (simp; done) | (intro _) | (with_reducible refine (State.each_kept _ _ _ ?_).trans ?_) | (with_reducible refine State.each_kept _ _ _ ?_) | simp | split))

@[simp] theorem execIrqStatusClear_kept (src : Src) (mask : Reg) (setNow : BitVec 8) (s : State) :
    Keeps s (execIrqStatusClear src mask setNow s) := by
  unfold execIrqStatusClear
  first
  | (simp; done)
  | with_reducible rfl
  | (repeat' (first | (simp; done) | (intro _) | (with_reducible refine (State.each_kept _ _ _ ?_).trans ?_) | (with_reducible refine State.each_kept _ _ _ ?_) | simp | split))

@[simp] theorem execIrqEnableWrite_kept (src : Src) (v : Reg) (s : State) : Keeps s (execIrqEnableWrite src v s) := by
  unfold execIrqEnableWrite
  first
  | (simp; done)
  | with_reducible rfl
  | (repeat' (first | (simp; done) | (intro _) | (with_reducible refine (State.each_kept _ _ _ ?_).trans ?_) | (with_reducible refine State.each_kept _ _ _ ?_) | simp | split))

@[simp] theorem execRegTimeout_kept (s : State) : Keeps s (execRegTimeout s) := by
  unfold execRegTimeout; repeat' (first | (simp; done) | split)

@[simp] theorem captured_kept (s : State) (w : XingWait) (outcome : BitVec 2) : (captured s w outcome).kept = s.kept := by simp [captured]

@[simp] theorem numericReading_kept (s : State) (k : Fin 3) : (numericReading s k).2.kept = s.kept := by
  unfold numericReading; split <;> simp

end Sys2Proof.Machine
end

