-- ==== Sys2Proof/Laws/Stores.lean ====
section
/-! SUPPORT. The commands that write memory or tags: they keep the canonical form, store no reserved tag state (R95), and leave the
waiting commands, the fuses and the tick alone. -/

-- One proof at a time: the package is also compiled as one text, and proofs in parallel would need more memory than the check allows.
set_option Elab.async false

namespace Sys2Proof.Machine

/-! ## Tags -/

@[simp] theorem tagState_mkTag (st : BitVec 3) (fp : BitVec 61) : tagState (mkTag st fp) = st := by
  unfold tagState mkTag
  ext i hi
  simp only [BitVec.getElem_setWidth, BitVec.getLsbD_ushiftRight]
  rw [BitVec.getLsbD_append]
  simp [show ¬ (61 + i < 61) by omega, BitVec.getLsbD_eq_getElem hi]

@[simp] theorem tagFp_mkTag (st : BitVec 3) (fp : BitVec 61) : tagFp (mkTag st fp) = fp := by
  unfold tagFp mkTag
  ext i hi
  rw [BitVec.getElem_setWidth, BitVec.getLsbD_append]
  simp [hi]

@[simp] theorem legalTag_mkTag (st : BitVec 3) (fp : BitVec 61) : legalTag (mkTag st fp) = decide (st.toNat ≤ 4) := by simp [legalTag]

/-- A POISON state is one of three legal ones. -/
theorem poisonOver_legal (st : BitVec 3) : (poisonOver st).toNat ≤ 4 := by revert st; decide

theorem isPoison_legal {st : BitVec 3} (h : isPoison st = true) : st.toNat ≤ 4 := by revert st; decide

theorem legal_iff {t : BitVec 64} : legalTag t = true ↔ (tagState t).toNat ≤ 4 := by simp [legalTag]

theorem readRow_legal {keyed ecc : Bool} {stored : BitVec 64} {fp : BitVec 61} (h : legalTag stored = true) :
    legalTag (readRow keyed ecc stored fp).stored = true ∧ legalTag (readRow keyed ecc stored fp).delivered = true := by
  have := poisonOver_legal (tagState stored)
  unfold readRow
  dsimp only
  repeat' split
  all_goals simp_all [tUntagged]

theorem fullRow_legal {key : Option (BitVec 61)} {stored carried : BitVec 64} {data : List (BitVec 32)} (h : legalTag stored = true) :
    legalTag (fullRow key stored carried data).1 = true := by
  have hp := poisonOver_legal (tagState stored)
  have hs := legal_iff.mp h
  unfold fullRow
  dsimp only
  repeat' split
  all_goals simp_all [tUntagged, tagMatches]

theorem partialRow_legal {key : Option (BitVec 61)} {ecc : Bool} {stored : BitVec 64} {carried : BitVec 3} {g : BitVec 61}
    {new old : WordWrites} (h : legalTag stored = true) : legalTag (partialRow key ecc stored carried g new old).1 = true := by
  have hp := poisonOver_legal (tagState stored)
  have hs := legal_iff.mp h
  unfold partialRow
  dsimp only
  repeat' split
  all_goals simp_all [tUntagged]

theorem hostFullRow_legal {key : Option (BitVec 61)} {ep : Bool} {stored : BitVec 64} {data : List (BitVec 32)} :
    legalTag (hostFullRow key ep stored data) = true := by
  have hp := poisonOver_legal (tagState stored)
  unfold hostFullRow
  repeat' split
  all_goals simp_all [tUntagged, tClean]

theorem hostPartialRow_legal {key : Option (BitVec 61)} {ep ecc : Bool} {stored : BitVec 64} {new old : WordWrites}
    (h : legalTag stored = true) : legalTag (hostPartialRow key ep ecc stored new old) = true := by
  have hp := poisonOver_legal (tagState stored)
  have hs := legal_iff.mp h
  unfold hostPartialRow
  dsimp only
  repeat' split
  all_goals simp_all [tUntagged, tMem]

/-! ## Steps that keep the state sound -/

/-- From `s` to a state of what is kept, memory and tags stay sound, and what is still stays. -/
def StoresK (s : State) (k : (List Instr × Fuses × BitVec 64) × List Host.Cell × List (Nat × BitVec 64)) : Prop :=
  k.1 = s.still ∧ (s.Sound → Memory.wf k.2.1 = true ∧ Tags.wf k.2.2 = true ∧ ∀ e ∈ k.2.2, legalTag e.2 = true)

/-- From `s` to `t` memory and tags stay sound, and what is still stays. -/
def Stores (s t : State) : Prop := StoresK s t.kept

theorem stores_iff {s t : State} : Stores s t ↔ t.still = s.still ∧ (s.Sound → t.Sound) := Iff.rfl

theorem sound_of_kept {s t : State} (h : t.kept = s.kept) (x : s.Sound) : t.Sound := by
  simp only [State.kept, Prod.mk.injEq] at h
  unfold State.Sound
  rw [h.2.1, h.2.2]
  exact x

theorem Stores.refl (s : State) : Stores s s := ⟨rfl, id⟩

theorem Stores.trans {s t u : State} (h : Stores s t) (k : Stores t u) : Stores s u := ⟨k.1.trans h.1, fun x => k.2 (h.2 x)⟩

theorem Stores.of_kept {s t : State} (h : t.kept = s.kept) : Stores s t := by unfold Stores; rw [h]; exact Stores.refl s

/-- What leaves everything alone after a step that keeps the state sound. -/
theorem Stores.then {s t u : State} (h : Stores s t) (k : u.kept = t.kept) : Stores s u := h.trans (.of_kept k)

theorem Stores.each {α : Type} {s : State} {xs : List α} {f : State → α → State} (h : ∀ t x, Stores t (f t x)) : Stores s (s.each xs f) := by
  unfold State.each
  induction xs generalizing s with
  | nil => exact .refl s
  | cons x xs ih => rw [List.foldl_cons]; exact (h s x).trans ih

/-- A stored tag is legal in a sound state. -/
theorem tagOf_legal {s : State} (h : s.Sound) (st b : Nat) : legalTag (s.tagOf st b) = true := by
  unfold State.tagOf
  generalize tagKey st b = k
  have := h.2.2
  generalize s.tags = l at this
  induction l with
  | nil => exact (by decide : legalTag emptyTag = true)
  | cons x xs ih =>
    obtain ⟨n, v⟩ := x
    unfold alGet
    split
    · exact this (n, v) (by simp)
    · exact ih fun e he => this e (by simp [he])

theorem setTag_stores {s : State} {st b : Nat} {t : BitVec 64} (h : s.Sound → legalTag t = true) : Stores s (s.setTag st b t) := by
  refine ⟨rfl, fun x => ⟨x.1, alPut_wf x.2.1, fun e he => ?_⟩⟩
  rcases mem_alPut he with he | ⟨rfl, -⟩
  · exact x.2.2 e he
  · exact h x

theorem store_stores {s : State} {st b : Nat} {ws : List (Nat × BitVec 32)} : Stores s (s.store st b ws) :=
  ⟨rfl, fun x => ⟨putWords_wf x.1, x.2⟩⟩

theorem store_tagOf (s : State) (st b : Nat) (ws : List (Nat × BitVec 32)) (x y : Nat) : (s.store st b ws).tagOf x y = s.tagOf x y := rfl

theorem tagOf_legal_of_store {s : State} {st b : Nat} {ws : List (Nat × BitVec 32)} (h : (s.store st b ws).Sound) (x y : Nat) :
    legalTag (s.tagOf x y) = true := by
  have k := tagOf_legal h x y
  rwa [store_tagOf] at k

/-! ## Reads -/

theorem lineError_stores (s : State) (g : Gtu) (c : Option Ctx) (stave : Nat) : Stores s (lineError s g c stave) := by
  unfold lineError
  exact (Stores.each fun t i => setTag_stores fun _ => by simp [tMem]).then (mgtuEvent_kept ..)

theorem fetchLine_stores (s : State) (g : Gtu) (c : Option Ctx) (b : Nat) (e : Bool) : Stores s (fetchLine s g c b e) := by
  unfold fetchLine
  split
  · exact lineError_stores ..
  · exact .refl s

theorem jobVisit_stores (s : State) (g : Gtu) (c : Ctx) (b : Nat) (e v : Bool) : Stores s (jobVisit s g c b e v) :=
  (fetchLine_stores s g (some c) b e).then (State.onMgtu_kept ..)

/-- What a checked read would store and deliver is legal where what stood is. -/
theorem checkRead_legal {s : State} {g : Gtu} {c : Option Ctx} {key : Option (BitVec 61)} {b : Nat} {n : Noise} {ecc : Bool}
    {acc : BitVec 8} (h : s.Sound) :
    legalTag (checkRead s g c key b n ecc acc).2.2.stored = true ∧ legalTag (checkRead s g c key b n ecc acc).2.2.delivered = true := by
  unfold checkRead
  dsimp only
  have hk := readFp_kept s key ecc (s.deliveredBlank (stackOf g) b n)
  generalize readFp s key ecc (s.deliveredBlank (stackOf g) b n) = r at hk ⊢
  exact readRow_legal (tagOf_legal (sound_of_kept hk h) _ _)

theorem gtuRead_stores (s : State) (g : Gtu) (c : Option Ctx) (key : Option (BitVec 61)) (b : Nat) (n : Noise) (ecc : Bool) (acc : BitVec 8) :
    Stores s (gtuRead s g c key b n ecc acc).1 := by
  unfold gtuRead
  have k := checkRead_kept s g c key b n ecc acc
  have l : s.Sound → _ := checkRead_legal (g := g) (c := c) (key := key) (b := b) (n := n) (ecc := ecc) (acc := acc)
  generalize checkRead s g c key b n ecc acc = r at k l ⊢
  obtain ⟨u, d, w⟩ := r
  refine ⟨congrArg Prod.fst k, fun x => ?_⟩
  exact (setTag_stores fun _ => (l x).1).2 (sound_of_kept k x)

/-- A read without a context keeps the state sound. -/
theorem engineRead_stores (s : State) (a n : Nat) (r : JobRead) : Stores s (engineRead s a n r).2 :=
  Stores.each fun _ _ => gtuRead_stores ..

/-- A tag written without a key is legal where the one before is. -/
theorem unkeyedTag_legal {full : Bool} {t : BitVec 64} (h : legalTag t = true) : legalTag (unkeyedTag full t) = true := by
  unfold unkeyedTag
  split
  · decide
  · exact h

theorem putBytes_wf {α : Type} {xs : List α} {f : α → Nat × Nat × Byte} {m : List Host.Cell} (h : Memory.wf m = true) :
    Memory.wf (xs.foldl (fun m x => putByte m (f x).1 (f x).2.1 (f x).2.2) m) = true := by
  induction xs generalizing m with
  | nil => exact h
  | cons x xs ih => exact ih (alPut_wf h)

/-- Bytes written without a key keep the state sound. -/
theorem engineWrite_stores (s : State) (a : Nat) (bs : List Byte) : Stores s (s.engineWrite a bs) := by
  unfold State.engineWrite
  dsimp only
  refine Stores.trans ?_ (Stores.each fun t b => setTag_stores fun x => unkeyedTag_legal (tagOf_legal x b.1 b.2))
  exact ⟨rfl, fun x => ⟨putBytes_wf (f := fun y : Byte × Nat × Nat => (y.2.1, y.2.2, y.1)) x.1, x.2⟩⟩

theorem captureTag_stores (s : State) (g : Gtu) (c : Ctx) (b : Nat) (roles : List Nat) (t : BitVec 64) :
    Stores s (captureTag s g c b roles t) := by
  unfold captureTag
  split
  · exact .refl s
  · refine Stores.each fun u k => ?_
    unfold writeCapture
    split
    · exact (Stores.of_kept (State.onPrv_kept u c _)).trans (engineWrite_stores ..)
    · exact .refl u

theorem jobRead_stores (s : State) (g : Gtu) (c : Ctx) (addr : Nat) (n : Noise) (ecc le : Bool) (a : Option Arr) (v ad : Bool)
    (ex : Option ExecName) : Stores s (jobRead s g c addr n ecc le a v ad ex) := by
  unfold jobRead
  dsimp only
  refine (Stores.of_kept (countChatter_kept s c ad)).trans ?_
  generalize countChatter s c ad = u
  split
  · exact .of_kept (by rw [sendOperandTag_kept, State.send_kept, jobRegion_kept])
  · unfold Stores
    rw [sendOperandTag_kept, State.send_kept]
    have h := (jobVisit_stores u g c ((u.mgtu.at g).readPlace c (addr / 4096)) le v).trans
      (gtuRead_stores _ g (some c) ((jobVisit u g c ((u.mgtu.at g).readPlace c (addr / 4096)) le v).keyOf c)
        ((u.mgtu.at g).readPlace c (addr / 4096)) n ecc 0x01)
    generalize gtuRead (jobVisit u g c ((u.mgtu.at g).readPlace c (addr / 4096)) le v) g (some c) _ _ n ecc 0x01 = r at h ⊢
    obtain ⟨w, d, t⟩ := r
    dsimp only at h ⊢
    generalize (decide (tagState _ = tUntagged) && !ecc && _) = b
    have k : (if b = true then w.onTag c (fun t => { t with untagged := bump t.untagged }) else w).kept = w.kept := by
      split
      · exact State.onTag_kept ..
      · rfl
    generalize (if b = true then w.onTag c (fun t => { t with untagged := bump t.untagged }) else w) = x at k ⊢
    refine (h.then k).trans ?_
    split
    · exact captureTag_stores ..
    · exact .refl x

theorem memAccess_stores {s : State} {g : Gtu} {a : Nat} {t : State} (h : Stores s t) : AllNext (Stores s) (memAccess s g a t) := by
  unfold memAccess
  split
  · trivial
  · split
    · exact h
    · exact .refl s

/-! ## Writes from the mesh -/

theorem storeTag_stores {s : State} {g : Gtu} {c : Ctx} {b p : Nat} {t : BitVec 64} (h : s.Sound → legalTag t = true) :
    Stores s (storeTag s g c b p t) := by
  unfold storeTag
  exact ((setTag_stores h).then (countPoison_kept ..)).trans (captureTag_stores ..)

theorem fullAt_stores (s : State) (g : Gtu) (c : Ctx) (b p : Nat) (d : List (BitVec 32)) (t : BitVec 64) (le v : Bool)
    (ex : Option ExecName) : Stores s (fullAt s g c b p d t le v ex) := by
  unfold fullAt
  dsimp only
  have h := jobVisit_stores s g c p le v
  generalize jobVisit s g c p le v = u at h ⊢
  unfold Stores
  rw [kept_ite, writeMismatch_kept, ite_self]
  exact h.trans (store_stores.trans (storeTag_stores fun x => fullRow_legal (tagOf_legal_of_store x (stackOf g) p)))

theorem partialAt_stores (s : State) (g : Gtu) (c : Ctx) (b p : Nat) (ws : WordWrites) (pfp : BitVec 61) (k : BitVec 3) (n : Noise)
    (ecc le v : Bool) (ex : Option ExecName) : Stores s (partialAt s g c b p ws pfp k n ecc le v ex) := by
  unfold partialAt
  dsimp only
  have h := jobVisit_stores s g c p le v
  generalize jobVisit s g c p le v = u at h ⊢
  unfold Stores
  rw [kept_ite, eccEvent_kept, ite_self, kept_ite, writeMismatch_kept, ite_self]
  exact h.trans (store_stores.trans (storeTag_stores fun x => partialRow_legal (tagOf_legal_of_store x (stackOf g) p)))

theorem addSlot_stores (s : State) (g : Gtu) (c : Ctx) (b p : Nat) : Stores s (addSlot s g c b p) := by
  unfold addSlot Stores
  rw [State.onPass_kept, State.onMgtu_kept]
  exact setTag_stores fun _ => by decide

theorem addSlot_fullAt_stores (s : State) (g : Gtu) (c : Ctx) (b p : Nat) (d : List (BitVec 32)) (t : BitVec 64) (le v : Bool)
    (ex : Option ExecName) : Stores s (fullAt (addSlot s g c b p) g c b p d t le v ex) := (addSlot_stores s g c b p).trans (fullAt_stores ..)

theorem jobFullWrite_stores (s : State) (g : Gtu) (c : Ctx) (addr : Nat) (d : List (BitVec 32)) (t : BitVec 64) (le v : Bool)
    (w : Option Arr) (ad : Bool) (fl : Noise) (ex : Option ExecName) : Stores s (jobFullWrite s g c addr d t le v w ad fl ex) := by
  unfold jobFullWrite
  dsimp only
  split
  · exact .refl s
  · refine (Stores.of_kept (countChatter_kept s c ad)).trans ?_
    generalize countChatter s c ad = u
    split
    · exact .of_kept (jobRegion_kept ..)
    · split
      · exact fullAt_stores ..
      · split
        · exact fullAt_stores ..
        · split
          · exact addSlot_fullAt_stores ..
          · exact .of_kept (retentionOverflow_kept ..)

theorem retentionCopy_stores (s : State) (g : Gtu) (c : Ctx) (b slot : Nat) (n : Noise) (ecc le : Bool) :
    Stores s (retentionCopy s g c b slot n ecc le) := by
  unfold retentionCopy
  dsimp only
  have h := fetchLine_stores s g (some c) ((s.mgtu.at g).place b) le
  generalize fetchLine s g (some c) ((s.mgtu.at g).place b) le = u at h ⊢
  have k := checkRead_kept u g (some c) (u.keyOf c) ((s.mgtu.at g).place b) n ecc 0x03
  have l : u.Sound → _ := checkRead_legal (g := g) (c := some c) (key := u.keyOf c) (b := (s.mgtu.at g).place b) (n := n) (ecc := ecc)
    (acc := 0x03)
  generalize checkRead u g (some c) (u.keyOf c) ((s.mgtu.at g).place b) n ecc 0x03 = r at k l ⊢
  obtain ⟨v, d, w⟩ := r
  have q : Stores v (v.store (stackOf g) slot (fullWords d)) := store_stores
  dsimp only at l ⊢
  generalize v.store (stackOf g) slot (fullWords d) = x at q ⊢
  refine ⟨(setTag_stores (s := x) (st := stackOf g) (b := slot) (t := emptyTag) fun _ => by decide).1.trans (q.1.trans (h.then k).1), fun y => ?_⟩
  exact (setTag_stores fun _ => (l (h.2 y)).1).2 (q.2 (sound_of_kept k (h.2 y)))

theorem jobPartialWrite_stores (s : State) (g : Gtu) (c : Ctx) (addr : Nat) (ws : WordWrites) (pfp : BitVec 61) (k : BitVec 3) (n : Noise)
    (ecc le v : Bool) (w : Option Arr) (ad : Bool) (fl : Noise) (se : Bool) (ex : Option ExecName) :
    Stores s (jobPartialWrite s g c addr ws pfp k n ecc le v w ad fl se ex) := by
  unfold jobPartialWrite
  dsimp only
  split
  · exact .refl s
  · refine (Stores.of_kept (countChatter_kept s c ad)).trans ?_
    generalize countChatter s c ad = u
    split
    · exact .of_kept (jobRegion_kept ..)
    · split
      · exact partialAt_stores ..
      · split
        · exact partialAt_stores ..
        · split
          · exact .of_kept (retentionOverflow_kept ..)
          · exact ((addSlot_stores ..).trans (retentionCopy_stores ..)).trans (partialAt_stores ..)

/-! ## Host accesses -/

theorem hostRead_stores (s : State) (g : Gtu) (c : Option Ctx) (addr : Nat) (n : Noise) (ecc le : Bool) :
    Stores s (hostRead s g c addr n ecc le) := by
  unfold hostRead
  dsimp only
  split
  · exact .of_kept (by rw [State.send_kept, hostRegion_kept])
  · exact ((fetchLine_stores ..).trans (gtuRead_stores ..)).then (State.send_kept ..)

theorem hostFullWrite_stores (s : State) (g : Gtu) (c : Option Ctx) (addr : Nat) (d : List (BitVec 32)) (ep le : Bool) :
    Stores s (hostFullWrite s g c addr d ep le) := by
  unfold hostFullWrite
  dsimp only
  split
  · exact .of_kept (by rw [State.send_kept, hostRegion_kept])
  · unfold Stores
    rw [State.send_kept, hostWriteNote_kept, poisonedWrite_kept]
    exact (fetchLine_stores ..).trans (store_stores.trans (setTag_stores fun _ => hostFullRow_legal))

theorem hostPartialWrite_stores (s : State) (g : Gtu) (c : Option Ctx) (addr : Nat) (ws : WordWrites) (ep : Bool) (n : Noise) (ecc le : Bool) :
    Stores s (hostPartialWrite s g c addr ws ep n ecc le) := by
  unfold hostPartialWrite
  dsimp only
  split
  · exact .of_kept (by rw [State.send_kept, hostRegion_kept])
  · have h := fetchLine_stores s g c ((s.mgtu.at g).place (addr / 4096)) le
    generalize fetchLine s g c ((s.mgtu.at g).place (addr / 4096)) le = u at h ⊢
    unfold Stores
    rw [State.send_kept, hostWriteNote_kept, kept_ite, eccEvent_kept, ite_self, poisonedWrite_kept]
    exact h.trans (store_stores.trans (setTag_stores fun x => hostPartialRow_legal (tagOf_legal_of_store x (stackOf g) ((s.mgtu.at g).place (addr / 4096)))))

/-! ## Maintenance accesses -/

theorem execMgtuProbeRun_stores (g : Gtu) (le : Bool) (s : State) : AllNext (Stores s) (execMgtuProbeRun g le s) := by
  unfold execMgtuProbeRun
  dsimp only
  split
  · exact Stores.refl s
  · split
    · exact Stores.of_kept (State.onMgtu_kept ..)
    · exact (fetchLine_stores s g none ((s.mgtu.at g).place (s.mgtu.at g).probe.toNat) le).then (State.onMgtu_kept ..)

theorem execCopyback_stores (g : Gtu) (c : Ctx) (b : Nat) (n : Noise) (ecc le : Bool) (s : State) (oe : Bool) :
    AllNext (Stores s) (execCopyback g c b n ecc le s oe) := by
  unfold execCopyback
  split
  · exact Stores.refl s
  · rename_i r _
    dsimp only
    have h := (fetchLine_stores s g (some c) r.copy le).trans (gtuRead_stores _ g (some c) r.rho r.copy n ecc 0x06)
    generalize gtuRead (fetchLine s g (some c) r.copy le) g (some c) r.rho r.copy n ecc 0x06 = q at h ⊢
    obtain ⟨u, d, w⟩ := q
    dsimp only at h ⊢
    replace h := h.trans (fetchLine_stores u g (some c) b oe)
    generalize fetchLine u g (some c) b oe = x at h ⊢
    simp only [AllNext, Stores]
    rw [State.onMgtu_kept, kept_ite, mgtuEvent_kept, ite_self]
    exact h.trans (store_stores.trans (setTag_stores fun x => fullRow_legal (tagOf_legal_of_store x (stackOf g) b)))

/-! ## Provenance -/

theorem writeRecord_stores (s : State) (sp : Span) : Stores s (writeRecord s sp) := by
  unfold writeRecord Stores
  simp only [State.irqSet_kept, kept_mk, State.emit_kept, State.onPrv_kept, State.onPrvEng_kept, kept_fold]
  exact engineWrite_stores ..

theorem writeRecords_stores (n : Nat) (s : State) : Stores s (writeRecords n s) := by
  induction n generalizing s with
  | zero => exact .refl s
  | succ n ih =>
    unfold writeRecords
    split
    · exact (writeRecord_stores ..).trans (ih _)
    · exact .refl s

theorem provAdvance_stores (s : State) : Stores s (provAdvance s) := by
  unfold provAdvance
  dsimp only
  exact ((Stores.of_kept (feedCores_kept s)).trans (writeRecords_stores ..)).then (State.each_kept _ _ _ unstall_kept)

theorem execFullHashRead_stores (g : Gtu) (c : Ctx) (tensor b : Nat) (n : Noise) (ecc le : Bool) (s : State) :
    AllNext (Stores s) (execFullHashRead g c tensor b n ecc le s) := by
  unfold execFullHashRead
  dsimp only
  refine iteInduction (motive := AllNext (Stores s)) (fun _ => Stores.refl s) (fun _ => ?_)
  have h := (fetchLine_stores s g (some c) ((s.mgtu.at g).readPlace c b) le).trans
    (gtuRead_stores _ g (some c) ((fetchLine s g (some c) ((s.mgtu.at g).readPlace c b) le).keyOf c) ((s.mgtu.at g).readPlace c b) n ecc 0x06)
  generalize gtuRead (fetchLine s g (some c) ((s.mgtu.at g).readPlace c b) le) g (some c) _ _ n ecc 0x06 = q at h ⊢
  obtain ⟨u, d, w⟩ := q
  dsimp only at h ⊢
  have k := h.then (State.send_kept u (.fullHashData g b w))
  split
  · exact (k.then (State.onPrvEng_kept ..)).trans (provAdvance_stores _)
  · exact k.then (State.onPrv_kept ..)

end Sys2Proof.Machine
end

