-- ==== Sys2Proof/Laws/EngineStores.lean ====
section
/-! SUPPORT. What the engine writes on its own account (bank slots, records, the hunt area, the flash dump) or may poison by a read of
its own (an image, a program, a leaf, a record): memory and tags stay sound, and what is still stays. -/

-- One proof at a time: the package is also compiled as one text, and proofs in parallel would need more memory than the check allows.
set_option Elab.async false

namespace Sys2Proof.Machine

@[simp] theorem storesK_refl (s : State) : StoresK s s.kept := Stores.refl s

@[simp] theorem allNext_next (p : State → Prop) (t : State) : AllNext p (.next t) ↔ p t := Iff.rfl

/-- One more step that keeps the state sound. -/
theorem StoresK.step {s u v : State} (h : StoresK s u.kept) (k : Stores u v) : StoresK s v.kept := Stores.trans (t := u) h k

theorem AllNext.of_keeps {s : State} {r : Res} (h : Keeps s r) : AllNext (Stores s) r := by
  obtain ⟨t, rfl, k⟩ := h
  exact Stores.of_kept k

/-! ## Provenance -/

theorem leafBytes_stores (s : State) (sp : Span) (role leaf : Nat) (r : JobRead) : Stores s (leafBytes s sp role leaf r).2.2 := by
  unfold leafBytes
  split
  · exact .refl s
  · exact engineRead_stores ..

theorem execPrvLeafDone_stores (core : Fin 8) (r : JobRead) (s : State) : AllNext (Stores s) (execPrvLeafDone core r s) := by
  unfold execPrvLeafDone
  split
  · exact Stores.refl s
  · rename_i id role leaf _
    dsimp only
    have h : (s.onPrvEng (fun e => { e with cores := e.cores.upd core (fun _ => none) })).kept = s.kept := State.onPrvEng_kept ..
    generalize s.onPrvEng (fun e => { e with cores := e.cores.upd core (fun _ => none) }) = u at h ⊢
    split
    · exact Stores.of_kept h
    · rename_i sp _
      have k := leafBytes_stores u sp role leaf r
      generalize leafBytes u sp role leaf r = q at k ⊢
      obtain ⟨b, bad, v⟩ := q
      refine Stores.trans ?_ (provAdvance_stores _)
      unfold Stores
      rw [kept_ite, State.emit_kept, ite_self, State.onPrvEng_kept]
      exact (Stores.of_kept h).trans k

theorem execPrvReadDone_stores (r : JobRead) (s : State) : AllNext (Stores s) (execPrvReadDone s r) := by
  unfold execPrvReadDone
  split
  · exact Stores.refl s
  · split
    · exact (engineRead_stores ..).then (State.onPrvEng_kept ..)
    · exact Stores.of_kept (State.onPrvEng_kept ..)

theorem closeSpan_stores (s : State) (c : Ctx) : Stores s (closeSpan s c) := by
  unfold closeSpan
  dsimp only
  split
  · exact .refl s
  · unfold Stores
    rw [stall_kept]
    refine StoresK.step ?_ (provAdvance_stores _)
    rw [State.onPrvEng_kept, State.onPrv_kept]
    exact storesK_refl s

/-! ## The end of an execution -/

theorem commitNow_stores (s : State) (c : Ctx) (p : Plan) (hold : Bool) : Stores s (commitNow s c p hold) := by
  unfold commitNow Stores
  dsimp only
  simp only [stopDue_kept, settle_kept, notifyCommit_kept, State.onPass_kept, State.onExec_kept, State.onLsc_kept, State.onPlan_kept,
    State.onPos_kept, State.onTag_kept, State.onCov_kept, kept_mk, kept_fold]
  split
  · refine StoresK.step ?_ (closeSpan_stores _ c)
    rw [noteCommit_kept, sendNotices_kept, State.each_kept _ _ _ (catchTransient_kept c _), State.send_kept, commitHeld_kept]
    exact storesK_refl s
  · rw [noteCommit_kept, sendNotices_kept, State.each_kept _ _ _ (catchTransient_kept c _), State.send_kept, commitHeld_kept]
    exact storesK_refl s

theorem decideClean_stores (s : State) (c : Ctx) (p : Plan) (w : Bool) : Stores s (decideClean s c p w) := by
  unfold decideClean
  dsimp only
  have h := sendDigest_kept s c p
  generalize sendDigest s c p = u at h ⊢
  refine (Stores.of_kept h).trans ?_
  split
  · exact .of_kept (abortNow_kept ..)
  · refine iteInduction (fun _ => .refl u) fun _ => iteInduction (fun _ => iteInduction (fun _ => commitNow_stores ..) fun _ => ?_)
      fun _ => commitNow_stores ..
    exact .of_kept (waitToken_kept ..)

theorem decideCommit_stores (s : State) (c : Ctx) (p : Plan) (w : Bool) : Stores s (decideCommit s c p w) := by
  unfold decideCommit
  dsimp only
  have h := assess_kept s c p
  generalize assess s c p = u at h ⊢
  refine (Stores.of_kept h).trans ?_
  split
  · exact .of_kept (abortNow_kept ..)
  · exact iteInduction (fun _ => .of_kept (contextPoisoned_kept ..)) fun _ => decideClean_stores ..

theorem execCommitInject_stores (c : Ctx) (s : State) : AllNext (Stores s) (execCommitInject c s) := by
  unfold execCommitInject
  split
  · exact Stores.refl s
  · exact iteInduction (fun _ => Stores.refl s) fun _ => decideCommit_stores ..

theorem execReadinessToken_stores (c : Ctx) (n : BitVec 48) (s : State) : AllNext (Stores s) (execReadinessToken c n s) := by
  unfold execReadinessToken
  dsimp only
  have h := State.onExec_kept s c (fun e => { e with token := n })
  generalize s.onExec c (fun e => { e with token := n }) = u at h ⊢
  split
  · exact Stores.of_kept h
  · refine iteInduction (fun _ => ?_) fun _ => iteInduction (fun _ => ?_) fun _ => Stores.of_kept h
    · refine (Stores.of_kept h).trans ?_
      exact iteInduction (fun _ => Stores.refl u) fun _ => decideCommit_stores ..
    · exact Stores.of_kept (by rw [settle_kept, State.onPass_kept, h])

theorem clearCopies_stores (s : State) (c : Ctx) : Stores s (clearCopies s c) :=
  Stores.each fun _ _ => Stores.each fun _ _ => setTag_stores fun _ => by decide

theorem drainEffects_stores (s : State) (c : Ctx) : Stores s (drainEffects s c) := by
  unfold drainEffects Stores
  dsimp only
  simp only [State.onExec_kept, State.onWce_kept, kept_mk, kept_fold, State.onTag_kept]
  exact clearCopies_stores s c

theorem drainEnd_stores (s : State) (c : Ctx) : Stores s (drainEnd s c) := by
  unfold drainEnd
  dsimp only
  refine Stores.trans ((drainEffects_stores s c).then (replayLimit_kept _ c)) ?_
  split
  · exact .of_kept (enterStopped_kept ..)
  · exact .of_kept (by rw [settle_kept, State.onPass_kept, State.onExec_kept])

theorem execTargetQuiet_stores (u : UnitId) (c : Ctx) (s : State) : AllNext (Stores s) (execTargetQuiet u c s) := by
  unfold execTargetQuiet
  dsimp only
  refine iteInduction (fun _ => Stores.refl s) fun _ => ?_
  refine Stores.trans (.of_kept (State.onExec_kept s c (fun e => { e with quiet := e.quiet ++ [u] }))) ?_
  exact iteInduction (fun _ => drainEnd_stores ..) fun _ => Stores.refl _

theorem execAbortDrainTimeout_stores (c : Ctx) (s : State) : AllNext (Stores s) (execAbortDrainTimeout c s) := by
  unfold execAbortDrainTimeout
  refine iteInduction (fun _ => Stores.refl s) fun _ => ?_
  split
  · exact Stores.refl s
  · refine Stores.then ?_ (enterStopped_kept ..)
    refine Stores.then ?_ (replayLimit_kept ..)
    refine Stores.trans (.of_kept ?_) (drainEffects_stores _ c)
    rw [State.onExec_kept, State.emit_kept]

theorem execPoisonCollect_stores (c : Ctx) (ws : List (BitVec 61)) (s : State) : AllNext (Stores s) (execPoisonCollect c ws s) := by
  unfold execPoisonCollect
  split
  · exact Stores.refl s
  · dsimp only
    refine iteInduction (fun _ => Stores.refl s) fun _ => ?_
    refine Stores.then ?_ (sendDigest_kept ..)
    split
    · refine Stores.trans (.of_kept ?_) (engineWrite_stores ..)
      rw [State.onLsc_kept, State.onExec_kept]
    · exact .of_kept (by rw [State.onLsc_kept, State.onExec_kept])

/-! ## Images -/

theorem imageOf_stores (s : State) (c : Ctx) (r : JobRead) : Stores s (imageOf s c r).2 := engineRead_stores ..

theorem programOf_stores (s : State) (p : Plan) (r : JobRead) : Stores s (programOf s p r).2 := by
  unfold programOf
  split
  · exact engineRead_stores ..
  · exact .refl s

theorem execPlanValidated_stores (image program : JobRead) (w : WorkFacts) (s : State) :
    AllNext (Stores s) (execPlanValidated image program s w) := by
  unfold execPlanValidated
  split
  · exact Stores.refl s
  · rename_i c _
    have h := imageOf_stores s c image
    generalize imageOf s c image = q at h ⊢
    obtain ⟨bytes, u⟩ := q
    dsimp only at h ⊢
    generalize readImage bytes (u.ctx c).plan.kib.toNat w = x
    obtain ⟨p, bad⟩ := x
    dsimp only
    have k : Stores s (if bad.isSome then (([] : List Byte), u) else programOf u p program).2 :=
      iteInduction (motive := fun r : List Byte × State => Stores s r.2) (fun _ => h) fun _ => h.trans (programOf_stores ..)
    generalize (if bad.isSome then (([] : List Byte), u) else programOf u p program) = y at k ⊢
    obtain ⟨code, v⟩ := y
    dsimp only at k ⊢
    split
    · exact k.then (by rw [planNext_kept, refuseLoad_kept])
    · refine k.then ?_
      rw [planNext_kept, State.putDist_kept, distSend_kept, sendKey_kept, State.emit_kept, State.onPln_kept, State.onPlan_kept]

theorem execDistributionDone_stores (c : Ctx) (image : JobRead) (s : State) : AllNext (Stores s) (execDistributionDone c image s) := by
  unfold execDistributionDone
  dsimp only
  split
  · exact Stores.refl s
  · refine iteInduction (fun _ => Stores.refl s) fun _ => ?_
    have h := imageOf_stores s c image
    generalize imageOf s c image = q at h ⊢
    obtain ⟨bytes, u⟩ := q
    dsimp only at h ⊢
    split
    · exact h.then (refuseLoad_kept ..)
    · exact h.then (by rw [State.onPlan_kept, finishDist_kept])

theorem execFwpLoadDone_stores (r : JobRead) (s : State) : AllNext (Stores s) (execFwpLoadDone r s) := by
  unfold execFwpLoadDone
  refine iteInduction (fun _ => Stores.refl s) fun _ => ?_
  dsimp only
  have h := engineRead_stores s s.fwp.base.toNat (1024 * s.fwp.kib.toNat) r
  generalize engineRead s s.fwp.base.toNat (1024 * s.fwp.kib.toNat) r = q at h ⊢
  obtain ⟨b, u⟩ := q
  dsimp only at h ⊢
  refine iteInduction (fun _ => h.then ?_) fun _ => h.then ?_
  · rw [State.emit_kept, State.each_kept _ _ _ keepState_kept, State.onFwp_kept]
  · rw [State.each_kept _ _ _ (startImage_kept b), State.onFwp_kept]

theorem execRecDumpDone_stores (s : State) : AllNext (Stores s) (execRecDumpDone s) := by
  unfold execRecDumpDone
  dsimp only
  refine iteInduction (fun _ => Stores.refl s) fun _ => ?_
  exact (engineWrite_stores ..).then (by rw [State.irqSet_kept, State.onRec_kept])

/-! ## Processors -/

theorem commitWithout_stores (s : State) (c : Ctx) : Stores s (commitWithout s c) := by
  unfold commitWithout
  split
  · exact iteInduction (fun _ => decideCommit_stores ..) fun _ => .refl s
  · exact .refl s

theorem failedEffects_stores (s : State) (p : Proc) : Stores s (failedEffects s p) := by
  unfold failedEffects
  refine iteInduction (fun _ => .of_kept (by simp)) fun _ => iteInduction (fun _ => .refl s) fun _ => ?_
  dsimp only
  exact Stores.trans (.of_kept (State.each_kept _ _ _ (by intro t c; exact stopCtx_kept ..))) (Stores.each commitWithout_stores)

theorem failProc_stores (s : State) (p : Proc) (cause : BitVec 16) (pc : BitVec 32) : Stores s (failProc s p cause pc) := by
  unfold failProc
  dsimp only
  refine Stores.trans (.of_kept ?_) (failedEffects_stores _ p)
  rw [declareLasting_kept, State.each_kept _ _ _ (by intro t c; exact answerFailed_kept ..), State.emit_kept, closeChans_kept, State.onProc_kept]

theorem restartProc_stores (s : State) (p : Proc) (cause : BitVec 4) (pc : BitVec 32) : Stores s (restartProc s p cause pc) := by
  unfold restartProc
  dsimp only
  refine iteInduction (fun _ => failProc_stores ..) fun _ => .of_kept ?_
  rw [kept_ite, planRequeue_kept, State.setAon_kept, ite_self, closeChans_kept, closeOwnRecord_kept, State.logTo_kept, State.onProc_kept]

theorem expireWatchdog_stores (s : State) (p : Proc) (cause : BitVec 4) (pc : BitVec 32) : Stores s (expireWatchdog s p cause pc) :=
  Stores.trans (.of_kept (State.onProc_kept ..)) (restartProc_stores ..)

theorem procRestartCmd_stores (src : Src) (p : Proc) (pc : BitVec 32) (s : State) : Stores s (procRestartCmd src p pc s) := by
  unfold procRestartCmd
  refine iteInduction (fun _ => ?_) fun _ => .of_kept (by rw [State.logRefusal_kept, State.onProc_kept])
  exact Stores.trans (.of_kept (State.onProc_kept ..)) (restartProc_stores ..)

theorem gatedWrite_stores (s : State) (src : Src) (off : Nat) (v : Reg) (eff : State → State) (h : Stores s (eff s)) :
    Stores s (gatedWrite s src off v eff) := by
  unfold gatedWrite
  split
  · exact h.then (by simp)
  all_goals exact .of_kept (by simp)

theorem execCommitHoldTimeout_stores (c : Ctx) (s : State) : AllNext (Stores s) (execCommitHoldTimeout c s) := by
  unfold execCommitHoldTimeout
  split
  · exact Stores.refl s
  · rename_i q _
    refine iteInduction (fun _ => Stores.refl s) fun _ => ?_
    have h := (decideCommit_stores s c q true).then (fresh_kept _)
    exact iteInduction (fun _ => h.trans (expireWatchdog_stores ..)) fun _ => h

theorem execWatchdogExpiry_stores (p : Proc) (pc : BitVec 32) (s : State) : AllNext (Stores s) (execWatchdogExpiry p pc s) := by
  unfold execWatchdogExpiry
  exact iteInduction (motive := Stores s) (fun _ => expireWatchdog_stores ..) fun _ => Stores.refl s

theorem execFwpCtrlRestart_stores (src : Src) (p : Proc) (pc : BitVec 32) (s : State) : AllNext (Stores s) (execFwpCtrlRestart src p pc s) :=
  gatedWrite_stores _ _ _ _ _ (procRestartCmd_stores ..)

theorem execTcmError_stores (p : Proc) (code : Bool) (pc : BitVec 32) (s : State) (corrected : Bool) :
    AllNext (Stores s) (execTcmError p code pc s corrected) := by
  unfold execTcmError
  refine iteInduction (fun _ => Stores.refl s) fun _ => iteInduction (fun _ => Stores.of_kept (State.onProc_kept ..)) fun _ => ?_
  exact iteInduction (motive := Stores s) (fun _ => failProc_stores ..) fun _ => restartProc_stores ..

theorem fwAct_stores (p : Proc) (s : State) (a : FwAct) : Stores s (fwAct p s a) := by
  unfold fwAct
  refine iteInduction (fun _ => .refl s) fun _ => ?_
  cases a with
  | store part word v =>
    refine iteInduction (fun _ => .refl s) fun _ => ?_
    cases part with
    | code => exact iteInduction (fun _ => Stores.trans (.of_kept (fresh_kept s)) (restartProc_stores ..)) fun _ => .refl s
    | _ => exact .of_kept (State.onProc_kept ..)
  | _ => exact .of_kept (by simp)

theorem fwActs_stores (s : State) (p : Proc) (acts : List FwAct) : Stores s (fwActs s p acts) := Stores.each (fwAct_stores p)

/-- What the firmware did, and then the request. -/
theorem serveActs_stores (n : Nat) (p : Proc) (side : Fin 2) (s : State) (acts : List FwAct) :
    Stores s (serveOpcode n p side (fwActs s p acts)) := (fwActs_stores s p acts).then (serveOpcode_kept ..)

theorem execFwpFailed_stores (p : Proc) (pc : BitVec 32) (s : State) : AllNext (Stores s) (execFwpFailed p pc s) := by
  unfold execFwpFailed
  exact iteInduction (motive := Stores s) (fun _ => failProc_stores ..) fun _ => Stores.refl s

theorem execQueueCycle_stores (p : Proc) (s : State) : AllNext (Stores s) (execQueueCycle p s) := by
  unfold execQueueCycle
  split
  · exact Stores.refl s
  · refine Stores.then ?_ (State.each_kept _ _ _ endCycleWait_kept)
    exact Stores.trans (.of_kept (by rw [State.emit_kept]; rfl)) (restartProc_stores ..)

theorem restartPc_stores (s : State) (k : Nat) : Stores s (restartPc s k) := by
  unfold restartPc
  split
  · exact iteInduction (fun _ => Stores.trans (.of_kept (fresh_kept s)) (restartProc_stores ..)) fun _ => .refl s
  · exact .refl s

theorem execResetEnd_stores (s : State) : AllNext (Stores s) (execResetEnd s) := by
  unfold execResetEnd
  split
  · rename_i j rest _
    refine iteInduction (fun _ => Stores.refl s) fun _ => ?_
    dsimp only
    refine Stores.then ?_ (nextOrder_kept ..)
    refine Stores.then ?_ (State.emit_kept ..)
    refine iteInduction (fun _ => Stores.trans ?_ (restartPc_stores ..)) fun _ => ?_
    all_goals exact .of_kept (by rw [kept_ite, endDie_kept, ite_self, startClocks_kept, State.onPwr_kept])
  · exact Stores.refl s

/-! ## Register accesses -/

theorem fwpCtrl_stores (src : Src) (p : Proc) (v : Reg) (s : State) : Stores s (fwpCtrl src p v s) := by
  unfold fwpCtrl
  exact iteInduction (fun _ => Stores.trans (.of_kept (fresh_kept s)) (procRestartCmd_stores ..)) fun _ => .refl s

theorem writeReg_stores (src : Src) (v : Reg) (s : State) (r : RegAt) : Stores s (writeReg src v s r) := by
  cases r
  case fwpCtrl p => exact fwpCtrl_stores ..
  all_goals exact .of_kept (by simp [writeReg])

theorem carryAccess_stores (s : State) (src : Src) (off : Nat) (acc : Access) : Stores s (carryAccess s src off acc).1 := by
  unfold carryAccess
  split
  · exact .refl s
  · exact writeReg_stores ..
  · exact .refl s

theorem access_stores (s : State) (src : Src) (off w : Nat) (acc : Access) : Stores s (access s src off w acc) := by
  unfold access
  refine iteInduction (fun _ => .of_kept (by simp)) fun _ => iteInduction (fun _ => .of_kept (by simp)) fun _ => ?_
  split
  · exact (carryAccess_stores s src off acc).then (by simp)
  all_goals exact .of_kept (by simp)

theorem takeWait_stores (a : Bool) (s : State) (w : XingWait) : Stores s (takeWait a s w) := by
  unfold takeWait
  refine iteInduction (fun _ => iteInduction (fun _ => .refl s) fun _ => iteInduction (fun _ => ?_) fun _ => .of_kept (by simp)) fun _ => ?_
  all_goals exact (carryAccess_stores s w.src w.off w.acc).then (by simp)

theorem execRegisterWrite_stores (src : Src) (off w : Nat) (acc : Access) (s : State) :
    AllNext (Stores s) (execRegisterWrite src off w acc s) := access_stores ..

theorem takeWaits_stores (s : State) (a : Bool) (taken : XingWait → Bool) : Stores s (takeWaits s a taken) :=
  Stores.trans (.of_kept rfl) (Stores.each (takeWait_stores a))

theorem execCrossingClockRestart_stores (d : BitVec 8) (r : Option Row) (a : Bool) (s : State) :
    AllNext (Stores s) (execCrossingClockRestart d r a s) := takeWaits_stores ..

theorem execSliceResetEnd_stores (n : Slice) (s : State) : AllNext (Stores s) (execSliceResetEnd n s) := by
  unfold execSliceResetEnd
  refine iteInduction (fun _ => Stores.refl s) fun _ => ?_
  exact Stores.trans (.of_kept (by simp)) (takeWaits_stores ..)

theorem mctpRequest_stores (r : MctpRequest) (s : State) : Stores s (mctpRequest r s) := by
  cases r
  · exact access_stores ..
  all_goals exact .of_kept (by simp [mctpRequest])

theorem serveWaiting_stores (s : State) (w : MgtWait) : Stores s (serveWaiting s w) := by
  cases w
  · exact mctpRequest_stores ..
  all_goals exact .of_kept (by simp [serveWaiting])

theorem serveMgt_stores (s : State) : Stores s (serveMgt s) := Stores.trans (.of_kept rfl) (Stores.each serveWaiting_stores)

theorem execMctpRegisterAccess_stores (off width : Nat) (op : MctpOp) (s : State) :
    AllNext (Stores s) (execMctpRegisterAccess off width op s) := by
  unfold execMctpRegisterAccess State.mgtServe
  split
  · exact mctpRequest_stores ..
  · split <;> exact Stores.of_kept rfl

theorem execLatchRelease_stores (p : Proc) (s : State) (acts : List FwAct) : AllNext (Stores s) (execLatchRelease p s acts) := by
  unfold execLatchRelease
  refine iteInduction (fun _ => Stores.refl s) fun _ => ?_
  have k := fwActs_stores s p acts
  generalize fwActs s p acts = t at k ⊢
  refine iteInduction (fun _ => k) fun _ => ?_
  have h : Stores s (latchRelease t p) := k.then (latchRelease_kept ..)
  exact iteInduction (motive := Stores s) (fun _ => h.trans (serveMgt_stores _)) fun _ => h

end Sys2Proof.Machine
end

