-- ==== Sys2Proof/WellFormed.lean ====
section
/-! DEFINITION. Well-formed commands: operands within the ranges the spec gives them (R10, R12, R94, R101, R110, R138, R141, R143,
R178, R191, R416). The meanings are total and do not rest on these checks. -/

namespace Sys2Proof

/-- Bytes of a stack (R101). -/
def stackBytes : Nat := 80000000000

/-- Blanks of a job region (R101). -/
def jobBlanks : Nat := 19493096

/-- Changes of delivered words name words of one blank (R94). -/
def wfNoise (n : Noise) : Bool := n.all (fun x => x.1 < 1024)

/-- A partial write changes fewer than 1,024 words of a blank, each once (R110). -/
def wfWords (w : WordWrites) : Bool := w.all (fun x => x.1 < 1024) && decide (w.length < 1024) && decide ((w.map (·.1)).Nodup)

/-- A blank has 1,024 words (R94). -/
def wfBlank (d : List (BitVec 32)) : Bool := d.length = 1024

/-- A segment has operand cycles and a signed 11-bit anchor (R138). -/
def wfSeg (g : Seg) : Bool := decide (1 ≤ g.k) && decide (-1024 ≤ g.anchor) && decide (g.anchor ≤ 1023)

/-- A tile has at least one segment (R144). -/
def wfTile (d : TileDesc) : Bool := !d.segs.isEmpty && d.segs.all wfSeg

/-- A side of an operand cycle has at most 64 lanes (R143). -/
def wfOp (o : OpCycle) : Bool := decide (o.a.length ≤ 64) && decide (o.b.length ≤ 64) && decide (o.sa.length ≤ 64) && decide (o.sb.length ≤ 64)

/-- At most 64 × 64 accumulators (R141). -/
def wfAcc (a : Accs) : Bool := decide (a.length ≤ 64) && a.all (fun r => decide (r.length ≤ 64))

/-- A verdict flit's reason is one of R178. -/
def wfFlit (f : VerdictFlit) : Bool := decide (f.reason.toNat ≤ 8)

/-- Snooped words name words of one blank of the job region (R112). -/
def wfSnoop (x : Snoop) : Bool := decide (x.blank < jobBlanks) && x.words.all (fun w => decide (w.1 < 1024))

/-- A pair names a logical array and an op class of R191. -/
def wfPair (logical : Nat) (cls : BitVec 3) : Bool := decide (logical < 576) && decide (cls.toNat ≤ 5)

/-- A register access lies in the window and has a width of 1, 2, 4 or 8 bytes (R12). -/
def wfAccess (off width : Nat) : Bool := decide (off < 2 ^ 26) && [1, 2, 4, 8].contains width

/-- A register access of the management port as one of the window. -/
def wfRequest : MctpRequest → Bool
  | .access off width _ => wfAccess off width
  | .control _ | .numericSensor _ => true

/-- A stack-local byte address lies in the stack (R101). -/
def wfAddr (a : Nat) : Bool := decide (a < stackBytes)

/-- A trained width (R65). -/
def wfWidth (w : Nat) : Bool := [0, 2, 4, 8].contains w

namespace Instr

/-- The checks of a command's operands. -/
def wellFormed : Instr → Bool
  | .registerWrite _ off width _ => wfAccess off width
  | .regTimeout => true
  | .crossingClockRestart .. => true
  | .xingTimeoutClear _ => true
  | .irqStatusClear .. => true
  | .irqEnableWrite .. => true
  | .aonPowerValid f _ _ _ _ => decide (f.rowCnt ≤ 24) && decide (f.stackCnt ≤ 20) && decide (f.linkCnt ≤ 24)
  | .strapSample _ => true
  | .sentinelReady _ => true
  | .refclkFallback => true
  | .refclkRestored => true
  | .powerLoss a b c => a || b || c
  | .powerGoodReturn .. => true
  | .thermalTrip _ => true
  | .tripRelease => true
  | .tripStatus => true
  | .i3cDaa _ => true
  | .mctpRegisterAccess off width op => wfRequest (op.request off width)
  | .recRead _ _ n => decide (1 ≤ n) && decide (n ≤ 4)
  | .cperGet => true
  | .cperAck _ => true
  | .cperResend => true
  | .jobRead _ _ a n .. => wfAddr a && wfNoise n
  | .jobFullWrite _ _ a d _ _ _ _ _ n _ => wfAddr a && wfBlank d && wfNoise n
  | .jobPartialWrite _ _ a w _ _ n _ _ _ _ _ m _ _ => wfAddr a && wfWords w && wfNoise n && wfNoise m
  | .hostRead _ _ a n .. => wfAddr a && wfNoise n
  | .hostFullWrite _ _ a d .. => wfAddr a && wfBlank d
  | .hostPartialWrite _ _ a w _ n .. => wfAddr a && wfWords w && wfNoise n
  | .mgtuProbe .. => true
  | .mgtuProbeRun .. => true
  | .copyback _ _ b n .. => decide (b < jobBlanks) && wfNoise n
  | .fullHashRead _ _ _ b n .. => decide (b < jobBlanks) && wfNoise n
  | .linkFrameSend _ f _ b _ _ => wfBlank f.data && decide (b < jobBlanks)
  | .linkFrameReceive _ f _ => wfBlank f.data
  | .linkTrained _ t _ _ => wfWidth t.width
  | .retrain .. => true
  | .tileStart _ d => wfTile d
  | .tilePark _ ops sn => ops.all wfOp && sn.all wfSnoop
  | .singleReadStart .. => true
  | .singleReadEnd _ _ a => wfAcc a
  | .memberRead _ _ a => wfAcc a
  | .groupClose _ => true
  | .operandBlankComplete _ _ _ b _ w _ => decide (b < jobBlanks) && w.all (fun x => decide (x.1 < 1024))
  | .sliceTakeover .. => true
  | .sliceRelease .. => true
  | .handoverComplete _ => true
  | .sliceReset .. => true
  | .sliceResetEnd _ => true
  | .portReset .. => true
  | .selftestNow .. => true
  | .selftestTurnDue => true
  | .sliceSelftestEnd .. => true
  | .shadowCompare _ x => wfPair x.logical x.cls
  | .shadowMissing _ l k .. => wfPair l k
  | .voidTileOffer .. => true
  | .chaseSlotFill .. => true
  | .shdPairSelWrite .. => true
  | .pairInfoReady => true
  | .executionStart _ => true
  | .endMarker _ => true
  | .poisonCollect .. => true
  | .commitInject _ => true
  | .commitUnitAbort _ => true
  | .parting .. => true
  | .commit .. => true
  | .tileVerdict f => wfFlit f
  | .targetQuiet .. => true
  | .abortDrainTimeout _ => true
  | .replayStartSend _ => true
  | .replayStart _ => true
  | .readinessToken .. => true
  | .commitHoldTimeout _ => true
  | .substitutionIssue _ => true
  | .spareSubstituted _ => true
  | .substitutionTimeout _ => true
  | .hold .. => true
  | .release .. => true
  | .stop .. => true
  | .abortStop .. => true
  | .restart .. => true
  | .tickSyncSend => true
  | .tickSync .. => true
  | .tickSyncReply .. => true
  | .tickUnsynced => true
  | .tickHighStore => true
  | .commitNotice .. => true
  | .noticeTimeout _ => true
  | .barrierArrive _ => true
  | .arm .. => true
  | .armed .. => true
  | .start .. => true
  | .startAck .. => true
  | .abandon .. => true
  | .armTimeout _ => true
  | .startAckDeadline _ => true
  | .barrierFire _ => true
  | .digest .. => true
  | .segment .. => true
  | .huntTags _ f _ => decide (f.length ≤ 4096)
  | .huntCompare .. => true
  | .lockstepTimeout _ => true
  | .pairStop .. => true
  | .spnCfgWrite .. => true
  | .prvLeafDone .. => true
  | .prvCtxAck .. => true
  | .prvReadGo .. => true
  | .prvReadDone _ => true
  | .load .. => true
  | .cancel .. => true
  | .unload .. => true
  | .planUnloaded _ => true
  | .planValidated .. => true
  | .distributionDone .. => true
  | .planDist .. => true
  | .planSwitch _ => true
  | .faultTaken => true
  | .fstSlotAck .. => true
  | .historyEntry => true
  | .fstHistoryCfgWrite .. => true
  | .optimeStore => true
  | .arrayParity .. => true
  | .arraySequencer .. => true
  | .memCeStorm _ _ a => wfAddr a
  | .pcieCorrectable _ => true
  | .pcieUncorrectable _ => true
  | .fstUnitSelWrite .. => true
  | .unitInfoReady => true
  | .screenPatternStart .. => true
  | .screenPatternEnd .. => true
  | .screenRotationLate _ => true
  | .testNow _ => true
  | .scrUnitSelWrite .. => true
  | .scrUnitInfoReady => true
  | .sensorSample .. => true
  | .throttleUpdate => true
  | .clockStretch k _ => decide (1 ≤ k.val)
  | .clockStretchEnd _ => true
  | .marginViolationTimeout => true
  | .compensationUpdate => true
  | .thermalConfig .. => true
  | .thmSensorSelWrite .. => true
  | .sensorInfoReady => true
  | .recordIntake => true
  | .mergeWindowExpiry => true
  | .recordAppend _ => true
  | .recFlashLost _ => true
  | .flashRetry _ => true
  | .recWallWrite .. => true
  | .recCfgWrite .. => true
  | .recReadGo .. => true
  | .recReadDone => true
  | .recDumpGo .. => true
  | .recDumpDone => true
  | .fwpLoadGo .. => true
  | .fwpLoadDone _ => true
  | .mbxRing .. => true
  | .mbxTimeout .. => true
  | .hello .. => true
  | .getStatus .. => true
  | .echo .. => true
  | .queueStatus .. => true
  | .traceName .. => true
  | .open_ .. => true
  | .send .. => true
  | .waitSend .. => true
  | .recv _ => true
  | .waitRecv _ => true
  | .close .. => true
  | .queueCycle _ => true
  | .watchdogExpiry .. => true
  | .fwpCtrlRestart .. => true
  | .tcmError .. => true
  | .latchRelease .. => true
  | .fwpFailed .. => true
  | .bringupStep x => x.widths.all (fun w => wfWidth w.2.width)
  | .powerStateGo .. => true
  | .shutdown .. => true
  | .shutdownStopTimeout _ => true
  | .shutdownSelftestStart => true
  | .shutdownSelftestEnd _ => true
  | .resetGo .. => true
  | .resetDrainTimeout _ => true
  | .resetEnd => true
  | .vddAonLoss => true
  | .i3cHdrEntry => true
  | .i3cHdrExit => true
  | .recentRestartExpiry _ => true

end Instr

end Sys2Proof
end

