-- ==== Sys2Proof/Laws/PerInstr.lean ====
section
/-! SUPPORT. The family AddressInStack: a well-formed command names no byte outside its stack (R101), so that it completes in every state. -/

-- One proof at a time: the package is also compiled as one text, and proofs in parallel would need more memory than the check allows.
set_option Elab.async false

namespace Sys2Proof.Laws.AddressInStack

/-- The address a well-formed command names is a byte of the stack. -/
def Statement (i : Instr) : Prop := i.wellFormed = true → ∀ a, Machine.memAddr i = some a → a < Machine.stackSize

theorem registerWrite : ∀ x1 x2 x3 x4, Statement (.registerWrite x1 x2 x3 x4) := fun _ _ _ _ _ _ h => nomatch h

theorem regTimeout : Statement .regTimeout := fun _ _ h => nomatch h

theorem crossingClockRestart : ∀ x1 x2 x3, Statement (.crossingClockRestart x1 x2 x3) := fun _ _ _ _ _ h => nomatch h

theorem xingTimeoutClear : ∀ x1, Statement (.xingTimeoutClear x1) := fun _ _ _ h => nomatch h

theorem irqStatusClear : ∀ x1 x2 x3, Statement (.irqStatusClear x1 x2 x3) := fun _ _ _ _ _ h => nomatch h

theorem irqEnableWrite : ∀ x1 x2, Statement (.irqEnableWrite x1 x2) := fun _ _ _ _ h => nomatch h

theorem aonPowerValid : ∀ x1 x2 x3 x4 x5, Statement (.aonPowerValid x1 x2 x3 x4 x5) := fun _ _ _ _ _ _ _ h => nomatch h

theorem strapSample : ∀ x1, Statement (.strapSample x1) := fun _ _ _ h => nomatch h

theorem sentinelReady : ∀ x1, Statement (.sentinelReady x1) := fun _ _ _ h => nomatch h

theorem refclkFallback : Statement .refclkFallback := fun _ _ h => nomatch h

theorem refclkRestored : Statement .refclkRestored := fun _ _ h => nomatch h

theorem powerLoss : ∀ x1 x2 x3, Statement (.powerLoss x1 x2 x3) := fun _ _ _ _ _ h => nomatch h

theorem powerGoodReturn : ∀ x1 x2 x3, Statement (.powerGoodReturn x1 x2 x3) := fun _ _ _ _ _ h => nomatch h

theorem thermalTrip : ∀ x1, Statement (.thermalTrip x1) := fun _ _ _ h => nomatch h

theorem tripRelease : Statement .tripRelease := fun _ _ h => nomatch h

theorem tripStatus : Statement .tripStatus := fun _ _ h => nomatch h

theorem i3cDaa : ∀ x1, Statement (.i3cDaa x1) := fun _ _ _ h => nomatch h

theorem mctpRegisterAccess : ∀ x1 x2 x3, Statement (.mctpRegisterAccess x1 x2 x3) := fun _ _ _ _ _ h => nomatch h

theorem recRead : ∀ x1 x2 x3, Statement (.recRead x1 x2 x3) := fun _ _ _ _ _ h => nomatch h

theorem cperGet : Statement .cperGet := fun _ _ h => nomatch h

theorem cperAck : ∀ x1, Statement (.cperAck x1) := fun _ _ _ h => nomatch h

theorem cperResend : Statement .cperResend := fun _ _ h => nomatch h

theorem jobRead : ∀ x1 x2 x3 x4 x5 x6 x7 x8 x9 x10, Statement (.jobRead x1 x2 x3 x4 x5 x6 x7 x8 x9 x10) := by
  intro x1 x2 x3 x4 x5 x6 x7 x8 x9 x10 h a e
  cases e
  simp only [Instr.wellFormed, wfAddr, Bool.and_eq_true, decide_eq_true_eq] at h
  exact (by simp_all : x3 < stackBytes)

theorem jobFullWrite : ∀ x1 x2 x3 x4 x5 x6 x7 x8 x9 x10 x11, Statement (.jobFullWrite x1 x2 x3 x4 x5 x6 x7 x8 x9 x10 x11) := by
  intro x1 x2 x3 x4 x5 x6 x7 x8 x9 x10 x11 h a e
  cases e
  simp only [Instr.wellFormed, wfAddr, Bool.and_eq_true, decide_eq_true_eq] at h
  exact (by simp_all : x3 < stackBytes)

theorem jobPartialWrite : ∀ x1 x2 x3 x4 x5 x6 x7 x8 x9 x10 x11 x12 x13 x14 x15, Statement (.jobPartialWrite x1 x2 x3 x4 x5 x6 x7 x8 x9 x10 x11 x12 x13 x14 x15) := by
  intro x1 x2 x3 x4 x5 x6 x7 x8 x9 x10 x11 x12 x13 x14 x15 h a e
  cases e
  simp only [Instr.wellFormed, wfAddr, Bool.and_eq_true, decide_eq_true_eq] at h
  exact (by simp_all : x3 < stackBytes)

theorem hostRead : ∀ x1 x2 x3 x4 x5 x6, Statement (.hostRead x1 x2 x3 x4 x5 x6) := by
  intro x1 x2 x3 x4 x5 x6 h a e
  cases e
  simp only [Instr.wellFormed, wfAddr, Bool.and_eq_true, decide_eq_true_eq] at h
  exact (by simp_all : x3 < stackBytes)

theorem hostFullWrite : ∀ x1 x2 x3 x4 x5 x6, Statement (.hostFullWrite x1 x2 x3 x4 x5 x6) := by
  intro x1 x2 x3 x4 x5 x6 h a e
  cases e
  simp only [Instr.wellFormed, wfAddr, Bool.and_eq_true, decide_eq_true_eq] at h
  exact (by simp_all : x3 < stackBytes)

theorem hostPartialWrite : ∀ x1 x2 x3 x4 x5 x6 x7 x8, Statement (.hostPartialWrite x1 x2 x3 x4 x5 x6 x7 x8) := by
  intro x1 x2 x3 x4 x5 x6 x7 x8 h a e
  cases e
  simp only [Instr.wellFormed, wfAddr, Bool.and_eq_true, decide_eq_true_eq] at h
  exact (by simp_all : x3 < stackBytes)

theorem mgtuProbe : ∀ x1 x2 x3, Statement (.mgtuProbe x1 x2 x3) := fun _ _ _ _ _ h => nomatch h

theorem mgtuProbeRun : ∀ x1 x2, Statement (.mgtuProbeRun x1 x2) := fun _ _ _ _ h => nomatch h

theorem copyback : ∀ x1 x2 x3 x4 x5 x6 x7, Statement (.copyback x1 x2 x3 x4 x5 x6 x7) := fun _ _ _ _ _ _ _ _ _ h => nomatch h

theorem fullHashRead : ∀ x1 x2 x3 x4 x5 x6 x7, Statement (.fullHashRead x1 x2 x3 x4 x5 x6 x7) := fun _ _ _ _ _ _ _ _ _ h => nomatch h

theorem linkFrameSend : ∀ x1 x2 x3 x4 x5 x6, Statement (.linkFrameSend x1 x2 x3 x4 x5 x6) := fun _ _ _ _ _ _ _ _ h => nomatch h

theorem linkFrameReceive : ∀ x1 x2 x3, Statement (.linkFrameReceive x1 x2 x3) := fun _ _ _ _ _ h => nomatch h

theorem linkTrained : ∀ x1 x2 x3 x4, Statement (.linkTrained x1 x2 x3 x4) := fun _ _ _ _ _ _ h => nomatch h

theorem retrain : ∀ x1 x2, Statement (.retrain x1 x2) := fun _ _ _ _ h => nomatch h

theorem tileStart : ∀ x1 x2, Statement (.tileStart x1 x2) := fun _ _ _ _ h => nomatch h

theorem tilePark : ∀ x1 x2 x3, Statement (.tilePark x1 x2 x3) := fun _ _ _ _ _ h => nomatch h

theorem singleReadStart : ∀ x1 x2, Statement (.singleReadStart x1 x2) := fun _ _ _ _ h => nomatch h

theorem singleReadEnd : ∀ x1 x2 x3, Statement (.singleReadEnd x1 x2 x3) := fun _ _ _ _ _ h => nomatch h

theorem memberRead : ∀ x1 x2 x3, Statement (.memberRead x1 x2 x3) := fun _ _ _ _ _ h => nomatch h

theorem groupClose : ∀ x1, Statement (.groupClose x1) := fun _ _ _ h => nomatch h

theorem operandBlankComplete : ∀ x1 x2 x3 x4 x5 x6 x7, Statement (.operandBlankComplete x1 x2 x3 x4 x5 x6 x7) := fun _ _ _ _ _ _ _ _ _ h => nomatch h

theorem sliceTakeover : ∀ x1 x2, Statement (.sliceTakeover x1 x2) := fun _ _ _ _ h => nomatch h

theorem sliceRelease : ∀ x1 x2, Statement (.sliceRelease x1 x2) := fun _ _ _ _ h => nomatch h

theorem handoverComplete : ∀ x1, Statement (.handoverComplete x1) := fun _ _ _ h => nomatch h

theorem sliceReset : ∀ x1 x2, Statement (.sliceReset x1 x2) := fun _ _ _ _ h => nomatch h

theorem sliceResetEnd : ∀ x1, Statement (.sliceResetEnd x1) := fun _ _ _ h => nomatch h

theorem portReset : ∀ x1 x2, Statement (.portReset x1 x2) := fun _ _ _ _ h => nomatch h

theorem selftestNow : ∀ x1 x2, Statement (.selftestNow x1 x2) := fun _ _ _ _ h => nomatch h

theorem selftestTurnDue : Statement .selftestTurnDue := fun _ _ h => nomatch h

theorem sliceSelftestEnd : ∀ x1 x2 x3, Statement (.sliceSelftestEnd x1 x2 x3) := fun _ _ _ _ _ h => nomatch h

theorem shadowCompare : ∀ x1 x2, Statement (.shadowCompare x1 x2) := fun _ _ _ _ h => nomatch h

theorem shadowMissing : ∀ x1 x2 x3 x4 x5 x6, Statement (.shadowMissing x1 x2 x3 x4 x5 x6) := fun _ _ _ _ _ _ _ _ h => nomatch h

theorem voidTileOffer : ∀ x1 x2 x3 x4, Statement (.voidTileOffer x1 x2 x3 x4) := fun _ _ _ _ _ _ h => nomatch h

theorem chaseSlotFill : ∀ x1 x2, Statement (.chaseSlotFill x1 x2) := fun _ _ _ _ h => nomatch h

theorem shdPairSelWrite : ∀ x1 x2, Statement (.shdPairSelWrite x1 x2) := fun _ _ _ _ h => nomatch h

theorem pairInfoReady : Statement .pairInfoReady := fun _ _ h => nomatch h

theorem executionStart : ∀ x1, Statement (.executionStart x1) := fun _ _ _ h => nomatch h

theorem endMarker : ∀ x1, Statement (.endMarker x1) := fun _ _ _ h => nomatch h

theorem poisonCollect : ∀ x1 x2, Statement (.poisonCollect x1 x2) := fun _ _ _ _ h => nomatch h

theorem commitInject : ∀ x1, Statement (.commitInject x1) := fun _ _ _ h => nomatch h

theorem commitUnitAbort : ∀ x1, Statement (.commitUnitAbort x1) := fun _ _ _ h => nomatch h

theorem parting : ∀ x1 x2, Statement (.parting x1 x2) := fun _ _ _ _ h => nomatch h

theorem commit : ∀ x1 x2, Statement (.commit x1 x2) := fun _ _ _ _ h => nomatch h

theorem tileVerdict : ∀ x1, Statement (.tileVerdict x1) := fun _ _ _ h => nomatch h

theorem targetQuiet : ∀ x1 x2, Statement (.targetQuiet x1 x2) := fun _ _ _ _ h => nomatch h

theorem abortDrainTimeout : ∀ x1, Statement (.abortDrainTimeout x1) := fun _ _ _ h => nomatch h

theorem replayStartSend : ∀ x1, Statement (.replayStartSend x1) := fun _ _ _ h => nomatch h

theorem replayStart : ∀ x1, Statement (.replayStart x1) := fun _ _ _ h => nomatch h

theorem readinessToken : ∀ x1 x2, Statement (.readinessToken x1 x2) := fun _ _ _ _ h => nomatch h

theorem commitHoldTimeout : ∀ x1, Statement (.commitHoldTimeout x1) := fun _ _ _ h => nomatch h

theorem substitutionIssue : ∀ x1, Statement (.substitutionIssue x1) := fun _ _ _ h => nomatch h

theorem spareSubstituted : ∀ x1, Statement (.spareSubstituted x1) := fun _ _ _ h => nomatch h

theorem substitutionTimeout : ∀ x1, Statement (.substitutionTimeout x1) := fun _ _ _ h => nomatch h

theorem hold : ∀ x1 x2, Statement (.hold x1 x2) := fun _ _ _ _ h => nomatch h

theorem release : ∀ x1 x2, Statement (.release x1 x2) := fun _ _ _ _ h => nomatch h

theorem stop : ∀ x1 x2, Statement (.stop x1 x2) := fun _ _ _ _ h => nomatch h

theorem abortStop : ∀ x1 x2, Statement (.abortStop x1 x2) := fun _ _ _ _ h => nomatch h

theorem restart : ∀ x1 x2, Statement (.restart x1 x2) := fun _ _ _ _ h => nomatch h

theorem tickSyncSend : Statement .tickSyncSend := fun _ _ h => nomatch h

theorem tickSync : ∀ x1 x2 x3 x4 x5, Statement (.tickSync x1 x2 x3 x4 x5) := fun _ _ _ _ _ _ _ h => nomatch h

theorem tickSyncReply : ∀ x1 x2 x3 x4 x5 x6, Statement (.tickSyncReply x1 x2 x3 x4 x5 x6) := fun _ _ _ _ _ _ _ _ h => nomatch h

theorem tickUnsynced : Statement .tickUnsynced := fun _ _ h => nomatch h

theorem tickHighStore : Statement .tickHighStore := fun _ _ h => nomatch h

theorem commitNotice : ∀ x1 x2 x3 x4, Statement (.commitNotice x1 x2 x3 x4) := fun _ _ _ _ _ _ h => nomatch h

theorem noticeTimeout : ∀ x1, Statement (.noticeTimeout x1) := fun _ _ _ h => nomatch h

theorem barrierArrive : ∀ x1, Statement (.barrierArrive x1) := fun _ _ _ h => nomatch h

theorem arm : ∀ x1 x2 x3 x4, Statement (.arm x1 x2 x3 x4) := fun _ _ _ _ _ _ h => nomatch h

theorem armed : ∀ x1 x2 x3 x4 x5 x6, Statement (.armed x1 x2 x3 x4 x5 x6) := fun _ _ _ _ _ _ _ _ h => nomatch h

theorem start : ∀ x1 x2 x3 x4, Statement (.start x1 x2 x3 x4) := fun _ _ _ _ _ _ h => nomatch h

theorem startAck : ∀ x1 x2 x3 x4, Statement (.startAck x1 x2 x3 x4) := fun _ _ _ _ _ _ h => nomatch h

theorem abandon : ∀ x1 x2 x3 x4, Statement (.abandon x1 x2 x3 x4) := fun _ _ _ _ _ _ h => nomatch h

theorem armTimeout : ∀ x1, Statement (.armTimeout x1) := fun _ _ _ h => nomatch h

theorem startAckDeadline : ∀ x1, Statement (.startAckDeadline x1) := fun _ _ _ h => nomatch h

theorem barrierFire : ∀ x1, Statement (.barrierFire x1) := fun _ _ _ h => nomatch h

theorem digest : ∀ x1 x2, Statement (.digest x1 x2) := fun _ _ _ _ h => nomatch h

theorem segment : ∀ x1 x2 x3, Statement (.segment x1 x2 x3) := fun _ _ _ _ _ h => nomatch h

theorem huntTags : ∀ x1 x2 x3, Statement (.huntTags x1 x2 x3) := fun _ _ _ _ _ h => nomatch h

theorem huntCompare : ∀ x1 x2 x3, Statement (.huntCompare x1 x2 x3) := fun _ _ _ _ _ h => nomatch h

theorem lockstepTimeout : ∀ x1, Statement (.lockstepTimeout x1) := fun _ _ _ h => nomatch h

theorem pairStop : ∀ x1 x2, Statement (.pairStop x1 x2) := fun _ _ _ _ h => nomatch h

theorem spnCfgWrite : ∀ x1 x2, Statement (.spnCfgWrite x1 x2) := fun _ _ _ _ h => nomatch h

theorem prvLeafDone : ∀ x1 x2, Statement (.prvLeafDone x1 x2) := fun _ _ _ _ h => nomatch h

theorem prvCtxAck : ∀ x1 x2 x3, Statement (.prvCtxAck x1 x2 x3) := fun _ _ _ _ _ h => nomatch h

theorem prvReadGo : ∀ x1 x2, Statement (.prvReadGo x1 x2) := fun _ _ _ _ h => nomatch h

theorem prvReadDone : ∀ x1, Statement (.prvReadDone x1) := fun _ _ _ h => nomatch h

theorem load : ∀ x1 x2, Statement (.load x1 x2) := fun _ _ _ _ h => nomatch h

theorem cancel : ∀ x1 x2, Statement (.cancel x1 x2) := fun _ _ _ _ h => nomatch h

theorem unload : ∀ x1 x2, Statement (.unload x1 x2) := fun _ _ _ _ h => nomatch h

theorem planUnloaded : ∀ x1, Statement (.planUnloaded x1) := fun _ _ _ h => nomatch h

theorem planValidated : ∀ x1 x2 x3, Statement (.planValidated x1 x2 x3) := fun _ _ _ _ _ h => nomatch h

theorem distributionDone : ∀ x1 x2, Statement (.distributionDone x1 x2) := fun _ _ _ _ h => nomatch h

theorem planDist : ∀ x1 x2 x3 x4 x5, Statement (.planDist x1 x2 x3 x4 x5) := fun _ _ _ _ _ _ _ h => nomatch h

theorem planSwitch : ∀ x1, Statement (.planSwitch x1) := fun _ _ _ h => nomatch h

theorem faultTaken : Statement .faultTaken := fun _ _ h => nomatch h

theorem fstSlotAck : ∀ x1 x2, Statement (.fstSlotAck x1 x2) := fun _ _ _ _ h => nomatch h

theorem historyEntry : Statement .historyEntry := fun _ _ h => nomatch h

theorem fstHistoryCfgWrite : ∀ x1 x2, Statement (.fstHistoryCfgWrite x1 x2) := fun _ _ _ _ h => nomatch h

theorem optimeStore : Statement .optimeStore := fun _ _ h => nomatch h

theorem arrayParity : ∀ x1 x2 x3, Statement (.arrayParity x1 x2 x3) := fun _ _ _ _ _ h => nomatch h

theorem arraySequencer : ∀ x1 x2 x3, Statement (.arraySequencer x1 x2 x3) := fun _ _ _ _ _ h => nomatch h

theorem memCeStorm : ∀ x1 x2 x3, Statement (.memCeStorm x1 x2 x3) := fun _ _ _ _ _ h => nomatch h

theorem pcieCorrectable : ∀ x1, Statement (.pcieCorrectable x1) := fun _ _ _ h => nomatch h

theorem pcieUncorrectable : ∀ x1, Statement (.pcieUncorrectable x1) := fun _ _ _ h => nomatch h

theorem fstUnitSelWrite : ∀ x1 x2, Statement (.fstUnitSelWrite x1 x2) := fun _ _ _ _ h => nomatch h

theorem unitInfoReady : Statement .unitInfoReady := fun _ _ h => nomatch h

theorem screenPatternStart : ∀ x1 x2, Statement (.screenPatternStart x1 x2) := fun _ _ _ _ h => nomatch h

theorem screenPatternEnd : ∀ x1 x2 x3, Statement (.screenPatternEnd x1 x2 x3) := fun _ _ _ _ _ h => nomatch h

theorem screenRotationLate : ∀ x1, Statement (.screenRotationLate x1) := fun _ _ _ h => nomatch h

theorem testNow : ∀ x1, Statement (.testNow x1) := fun _ _ _ h => nomatch h

theorem scrUnitSelWrite : ∀ x1 x2, Statement (.scrUnitSelWrite x1 x2) := fun _ _ _ _ h => nomatch h

theorem scrUnitInfoReady : Statement .scrUnitInfoReady := fun _ _ h => nomatch h

theorem sensorSample : ∀ x1 x2, Statement (.sensorSample x1 x2) := fun _ _ _ _ h => nomatch h

theorem throttleUpdate : Statement .throttleUpdate := fun _ _ h => nomatch h

theorem clockStretch : ∀ x1 x2, Statement (.clockStretch x1 x2) := fun _ _ _ _ h => nomatch h

theorem clockStretchEnd : ∀ x1, Statement (.clockStretchEnd x1) := fun _ _ _ h => nomatch h

theorem marginViolationTimeout : Statement .marginViolationTimeout := fun _ _ h => nomatch h

theorem compensationUpdate : Statement .compensationUpdate := fun _ _ h => nomatch h

theorem thermalConfig : ∀ x1 x2, Statement (.thermalConfig x1 x2) := fun _ _ _ _ h => nomatch h

theorem thmSensorSelWrite : ∀ x1 x2, Statement (.thmSensorSelWrite x1 x2) := fun _ _ _ _ h => nomatch h

theorem sensorInfoReady : Statement .sensorInfoReady := fun _ _ h => nomatch h

theorem recordIntake : Statement .recordIntake := fun _ _ h => nomatch h

theorem mergeWindowExpiry : Statement .mergeWindowExpiry := fun _ _ h => nomatch h

theorem recordAppend : ∀ x1, Statement (.recordAppend x1) := fun _ _ _ h => nomatch h

theorem recFlashLost : ∀ x1, Statement (.recFlashLost x1) := fun _ _ _ h => nomatch h

theorem flashRetry : ∀ x1, Statement (.flashRetry x1) := fun _ _ _ h => nomatch h

theorem recWallWrite : ∀ x1 x2, Statement (.recWallWrite x1 x2) := fun _ _ _ _ h => nomatch h

theorem recCfgWrite : ∀ x1 x2, Statement (.recCfgWrite x1 x2) := fun _ _ _ _ h => nomatch h

theorem recReadGo : ∀ x1 x2, Statement (.recReadGo x1 x2) := fun _ _ _ _ h => nomatch h

theorem recReadDone : Statement .recReadDone := fun _ _ h => nomatch h

theorem recDumpGo : ∀ x1 x2, Statement (.recDumpGo x1 x2) := fun _ _ _ _ h => nomatch h

theorem recDumpDone : Statement .recDumpDone := fun _ _ h => nomatch h

theorem fwpLoadGo : ∀ x1 x2, Statement (.fwpLoadGo x1 x2) := fun _ _ _ _ h => nomatch h

theorem fwpLoadDone : ∀ x1, Statement (.fwpLoadDone x1) := fun _ _ _ h => nomatch h

theorem mbxRing : ∀ x1 x2 x3, Statement (.mbxRing x1 x2 x3) := fun _ _ _ _ _ h => nomatch h

theorem mbxTimeout : ∀ x1 x2, Statement (.mbxTimeout x1 x2) := fun _ _ _ _ h => nomatch h

theorem hello : ∀ x1 x2 x3, Statement (.hello x1 x2 x3) := fun _ _ _ _ _ h => nomatch h

theorem getStatus : ∀ x1 x2 x3, Statement (.getStatus x1 x2 x3) := fun _ _ _ _ _ h => nomatch h

theorem echo : ∀ x1 x2 x3, Statement (.echo x1 x2 x3) := fun _ _ _ _ _ h => nomatch h

theorem queueStatus : ∀ x1 x2 x3, Statement (.queueStatus x1 x2 x3) := fun _ _ _ _ _ h => nomatch h

theorem traceName : ∀ x1 x2 x3, Statement (.traceName x1 x2 x3) := fun _ _ _ _ _ h => nomatch h

theorem open_ : ∀ x1 x2 x3 x4, Statement (.open_ x1 x2 x3 x4) := fun _ _ _ _ _ _ h => nomatch h

theorem send : ∀ x1 x2 x3, Statement (.send x1 x2 x3) := fun _ _ _ _ _ h => nomatch h

theorem waitSend : ∀ x1 x2 x3, Statement (.waitSend x1 x2 x3) := fun _ _ _ _ _ h => nomatch h

theorem recv : ∀ x1, Statement (.recv x1) := fun _ _ _ h => nomatch h

theorem waitRecv : ∀ x1, Statement (.waitRecv x1) := fun _ _ _ h => nomatch h

theorem close : ∀ x1 x2, Statement (.close x1 x2) := fun _ _ _ _ h => nomatch h

theorem queueCycle : ∀ x1, Statement (.queueCycle x1) := fun _ _ _ h => nomatch h

theorem watchdogExpiry : ∀ x1 x2, Statement (.watchdogExpiry x1 x2) := fun _ _ _ _ h => nomatch h

theorem fwpCtrlRestart : ∀ x1 x2 x3, Statement (.fwpCtrlRestart x1 x2 x3) := fun _ _ _ _ _ h => nomatch h

theorem tcmError : ∀ x1 x2 x3 x4, Statement (.tcmError x1 x2 x3 x4) := fun _ _ _ _ _ _ h => nomatch h

theorem latchRelease : ∀ x1 x2, Statement (.latchRelease x1 x2) := fun _ _ _ _ h => nomatch h

theorem fwpFailed : ∀ x1 x2, Statement (.fwpFailed x1 x2) := fun _ _ _ _ h => nomatch h

theorem bringupStep : ∀ x1, Statement (.bringupStep x1) := fun _ _ _ h => nomatch h

theorem powerStateGo : ∀ x1 x2, Statement (.powerStateGo x1 x2) := fun _ _ _ _ h => nomatch h

theorem shutdown : ∀ x1 x2, Statement (.shutdown x1 x2) := fun _ _ _ _ h => nomatch h

theorem shutdownStopTimeout : ∀ x1, Statement (.shutdownStopTimeout x1) := fun _ _ _ h => nomatch h

theorem shutdownSelftestStart : Statement .shutdownSelftestStart := fun _ _ h => nomatch h

theorem shutdownSelftestEnd : ∀ x1, Statement (.shutdownSelftestEnd x1) := fun _ _ _ h => nomatch h

theorem resetGo : ∀ x1 x2, Statement (.resetGo x1 x2) := fun _ _ _ _ h => nomatch h

theorem resetDrainTimeout : ∀ x1, Statement (.resetDrainTimeout x1) := fun _ _ _ h => nomatch h

theorem resetEnd : Statement .resetEnd := fun _ _ h => nomatch h

theorem vddAonLoss : Statement .vddAonLoss := fun _ _ h => nomatch h

theorem i3cHdrEntry : Statement .i3cHdrEntry := fun _ _ h => nomatch h

theorem i3cHdrExit : Statement .i3cHdrExit := fun _ _ h => nomatch h

theorem recentRestartExpiry : ∀ x1, Statement (.recentRestartExpiry x1) := fun _ _ _ h => nomatch h

end Sys2Proof.Laws.AddressInStack
end

