-- ==== Sys2Proof/Laws/State.lean ====
section
/-! SUPPORT. What each update of the state leaves in each of its fields, by definition; and what a table holds after an update. -/

-- One proof at a time: the package is also compiled as one text, and proofs in parallel would need more memory than the check allows.
set_option Elab.async false

namespace Sys2Proof

@[simp] theorem Tab.at_upd_same {n : Nat} {α : Type} (t : Tab n α) (i : Fin n) (f : α → α) : (t.upd i f).at i = f (t.at i) := by
  simp [Tab.at, Tab.upd]

@[simp] theorem Tab.at_upd_other {n : Nat} {α : Type} (t : Tab n α) {i j : Fin n} (f : α → α) (h : j ≠ i) : (t.upd i f).at j = t.at j := by
  have : i.val ≠ j.val := fun e => h (Fin.ext e.symm)
  simp [Tab.at, Tab.upd, this]

@[simp] theorem Tab.at_mapAll {n : Nat} {α : Type} (t : Tab n α) (f : Fin n → α → α) (i : Fin n) : (t.mapAll f).at i = f i (t.at i) := by
  simp [Tab.at, Tab.mapAll]

namespace Machine

variable (s : State)

/-! ## A context read after an update -/

@[simp] theorem State.onCtx_ctx_same (c : Ctx) (f : CtxSt → CtxSt) : (s.onCtx c f).ctx c = f (s.ctx c) := Tab.at_upd_same ..

@[simp] theorem State.onCtx_ctx_other {c d : Ctx} (f : CtxSt → CtxSt) (h : d ≠ c) : (s.onCtx c f).ctx d = s.ctx d := Tab.at_upd_other _ _ h

@[simp] theorem State.onPass_ctx_same (c : Ctx) (f : PassSt → PassSt) :
    (s.onPass c f).ctx c = { s.ctx c with pass := f (s.ctx c).pass } := Tab.at_upd_same ..

@[simp] theorem State.onPass_ctx_other {c d : Ctx} (f : PassSt → PassSt) (h : d ≠ c) : (s.onPass c f).ctx d = s.ctx d := Tab.at_upd_other _ _ h

@[simp] theorem State.onExec_ctx_same (c : Ctx) (f : ExecSt → ExecSt) :
    (s.onExec c f).ctx c = { s.ctx c with exec := f (s.ctx c).exec } := Tab.at_upd_same ..

@[simp] theorem State.onExec_ctx_other {c d : Ctx} (f : ExecSt → ExecSt) (h : d ≠ c) : (s.onExec c f).ctx d = s.ctx d := Tab.at_upd_other _ _ h

@[simp] theorem State.onPos_ctx_same (c : Ctx) (f : PosSt → PosSt) :
    (s.onPos c f).ctx c = { s.ctx c with pos := f (s.ctx c).pos } := Tab.at_upd_same ..

@[simp] theorem State.onPos_ctx_other {c d : Ctx} (f : PosSt → PosSt) (h : d ≠ c) : (s.onPos c f).ctx d = s.ctx d := Tab.at_upd_other _ _ h

@[simp] theorem State.onPlan_ctx_same (c : Ctx) (f : PlanSt → PlanSt) :
    (s.onPlan c f).ctx c = { s.ctx c with plan := f (s.ctx c).plan } := Tab.at_upd_same ..

@[simp] theorem State.onPlan_ctx_other {c d : Ctx} (f : PlanSt → PlanSt) (h : d ≠ c) : (s.onPlan c f).ctx d = s.ctx d := Tab.at_upd_other _ _ h

@[simp] theorem State.onBar_ctx_same (c : Ctx) (f : BarSt → BarSt) :
    (s.onBar c f).ctx c = { s.ctx c with bar := f (s.ctx c).bar } := Tab.at_upd_same ..

@[simp] theorem State.onBar_ctx_other {c d : Ctx} (f : BarSt → BarSt) (h : d ≠ c) : (s.onBar c f).ctx d = s.ctx d := Tab.at_upd_other _ _ h

@[simp] theorem State.onLsc_ctx_same (c : Ctx) (f : LscSt → LscSt) :
    (s.onLsc c f).ctx c = { s.ctx c with lsc := f (s.ctx c).lsc } := Tab.at_upd_same ..

@[simp] theorem State.onLsc_ctx_other {c d : Ctx} (f : LscSt → LscSt) (h : d ≠ c) : (s.onLsc c f).ctx d = s.ctx d := Tab.at_upd_other _ _ h

@[simp] theorem State.onPrv_ctx_same (c : Ctx) (f : PrvCtx → PrvCtx) :
    (s.onPrv c f).ctx c = { s.ctx c with prv := f (s.ctx c).prv } := Tab.at_upd_same ..

@[simp] theorem State.onPrv_ctx_other {c d : Ctx} (f : PrvCtx → PrvCtx) (h : d ≠ c) : (s.onPrv c f).ctx d = s.ctx d := Tab.at_upd_other _ _ h

@[simp] theorem State.onCov_ctx_same (c : Ctx) (f : CovSt → CovSt) :
    (s.onCov c f).ctx c = { s.ctx c with cov := f (s.ctx c).cov } := Tab.at_upd_same ..

@[simp] theorem State.onCov_ctx_other {c d : Ctx} (f : CovSt → CovSt) (h : d ≠ c) : (s.onCov c f).ctx d = s.ctx d := Tab.at_upd_other _ _ h

@[simp] theorem State.onTag_ctx_same (c : Ctx) (f : TagSt → TagSt) :
    (s.onTag c f).ctx c = { s.ctx c with tag := f (s.ctx c).tag } := Tab.at_upd_same ..

@[simp] theorem State.onTag_ctx_other {c d : Ctx} (f : TagSt → TagSt) (h : d ≠ c) : (s.onTag c f).ctx d = s.ctx d := Tab.at_upd_other _ _ h

/-! ## onCtx -/

@[simp] theorem State.onCtx_pending (c : Ctx) (f : CtxSt → CtxSt) : (s.onCtx c f).pending = s.pending := rfl
@[simp] theorem State.onCtx_out (c : Ctx) (f : CtxSt → CtxSt) : (s.onCtx c f).out = s.out := rfl
@[simp] theorem State.onCtx_free (c : Ctx) (f : CtxSt → CtxSt) : (s.onCtx c f).free = s.free := rfl
@[simp] theorem State.onCtx_fuses (c : Ctx) (f : CtxSt → CtxSt) : (s.onCtx c f).fuses = s.fuses := rfl
@[simp] theorem State.onCtx_aon (c : Ctx) (f : CtxSt → CtxSt) : (s.onCtx c f).aon = s.aon := rfl
@[simp] theorem State.onCtx_xing (c : Ctx) (f : CtxSt → CtxSt) : (s.onCtx c f).xing = s.xing := rfl
@[simp] theorem State.onCtx_irq (c : Ctx) (f : CtxSt → CtxSt) : (s.onCtx c f).irq = s.irq := rfl
@[simp] theorem State.onCtx_time (c : Ctx) (f : CtxSt → CtxSt) : (s.onCtx c f).time = s.time := rfl
@[simp] theorem State.onCtx_spn (c : Ctx) (f : CtxSt → CtxSt) : (s.onCtx c f).spn = s.spn := rfl
@[simp] theorem State.onCtx_ctxs (c : Ctx) (f : CtxSt → CtxSt) : (s.onCtx c f).ctxs = s.ctxs.upd c f := rfl
@[simp] theorem State.onCtx_mem (c : Ctx) (f : CtxSt → CtxSt) : (s.onCtx c f).mem = s.mem := rfl
@[simp] theorem State.onCtx_tags (c : Ctx) (f : CtxSt → CtxSt) : (s.onCtx c f).tags = s.tags := rfl
@[simp] theorem State.onCtx_mgtu (c : Ctx) (f : CtxSt → CtxSt) : (s.onCtx c f).mgtu = s.mgtu := rfl
@[simp] theorem State.onCtx_lgtu (c : Ctx) (f : CtxSt → CtxSt) : (s.onCtx c f).lgtu = s.lgtu := rfl
@[simp] theorem State.onCtx_retryLimit (c : Ctx) (f : CtxSt → CtxSt) : (s.onCtx c f).retryLimit = s.retryLimit := rfl
@[simp] theorem State.onCtx_wce (c : Ctx) (f : CtxSt → CtxSt) : (s.onCtx c f).wce = s.wce := rfl
@[simp] theorem State.onCtx_shd (c : Ctx) (f : CtxSt → CtxSt) : (s.onCtx c f).shd = s.shd := rfl
@[simp] theorem State.onCtx_fst (c : Ctx) (f : CtxSt → CtxSt) : (s.onCtx c f).fst = s.fst := rfl
@[simp] theorem State.onCtx_prv (c : Ctx) (f : CtxSt → CtxSt) : (s.onCtx c f).prv = s.prv := rfl
@[simp] theorem State.onCtx_pln (c : Ctx) (f : CtxSt → CtxSt) : (s.onCtx c f).pln = s.pln := rfl
@[simp] theorem State.onCtx_thm (c : Ctx) (f : CtxSt → CtxSt) : (s.onCtx c f).thm = s.thm := rfl
@[simp] theorem State.onCtx_rcd (c : Ctx) (f : CtxSt → CtxSt) : (s.onCtx c f).rcd = s.rcd := rfl
@[simp] theorem State.onCtx_fwp (c : Ctx) (f : CtxSt → CtxSt) : (s.onCtx c f).fwp = s.fwp := rfl
@[simp] theorem State.onCtx_scr (c : Ctx) (f : CtxSt → CtxSt) : (s.onCtx c f).scr = s.scr := rfl
@[simp] theorem State.onCtx_mgt (c : Ctx) (f : CtxSt → CtxSt) : (s.onCtx c f).mgt = s.mgt := rfl
@[simp] theorem State.onCtx_pwr (c : Ctx) (f : CtxSt → CtxSt) : (s.onCtx c f).pwr = s.pwr := rfl
@[simp] theorem State.onCtx_jobMap (c : Ctx) (f : CtxSt → CtxSt) : (s.onCtx c f).jobMap = s.jobMap := rfl

/-! ## onPass -/

@[simp] theorem State.onPass_pending (c : Ctx) (f : PassSt → PassSt) : (s.onPass c f).pending = s.pending := rfl
@[simp] theorem State.onPass_out (c : Ctx) (f : PassSt → PassSt) : (s.onPass c f).out = s.out := rfl
@[simp] theorem State.onPass_free (c : Ctx) (f : PassSt → PassSt) : (s.onPass c f).free = s.free := rfl
@[simp] theorem State.onPass_fuses (c : Ctx) (f : PassSt → PassSt) : (s.onPass c f).fuses = s.fuses := rfl
@[simp] theorem State.onPass_aon (c : Ctx) (f : PassSt → PassSt) : (s.onPass c f).aon = s.aon := rfl
@[simp] theorem State.onPass_xing (c : Ctx) (f : PassSt → PassSt) : (s.onPass c f).xing = s.xing := rfl
@[simp] theorem State.onPass_irq (c : Ctx) (f : PassSt → PassSt) : (s.onPass c f).irq = s.irq := rfl
@[simp] theorem State.onPass_time (c : Ctx) (f : PassSt → PassSt) : (s.onPass c f).time = s.time := rfl
@[simp] theorem State.onPass_spn (c : Ctx) (f : PassSt → PassSt) : (s.onPass c f).spn = s.spn := rfl
@[simp] theorem State.onPass_ctxs (c : Ctx) (f : PassSt → PassSt) : (s.onPass c f).ctxs = s.ctxs.upd c (fun x => { x with pass := f x.pass }) := rfl
@[simp] theorem State.onPass_mem (c : Ctx) (f : PassSt → PassSt) : (s.onPass c f).mem = s.mem := rfl
@[simp] theorem State.onPass_tags (c : Ctx) (f : PassSt → PassSt) : (s.onPass c f).tags = s.tags := rfl
@[simp] theorem State.onPass_mgtu (c : Ctx) (f : PassSt → PassSt) : (s.onPass c f).mgtu = s.mgtu := rfl
@[simp] theorem State.onPass_lgtu (c : Ctx) (f : PassSt → PassSt) : (s.onPass c f).lgtu = s.lgtu := rfl
@[simp] theorem State.onPass_retryLimit (c : Ctx) (f : PassSt → PassSt) : (s.onPass c f).retryLimit = s.retryLimit := rfl
@[simp] theorem State.onPass_wce (c : Ctx) (f : PassSt → PassSt) : (s.onPass c f).wce = s.wce := rfl
@[simp] theorem State.onPass_shd (c : Ctx) (f : PassSt → PassSt) : (s.onPass c f).shd = s.shd := rfl
@[simp] theorem State.onPass_fst (c : Ctx) (f : PassSt → PassSt) : (s.onPass c f).fst = s.fst := rfl
@[simp] theorem State.onPass_prv (c : Ctx) (f : PassSt → PassSt) : (s.onPass c f).prv = s.prv := rfl
@[simp] theorem State.onPass_pln (c : Ctx) (f : PassSt → PassSt) : (s.onPass c f).pln = s.pln := rfl
@[simp] theorem State.onPass_thm (c : Ctx) (f : PassSt → PassSt) : (s.onPass c f).thm = s.thm := rfl
@[simp] theorem State.onPass_rcd (c : Ctx) (f : PassSt → PassSt) : (s.onPass c f).rcd = s.rcd := rfl
@[simp] theorem State.onPass_fwp (c : Ctx) (f : PassSt → PassSt) : (s.onPass c f).fwp = s.fwp := rfl
@[simp] theorem State.onPass_scr (c : Ctx) (f : PassSt → PassSt) : (s.onPass c f).scr = s.scr := rfl
@[simp] theorem State.onPass_mgt (c : Ctx) (f : PassSt → PassSt) : (s.onPass c f).mgt = s.mgt := rfl
@[simp] theorem State.onPass_pwr (c : Ctx) (f : PassSt → PassSt) : (s.onPass c f).pwr = s.pwr := rfl
@[simp] theorem State.onPass_jobMap (c : Ctx) (f : PassSt → PassSt) : (s.onPass c f).jobMap = s.jobMap := rfl

/-! ## onExec -/

@[simp] theorem State.onExec_pending (c : Ctx) (f : ExecSt → ExecSt) : (s.onExec c f).pending = s.pending := rfl
@[simp] theorem State.onExec_out (c : Ctx) (f : ExecSt → ExecSt) : (s.onExec c f).out = s.out := rfl
@[simp] theorem State.onExec_free (c : Ctx) (f : ExecSt → ExecSt) : (s.onExec c f).free = s.free := rfl
@[simp] theorem State.onExec_fuses (c : Ctx) (f : ExecSt → ExecSt) : (s.onExec c f).fuses = s.fuses := rfl
@[simp] theorem State.onExec_aon (c : Ctx) (f : ExecSt → ExecSt) : (s.onExec c f).aon = s.aon := rfl
@[simp] theorem State.onExec_xing (c : Ctx) (f : ExecSt → ExecSt) : (s.onExec c f).xing = s.xing := rfl
@[simp] theorem State.onExec_irq (c : Ctx) (f : ExecSt → ExecSt) : (s.onExec c f).irq = s.irq := rfl
@[simp] theorem State.onExec_time (c : Ctx) (f : ExecSt → ExecSt) : (s.onExec c f).time = s.time := rfl
@[simp] theorem State.onExec_spn (c : Ctx) (f : ExecSt → ExecSt) : (s.onExec c f).spn = s.spn := rfl
@[simp] theorem State.onExec_ctxs (c : Ctx) (f : ExecSt → ExecSt) : (s.onExec c f).ctxs = s.ctxs.upd c (fun x => { x with exec := f x.exec }) := rfl
@[simp] theorem State.onExec_mem (c : Ctx) (f : ExecSt → ExecSt) : (s.onExec c f).mem = s.mem := rfl
@[simp] theorem State.onExec_tags (c : Ctx) (f : ExecSt → ExecSt) : (s.onExec c f).tags = s.tags := rfl
@[simp] theorem State.onExec_mgtu (c : Ctx) (f : ExecSt → ExecSt) : (s.onExec c f).mgtu = s.mgtu := rfl
@[simp] theorem State.onExec_lgtu (c : Ctx) (f : ExecSt → ExecSt) : (s.onExec c f).lgtu = s.lgtu := rfl
@[simp] theorem State.onExec_retryLimit (c : Ctx) (f : ExecSt → ExecSt) : (s.onExec c f).retryLimit = s.retryLimit := rfl
@[simp] theorem State.onExec_wce (c : Ctx) (f : ExecSt → ExecSt) : (s.onExec c f).wce = s.wce := rfl
@[simp] theorem State.onExec_shd (c : Ctx) (f : ExecSt → ExecSt) : (s.onExec c f).shd = s.shd := rfl
@[simp] theorem State.onExec_fst (c : Ctx) (f : ExecSt → ExecSt) : (s.onExec c f).fst = s.fst := rfl
@[simp] theorem State.onExec_prv (c : Ctx) (f : ExecSt → ExecSt) : (s.onExec c f).prv = s.prv := rfl
@[simp] theorem State.onExec_pln (c : Ctx) (f : ExecSt → ExecSt) : (s.onExec c f).pln = s.pln := rfl
@[simp] theorem State.onExec_thm (c : Ctx) (f : ExecSt → ExecSt) : (s.onExec c f).thm = s.thm := rfl
@[simp] theorem State.onExec_rcd (c : Ctx) (f : ExecSt → ExecSt) : (s.onExec c f).rcd = s.rcd := rfl
@[simp] theorem State.onExec_fwp (c : Ctx) (f : ExecSt → ExecSt) : (s.onExec c f).fwp = s.fwp := rfl
@[simp] theorem State.onExec_scr (c : Ctx) (f : ExecSt → ExecSt) : (s.onExec c f).scr = s.scr := rfl
@[simp] theorem State.onExec_mgt (c : Ctx) (f : ExecSt → ExecSt) : (s.onExec c f).mgt = s.mgt := rfl
@[simp] theorem State.onExec_pwr (c : Ctx) (f : ExecSt → ExecSt) : (s.onExec c f).pwr = s.pwr := rfl
@[simp] theorem State.onExec_jobMap (c : Ctx) (f : ExecSt → ExecSt) : (s.onExec c f).jobMap = s.jobMap := rfl

/-! ## onPos -/

@[simp] theorem State.onPos_pending (c : Ctx) (f : PosSt → PosSt) : (s.onPos c f).pending = s.pending := rfl
@[simp] theorem State.onPos_out (c : Ctx) (f : PosSt → PosSt) : (s.onPos c f).out = s.out := rfl
@[simp] theorem State.onPos_free (c : Ctx) (f : PosSt → PosSt) : (s.onPos c f).free = s.free := rfl
@[simp] theorem State.onPos_fuses (c : Ctx) (f : PosSt → PosSt) : (s.onPos c f).fuses = s.fuses := rfl
@[simp] theorem State.onPos_aon (c : Ctx) (f : PosSt → PosSt) : (s.onPos c f).aon = s.aon := rfl
@[simp] theorem State.onPos_xing (c : Ctx) (f : PosSt → PosSt) : (s.onPos c f).xing = s.xing := rfl
@[simp] theorem State.onPos_irq (c : Ctx) (f : PosSt → PosSt) : (s.onPos c f).irq = s.irq := rfl
@[simp] theorem State.onPos_time (c : Ctx) (f : PosSt → PosSt) : (s.onPos c f).time = s.time := rfl
@[simp] theorem State.onPos_spn (c : Ctx) (f : PosSt → PosSt) : (s.onPos c f).spn = s.spn := rfl
@[simp] theorem State.onPos_ctxs (c : Ctx) (f : PosSt → PosSt) : (s.onPos c f).ctxs = s.ctxs.upd c (fun x => { x with pos := f x.pos }) := rfl
@[simp] theorem State.onPos_mem (c : Ctx) (f : PosSt → PosSt) : (s.onPos c f).mem = s.mem := rfl
@[simp] theorem State.onPos_tags (c : Ctx) (f : PosSt → PosSt) : (s.onPos c f).tags = s.tags := rfl
@[simp] theorem State.onPos_mgtu (c : Ctx) (f : PosSt → PosSt) : (s.onPos c f).mgtu = s.mgtu := rfl
@[simp] theorem State.onPos_lgtu (c : Ctx) (f : PosSt → PosSt) : (s.onPos c f).lgtu = s.lgtu := rfl
@[simp] theorem State.onPos_retryLimit (c : Ctx) (f : PosSt → PosSt) : (s.onPos c f).retryLimit = s.retryLimit := rfl
@[simp] theorem State.onPos_wce (c : Ctx) (f : PosSt → PosSt) : (s.onPos c f).wce = s.wce := rfl
@[simp] theorem State.onPos_shd (c : Ctx) (f : PosSt → PosSt) : (s.onPos c f).shd = s.shd := rfl
@[simp] theorem State.onPos_fst (c : Ctx) (f : PosSt → PosSt) : (s.onPos c f).fst = s.fst := rfl
@[simp] theorem State.onPos_prv (c : Ctx) (f : PosSt → PosSt) : (s.onPos c f).prv = s.prv := rfl
@[simp] theorem State.onPos_pln (c : Ctx) (f : PosSt → PosSt) : (s.onPos c f).pln = s.pln := rfl
@[simp] theorem State.onPos_thm (c : Ctx) (f : PosSt → PosSt) : (s.onPos c f).thm = s.thm := rfl
@[simp] theorem State.onPos_rcd (c : Ctx) (f : PosSt → PosSt) : (s.onPos c f).rcd = s.rcd := rfl
@[simp] theorem State.onPos_fwp (c : Ctx) (f : PosSt → PosSt) : (s.onPos c f).fwp = s.fwp := rfl
@[simp] theorem State.onPos_scr (c : Ctx) (f : PosSt → PosSt) : (s.onPos c f).scr = s.scr := rfl
@[simp] theorem State.onPos_mgt (c : Ctx) (f : PosSt → PosSt) : (s.onPos c f).mgt = s.mgt := rfl
@[simp] theorem State.onPos_pwr (c : Ctx) (f : PosSt → PosSt) : (s.onPos c f).pwr = s.pwr := rfl
@[simp] theorem State.onPos_jobMap (c : Ctx) (f : PosSt → PosSt) : (s.onPos c f).jobMap = s.jobMap := rfl

/-! ## onPlan -/

@[simp] theorem State.onPlan_pending (c : Ctx) (f : PlanSt → PlanSt) : (s.onPlan c f).pending = s.pending := rfl
@[simp] theorem State.onPlan_out (c : Ctx) (f : PlanSt → PlanSt) : (s.onPlan c f).out = s.out := rfl
@[simp] theorem State.onPlan_free (c : Ctx) (f : PlanSt → PlanSt) : (s.onPlan c f).free = s.free := rfl
@[simp] theorem State.onPlan_fuses (c : Ctx) (f : PlanSt → PlanSt) : (s.onPlan c f).fuses = s.fuses := rfl
@[simp] theorem State.onPlan_aon (c : Ctx) (f : PlanSt → PlanSt) : (s.onPlan c f).aon = s.aon := rfl
@[simp] theorem State.onPlan_xing (c : Ctx) (f : PlanSt → PlanSt) : (s.onPlan c f).xing = s.xing := rfl
@[simp] theorem State.onPlan_irq (c : Ctx) (f : PlanSt → PlanSt) : (s.onPlan c f).irq = s.irq := rfl
@[simp] theorem State.onPlan_time (c : Ctx) (f : PlanSt → PlanSt) : (s.onPlan c f).time = s.time := rfl
@[simp] theorem State.onPlan_spn (c : Ctx) (f : PlanSt → PlanSt) : (s.onPlan c f).spn = s.spn := rfl
@[simp] theorem State.onPlan_ctxs (c : Ctx) (f : PlanSt → PlanSt) : (s.onPlan c f).ctxs = s.ctxs.upd c (fun x => { x with plan := f x.plan }) := rfl
@[simp] theorem State.onPlan_mem (c : Ctx) (f : PlanSt → PlanSt) : (s.onPlan c f).mem = s.mem := rfl
@[simp] theorem State.onPlan_tags (c : Ctx) (f : PlanSt → PlanSt) : (s.onPlan c f).tags = s.tags := rfl
@[simp] theorem State.onPlan_mgtu (c : Ctx) (f : PlanSt → PlanSt) : (s.onPlan c f).mgtu = s.mgtu := rfl
@[simp] theorem State.onPlan_lgtu (c : Ctx) (f : PlanSt → PlanSt) : (s.onPlan c f).lgtu = s.lgtu := rfl
@[simp] theorem State.onPlan_retryLimit (c : Ctx) (f : PlanSt → PlanSt) : (s.onPlan c f).retryLimit = s.retryLimit := rfl
@[simp] theorem State.onPlan_wce (c : Ctx) (f : PlanSt → PlanSt) : (s.onPlan c f).wce = s.wce := rfl
@[simp] theorem State.onPlan_shd (c : Ctx) (f : PlanSt → PlanSt) : (s.onPlan c f).shd = s.shd := rfl
@[simp] theorem State.onPlan_fst (c : Ctx) (f : PlanSt → PlanSt) : (s.onPlan c f).fst = s.fst := rfl
@[simp] theorem State.onPlan_prv (c : Ctx) (f : PlanSt → PlanSt) : (s.onPlan c f).prv = s.prv := rfl
@[simp] theorem State.onPlan_pln (c : Ctx) (f : PlanSt → PlanSt) : (s.onPlan c f).pln = s.pln := rfl
@[simp] theorem State.onPlan_thm (c : Ctx) (f : PlanSt → PlanSt) : (s.onPlan c f).thm = s.thm := rfl
@[simp] theorem State.onPlan_rcd (c : Ctx) (f : PlanSt → PlanSt) : (s.onPlan c f).rcd = s.rcd := rfl
@[simp] theorem State.onPlan_fwp (c : Ctx) (f : PlanSt → PlanSt) : (s.onPlan c f).fwp = s.fwp := rfl
@[simp] theorem State.onPlan_scr (c : Ctx) (f : PlanSt → PlanSt) : (s.onPlan c f).scr = s.scr := rfl
@[simp] theorem State.onPlan_mgt (c : Ctx) (f : PlanSt → PlanSt) : (s.onPlan c f).mgt = s.mgt := rfl
@[simp] theorem State.onPlan_pwr (c : Ctx) (f : PlanSt → PlanSt) : (s.onPlan c f).pwr = s.pwr := rfl
@[simp] theorem State.onPlan_jobMap (c : Ctx) (f : PlanSt → PlanSt) : (s.onPlan c f).jobMap = s.jobMap := rfl

/-! ## onBar -/

@[simp] theorem State.onBar_pending (c : Ctx) (f : BarSt → BarSt) : (s.onBar c f).pending = s.pending := rfl
@[simp] theorem State.onBar_out (c : Ctx) (f : BarSt → BarSt) : (s.onBar c f).out = s.out := rfl
@[simp] theorem State.onBar_free (c : Ctx) (f : BarSt → BarSt) : (s.onBar c f).free = s.free := rfl
@[simp] theorem State.onBar_fuses (c : Ctx) (f : BarSt → BarSt) : (s.onBar c f).fuses = s.fuses := rfl
@[simp] theorem State.onBar_aon (c : Ctx) (f : BarSt → BarSt) : (s.onBar c f).aon = s.aon := rfl
@[simp] theorem State.onBar_xing (c : Ctx) (f : BarSt → BarSt) : (s.onBar c f).xing = s.xing := rfl
@[simp] theorem State.onBar_irq (c : Ctx) (f : BarSt → BarSt) : (s.onBar c f).irq = s.irq := rfl
@[simp] theorem State.onBar_time (c : Ctx) (f : BarSt → BarSt) : (s.onBar c f).time = s.time := rfl
@[simp] theorem State.onBar_spn (c : Ctx) (f : BarSt → BarSt) : (s.onBar c f).spn = s.spn := rfl
@[simp] theorem State.onBar_ctxs (c : Ctx) (f : BarSt → BarSt) : (s.onBar c f).ctxs = s.ctxs.upd c (fun x => { x with bar := f x.bar }) := rfl
@[simp] theorem State.onBar_mem (c : Ctx) (f : BarSt → BarSt) : (s.onBar c f).mem = s.mem := rfl
@[simp] theorem State.onBar_tags (c : Ctx) (f : BarSt → BarSt) : (s.onBar c f).tags = s.tags := rfl
@[simp] theorem State.onBar_mgtu (c : Ctx) (f : BarSt → BarSt) : (s.onBar c f).mgtu = s.mgtu := rfl
@[simp] theorem State.onBar_lgtu (c : Ctx) (f : BarSt → BarSt) : (s.onBar c f).lgtu = s.lgtu := rfl
@[simp] theorem State.onBar_retryLimit (c : Ctx) (f : BarSt → BarSt) : (s.onBar c f).retryLimit = s.retryLimit := rfl
@[simp] theorem State.onBar_wce (c : Ctx) (f : BarSt → BarSt) : (s.onBar c f).wce = s.wce := rfl
@[simp] theorem State.onBar_shd (c : Ctx) (f : BarSt → BarSt) : (s.onBar c f).shd = s.shd := rfl
@[simp] theorem State.onBar_fst (c : Ctx) (f : BarSt → BarSt) : (s.onBar c f).fst = s.fst := rfl
@[simp] theorem State.onBar_prv (c : Ctx) (f : BarSt → BarSt) : (s.onBar c f).prv = s.prv := rfl
@[simp] theorem State.onBar_pln (c : Ctx) (f : BarSt → BarSt) : (s.onBar c f).pln = s.pln := rfl
@[simp] theorem State.onBar_thm (c : Ctx) (f : BarSt → BarSt) : (s.onBar c f).thm = s.thm := rfl
@[simp] theorem State.onBar_rcd (c : Ctx) (f : BarSt → BarSt) : (s.onBar c f).rcd = s.rcd := rfl
@[simp] theorem State.onBar_fwp (c : Ctx) (f : BarSt → BarSt) : (s.onBar c f).fwp = s.fwp := rfl
@[simp] theorem State.onBar_scr (c : Ctx) (f : BarSt → BarSt) : (s.onBar c f).scr = s.scr := rfl
@[simp] theorem State.onBar_mgt (c : Ctx) (f : BarSt → BarSt) : (s.onBar c f).mgt = s.mgt := rfl
@[simp] theorem State.onBar_pwr (c : Ctx) (f : BarSt → BarSt) : (s.onBar c f).pwr = s.pwr := rfl
@[simp] theorem State.onBar_jobMap (c : Ctx) (f : BarSt → BarSt) : (s.onBar c f).jobMap = s.jobMap := rfl

/-! ## onLsc -/

@[simp] theorem State.onLsc_pending (c : Ctx) (f : LscSt → LscSt) : (s.onLsc c f).pending = s.pending := rfl
@[simp] theorem State.onLsc_out (c : Ctx) (f : LscSt → LscSt) : (s.onLsc c f).out = s.out := rfl
@[simp] theorem State.onLsc_free (c : Ctx) (f : LscSt → LscSt) : (s.onLsc c f).free = s.free := rfl
@[simp] theorem State.onLsc_fuses (c : Ctx) (f : LscSt → LscSt) : (s.onLsc c f).fuses = s.fuses := rfl
@[simp] theorem State.onLsc_aon (c : Ctx) (f : LscSt → LscSt) : (s.onLsc c f).aon = s.aon := rfl
@[simp] theorem State.onLsc_xing (c : Ctx) (f : LscSt → LscSt) : (s.onLsc c f).xing = s.xing := rfl
@[simp] theorem State.onLsc_irq (c : Ctx) (f : LscSt → LscSt) : (s.onLsc c f).irq = s.irq := rfl
@[simp] theorem State.onLsc_time (c : Ctx) (f : LscSt → LscSt) : (s.onLsc c f).time = s.time := rfl
@[simp] theorem State.onLsc_spn (c : Ctx) (f : LscSt → LscSt) : (s.onLsc c f).spn = s.spn := rfl
@[simp] theorem State.onLsc_ctxs (c : Ctx) (f : LscSt → LscSt) : (s.onLsc c f).ctxs = s.ctxs.upd c (fun x => { x with lsc := f x.lsc }) := rfl
@[simp] theorem State.onLsc_mem (c : Ctx) (f : LscSt → LscSt) : (s.onLsc c f).mem = s.mem := rfl
@[simp] theorem State.onLsc_tags (c : Ctx) (f : LscSt → LscSt) : (s.onLsc c f).tags = s.tags := rfl
@[simp] theorem State.onLsc_mgtu (c : Ctx) (f : LscSt → LscSt) : (s.onLsc c f).mgtu = s.mgtu := rfl
@[simp] theorem State.onLsc_lgtu (c : Ctx) (f : LscSt → LscSt) : (s.onLsc c f).lgtu = s.lgtu := rfl
@[simp] theorem State.onLsc_retryLimit (c : Ctx) (f : LscSt → LscSt) : (s.onLsc c f).retryLimit = s.retryLimit := rfl
@[simp] theorem State.onLsc_wce (c : Ctx) (f : LscSt → LscSt) : (s.onLsc c f).wce = s.wce := rfl
@[simp] theorem State.onLsc_shd (c : Ctx) (f : LscSt → LscSt) : (s.onLsc c f).shd = s.shd := rfl
@[simp] theorem State.onLsc_fst (c : Ctx) (f : LscSt → LscSt) : (s.onLsc c f).fst = s.fst := rfl
@[simp] theorem State.onLsc_prv (c : Ctx) (f : LscSt → LscSt) : (s.onLsc c f).prv = s.prv := rfl
@[simp] theorem State.onLsc_pln (c : Ctx) (f : LscSt → LscSt) : (s.onLsc c f).pln = s.pln := rfl
@[simp] theorem State.onLsc_thm (c : Ctx) (f : LscSt → LscSt) : (s.onLsc c f).thm = s.thm := rfl
@[simp] theorem State.onLsc_rcd (c : Ctx) (f : LscSt → LscSt) : (s.onLsc c f).rcd = s.rcd := rfl
@[simp] theorem State.onLsc_fwp (c : Ctx) (f : LscSt → LscSt) : (s.onLsc c f).fwp = s.fwp := rfl
@[simp] theorem State.onLsc_scr (c : Ctx) (f : LscSt → LscSt) : (s.onLsc c f).scr = s.scr := rfl
@[simp] theorem State.onLsc_mgt (c : Ctx) (f : LscSt → LscSt) : (s.onLsc c f).mgt = s.mgt := rfl
@[simp] theorem State.onLsc_pwr (c : Ctx) (f : LscSt → LscSt) : (s.onLsc c f).pwr = s.pwr := rfl
@[simp] theorem State.onLsc_jobMap (c : Ctx) (f : LscSt → LscSt) : (s.onLsc c f).jobMap = s.jobMap := rfl

/-! ## onPrv -/

@[simp] theorem State.onPrv_pending (c : Ctx) (f : PrvCtx → PrvCtx) : (s.onPrv c f).pending = s.pending := rfl
@[simp] theorem State.onPrv_out (c : Ctx) (f : PrvCtx → PrvCtx) : (s.onPrv c f).out = s.out := rfl
@[simp] theorem State.onPrv_free (c : Ctx) (f : PrvCtx → PrvCtx) : (s.onPrv c f).free = s.free := rfl
@[simp] theorem State.onPrv_fuses (c : Ctx) (f : PrvCtx → PrvCtx) : (s.onPrv c f).fuses = s.fuses := rfl
@[simp] theorem State.onPrv_aon (c : Ctx) (f : PrvCtx → PrvCtx) : (s.onPrv c f).aon = s.aon := rfl
@[simp] theorem State.onPrv_xing (c : Ctx) (f : PrvCtx → PrvCtx) : (s.onPrv c f).xing = s.xing := rfl
@[simp] theorem State.onPrv_irq (c : Ctx) (f : PrvCtx → PrvCtx) : (s.onPrv c f).irq = s.irq := rfl
@[simp] theorem State.onPrv_time (c : Ctx) (f : PrvCtx → PrvCtx) : (s.onPrv c f).time = s.time := rfl
@[simp] theorem State.onPrv_spn (c : Ctx) (f : PrvCtx → PrvCtx) : (s.onPrv c f).spn = s.spn := rfl
@[simp] theorem State.onPrv_ctxs (c : Ctx) (f : PrvCtx → PrvCtx) : (s.onPrv c f).ctxs = s.ctxs.upd c (fun x => { x with prv := f x.prv }) := rfl
@[simp] theorem State.onPrv_mem (c : Ctx) (f : PrvCtx → PrvCtx) : (s.onPrv c f).mem = s.mem := rfl
@[simp] theorem State.onPrv_tags (c : Ctx) (f : PrvCtx → PrvCtx) : (s.onPrv c f).tags = s.tags := rfl
@[simp] theorem State.onPrv_mgtu (c : Ctx) (f : PrvCtx → PrvCtx) : (s.onPrv c f).mgtu = s.mgtu := rfl
@[simp] theorem State.onPrv_lgtu (c : Ctx) (f : PrvCtx → PrvCtx) : (s.onPrv c f).lgtu = s.lgtu := rfl
@[simp] theorem State.onPrv_retryLimit (c : Ctx) (f : PrvCtx → PrvCtx) : (s.onPrv c f).retryLimit = s.retryLimit := rfl
@[simp] theorem State.onPrv_wce (c : Ctx) (f : PrvCtx → PrvCtx) : (s.onPrv c f).wce = s.wce := rfl
@[simp] theorem State.onPrv_shd (c : Ctx) (f : PrvCtx → PrvCtx) : (s.onPrv c f).shd = s.shd := rfl
@[simp] theorem State.onPrv_fst (c : Ctx) (f : PrvCtx → PrvCtx) : (s.onPrv c f).fst = s.fst := rfl
@[simp] theorem State.onPrv_prv (c : Ctx) (f : PrvCtx → PrvCtx) : (s.onPrv c f).prv = s.prv := rfl
@[simp] theorem State.onPrv_pln (c : Ctx) (f : PrvCtx → PrvCtx) : (s.onPrv c f).pln = s.pln := rfl
@[simp] theorem State.onPrv_thm (c : Ctx) (f : PrvCtx → PrvCtx) : (s.onPrv c f).thm = s.thm := rfl
@[simp] theorem State.onPrv_rcd (c : Ctx) (f : PrvCtx → PrvCtx) : (s.onPrv c f).rcd = s.rcd := rfl
@[simp] theorem State.onPrv_fwp (c : Ctx) (f : PrvCtx → PrvCtx) : (s.onPrv c f).fwp = s.fwp := rfl
@[simp] theorem State.onPrv_scr (c : Ctx) (f : PrvCtx → PrvCtx) : (s.onPrv c f).scr = s.scr := rfl
@[simp] theorem State.onPrv_mgt (c : Ctx) (f : PrvCtx → PrvCtx) : (s.onPrv c f).mgt = s.mgt := rfl
@[simp] theorem State.onPrv_pwr (c : Ctx) (f : PrvCtx → PrvCtx) : (s.onPrv c f).pwr = s.pwr := rfl
@[simp] theorem State.onPrv_jobMap (c : Ctx) (f : PrvCtx → PrvCtx) : (s.onPrv c f).jobMap = s.jobMap := rfl

/-! ## onCov -/

@[simp] theorem State.onCov_pending (c : Ctx) (f : CovSt → CovSt) : (s.onCov c f).pending = s.pending := rfl
@[simp] theorem State.onCov_out (c : Ctx) (f : CovSt → CovSt) : (s.onCov c f).out = s.out := rfl
@[simp] theorem State.onCov_free (c : Ctx) (f : CovSt → CovSt) : (s.onCov c f).free = s.free := rfl
@[simp] theorem State.onCov_fuses (c : Ctx) (f : CovSt → CovSt) : (s.onCov c f).fuses = s.fuses := rfl
@[simp] theorem State.onCov_aon (c : Ctx) (f : CovSt → CovSt) : (s.onCov c f).aon = s.aon := rfl
@[simp] theorem State.onCov_xing (c : Ctx) (f : CovSt → CovSt) : (s.onCov c f).xing = s.xing := rfl
@[simp] theorem State.onCov_irq (c : Ctx) (f : CovSt → CovSt) : (s.onCov c f).irq = s.irq := rfl
@[simp] theorem State.onCov_time (c : Ctx) (f : CovSt → CovSt) : (s.onCov c f).time = s.time := rfl
@[simp] theorem State.onCov_spn (c : Ctx) (f : CovSt → CovSt) : (s.onCov c f).spn = s.spn := rfl
@[simp] theorem State.onCov_ctxs (c : Ctx) (f : CovSt → CovSt) : (s.onCov c f).ctxs = s.ctxs.upd c (fun x => { x with cov := f x.cov }) := rfl
@[simp] theorem State.onCov_mem (c : Ctx) (f : CovSt → CovSt) : (s.onCov c f).mem = s.mem := rfl
@[simp] theorem State.onCov_tags (c : Ctx) (f : CovSt → CovSt) : (s.onCov c f).tags = s.tags := rfl
@[simp] theorem State.onCov_mgtu (c : Ctx) (f : CovSt → CovSt) : (s.onCov c f).mgtu = s.mgtu := rfl
@[simp] theorem State.onCov_lgtu (c : Ctx) (f : CovSt → CovSt) : (s.onCov c f).lgtu = s.lgtu := rfl
@[simp] theorem State.onCov_retryLimit (c : Ctx) (f : CovSt → CovSt) : (s.onCov c f).retryLimit = s.retryLimit := rfl
@[simp] theorem State.onCov_wce (c : Ctx) (f : CovSt → CovSt) : (s.onCov c f).wce = s.wce := rfl
@[simp] theorem State.onCov_shd (c : Ctx) (f : CovSt → CovSt) : (s.onCov c f).shd = s.shd := rfl
@[simp] theorem State.onCov_fst (c : Ctx) (f : CovSt → CovSt) : (s.onCov c f).fst = s.fst := rfl
@[simp] theorem State.onCov_prv (c : Ctx) (f : CovSt → CovSt) : (s.onCov c f).prv = s.prv := rfl
@[simp] theorem State.onCov_pln (c : Ctx) (f : CovSt → CovSt) : (s.onCov c f).pln = s.pln := rfl
@[simp] theorem State.onCov_thm (c : Ctx) (f : CovSt → CovSt) : (s.onCov c f).thm = s.thm := rfl
@[simp] theorem State.onCov_rcd (c : Ctx) (f : CovSt → CovSt) : (s.onCov c f).rcd = s.rcd := rfl
@[simp] theorem State.onCov_fwp (c : Ctx) (f : CovSt → CovSt) : (s.onCov c f).fwp = s.fwp := rfl
@[simp] theorem State.onCov_scr (c : Ctx) (f : CovSt → CovSt) : (s.onCov c f).scr = s.scr := rfl
@[simp] theorem State.onCov_mgt (c : Ctx) (f : CovSt → CovSt) : (s.onCov c f).mgt = s.mgt := rfl
@[simp] theorem State.onCov_pwr (c : Ctx) (f : CovSt → CovSt) : (s.onCov c f).pwr = s.pwr := rfl
@[simp] theorem State.onCov_jobMap (c : Ctx) (f : CovSt → CovSt) : (s.onCov c f).jobMap = s.jobMap := rfl

/-! ## onTag -/

@[simp] theorem State.onTag_pending (c : Ctx) (f : TagSt → TagSt) : (s.onTag c f).pending = s.pending := rfl
@[simp] theorem State.onTag_out (c : Ctx) (f : TagSt → TagSt) : (s.onTag c f).out = s.out := rfl
@[simp] theorem State.onTag_free (c : Ctx) (f : TagSt → TagSt) : (s.onTag c f).free = s.free := rfl
@[simp] theorem State.onTag_fuses (c : Ctx) (f : TagSt → TagSt) : (s.onTag c f).fuses = s.fuses := rfl
@[simp] theorem State.onTag_aon (c : Ctx) (f : TagSt → TagSt) : (s.onTag c f).aon = s.aon := rfl
@[simp] theorem State.onTag_xing (c : Ctx) (f : TagSt → TagSt) : (s.onTag c f).xing = s.xing := rfl
@[simp] theorem State.onTag_irq (c : Ctx) (f : TagSt → TagSt) : (s.onTag c f).irq = s.irq := rfl
@[simp] theorem State.onTag_time (c : Ctx) (f : TagSt → TagSt) : (s.onTag c f).time = s.time := rfl
@[simp] theorem State.onTag_spn (c : Ctx) (f : TagSt → TagSt) : (s.onTag c f).spn = s.spn := rfl
@[simp] theorem State.onTag_ctxs (c : Ctx) (f : TagSt → TagSt) : (s.onTag c f).ctxs = s.ctxs.upd c (fun x => { x with tag := f x.tag }) := rfl
@[simp] theorem State.onTag_mem (c : Ctx) (f : TagSt → TagSt) : (s.onTag c f).mem = s.mem := rfl
@[simp] theorem State.onTag_tags (c : Ctx) (f : TagSt → TagSt) : (s.onTag c f).tags = s.tags := rfl
@[simp] theorem State.onTag_mgtu (c : Ctx) (f : TagSt → TagSt) : (s.onTag c f).mgtu = s.mgtu := rfl
@[simp] theorem State.onTag_lgtu (c : Ctx) (f : TagSt → TagSt) : (s.onTag c f).lgtu = s.lgtu := rfl
@[simp] theorem State.onTag_retryLimit (c : Ctx) (f : TagSt → TagSt) : (s.onTag c f).retryLimit = s.retryLimit := rfl
@[simp] theorem State.onTag_wce (c : Ctx) (f : TagSt → TagSt) : (s.onTag c f).wce = s.wce := rfl
@[simp] theorem State.onTag_shd (c : Ctx) (f : TagSt → TagSt) : (s.onTag c f).shd = s.shd := rfl
@[simp] theorem State.onTag_fst (c : Ctx) (f : TagSt → TagSt) : (s.onTag c f).fst = s.fst := rfl
@[simp] theorem State.onTag_prv (c : Ctx) (f : TagSt → TagSt) : (s.onTag c f).prv = s.prv := rfl
@[simp] theorem State.onTag_pln (c : Ctx) (f : TagSt → TagSt) : (s.onTag c f).pln = s.pln := rfl
@[simp] theorem State.onTag_thm (c : Ctx) (f : TagSt → TagSt) : (s.onTag c f).thm = s.thm := rfl
@[simp] theorem State.onTag_rcd (c : Ctx) (f : TagSt → TagSt) : (s.onTag c f).rcd = s.rcd := rfl
@[simp] theorem State.onTag_fwp (c : Ctx) (f : TagSt → TagSt) : (s.onTag c f).fwp = s.fwp := rfl
@[simp] theorem State.onTag_scr (c : Ctx) (f : TagSt → TagSt) : (s.onTag c f).scr = s.scr := rfl
@[simp] theorem State.onTag_mgt (c : Ctx) (f : TagSt → TagSt) : (s.onTag c f).mgt = s.mgt := rfl
@[simp] theorem State.onTag_pwr (c : Ctx) (f : TagSt → TagSt) : (s.onTag c f).pwr = s.pwr := rfl
@[simp] theorem State.onTag_jobMap (c : Ctx) (f : TagSt → TagSt) : (s.onTag c f).jobMap = s.jobMap := rfl

/-! ## onMgtu -/

@[simp] theorem State.onMgtu_pending (g : Gtu) (f : Mgtu → Mgtu) : (s.onMgtu g f).pending = s.pending := rfl
@[simp] theorem State.onMgtu_out (g : Gtu) (f : Mgtu → Mgtu) : (s.onMgtu g f).out = s.out := rfl
@[simp] theorem State.onMgtu_free (g : Gtu) (f : Mgtu → Mgtu) : (s.onMgtu g f).free = s.free := rfl
@[simp] theorem State.onMgtu_fuses (g : Gtu) (f : Mgtu → Mgtu) : (s.onMgtu g f).fuses = s.fuses := rfl
@[simp] theorem State.onMgtu_aon (g : Gtu) (f : Mgtu → Mgtu) : (s.onMgtu g f).aon = s.aon := rfl
@[simp] theorem State.onMgtu_xing (g : Gtu) (f : Mgtu → Mgtu) : (s.onMgtu g f).xing = s.xing := rfl
@[simp] theorem State.onMgtu_irq (g : Gtu) (f : Mgtu → Mgtu) : (s.onMgtu g f).irq = s.irq := rfl
@[simp] theorem State.onMgtu_time (g : Gtu) (f : Mgtu → Mgtu) : (s.onMgtu g f).time = s.time := rfl
@[simp] theorem State.onMgtu_spn (g : Gtu) (f : Mgtu → Mgtu) : (s.onMgtu g f).spn = s.spn := rfl
@[simp] theorem State.onMgtu_ctxs (g : Gtu) (f : Mgtu → Mgtu) : (s.onMgtu g f).ctxs = s.ctxs := rfl
@[simp] theorem State.onMgtu_mem (g : Gtu) (f : Mgtu → Mgtu) : (s.onMgtu g f).mem = s.mem := rfl
@[simp] theorem State.onMgtu_tags (g : Gtu) (f : Mgtu → Mgtu) : (s.onMgtu g f).tags = s.tags := rfl
@[simp] theorem State.onMgtu_mgtu (g : Gtu) (f : Mgtu → Mgtu) : (s.onMgtu g f).mgtu = s.mgtu.upd g f := rfl
@[simp] theorem State.onMgtu_lgtu (g : Gtu) (f : Mgtu → Mgtu) : (s.onMgtu g f).lgtu = s.lgtu := rfl
@[simp] theorem State.onMgtu_retryLimit (g : Gtu) (f : Mgtu → Mgtu) : (s.onMgtu g f).retryLimit = s.retryLimit := rfl
@[simp] theorem State.onMgtu_wce (g : Gtu) (f : Mgtu → Mgtu) : (s.onMgtu g f).wce = s.wce := rfl
@[simp] theorem State.onMgtu_shd (g : Gtu) (f : Mgtu → Mgtu) : (s.onMgtu g f).shd = s.shd := rfl
@[simp] theorem State.onMgtu_fst (g : Gtu) (f : Mgtu → Mgtu) : (s.onMgtu g f).fst = s.fst := rfl
@[simp] theorem State.onMgtu_prv (g : Gtu) (f : Mgtu → Mgtu) : (s.onMgtu g f).prv = s.prv := rfl
@[simp] theorem State.onMgtu_pln (g : Gtu) (f : Mgtu → Mgtu) : (s.onMgtu g f).pln = s.pln := rfl
@[simp] theorem State.onMgtu_thm (g : Gtu) (f : Mgtu → Mgtu) : (s.onMgtu g f).thm = s.thm := rfl
@[simp] theorem State.onMgtu_rcd (g : Gtu) (f : Mgtu → Mgtu) : (s.onMgtu g f).rcd = s.rcd := rfl
@[simp] theorem State.onMgtu_fwp (g : Gtu) (f : Mgtu → Mgtu) : (s.onMgtu g f).fwp = s.fwp := rfl
@[simp] theorem State.onMgtu_scr (g : Gtu) (f : Mgtu → Mgtu) : (s.onMgtu g f).scr = s.scr := rfl
@[simp] theorem State.onMgtu_mgt (g : Gtu) (f : Mgtu → Mgtu) : (s.onMgtu g f).mgt = s.mgt := rfl
@[simp] theorem State.onMgtu_pwr (g : Gtu) (f : Mgtu → Mgtu) : (s.onMgtu g f).pwr = s.pwr := rfl
@[simp] theorem State.onMgtu_jobMap (g : Gtu) (f : Mgtu → Mgtu) : (s.onMgtu g f).jobMap = s.jobMap := rfl
@[simp] theorem State.onMgtu_ctx (g : Gtu) (f : Mgtu → Mgtu) (d : Ctx) : (s.onMgtu g f).ctx d = s.ctx d := rfl

/-! ## onLgtu -/

@[simp] theorem State.onLgtu_pending (l : Lnk) (f : Lgtu → Lgtu) : (s.onLgtu l f).pending = s.pending := rfl
@[simp] theorem State.onLgtu_out (l : Lnk) (f : Lgtu → Lgtu) : (s.onLgtu l f).out = s.out := rfl
@[simp] theorem State.onLgtu_free (l : Lnk) (f : Lgtu → Lgtu) : (s.onLgtu l f).free = s.free := rfl
@[simp] theorem State.onLgtu_fuses (l : Lnk) (f : Lgtu → Lgtu) : (s.onLgtu l f).fuses = s.fuses := rfl
@[simp] theorem State.onLgtu_aon (l : Lnk) (f : Lgtu → Lgtu) : (s.onLgtu l f).aon = s.aon := rfl
@[simp] theorem State.onLgtu_xing (l : Lnk) (f : Lgtu → Lgtu) : (s.onLgtu l f).xing = s.xing := rfl
@[simp] theorem State.onLgtu_irq (l : Lnk) (f : Lgtu → Lgtu) : (s.onLgtu l f).irq = s.irq := rfl
@[simp] theorem State.onLgtu_time (l : Lnk) (f : Lgtu → Lgtu) : (s.onLgtu l f).time = s.time := rfl
@[simp] theorem State.onLgtu_spn (l : Lnk) (f : Lgtu → Lgtu) : (s.onLgtu l f).spn = s.spn := rfl
@[simp] theorem State.onLgtu_ctxs (l : Lnk) (f : Lgtu → Lgtu) : (s.onLgtu l f).ctxs = s.ctxs := rfl
@[simp] theorem State.onLgtu_mem (l : Lnk) (f : Lgtu → Lgtu) : (s.onLgtu l f).mem = s.mem := rfl
@[simp] theorem State.onLgtu_tags (l : Lnk) (f : Lgtu → Lgtu) : (s.onLgtu l f).tags = s.tags := rfl
@[simp] theorem State.onLgtu_mgtu (l : Lnk) (f : Lgtu → Lgtu) : (s.onLgtu l f).mgtu = s.mgtu := rfl
@[simp] theorem State.onLgtu_lgtu (l : Lnk) (f : Lgtu → Lgtu) : (s.onLgtu l f).lgtu = s.lgtu.upd l f := rfl
@[simp] theorem State.onLgtu_retryLimit (l : Lnk) (f : Lgtu → Lgtu) : (s.onLgtu l f).retryLimit = s.retryLimit := rfl
@[simp] theorem State.onLgtu_wce (l : Lnk) (f : Lgtu → Lgtu) : (s.onLgtu l f).wce = s.wce := rfl
@[simp] theorem State.onLgtu_shd (l : Lnk) (f : Lgtu → Lgtu) : (s.onLgtu l f).shd = s.shd := rfl
@[simp] theorem State.onLgtu_fst (l : Lnk) (f : Lgtu → Lgtu) : (s.onLgtu l f).fst = s.fst := rfl
@[simp] theorem State.onLgtu_prv (l : Lnk) (f : Lgtu → Lgtu) : (s.onLgtu l f).prv = s.prv := rfl
@[simp] theorem State.onLgtu_pln (l : Lnk) (f : Lgtu → Lgtu) : (s.onLgtu l f).pln = s.pln := rfl
@[simp] theorem State.onLgtu_thm (l : Lnk) (f : Lgtu → Lgtu) : (s.onLgtu l f).thm = s.thm := rfl
@[simp] theorem State.onLgtu_rcd (l : Lnk) (f : Lgtu → Lgtu) : (s.onLgtu l f).rcd = s.rcd := rfl
@[simp] theorem State.onLgtu_fwp (l : Lnk) (f : Lgtu → Lgtu) : (s.onLgtu l f).fwp = s.fwp := rfl
@[simp] theorem State.onLgtu_scr (l : Lnk) (f : Lgtu → Lgtu) : (s.onLgtu l f).scr = s.scr := rfl
@[simp] theorem State.onLgtu_mgt (l : Lnk) (f : Lgtu → Lgtu) : (s.onLgtu l f).mgt = s.mgt := rfl
@[simp] theorem State.onLgtu_pwr (l : Lnk) (f : Lgtu → Lgtu) : (s.onLgtu l f).pwr = s.pwr := rfl
@[simp] theorem State.onLgtu_jobMap (l : Lnk) (f : Lgtu → Lgtu) : (s.onLgtu l f).jobMap = s.jobMap := rfl
@[simp] theorem State.onLgtu_ctx (l : Lnk) (f : Lgtu → Lgtu) (d : Ctx) : (s.onLgtu l f).ctx d = s.ctx d := rfl

/-! ## onWce -/

@[simp] theorem State.onWce_pending (f : Wce → Wce) : (s.onWce f).pending = s.pending := rfl
@[simp] theorem State.onWce_out (f : Wce → Wce) : (s.onWce f).out = s.out := rfl
@[simp] theorem State.onWce_free (f : Wce → Wce) : (s.onWce f).free = s.free := rfl
@[simp] theorem State.onWce_fuses (f : Wce → Wce) : (s.onWce f).fuses = s.fuses := rfl
@[simp] theorem State.onWce_aon (f : Wce → Wce) : (s.onWce f).aon = s.aon := rfl
@[simp] theorem State.onWce_xing (f : Wce → Wce) : (s.onWce f).xing = s.xing := rfl
@[simp] theorem State.onWce_irq (f : Wce → Wce) : (s.onWce f).irq = s.irq := rfl
@[simp] theorem State.onWce_time (f : Wce → Wce) : (s.onWce f).time = s.time := rfl
@[simp] theorem State.onWce_spn (f : Wce → Wce) : (s.onWce f).spn = s.spn := rfl
@[simp] theorem State.onWce_ctxs (f : Wce → Wce) : (s.onWce f).ctxs = s.ctxs := rfl
@[simp] theorem State.onWce_mem (f : Wce → Wce) : (s.onWce f).mem = s.mem := rfl
@[simp] theorem State.onWce_tags (f : Wce → Wce) : (s.onWce f).tags = s.tags := rfl
@[simp] theorem State.onWce_mgtu (f : Wce → Wce) : (s.onWce f).mgtu = s.mgtu := rfl
@[simp] theorem State.onWce_lgtu (f : Wce → Wce) : (s.onWce f).lgtu = s.lgtu := rfl
@[simp] theorem State.onWce_retryLimit (f : Wce → Wce) : (s.onWce f).retryLimit = s.retryLimit := rfl
@[simp] theorem State.onWce_wce (f : Wce → Wce) : (s.onWce f).wce = f s.wce := rfl
@[simp] theorem State.onWce_shd (f : Wce → Wce) : (s.onWce f).shd = s.shd := rfl
@[simp] theorem State.onWce_fst (f : Wce → Wce) : (s.onWce f).fst = s.fst := rfl
@[simp] theorem State.onWce_prv (f : Wce → Wce) : (s.onWce f).prv = s.prv := rfl
@[simp] theorem State.onWce_pln (f : Wce → Wce) : (s.onWce f).pln = s.pln := rfl
@[simp] theorem State.onWce_thm (f : Wce → Wce) : (s.onWce f).thm = s.thm := rfl
@[simp] theorem State.onWce_rcd (f : Wce → Wce) : (s.onWce f).rcd = s.rcd := rfl
@[simp] theorem State.onWce_fwp (f : Wce → Wce) : (s.onWce f).fwp = s.fwp := rfl
@[simp] theorem State.onWce_scr (f : Wce → Wce) : (s.onWce f).scr = s.scr := rfl
@[simp] theorem State.onWce_mgt (f : Wce → Wce) : (s.onWce f).mgt = s.mgt := rfl
@[simp] theorem State.onWce_pwr (f : Wce → Wce) : (s.onWce f).pwr = s.pwr := rfl
@[simp] theorem State.onWce_jobMap (f : Wce → Wce) : (s.onWce f).jobMap = s.jobMap := rfl
@[simp] theorem State.onWce_ctx (f : Wce → Wce) (d : Ctx) : (s.onWce f).ctx d = s.ctx d := rfl

/-! ## onPort -/

@[simp] theorem State.onPort_pending (a : Arr) (f : Port → Port) : (s.onPort a f).pending = s.pending := rfl
@[simp] theorem State.onPort_out (a : Arr) (f : Port → Port) : (s.onPort a f).out = s.out := rfl
@[simp] theorem State.onPort_free (a : Arr) (f : Port → Port) : (s.onPort a f).free = s.free := rfl
@[simp] theorem State.onPort_fuses (a : Arr) (f : Port → Port) : (s.onPort a f).fuses = s.fuses := rfl
@[simp] theorem State.onPort_aon (a : Arr) (f : Port → Port) : (s.onPort a f).aon = s.aon := rfl
@[simp] theorem State.onPort_xing (a : Arr) (f : Port → Port) : (s.onPort a f).xing = s.xing := rfl
@[simp] theorem State.onPort_irq (a : Arr) (f : Port → Port) : (s.onPort a f).irq = s.irq := rfl
@[simp] theorem State.onPort_time (a : Arr) (f : Port → Port) : (s.onPort a f).time = s.time := rfl
@[simp] theorem State.onPort_spn (a : Arr) (f : Port → Port) : (s.onPort a f).spn = s.spn := rfl
@[simp] theorem State.onPort_ctxs (a : Arr) (f : Port → Port) : (s.onPort a f).ctxs = s.ctxs := rfl
@[simp] theorem State.onPort_mem (a : Arr) (f : Port → Port) : (s.onPort a f).mem = s.mem := rfl
@[simp] theorem State.onPort_tags (a : Arr) (f : Port → Port) : (s.onPort a f).tags = s.tags := rfl
@[simp] theorem State.onPort_mgtu (a : Arr) (f : Port → Port) : (s.onPort a f).mgtu = s.mgtu := rfl
@[simp] theorem State.onPort_lgtu (a : Arr) (f : Port → Port) : (s.onPort a f).lgtu = s.lgtu := rfl
@[simp] theorem State.onPort_retryLimit (a : Arr) (f : Port → Port) : (s.onPort a f).retryLimit = s.retryLimit := rfl
@[simp] theorem State.onPort_wce (a : Arr) (f : Port → Port) : (s.onPort a f).wce = { s.wce with ports := s.wce.ports.upd a f } := rfl
@[simp] theorem State.onPort_shd (a : Arr) (f : Port → Port) : (s.onPort a f).shd = s.shd := rfl
@[simp] theorem State.onPort_fst (a : Arr) (f : Port → Port) : (s.onPort a f).fst = s.fst := rfl
@[simp] theorem State.onPort_prv (a : Arr) (f : Port → Port) : (s.onPort a f).prv = s.prv := rfl
@[simp] theorem State.onPort_pln (a : Arr) (f : Port → Port) : (s.onPort a f).pln = s.pln := rfl
@[simp] theorem State.onPort_thm (a : Arr) (f : Port → Port) : (s.onPort a f).thm = s.thm := rfl
@[simp] theorem State.onPort_rcd (a : Arr) (f : Port → Port) : (s.onPort a f).rcd = s.rcd := rfl
@[simp] theorem State.onPort_fwp (a : Arr) (f : Port → Port) : (s.onPort a f).fwp = s.fwp := rfl
@[simp] theorem State.onPort_scr (a : Arr) (f : Port → Port) : (s.onPort a f).scr = s.scr := rfl
@[simp] theorem State.onPort_mgt (a : Arr) (f : Port → Port) : (s.onPort a f).mgt = s.mgt := rfl
@[simp] theorem State.onPort_pwr (a : Arr) (f : Port → Port) : (s.onPort a f).pwr = s.pwr := rfl
@[simp] theorem State.onPort_jobMap (a : Arr) (f : Port → Port) : (s.onPort a f).jobMap = s.jobMap := rfl
@[simp] theorem State.onPort_ctx (a : Arr) (f : Port → Port) (d : Ctx) : (s.onPort a f).ctx d = s.ctx d := rfl

/-! ## onSlice -/

@[simp] theorem State.onSlice_pending (n : Slice) (f : SliceSt → SliceSt) : (s.onSlice n f).pending = s.pending := rfl
@[simp] theorem State.onSlice_out (n : Slice) (f : SliceSt → SliceSt) : (s.onSlice n f).out = s.out := rfl
@[simp] theorem State.onSlice_free (n : Slice) (f : SliceSt → SliceSt) : (s.onSlice n f).free = s.free := rfl
@[simp] theorem State.onSlice_fuses (n : Slice) (f : SliceSt → SliceSt) : (s.onSlice n f).fuses = s.fuses := rfl
@[simp] theorem State.onSlice_aon (n : Slice) (f : SliceSt → SliceSt) : (s.onSlice n f).aon = s.aon := rfl
@[simp] theorem State.onSlice_xing (n : Slice) (f : SliceSt → SliceSt) : (s.onSlice n f).xing = s.xing := rfl
@[simp] theorem State.onSlice_irq (n : Slice) (f : SliceSt → SliceSt) : (s.onSlice n f).irq = s.irq := rfl
@[simp] theorem State.onSlice_time (n : Slice) (f : SliceSt → SliceSt) : (s.onSlice n f).time = s.time := rfl
@[simp] theorem State.onSlice_spn (n : Slice) (f : SliceSt → SliceSt) : (s.onSlice n f).spn = s.spn := rfl
@[simp] theorem State.onSlice_ctxs (n : Slice) (f : SliceSt → SliceSt) : (s.onSlice n f).ctxs = s.ctxs := rfl
@[simp] theorem State.onSlice_mem (n : Slice) (f : SliceSt → SliceSt) : (s.onSlice n f).mem = s.mem := rfl
@[simp] theorem State.onSlice_tags (n : Slice) (f : SliceSt → SliceSt) : (s.onSlice n f).tags = s.tags := rfl
@[simp] theorem State.onSlice_mgtu (n : Slice) (f : SliceSt → SliceSt) : (s.onSlice n f).mgtu = s.mgtu := rfl
@[simp] theorem State.onSlice_lgtu (n : Slice) (f : SliceSt → SliceSt) : (s.onSlice n f).lgtu = s.lgtu := rfl
@[simp] theorem State.onSlice_retryLimit (n : Slice) (f : SliceSt → SliceSt) : (s.onSlice n f).retryLimit = s.retryLimit := rfl
@[simp] theorem State.onSlice_wce (n : Slice) (f : SliceSt → SliceSt) : (s.onSlice n f).wce = { s.wce with slices := s.wce.slices.upd n f } := rfl
@[simp] theorem State.onSlice_shd (n : Slice) (f : SliceSt → SliceSt) : (s.onSlice n f).shd = s.shd := rfl
@[simp] theorem State.onSlice_fst (n : Slice) (f : SliceSt → SliceSt) : (s.onSlice n f).fst = s.fst := rfl
@[simp] theorem State.onSlice_prv (n : Slice) (f : SliceSt → SliceSt) : (s.onSlice n f).prv = s.prv := rfl
@[simp] theorem State.onSlice_pln (n : Slice) (f : SliceSt → SliceSt) : (s.onSlice n f).pln = s.pln := rfl
@[simp] theorem State.onSlice_thm (n : Slice) (f : SliceSt → SliceSt) : (s.onSlice n f).thm = s.thm := rfl
@[simp] theorem State.onSlice_rcd (n : Slice) (f : SliceSt → SliceSt) : (s.onSlice n f).rcd = s.rcd := rfl
@[simp] theorem State.onSlice_fwp (n : Slice) (f : SliceSt → SliceSt) : (s.onSlice n f).fwp = s.fwp := rfl
@[simp] theorem State.onSlice_scr (n : Slice) (f : SliceSt → SliceSt) : (s.onSlice n f).scr = s.scr := rfl
@[simp] theorem State.onSlice_mgt (n : Slice) (f : SliceSt → SliceSt) : (s.onSlice n f).mgt = s.mgt := rfl
@[simp] theorem State.onSlice_pwr (n : Slice) (f : SliceSt → SliceSt) : (s.onSlice n f).pwr = s.pwr := rfl
@[simp] theorem State.onSlice_jobMap (n : Slice) (f : SliceSt → SliceSt) : (s.onSlice n f).jobMap = s.jobMap := rfl
@[simp] theorem State.onSlice_ctx (n : Slice) (f : SliceSt → SliceSt) (d : Ctx) : (s.onSlice n f).ctx d = s.ctx d := rfl

/-! ## onShd -/

@[simp] theorem State.onShd_pending (f : Shd → Shd) : (s.onShd f).pending = s.pending := rfl
@[simp] theorem State.onShd_out (f : Shd → Shd) : (s.onShd f).out = s.out := rfl
@[simp] theorem State.onShd_free (f : Shd → Shd) : (s.onShd f).free = s.free := rfl
@[simp] theorem State.onShd_fuses (f : Shd → Shd) : (s.onShd f).fuses = s.fuses := rfl
@[simp] theorem State.onShd_aon (f : Shd → Shd) : (s.onShd f).aon = s.aon := rfl
@[simp] theorem State.onShd_xing (f : Shd → Shd) : (s.onShd f).xing = s.xing := rfl
@[simp] theorem State.onShd_irq (f : Shd → Shd) : (s.onShd f).irq = s.irq := rfl
@[simp] theorem State.onShd_time (f : Shd → Shd) : (s.onShd f).time = s.time := rfl
@[simp] theorem State.onShd_spn (f : Shd → Shd) : (s.onShd f).spn = s.spn := rfl
@[simp] theorem State.onShd_ctxs (f : Shd → Shd) : (s.onShd f).ctxs = s.ctxs := rfl
@[simp] theorem State.onShd_mem (f : Shd → Shd) : (s.onShd f).mem = s.mem := rfl
@[simp] theorem State.onShd_tags (f : Shd → Shd) : (s.onShd f).tags = s.tags := rfl
@[simp] theorem State.onShd_mgtu (f : Shd → Shd) : (s.onShd f).mgtu = s.mgtu := rfl
@[simp] theorem State.onShd_lgtu (f : Shd → Shd) : (s.onShd f).lgtu = s.lgtu := rfl
@[simp] theorem State.onShd_retryLimit (f : Shd → Shd) : (s.onShd f).retryLimit = s.retryLimit := rfl
@[simp] theorem State.onShd_wce (f : Shd → Shd) : (s.onShd f).wce = s.wce := rfl
@[simp] theorem State.onShd_shd (f : Shd → Shd) : (s.onShd f).shd = f s.shd := rfl
@[simp] theorem State.onShd_fst (f : Shd → Shd) : (s.onShd f).fst = s.fst := rfl
@[simp] theorem State.onShd_prv (f : Shd → Shd) : (s.onShd f).prv = s.prv := rfl
@[simp] theorem State.onShd_pln (f : Shd → Shd) : (s.onShd f).pln = s.pln := rfl
@[simp] theorem State.onShd_thm (f : Shd → Shd) : (s.onShd f).thm = s.thm := rfl
@[simp] theorem State.onShd_rcd (f : Shd → Shd) : (s.onShd f).rcd = s.rcd := rfl
@[simp] theorem State.onShd_fwp (f : Shd → Shd) : (s.onShd f).fwp = s.fwp := rfl
@[simp] theorem State.onShd_scr (f : Shd → Shd) : (s.onShd f).scr = s.scr := rfl
@[simp] theorem State.onShd_mgt (f : Shd → Shd) : (s.onShd f).mgt = s.mgt := rfl
@[simp] theorem State.onShd_pwr (f : Shd → Shd) : (s.onShd f).pwr = s.pwr := rfl
@[simp] theorem State.onShd_jobMap (f : Shd → Shd) : (s.onShd f).jobMap = s.jobMap := rfl
@[simp] theorem State.onShd_ctx (f : Shd → Shd) (d : Ctx) : (s.onShd f).ctx d = s.ctx d := rfl

/-! ## onRow -/

@[simp] theorem State.onRow_pending (r : Row) (f : ShdRow → ShdRow) : (s.onRow r f).pending = s.pending := rfl
@[simp] theorem State.onRow_out (r : Row) (f : ShdRow → ShdRow) : (s.onRow r f).out = s.out := rfl
@[simp] theorem State.onRow_free (r : Row) (f : ShdRow → ShdRow) : (s.onRow r f).free = s.free := rfl
@[simp] theorem State.onRow_fuses (r : Row) (f : ShdRow → ShdRow) : (s.onRow r f).fuses = s.fuses := rfl
@[simp] theorem State.onRow_aon (r : Row) (f : ShdRow → ShdRow) : (s.onRow r f).aon = s.aon := rfl
@[simp] theorem State.onRow_xing (r : Row) (f : ShdRow → ShdRow) : (s.onRow r f).xing = s.xing := rfl
@[simp] theorem State.onRow_irq (r : Row) (f : ShdRow → ShdRow) : (s.onRow r f).irq = s.irq := rfl
@[simp] theorem State.onRow_time (r : Row) (f : ShdRow → ShdRow) : (s.onRow r f).time = s.time := rfl
@[simp] theorem State.onRow_spn (r : Row) (f : ShdRow → ShdRow) : (s.onRow r f).spn = s.spn := rfl
@[simp] theorem State.onRow_ctxs (r : Row) (f : ShdRow → ShdRow) : (s.onRow r f).ctxs = s.ctxs := rfl
@[simp] theorem State.onRow_mem (r : Row) (f : ShdRow → ShdRow) : (s.onRow r f).mem = s.mem := rfl
@[simp] theorem State.onRow_tags (r : Row) (f : ShdRow → ShdRow) : (s.onRow r f).tags = s.tags := rfl
@[simp] theorem State.onRow_mgtu (r : Row) (f : ShdRow → ShdRow) : (s.onRow r f).mgtu = s.mgtu := rfl
@[simp] theorem State.onRow_lgtu (r : Row) (f : ShdRow → ShdRow) : (s.onRow r f).lgtu = s.lgtu := rfl
@[simp] theorem State.onRow_retryLimit (r : Row) (f : ShdRow → ShdRow) : (s.onRow r f).retryLimit = s.retryLimit := rfl
@[simp] theorem State.onRow_wce (r : Row) (f : ShdRow → ShdRow) : (s.onRow r f).wce = s.wce := rfl
@[simp] theorem State.onRow_shd (r : Row) (f : ShdRow → ShdRow) : (s.onRow r f).shd = { s.shd with rows := s.shd.rows.upd r f } := rfl
@[simp] theorem State.onRow_fst (r : Row) (f : ShdRow → ShdRow) : (s.onRow r f).fst = s.fst := rfl
@[simp] theorem State.onRow_prv (r : Row) (f : ShdRow → ShdRow) : (s.onRow r f).prv = s.prv := rfl
@[simp] theorem State.onRow_pln (r : Row) (f : ShdRow → ShdRow) : (s.onRow r f).pln = s.pln := rfl
@[simp] theorem State.onRow_thm (r : Row) (f : ShdRow → ShdRow) : (s.onRow r f).thm = s.thm := rfl
@[simp] theorem State.onRow_rcd (r : Row) (f : ShdRow → ShdRow) : (s.onRow r f).rcd = s.rcd := rfl
@[simp] theorem State.onRow_fwp (r : Row) (f : ShdRow → ShdRow) : (s.onRow r f).fwp = s.fwp := rfl
@[simp] theorem State.onRow_scr (r : Row) (f : ShdRow → ShdRow) : (s.onRow r f).scr = s.scr := rfl
@[simp] theorem State.onRow_mgt (r : Row) (f : ShdRow → ShdRow) : (s.onRow r f).mgt = s.mgt := rfl
@[simp] theorem State.onRow_pwr (r : Row) (f : ShdRow → ShdRow) : (s.onRow r f).pwr = s.pwr := rfl
@[simp] theorem State.onRow_jobMap (r : Row) (f : ShdRow → ShdRow) : (s.onRow r f).jobMap = s.jobMap := rfl
@[simp] theorem State.onRow_ctx (r : Row) (f : ShdRow → ShdRow) (d : Ctx) : (s.onRow r f).ctx d = s.ctx d := rfl

/-! ## onFst -/

@[simp] theorem State.onFst_pending (f : Fst → Fst) : (s.onFst f).pending = s.pending := rfl
@[simp] theorem State.onFst_out (f : Fst → Fst) : (s.onFst f).out = s.out := rfl
@[simp] theorem State.onFst_free (f : Fst → Fst) : (s.onFst f).free = s.free := rfl
@[simp] theorem State.onFst_fuses (f : Fst → Fst) : (s.onFst f).fuses = s.fuses := rfl
@[simp] theorem State.onFst_aon (f : Fst → Fst) : (s.onFst f).aon = s.aon := rfl
@[simp] theorem State.onFst_xing (f : Fst → Fst) : (s.onFst f).xing = s.xing := rfl
@[simp] theorem State.onFst_irq (f : Fst → Fst) : (s.onFst f).irq = s.irq := rfl
@[simp] theorem State.onFst_time (f : Fst → Fst) : (s.onFst f).time = s.time := rfl
@[simp] theorem State.onFst_spn (f : Fst → Fst) : (s.onFst f).spn = s.spn := rfl
@[simp] theorem State.onFst_ctxs (f : Fst → Fst) : (s.onFst f).ctxs = s.ctxs := rfl
@[simp] theorem State.onFst_mem (f : Fst → Fst) : (s.onFst f).mem = s.mem := rfl
@[simp] theorem State.onFst_tags (f : Fst → Fst) : (s.onFst f).tags = s.tags := rfl
@[simp] theorem State.onFst_mgtu (f : Fst → Fst) : (s.onFst f).mgtu = s.mgtu := rfl
@[simp] theorem State.onFst_lgtu (f : Fst → Fst) : (s.onFst f).lgtu = s.lgtu := rfl
@[simp] theorem State.onFst_retryLimit (f : Fst → Fst) : (s.onFst f).retryLimit = s.retryLimit := rfl
@[simp] theorem State.onFst_wce (f : Fst → Fst) : (s.onFst f).wce = s.wce := rfl
@[simp] theorem State.onFst_shd (f : Fst → Fst) : (s.onFst f).shd = s.shd := rfl
@[simp] theorem State.onFst_fst (f : Fst → Fst) : (s.onFst f).fst = f s.fst := rfl
@[simp] theorem State.onFst_prv (f : Fst → Fst) : (s.onFst f).prv = s.prv := rfl
@[simp] theorem State.onFst_pln (f : Fst → Fst) : (s.onFst f).pln = s.pln := rfl
@[simp] theorem State.onFst_thm (f : Fst → Fst) : (s.onFst f).thm = s.thm := rfl
@[simp] theorem State.onFst_rcd (f : Fst → Fst) : (s.onFst f).rcd = s.rcd := rfl
@[simp] theorem State.onFst_fwp (f : Fst → Fst) : (s.onFst f).fwp = s.fwp := rfl
@[simp] theorem State.onFst_scr (f : Fst → Fst) : (s.onFst f).scr = s.scr := rfl
@[simp] theorem State.onFst_mgt (f : Fst → Fst) : (s.onFst f).mgt = s.mgt := rfl
@[simp] theorem State.onFst_pwr (f : Fst → Fst) : (s.onFst f).pwr = s.pwr := rfl
@[simp] theorem State.onFst_jobMap (f : Fst → Fst) : (s.onFst f).jobMap = s.jobMap := rfl
@[simp] theorem State.onFst_ctx (f : Fst → Fst) (d : Ctx) : (s.onFst f).ctx d = s.ctx d := rfl

/-! ## onThm -/

@[simp] theorem State.onThm_pending (f : Thm → Thm) : (s.onThm f).pending = s.pending := rfl
@[simp] theorem State.onThm_out (f : Thm → Thm) : (s.onThm f).out = s.out := rfl
@[simp] theorem State.onThm_free (f : Thm → Thm) : (s.onThm f).free = s.free := rfl
@[simp] theorem State.onThm_fuses (f : Thm → Thm) : (s.onThm f).fuses = s.fuses := rfl
@[simp] theorem State.onThm_aon (f : Thm → Thm) : (s.onThm f).aon = s.aon := rfl
@[simp] theorem State.onThm_xing (f : Thm → Thm) : (s.onThm f).xing = s.xing := rfl
@[simp] theorem State.onThm_irq (f : Thm → Thm) : (s.onThm f).irq = s.irq := rfl
@[simp] theorem State.onThm_time (f : Thm → Thm) : (s.onThm f).time = s.time := rfl
@[simp] theorem State.onThm_spn (f : Thm → Thm) : (s.onThm f).spn = s.spn := rfl
@[simp] theorem State.onThm_ctxs (f : Thm → Thm) : (s.onThm f).ctxs = s.ctxs := rfl
@[simp] theorem State.onThm_mem (f : Thm → Thm) : (s.onThm f).mem = s.mem := rfl
@[simp] theorem State.onThm_tags (f : Thm → Thm) : (s.onThm f).tags = s.tags := rfl
@[simp] theorem State.onThm_mgtu (f : Thm → Thm) : (s.onThm f).mgtu = s.mgtu := rfl
@[simp] theorem State.onThm_lgtu (f : Thm → Thm) : (s.onThm f).lgtu = s.lgtu := rfl
@[simp] theorem State.onThm_retryLimit (f : Thm → Thm) : (s.onThm f).retryLimit = s.retryLimit := rfl
@[simp] theorem State.onThm_wce (f : Thm → Thm) : (s.onThm f).wce = s.wce := rfl
@[simp] theorem State.onThm_shd (f : Thm → Thm) : (s.onThm f).shd = s.shd := rfl
@[simp] theorem State.onThm_fst (f : Thm → Thm) : (s.onThm f).fst = s.fst := rfl
@[simp] theorem State.onThm_prv (f : Thm → Thm) : (s.onThm f).prv = s.prv := rfl
@[simp] theorem State.onThm_pln (f : Thm → Thm) : (s.onThm f).pln = s.pln := rfl
@[simp] theorem State.onThm_thm (f : Thm → Thm) : (s.onThm f).thm = f s.thm := rfl
@[simp] theorem State.onThm_rcd (f : Thm → Thm) : (s.onThm f).rcd = s.rcd := rfl
@[simp] theorem State.onThm_fwp (f : Thm → Thm) : (s.onThm f).fwp = s.fwp := rfl
@[simp] theorem State.onThm_scr (f : Thm → Thm) : (s.onThm f).scr = s.scr := rfl
@[simp] theorem State.onThm_mgt (f : Thm → Thm) : (s.onThm f).mgt = s.mgt := rfl
@[simp] theorem State.onThm_pwr (f : Thm → Thm) : (s.onThm f).pwr = s.pwr := rfl
@[simp] theorem State.onThm_jobMap (f : Thm → Thm) : (s.onThm f).jobMap = s.jobMap := rfl
@[simp] theorem State.onThm_ctx (f : Thm → Thm) (d : Ctx) : (s.onThm f).ctx d = s.ctx d := rfl

/-! ## onSensor -/

@[simp] theorem State.onSensor_pending (n : Sensor) (f : SensorSt → SensorSt) : (s.onSensor n f).pending = s.pending := rfl
@[simp] theorem State.onSensor_out (n : Sensor) (f : SensorSt → SensorSt) : (s.onSensor n f).out = s.out := rfl
@[simp] theorem State.onSensor_free (n : Sensor) (f : SensorSt → SensorSt) : (s.onSensor n f).free = s.free := rfl
@[simp] theorem State.onSensor_fuses (n : Sensor) (f : SensorSt → SensorSt) : (s.onSensor n f).fuses = s.fuses := rfl
@[simp] theorem State.onSensor_aon (n : Sensor) (f : SensorSt → SensorSt) : (s.onSensor n f).aon = s.aon := rfl
@[simp] theorem State.onSensor_xing (n : Sensor) (f : SensorSt → SensorSt) : (s.onSensor n f).xing = s.xing := rfl
@[simp] theorem State.onSensor_irq (n : Sensor) (f : SensorSt → SensorSt) : (s.onSensor n f).irq = s.irq := rfl
@[simp] theorem State.onSensor_time (n : Sensor) (f : SensorSt → SensorSt) : (s.onSensor n f).time = s.time := rfl
@[simp] theorem State.onSensor_spn (n : Sensor) (f : SensorSt → SensorSt) : (s.onSensor n f).spn = s.spn := rfl
@[simp] theorem State.onSensor_ctxs (n : Sensor) (f : SensorSt → SensorSt) : (s.onSensor n f).ctxs = s.ctxs := rfl
@[simp] theorem State.onSensor_mem (n : Sensor) (f : SensorSt → SensorSt) : (s.onSensor n f).mem = s.mem := rfl
@[simp] theorem State.onSensor_tags (n : Sensor) (f : SensorSt → SensorSt) : (s.onSensor n f).tags = s.tags := rfl
@[simp] theorem State.onSensor_mgtu (n : Sensor) (f : SensorSt → SensorSt) : (s.onSensor n f).mgtu = s.mgtu := rfl
@[simp] theorem State.onSensor_lgtu (n : Sensor) (f : SensorSt → SensorSt) : (s.onSensor n f).lgtu = s.lgtu := rfl
@[simp] theorem State.onSensor_retryLimit (n : Sensor) (f : SensorSt → SensorSt) : (s.onSensor n f).retryLimit = s.retryLimit := rfl
@[simp] theorem State.onSensor_wce (n : Sensor) (f : SensorSt → SensorSt) : (s.onSensor n f).wce = s.wce := rfl
@[simp] theorem State.onSensor_shd (n : Sensor) (f : SensorSt → SensorSt) : (s.onSensor n f).shd = s.shd := rfl
@[simp] theorem State.onSensor_fst (n : Sensor) (f : SensorSt → SensorSt) : (s.onSensor n f).fst = s.fst := rfl
@[simp] theorem State.onSensor_prv (n : Sensor) (f : SensorSt → SensorSt) : (s.onSensor n f).prv = s.prv := rfl
@[simp] theorem State.onSensor_pln (n : Sensor) (f : SensorSt → SensorSt) : (s.onSensor n f).pln = s.pln := rfl
@[simp] theorem State.onSensor_thm (n : Sensor) (f : SensorSt → SensorSt) : (s.onSensor n f).thm = { s.thm with sensors := s.thm.sensors.upd n f } := rfl
@[simp] theorem State.onSensor_rcd (n : Sensor) (f : SensorSt → SensorSt) : (s.onSensor n f).rcd = s.rcd := rfl
@[simp] theorem State.onSensor_fwp (n : Sensor) (f : SensorSt → SensorSt) : (s.onSensor n f).fwp = s.fwp := rfl
@[simp] theorem State.onSensor_scr (n : Sensor) (f : SensorSt → SensorSt) : (s.onSensor n f).scr = s.scr := rfl
@[simp] theorem State.onSensor_mgt (n : Sensor) (f : SensorSt → SensorSt) : (s.onSensor n f).mgt = s.mgt := rfl
@[simp] theorem State.onSensor_pwr (n : Sensor) (f : SensorSt → SensorSt) : (s.onSensor n f).pwr = s.pwr := rfl
@[simp] theorem State.onSensor_jobMap (n : Sensor) (f : SensorSt → SensorSt) : (s.onSensor n f).jobMap = s.jobMap := rfl
@[simp] theorem State.onSensor_ctx (n : Sensor) (f : SensorSt → SensorSt) (d : Ctx) : (s.onSensor n f).ctx d = s.ctx d := rfl

/-! ## onRec -/

@[simp] theorem State.onRec_pending (f : RecSt → RecSt) : (s.onRec f).pending = s.pending := rfl
@[simp] theorem State.onRec_out (f : RecSt → RecSt) : (s.onRec f).out = s.out := rfl
@[simp] theorem State.onRec_free (f : RecSt → RecSt) : (s.onRec f).free = s.free := rfl
@[simp] theorem State.onRec_fuses (f : RecSt → RecSt) : (s.onRec f).fuses = s.fuses := rfl
@[simp] theorem State.onRec_aon (f : RecSt → RecSt) : (s.onRec f).aon = s.aon := rfl
@[simp] theorem State.onRec_xing (f : RecSt → RecSt) : (s.onRec f).xing = s.xing := rfl
@[simp] theorem State.onRec_irq (f : RecSt → RecSt) : (s.onRec f).irq = s.irq := rfl
@[simp] theorem State.onRec_time (f : RecSt → RecSt) : (s.onRec f).time = s.time := rfl
@[simp] theorem State.onRec_spn (f : RecSt → RecSt) : (s.onRec f).spn = s.spn := rfl
@[simp] theorem State.onRec_ctxs (f : RecSt → RecSt) : (s.onRec f).ctxs = s.ctxs := rfl
@[simp] theorem State.onRec_mem (f : RecSt → RecSt) : (s.onRec f).mem = s.mem := rfl
@[simp] theorem State.onRec_tags (f : RecSt → RecSt) : (s.onRec f).tags = s.tags := rfl
@[simp] theorem State.onRec_mgtu (f : RecSt → RecSt) : (s.onRec f).mgtu = s.mgtu := rfl
@[simp] theorem State.onRec_lgtu (f : RecSt → RecSt) : (s.onRec f).lgtu = s.lgtu := rfl
@[simp] theorem State.onRec_retryLimit (f : RecSt → RecSt) : (s.onRec f).retryLimit = s.retryLimit := rfl
@[simp] theorem State.onRec_wce (f : RecSt → RecSt) : (s.onRec f).wce = s.wce := rfl
@[simp] theorem State.onRec_shd (f : RecSt → RecSt) : (s.onRec f).shd = s.shd := rfl
@[simp] theorem State.onRec_fst (f : RecSt → RecSt) : (s.onRec f).fst = s.fst := rfl
@[simp] theorem State.onRec_prv (f : RecSt → RecSt) : (s.onRec f).prv = s.prv := rfl
@[simp] theorem State.onRec_pln (f : RecSt → RecSt) : (s.onRec f).pln = s.pln := rfl
@[simp] theorem State.onRec_thm (f : RecSt → RecSt) : (s.onRec f).thm = s.thm := rfl
@[simp] theorem State.onRec_rcd (f : RecSt → RecSt) : (s.onRec f).rcd = f s.rcd := rfl
@[simp] theorem State.onRec_fwp (f : RecSt → RecSt) : (s.onRec f).fwp = s.fwp := rfl
@[simp] theorem State.onRec_scr (f : RecSt → RecSt) : (s.onRec f).scr = s.scr := rfl
@[simp] theorem State.onRec_mgt (f : RecSt → RecSt) : (s.onRec f).mgt = s.mgt := rfl
@[simp] theorem State.onRec_pwr (f : RecSt → RecSt) : (s.onRec f).pwr = s.pwr := rfl
@[simp] theorem State.onRec_jobMap (f : RecSt → RecSt) : (s.onRec f).jobMap = s.jobMap := rfl
@[simp] theorem State.onRec_ctx (f : RecSt → RecSt) (d : Ctx) : (s.onRec f).ctx d = s.ctx d := rfl

/-! ## onFlash -/

@[simp] theorem State.onFlash_pending (f : Flash → Flash) : (s.onFlash f).pending = s.pending := rfl
@[simp] theorem State.onFlash_out (f : Flash → Flash) : (s.onFlash f).out = s.out := rfl
@[simp] theorem State.onFlash_free (f : Flash → Flash) : (s.onFlash f).free = s.free := rfl
@[simp] theorem State.onFlash_fuses (f : Flash → Flash) : (s.onFlash f).fuses = s.fuses := rfl
@[simp] theorem State.onFlash_aon (f : Flash → Flash) : (s.onFlash f).aon = s.aon := rfl
@[simp] theorem State.onFlash_xing (f : Flash → Flash) : (s.onFlash f).xing = s.xing := rfl
@[simp] theorem State.onFlash_irq (f : Flash → Flash) : (s.onFlash f).irq = s.irq := rfl
@[simp] theorem State.onFlash_time (f : Flash → Flash) : (s.onFlash f).time = s.time := rfl
@[simp] theorem State.onFlash_spn (f : Flash → Flash) : (s.onFlash f).spn = s.spn := rfl
@[simp] theorem State.onFlash_ctxs (f : Flash → Flash) : (s.onFlash f).ctxs = s.ctxs := rfl
@[simp] theorem State.onFlash_mem (f : Flash → Flash) : (s.onFlash f).mem = s.mem := rfl
@[simp] theorem State.onFlash_tags (f : Flash → Flash) : (s.onFlash f).tags = s.tags := rfl
@[simp] theorem State.onFlash_mgtu (f : Flash → Flash) : (s.onFlash f).mgtu = s.mgtu := rfl
@[simp] theorem State.onFlash_lgtu (f : Flash → Flash) : (s.onFlash f).lgtu = s.lgtu := rfl
@[simp] theorem State.onFlash_retryLimit (f : Flash → Flash) : (s.onFlash f).retryLimit = s.retryLimit := rfl
@[simp] theorem State.onFlash_wce (f : Flash → Flash) : (s.onFlash f).wce = s.wce := rfl
@[simp] theorem State.onFlash_shd (f : Flash → Flash) : (s.onFlash f).shd = s.shd := rfl
@[simp] theorem State.onFlash_fst (f : Flash → Flash) : (s.onFlash f).fst = s.fst := rfl
@[simp] theorem State.onFlash_prv (f : Flash → Flash) : (s.onFlash f).prv = s.prv := rfl
@[simp] theorem State.onFlash_pln (f : Flash → Flash) : (s.onFlash f).pln = s.pln := rfl
@[simp] theorem State.onFlash_thm (f : Flash → Flash) : (s.onFlash f).thm = s.thm := rfl
@[simp] theorem State.onFlash_rcd (f : Flash → Flash) : (s.onFlash f).rcd = { s.rcd with flash := f s.rcd.flash } := rfl
@[simp] theorem State.onFlash_fwp (f : Flash → Flash) : (s.onFlash f).fwp = s.fwp := rfl
@[simp] theorem State.onFlash_scr (f : Flash → Flash) : (s.onFlash f).scr = s.scr := rfl
@[simp] theorem State.onFlash_mgt (f : Flash → Flash) : (s.onFlash f).mgt = s.mgt := rfl
@[simp] theorem State.onFlash_pwr (f : Flash → Flash) : (s.onFlash f).pwr = s.pwr := rfl
@[simp] theorem State.onFlash_jobMap (f : Flash → Flash) : (s.onFlash f).jobMap = s.jobMap := rfl
@[simp] theorem State.onFlash_ctx (f : Flash → Flash) (d : Ctx) : (s.onFlash f).ctx d = s.ctx d := rfl

/-! ## onFwp -/

@[simp] theorem State.onFwp_pending (f : Fwp → Fwp) : (s.onFwp f).pending = s.pending := rfl
@[simp] theorem State.onFwp_out (f : Fwp → Fwp) : (s.onFwp f).out = s.out := rfl
@[simp] theorem State.onFwp_free (f : Fwp → Fwp) : (s.onFwp f).free = s.free := rfl
@[simp] theorem State.onFwp_fuses (f : Fwp → Fwp) : (s.onFwp f).fuses = s.fuses := rfl
@[simp] theorem State.onFwp_aon (f : Fwp → Fwp) : (s.onFwp f).aon = s.aon := rfl
@[simp] theorem State.onFwp_xing (f : Fwp → Fwp) : (s.onFwp f).xing = s.xing := rfl
@[simp] theorem State.onFwp_irq (f : Fwp → Fwp) : (s.onFwp f).irq = s.irq := rfl
@[simp] theorem State.onFwp_time (f : Fwp → Fwp) : (s.onFwp f).time = s.time := rfl
@[simp] theorem State.onFwp_spn (f : Fwp → Fwp) : (s.onFwp f).spn = s.spn := rfl
@[simp] theorem State.onFwp_ctxs (f : Fwp → Fwp) : (s.onFwp f).ctxs = s.ctxs := rfl
@[simp] theorem State.onFwp_mem (f : Fwp → Fwp) : (s.onFwp f).mem = s.mem := rfl
@[simp] theorem State.onFwp_tags (f : Fwp → Fwp) : (s.onFwp f).tags = s.tags := rfl
@[simp] theorem State.onFwp_mgtu (f : Fwp → Fwp) : (s.onFwp f).mgtu = s.mgtu := rfl
@[simp] theorem State.onFwp_lgtu (f : Fwp → Fwp) : (s.onFwp f).lgtu = s.lgtu := rfl
@[simp] theorem State.onFwp_retryLimit (f : Fwp → Fwp) : (s.onFwp f).retryLimit = s.retryLimit := rfl
@[simp] theorem State.onFwp_wce (f : Fwp → Fwp) : (s.onFwp f).wce = s.wce := rfl
@[simp] theorem State.onFwp_shd (f : Fwp → Fwp) : (s.onFwp f).shd = s.shd := rfl
@[simp] theorem State.onFwp_fst (f : Fwp → Fwp) : (s.onFwp f).fst = s.fst := rfl
@[simp] theorem State.onFwp_prv (f : Fwp → Fwp) : (s.onFwp f).prv = s.prv := rfl
@[simp] theorem State.onFwp_pln (f : Fwp → Fwp) : (s.onFwp f).pln = s.pln := rfl
@[simp] theorem State.onFwp_thm (f : Fwp → Fwp) : (s.onFwp f).thm = s.thm := rfl
@[simp] theorem State.onFwp_rcd (f : Fwp → Fwp) : (s.onFwp f).rcd = s.rcd := rfl
@[simp] theorem State.onFwp_fwp (f : Fwp → Fwp) : (s.onFwp f).fwp = f s.fwp := rfl
@[simp] theorem State.onFwp_scr (f : Fwp → Fwp) : (s.onFwp f).scr = s.scr := rfl
@[simp] theorem State.onFwp_mgt (f : Fwp → Fwp) : (s.onFwp f).mgt = s.mgt := rfl
@[simp] theorem State.onFwp_pwr (f : Fwp → Fwp) : (s.onFwp f).pwr = s.pwr := rfl
@[simp] theorem State.onFwp_jobMap (f : Fwp → Fwp) : (s.onFwp f).jobMap = s.jobMap := rfl
@[simp] theorem State.onFwp_ctx (f : Fwp → Fwp) (d : Ctx) : (s.onFwp f).ctx d = s.ctx d := rfl

/-! ## onProc -/

@[simp] theorem State.onProc_pending (p : Proc) (f : ProcSt → ProcSt) : (s.onProc p f).pending = s.pending := rfl
@[simp] theorem State.onProc_out (p : Proc) (f : ProcSt → ProcSt) : (s.onProc p f).out = s.out := rfl
@[simp] theorem State.onProc_free (p : Proc) (f : ProcSt → ProcSt) : (s.onProc p f).free = s.free := rfl
@[simp] theorem State.onProc_fuses (p : Proc) (f : ProcSt → ProcSt) : (s.onProc p f).fuses = s.fuses := rfl
@[simp] theorem State.onProc_aon (p : Proc) (f : ProcSt → ProcSt) : (s.onProc p f).aon = s.aon := rfl
@[simp] theorem State.onProc_xing (p : Proc) (f : ProcSt → ProcSt) : (s.onProc p f).xing = s.xing := rfl
@[simp] theorem State.onProc_irq (p : Proc) (f : ProcSt → ProcSt) : (s.onProc p f).irq = s.irq := rfl
@[simp] theorem State.onProc_time (p : Proc) (f : ProcSt → ProcSt) : (s.onProc p f).time = s.time := rfl
@[simp] theorem State.onProc_spn (p : Proc) (f : ProcSt → ProcSt) : (s.onProc p f).spn = s.spn := rfl
@[simp] theorem State.onProc_ctxs (p : Proc) (f : ProcSt → ProcSt) : (s.onProc p f).ctxs = s.ctxs := rfl
@[simp] theorem State.onProc_mem (p : Proc) (f : ProcSt → ProcSt) : (s.onProc p f).mem = s.mem := rfl
@[simp] theorem State.onProc_tags (p : Proc) (f : ProcSt → ProcSt) : (s.onProc p f).tags = s.tags := rfl
@[simp] theorem State.onProc_mgtu (p : Proc) (f : ProcSt → ProcSt) : (s.onProc p f).mgtu = s.mgtu := rfl
@[simp] theorem State.onProc_lgtu (p : Proc) (f : ProcSt → ProcSt) : (s.onProc p f).lgtu = s.lgtu := rfl
@[simp] theorem State.onProc_retryLimit (p : Proc) (f : ProcSt → ProcSt) : (s.onProc p f).retryLimit = s.retryLimit := rfl
@[simp] theorem State.onProc_wce (p : Proc) (f : ProcSt → ProcSt) : (s.onProc p f).wce = s.wce := rfl
@[simp] theorem State.onProc_shd (p : Proc) (f : ProcSt → ProcSt) : (s.onProc p f).shd = s.shd := rfl
@[simp] theorem State.onProc_fst (p : Proc) (f : ProcSt → ProcSt) : (s.onProc p f).fst = s.fst := rfl
@[simp] theorem State.onProc_prv (p : Proc) (f : ProcSt → ProcSt) : (s.onProc p f).prv = s.prv := rfl
@[simp] theorem State.onProc_pln (p : Proc) (f : ProcSt → ProcSt) : (s.onProc p f).pln = s.pln := rfl
@[simp] theorem State.onProc_thm (p : Proc) (f : ProcSt → ProcSt) : (s.onProc p f).thm = s.thm := rfl
@[simp] theorem State.onProc_rcd (p : Proc) (f : ProcSt → ProcSt) : (s.onProc p f).rcd = s.rcd := rfl
@[simp] theorem State.onProc_fwp (p : Proc) (f : ProcSt → ProcSt) : (s.onProc p f).fwp = { s.fwp with procs := s.fwp.procs.upd p f } := rfl
@[simp] theorem State.onProc_scr (p : Proc) (f : ProcSt → ProcSt) : (s.onProc p f).scr = s.scr := rfl
@[simp] theorem State.onProc_mgt (p : Proc) (f : ProcSt → ProcSt) : (s.onProc p f).mgt = s.mgt := rfl
@[simp] theorem State.onProc_pwr (p : Proc) (f : ProcSt → ProcSt) : (s.onProc p f).pwr = s.pwr := rfl
@[simp] theorem State.onProc_jobMap (p : Proc) (f : ProcSt → ProcSt) : (s.onProc p f).jobMap = s.jobMap := rfl
@[simp] theorem State.onProc_ctx (p : Proc) (f : ProcSt → ProcSt) (d : Ctx) : (s.onProc p f).ctx d = s.ctx d := rfl

/-! ## onChan -/

@[simp] theorem State.onChan_pending (h : Chan) (f : ChanSt → ChanSt) : (s.onChan h f).pending = s.pending := rfl
@[simp] theorem State.onChan_out (h : Chan) (f : ChanSt → ChanSt) : (s.onChan h f).out = s.out := rfl
@[simp] theorem State.onChan_free (h : Chan) (f : ChanSt → ChanSt) : (s.onChan h f).free = s.free := rfl
@[simp] theorem State.onChan_fuses (h : Chan) (f : ChanSt → ChanSt) : (s.onChan h f).fuses = s.fuses := rfl
@[simp] theorem State.onChan_aon (h : Chan) (f : ChanSt → ChanSt) : (s.onChan h f).aon = s.aon := rfl
@[simp] theorem State.onChan_xing (h : Chan) (f : ChanSt → ChanSt) : (s.onChan h f).xing = s.xing := rfl
@[simp] theorem State.onChan_irq (h : Chan) (f : ChanSt → ChanSt) : (s.onChan h f).irq = s.irq := rfl
@[simp] theorem State.onChan_time (h : Chan) (f : ChanSt → ChanSt) : (s.onChan h f).time = s.time := rfl
@[simp] theorem State.onChan_spn (h : Chan) (f : ChanSt → ChanSt) : (s.onChan h f).spn = s.spn := rfl
@[simp] theorem State.onChan_ctxs (h : Chan) (f : ChanSt → ChanSt) : (s.onChan h f).ctxs = s.ctxs := rfl
@[simp] theorem State.onChan_mem (h : Chan) (f : ChanSt → ChanSt) : (s.onChan h f).mem = s.mem := rfl
@[simp] theorem State.onChan_tags (h : Chan) (f : ChanSt → ChanSt) : (s.onChan h f).tags = s.tags := rfl
@[simp] theorem State.onChan_mgtu (h : Chan) (f : ChanSt → ChanSt) : (s.onChan h f).mgtu = s.mgtu := rfl
@[simp] theorem State.onChan_lgtu (h : Chan) (f : ChanSt → ChanSt) : (s.onChan h f).lgtu = s.lgtu := rfl
@[simp] theorem State.onChan_retryLimit (h : Chan) (f : ChanSt → ChanSt) : (s.onChan h f).retryLimit = s.retryLimit := rfl
@[simp] theorem State.onChan_wce (h : Chan) (f : ChanSt → ChanSt) : (s.onChan h f).wce = s.wce := rfl
@[simp] theorem State.onChan_shd (h : Chan) (f : ChanSt → ChanSt) : (s.onChan h f).shd = s.shd := rfl
@[simp] theorem State.onChan_fst (h : Chan) (f : ChanSt → ChanSt) : (s.onChan h f).fst = s.fst := rfl
@[simp] theorem State.onChan_prv (h : Chan) (f : ChanSt → ChanSt) : (s.onChan h f).prv = s.prv := rfl
@[simp] theorem State.onChan_pln (h : Chan) (f : ChanSt → ChanSt) : (s.onChan h f).pln = s.pln := rfl
@[simp] theorem State.onChan_thm (h : Chan) (f : ChanSt → ChanSt) : (s.onChan h f).thm = s.thm := rfl
@[simp] theorem State.onChan_rcd (h : Chan) (f : ChanSt → ChanSt) : (s.onChan h f).rcd = s.rcd := rfl
@[simp] theorem State.onChan_fwp (h : Chan) (f : ChanSt → ChanSt) : (s.onChan h f).fwp = { s.fwp with chans := s.fwp.chans.upd h f } := rfl
@[simp] theorem State.onChan_scr (h : Chan) (f : ChanSt → ChanSt) : (s.onChan h f).scr = s.scr := rfl
@[simp] theorem State.onChan_mgt (h : Chan) (f : ChanSt → ChanSt) : (s.onChan h f).mgt = s.mgt := rfl
@[simp] theorem State.onChan_pwr (h : Chan) (f : ChanSt → ChanSt) : (s.onChan h f).pwr = s.pwr := rfl
@[simp] theorem State.onChan_jobMap (h : Chan) (f : ChanSt → ChanSt) : (s.onChan h f).jobMap = s.jobMap := rfl
@[simp] theorem State.onChan_ctx (h : Chan) (f : ChanSt → ChanSt) (d : Ctx) : (s.onChan h f).ctx d = s.ctx d := rfl

/-! ## onMbox -/

@[simp] theorem State.onMbox_pending (i : Fin 12) (f : Mbox → Mbox) : (s.onMbox i f).pending = s.pending := rfl
@[simp] theorem State.onMbox_out (i : Fin 12) (f : Mbox → Mbox) : (s.onMbox i f).out = s.out := rfl
@[simp] theorem State.onMbox_free (i : Fin 12) (f : Mbox → Mbox) : (s.onMbox i f).free = s.free := rfl
@[simp] theorem State.onMbox_fuses (i : Fin 12) (f : Mbox → Mbox) : (s.onMbox i f).fuses = s.fuses := rfl
@[simp] theorem State.onMbox_aon (i : Fin 12) (f : Mbox → Mbox) : (s.onMbox i f).aon = s.aon := rfl
@[simp] theorem State.onMbox_xing (i : Fin 12) (f : Mbox → Mbox) : (s.onMbox i f).xing = s.xing := rfl
@[simp] theorem State.onMbox_irq (i : Fin 12) (f : Mbox → Mbox) : (s.onMbox i f).irq = s.irq := rfl
@[simp] theorem State.onMbox_time (i : Fin 12) (f : Mbox → Mbox) : (s.onMbox i f).time = s.time := rfl
@[simp] theorem State.onMbox_spn (i : Fin 12) (f : Mbox → Mbox) : (s.onMbox i f).spn = s.spn := rfl
@[simp] theorem State.onMbox_ctxs (i : Fin 12) (f : Mbox → Mbox) : (s.onMbox i f).ctxs = s.ctxs := rfl
@[simp] theorem State.onMbox_mem (i : Fin 12) (f : Mbox → Mbox) : (s.onMbox i f).mem = s.mem := rfl
@[simp] theorem State.onMbox_tags (i : Fin 12) (f : Mbox → Mbox) : (s.onMbox i f).tags = s.tags := rfl
@[simp] theorem State.onMbox_mgtu (i : Fin 12) (f : Mbox → Mbox) : (s.onMbox i f).mgtu = s.mgtu := rfl
@[simp] theorem State.onMbox_lgtu (i : Fin 12) (f : Mbox → Mbox) : (s.onMbox i f).lgtu = s.lgtu := rfl
@[simp] theorem State.onMbox_retryLimit (i : Fin 12) (f : Mbox → Mbox) : (s.onMbox i f).retryLimit = s.retryLimit := rfl
@[simp] theorem State.onMbox_wce (i : Fin 12) (f : Mbox → Mbox) : (s.onMbox i f).wce = s.wce := rfl
@[simp] theorem State.onMbox_shd (i : Fin 12) (f : Mbox → Mbox) : (s.onMbox i f).shd = s.shd := rfl
@[simp] theorem State.onMbox_fst (i : Fin 12) (f : Mbox → Mbox) : (s.onMbox i f).fst = s.fst := rfl
@[simp] theorem State.onMbox_prv (i : Fin 12) (f : Mbox → Mbox) : (s.onMbox i f).prv = s.prv := rfl
@[simp] theorem State.onMbox_pln (i : Fin 12) (f : Mbox → Mbox) : (s.onMbox i f).pln = s.pln := rfl
@[simp] theorem State.onMbox_thm (i : Fin 12) (f : Mbox → Mbox) : (s.onMbox i f).thm = s.thm := rfl
@[simp] theorem State.onMbox_rcd (i : Fin 12) (f : Mbox → Mbox) : (s.onMbox i f).rcd = s.rcd := rfl
@[simp] theorem State.onMbox_fwp (i : Fin 12) (f : Mbox → Mbox) : (s.onMbox i f).fwp = { s.fwp with mbox := s.fwp.mbox.upd i f } := rfl
@[simp] theorem State.onMbox_scr (i : Fin 12) (f : Mbox → Mbox) : (s.onMbox i f).scr = s.scr := rfl
@[simp] theorem State.onMbox_mgt (i : Fin 12) (f : Mbox → Mbox) : (s.onMbox i f).mgt = s.mgt := rfl
@[simp] theorem State.onMbox_pwr (i : Fin 12) (f : Mbox → Mbox) : (s.onMbox i f).pwr = s.pwr := rfl
@[simp] theorem State.onMbox_jobMap (i : Fin 12) (f : Mbox → Mbox) : (s.onMbox i f).jobMap = s.jobMap := rfl
@[simp] theorem State.onMbox_ctx (i : Fin 12) (f : Mbox → Mbox) (d : Ctx) : (s.onMbox i f).ctx d = s.ctx d := rfl

/-! ## onScr -/

@[simp] theorem State.onScr_pending (f : Scr → Scr) : (s.onScr f).pending = s.pending := rfl
@[simp] theorem State.onScr_out (f : Scr → Scr) : (s.onScr f).out = s.out := rfl
@[simp] theorem State.onScr_free (f : Scr → Scr) : (s.onScr f).free = s.free := rfl
@[simp] theorem State.onScr_fuses (f : Scr → Scr) : (s.onScr f).fuses = s.fuses := rfl
@[simp] theorem State.onScr_aon (f : Scr → Scr) : (s.onScr f).aon = s.aon := rfl
@[simp] theorem State.onScr_xing (f : Scr → Scr) : (s.onScr f).xing = s.xing := rfl
@[simp] theorem State.onScr_irq (f : Scr → Scr) : (s.onScr f).irq = s.irq := rfl
@[simp] theorem State.onScr_time (f : Scr → Scr) : (s.onScr f).time = s.time := rfl
@[simp] theorem State.onScr_spn (f : Scr → Scr) : (s.onScr f).spn = s.spn := rfl
@[simp] theorem State.onScr_ctxs (f : Scr → Scr) : (s.onScr f).ctxs = s.ctxs := rfl
@[simp] theorem State.onScr_mem (f : Scr → Scr) : (s.onScr f).mem = s.mem := rfl
@[simp] theorem State.onScr_tags (f : Scr → Scr) : (s.onScr f).tags = s.tags := rfl
@[simp] theorem State.onScr_mgtu (f : Scr → Scr) : (s.onScr f).mgtu = s.mgtu := rfl
@[simp] theorem State.onScr_lgtu (f : Scr → Scr) : (s.onScr f).lgtu = s.lgtu := rfl
@[simp] theorem State.onScr_retryLimit (f : Scr → Scr) : (s.onScr f).retryLimit = s.retryLimit := rfl
@[simp] theorem State.onScr_wce (f : Scr → Scr) : (s.onScr f).wce = s.wce := rfl
@[simp] theorem State.onScr_shd (f : Scr → Scr) : (s.onScr f).shd = s.shd := rfl
@[simp] theorem State.onScr_fst (f : Scr → Scr) : (s.onScr f).fst = s.fst := rfl
@[simp] theorem State.onScr_prv (f : Scr → Scr) : (s.onScr f).prv = s.prv := rfl
@[simp] theorem State.onScr_pln (f : Scr → Scr) : (s.onScr f).pln = s.pln := rfl
@[simp] theorem State.onScr_thm (f : Scr → Scr) : (s.onScr f).thm = s.thm := rfl
@[simp] theorem State.onScr_rcd (f : Scr → Scr) : (s.onScr f).rcd = s.rcd := rfl
@[simp] theorem State.onScr_fwp (f : Scr → Scr) : (s.onScr f).fwp = s.fwp := rfl
@[simp] theorem State.onScr_scr (f : Scr → Scr) : (s.onScr f).scr = f s.scr := rfl
@[simp] theorem State.onScr_mgt (f : Scr → Scr) : (s.onScr f).mgt = s.mgt := rfl
@[simp] theorem State.onScr_pwr (f : Scr → Scr) : (s.onScr f).pwr = s.pwr := rfl
@[simp] theorem State.onScr_jobMap (f : Scr → Scr) : (s.onScr f).jobMap = s.jobMap := rfl
@[simp] theorem State.onScr_ctx (f : Scr → Scr) (d : Ctx) : (s.onScr f).ctx d = s.ctx d := rfl

/-! ## onPwr -/

@[simp] theorem State.onPwr_pending (f : Pwr → Pwr) : (s.onPwr f).pending = s.pending := rfl
@[simp] theorem State.onPwr_out (f : Pwr → Pwr) : (s.onPwr f).out = s.out := rfl
@[simp] theorem State.onPwr_free (f : Pwr → Pwr) : (s.onPwr f).free = s.free := rfl
@[simp] theorem State.onPwr_fuses (f : Pwr → Pwr) : (s.onPwr f).fuses = s.fuses := rfl
@[simp] theorem State.onPwr_aon (f : Pwr → Pwr) : (s.onPwr f).aon = s.aon := rfl
@[simp] theorem State.onPwr_xing (f : Pwr → Pwr) : (s.onPwr f).xing = s.xing := rfl
@[simp] theorem State.onPwr_irq (f : Pwr → Pwr) : (s.onPwr f).irq = s.irq := rfl
@[simp] theorem State.onPwr_time (f : Pwr → Pwr) : (s.onPwr f).time = s.time := rfl
@[simp] theorem State.onPwr_spn (f : Pwr → Pwr) : (s.onPwr f).spn = s.spn := rfl
@[simp] theorem State.onPwr_ctxs (f : Pwr → Pwr) : (s.onPwr f).ctxs = s.ctxs := rfl
@[simp] theorem State.onPwr_mem (f : Pwr → Pwr) : (s.onPwr f).mem = s.mem := rfl
@[simp] theorem State.onPwr_tags (f : Pwr → Pwr) : (s.onPwr f).tags = s.tags := rfl
@[simp] theorem State.onPwr_mgtu (f : Pwr → Pwr) : (s.onPwr f).mgtu = s.mgtu := rfl
@[simp] theorem State.onPwr_lgtu (f : Pwr → Pwr) : (s.onPwr f).lgtu = s.lgtu := rfl
@[simp] theorem State.onPwr_retryLimit (f : Pwr → Pwr) : (s.onPwr f).retryLimit = s.retryLimit := rfl
@[simp] theorem State.onPwr_wce (f : Pwr → Pwr) : (s.onPwr f).wce = s.wce := rfl
@[simp] theorem State.onPwr_shd (f : Pwr → Pwr) : (s.onPwr f).shd = s.shd := rfl
@[simp] theorem State.onPwr_fst (f : Pwr → Pwr) : (s.onPwr f).fst = s.fst := rfl
@[simp] theorem State.onPwr_prv (f : Pwr → Pwr) : (s.onPwr f).prv = s.prv := rfl
@[simp] theorem State.onPwr_pln (f : Pwr → Pwr) : (s.onPwr f).pln = s.pln := rfl
@[simp] theorem State.onPwr_thm (f : Pwr → Pwr) : (s.onPwr f).thm = s.thm := rfl
@[simp] theorem State.onPwr_rcd (f : Pwr → Pwr) : (s.onPwr f).rcd = s.rcd := rfl
@[simp] theorem State.onPwr_fwp (f : Pwr → Pwr) : (s.onPwr f).fwp = s.fwp := rfl
@[simp] theorem State.onPwr_scr (f : Pwr → Pwr) : (s.onPwr f).scr = s.scr := rfl
@[simp] theorem State.onPwr_mgt (f : Pwr → Pwr) : (s.onPwr f).mgt = s.mgt := rfl
@[simp] theorem State.onPwr_pwr (f : Pwr → Pwr) : (s.onPwr f).pwr = f s.pwr := rfl
@[simp] theorem State.onPwr_jobMap (f : Pwr → Pwr) : (s.onPwr f).jobMap = s.jobMap := rfl
@[simp] theorem State.onPwr_ctx (f : Pwr → Pwr) (d : Ctx) : (s.onPwr f).ctx d = s.ctx d := rfl

/-! ## onPrvEng -/

@[simp] theorem State.onPrvEng_pending (f : Prv → Prv) : (s.onPrvEng f).pending = s.pending := rfl
@[simp] theorem State.onPrvEng_out (f : Prv → Prv) : (s.onPrvEng f).out = s.out := rfl
@[simp] theorem State.onPrvEng_free (f : Prv → Prv) : (s.onPrvEng f).free = s.free := rfl
@[simp] theorem State.onPrvEng_fuses (f : Prv → Prv) : (s.onPrvEng f).fuses = s.fuses := rfl
@[simp] theorem State.onPrvEng_aon (f : Prv → Prv) : (s.onPrvEng f).aon = s.aon := rfl
@[simp] theorem State.onPrvEng_xing (f : Prv → Prv) : (s.onPrvEng f).xing = s.xing := rfl
@[simp] theorem State.onPrvEng_irq (f : Prv → Prv) : (s.onPrvEng f).irq = s.irq := rfl
@[simp] theorem State.onPrvEng_time (f : Prv → Prv) : (s.onPrvEng f).time = s.time := rfl
@[simp] theorem State.onPrvEng_spn (f : Prv → Prv) : (s.onPrvEng f).spn = s.spn := rfl
@[simp] theorem State.onPrvEng_ctxs (f : Prv → Prv) : (s.onPrvEng f).ctxs = s.ctxs := rfl
@[simp] theorem State.onPrvEng_mem (f : Prv → Prv) : (s.onPrvEng f).mem = s.mem := rfl
@[simp] theorem State.onPrvEng_tags (f : Prv → Prv) : (s.onPrvEng f).tags = s.tags := rfl
@[simp] theorem State.onPrvEng_mgtu (f : Prv → Prv) : (s.onPrvEng f).mgtu = s.mgtu := rfl
@[simp] theorem State.onPrvEng_lgtu (f : Prv → Prv) : (s.onPrvEng f).lgtu = s.lgtu := rfl
@[simp] theorem State.onPrvEng_retryLimit (f : Prv → Prv) : (s.onPrvEng f).retryLimit = s.retryLimit := rfl
@[simp] theorem State.onPrvEng_wce (f : Prv → Prv) : (s.onPrvEng f).wce = s.wce := rfl
@[simp] theorem State.onPrvEng_shd (f : Prv → Prv) : (s.onPrvEng f).shd = s.shd := rfl
@[simp] theorem State.onPrvEng_fst (f : Prv → Prv) : (s.onPrvEng f).fst = s.fst := rfl
@[simp] theorem State.onPrvEng_prv (f : Prv → Prv) : (s.onPrvEng f).prv = f s.prv := rfl
@[simp] theorem State.onPrvEng_pln (f : Prv → Prv) : (s.onPrvEng f).pln = s.pln := rfl
@[simp] theorem State.onPrvEng_thm (f : Prv → Prv) : (s.onPrvEng f).thm = s.thm := rfl
@[simp] theorem State.onPrvEng_rcd (f : Prv → Prv) : (s.onPrvEng f).rcd = s.rcd := rfl
@[simp] theorem State.onPrvEng_fwp (f : Prv → Prv) : (s.onPrvEng f).fwp = s.fwp := rfl
@[simp] theorem State.onPrvEng_scr (f : Prv → Prv) : (s.onPrvEng f).scr = s.scr := rfl
@[simp] theorem State.onPrvEng_mgt (f : Prv → Prv) : (s.onPrvEng f).mgt = s.mgt := rfl
@[simp] theorem State.onPrvEng_pwr (f : Prv → Prv) : (s.onPrvEng f).pwr = s.pwr := rfl
@[simp] theorem State.onPrvEng_jobMap (f : Prv → Prv) : (s.onPrvEng f).jobMap = s.jobMap := rfl
@[simp] theorem State.onPrvEng_ctx (f : Prv → Prv) (d : Ctx) : (s.onPrvEng f).ctx d = s.ctx d := rfl

/-! ## onPln -/

@[simp] theorem State.onPln_pending (f : Pln → Pln) : (s.onPln f).pending = s.pending := rfl
@[simp] theorem State.onPln_out (f : Pln → Pln) : (s.onPln f).out = s.out := rfl
@[simp] theorem State.onPln_free (f : Pln → Pln) : (s.onPln f).free = s.free := rfl
@[simp] theorem State.onPln_fuses (f : Pln → Pln) : (s.onPln f).fuses = s.fuses := rfl
@[simp] theorem State.onPln_aon (f : Pln → Pln) : (s.onPln f).aon = s.aon := rfl
@[simp] theorem State.onPln_xing (f : Pln → Pln) : (s.onPln f).xing = s.xing := rfl
@[simp] theorem State.onPln_irq (f : Pln → Pln) : (s.onPln f).irq = s.irq := rfl
@[simp] theorem State.onPln_time (f : Pln → Pln) : (s.onPln f).time = s.time := rfl
@[simp] theorem State.onPln_spn (f : Pln → Pln) : (s.onPln f).spn = s.spn := rfl
@[simp] theorem State.onPln_ctxs (f : Pln → Pln) : (s.onPln f).ctxs = s.ctxs := rfl
@[simp] theorem State.onPln_mem (f : Pln → Pln) : (s.onPln f).mem = s.mem := rfl
@[simp] theorem State.onPln_tags (f : Pln → Pln) : (s.onPln f).tags = s.tags := rfl
@[simp] theorem State.onPln_mgtu (f : Pln → Pln) : (s.onPln f).mgtu = s.mgtu := rfl
@[simp] theorem State.onPln_lgtu (f : Pln → Pln) : (s.onPln f).lgtu = s.lgtu := rfl
@[simp] theorem State.onPln_retryLimit (f : Pln → Pln) : (s.onPln f).retryLimit = s.retryLimit := rfl
@[simp] theorem State.onPln_wce (f : Pln → Pln) : (s.onPln f).wce = s.wce := rfl
@[simp] theorem State.onPln_shd (f : Pln → Pln) : (s.onPln f).shd = s.shd := rfl
@[simp] theorem State.onPln_fst (f : Pln → Pln) : (s.onPln f).fst = s.fst := rfl
@[simp] theorem State.onPln_prv (f : Pln → Pln) : (s.onPln f).prv = s.prv := rfl
@[simp] theorem State.onPln_pln (f : Pln → Pln) : (s.onPln f).pln = f s.pln := rfl
@[simp] theorem State.onPln_thm (f : Pln → Pln) : (s.onPln f).thm = s.thm := rfl
@[simp] theorem State.onPln_rcd (f : Pln → Pln) : (s.onPln f).rcd = s.rcd := rfl
@[simp] theorem State.onPln_fwp (f : Pln → Pln) : (s.onPln f).fwp = s.fwp := rfl
@[simp] theorem State.onPln_scr (f : Pln → Pln) : (s.onPln f).scr = s.scr := rfl
@[simp] theorem State.onPln_mgt (f : Pln → Pln) : (s.onPln f).mgt = s.mgt := rfl
@[simp] theorem State.onPln_pwr (f : Pln → Pln) : (s.onPln f).pwr = s.pwr := rfl
@[simp] theorem State.onPln_jobMap (f : Pln → Pln) : (s.onPln f).jobMap = s.jobMap := rfl
@[simp] theorem State.onPln_ctx (f : Pln → Pln) (d : Ctx) : (s.onPln f).ctx d = s.ctx d := rfl

/-! ## onSpn -/

@[simp] theorem State.onSpn_pending (f : Spn → Spn) : (s.onSpn f).pending = s.pending := rfl
@[simp] theorem State.onSpn_out (f : Spn → Spn) : (s.onSpn f).out = s.out := rfl
@[simp] theorem State.onSpn_free (f : Spn → Spn) : (s.onSpn f).free = s.free := rfl
@[simp] theorem State.onSpn_fuses (f : Spn → Spn) : (s.onSpn f).fuses = s.fuses := rfl
@[simp] theorem State.onSpn_aon (f : Spn → Spn) : (s.onSpn f).aon = s.aon := rfl
@[simp] theorem State.onSpn_xing (f : Spn → Spn) : (s.onSpn f).xing = s.xing := rfl
@[simp] theorem State.onSpn_irq (f : Spn → Spn) : (s.onSpn f).irq = s.irq := rfl
@[simp] theorem State.onSpn_time (f : Spn → Spn) : (s.onSpn f).time = s.time := rfl
@[simp] theorem State.onSpn_spn (f : Spn → Spn) : (s.onSpn f).spn = f s.spn := rfl
@[simp] theorem State.onSpn_ctxs (f : Spn → Spn) : (s.onSpn f).ctxs = s.ctxs := rfl
@[simp] theorem State.onSpn_mem (f : Spn → Spn) : (s.onSpn f).mem = s.mem := rfl
@[simp] theorem State.onSpn_tags (f : Spn → Spn) : (s.onSpn f).tags = s.tags := rfl
@[simp] theorem State.onSpn_mgtu (f : Spn → Spn) : (s.onSpn f).mgtu = s.mgtu := rfl
@[simp] theorem State.onSpn_lgtu (f : Spn → Spn) : (s.onSpn f).lgtu = s.lgtu := rfl
@[simp] theorem State.onSpn_retryLimit (f : Spn → Spn) : (s.onSpn f).retryLimit = s.retryLimit := rfl
@[simp] theorem State.onSpn_wce (f : Spn → Spn) : (s.onSpn f).wce = s.wce := rfl
@[simp] theorem State.onSpn_shd (f : Spn → Spn) : (s.onSpn f).shd = s.shd := rfl
@[simp] theorem State.onSpn_fst (f : Spn → Spn) : (s.onSpn f).fst = s.fst := rfl
@[simp] theorem State.onSpn_prv (f : Spn → Spn) : (s.onSpn f).prv = s.prv := rfl
@[simp] theorem State.onSpn_pln (f : Spn → Spn) : (s.onSpn f).pln = s.pln := rfl
@[simp] theorem State.onSpn_thm (f : Spn → Spn) : (s.onSpn f).thm = s.thm := rfl
@[simp] theorem State.onSpn_rcd (f : Spn → Spn) : (s.onSpn f).rcd = s.rcd := rfl
@[simp] theorem State.onSpn_fwp (f : Spn → Spn) : (s.onSpn f).fwp = s.fwp := rfl
@[simp] theorem State.onSpn_scr (f : Spn → Spn) : (s.onSpn f).scr = s.scr := rfl
@[simp] theorem State.onSpn_mgt (f : Spn → Spn) : (s.onSpn f).mgt = s.mgt := rfl
@[simp] theorem State.onSpn_pwr (f : Spn → Spn) : (s.onSpn f).pwr = s.pwr := rfl
@[simp] theorem State.onSpn_jobMap (f : Spn → Spn) : (s.onSpn f).jobMap = s.jobMap := rfl
@[simp] theorem State.onSpn_ctx (f : Spn → Spn) (d : Ctx) : (s.onSpn f).ctx d = s.ctx d := rfl

/-! ## onAon -/

@[simp] theorem State.onAon_pending (f : Aon → Aon) : (s.onAon f).pending = s.pending := rfl
@[simp] theorem State.onAon_out (f : Aon → Aon) : (s.onAon f).out = s.out := rfl
@[simp] theorem State.onAon_free (f : Aon → Aon) : (s.onAon f).free = s.free := rfl
@[simp] theorem State.onAon_fuses (f : Aon → Aon) : (s.onAon f).fuses = s.fuses := rfl
@[simp] theorem State.onAon_aon (f : Aon → Aon) : (s.onAon f).aon = f s.aon := rfl
@[simp] theorem State.onAon_xing (f : Aon → Aon) : (s.onAon f).xing = s.xing := rfl
@[simp] theorem State.onAon_irq (f : Aon → Aon) : (s.onAon f).irq = s.irq := rfl
@[simp] theorem State.onAon_time (f : Aon → Aon) : (s.onAon f).time = s.time := rfl
@[simp] theorem State.onAon_spn (f : Aon → Aon) : (s.onAon f).spn = s.spn := rfl
@[simp] theorem State.onAon_ctxs (f : Aon → Aon) : (s.onAon f).ctxs = s.ctxs := rfl
@[simp] theorem State.onAon_mem (f : Aon → Aon) : (s.onAon f).mem = s.mem := rfl
@[simp] theorem State.onAon_tags (f : Aon → Aon) : (s.onAon f).tags = s.tags := rfl
@[simp] theorem State.onAon_mgtu (f : Aon → Aon) : (s.onAon f).mgtu = s.mgtu := rfl
@[simp] theorem State.onAon_lgtu (f : Aon → Aon) : (s.onAon f).lgtu = s.lgtu := rfl
@[simp] theorem State.onAon_retryLimit (f : Aon → Aon) : (s.onAon f).retryLimit = s.retryLimit := rfl
@[simp] theorem State.onAon_wce (f : Aon → Aon) : (s.onAon f).wce = s.wce := rfl
@[simp] theorem State.onAon_shd (f : Aon → Aon) : (s.onAon f).shd = s.shd := rfl
@[simp] theorem State.onAon_fst (f : Aon → Aon) : (s.onAon f).fst = s.fst := rfl
@[simp] theorem State.onAon_prv (f : Aon → Aon) : (s.onAon f).prv = s.prv := rfl
@[simp] theorem State.onAon_pln (f : Aon → Aon) : (s.onAon f).pln = s.pln := rfl
@[simp] theorem State.onAon_thm (f : Aon → Aon) : (s.onAon f).thm = s.thm := rfl
@[simp] theorem State.onAon_rcd (f : Aon → Aon) : (s.onAon f).rcd = s.rcd := rfl
@[simp] theorem State.onAon_fwp (f : Aon → Aon) : (s.onAon f).fwp = s.fwp := rfl
@[simp] theorem State.onAon_scr (f : Aon → Aon) : (s.onAon f).scr = s.scr := rfl
@[simp] theorem State.onAon_mgt (f : Aon → Aon) : (s.onAon f).mgt = s.mgt := rfl
@[simp] theorem State.onAon_pwr (f : Aon → Aon) : (s.onAon f).pwr = s.pwr := rfl
@[simp] theorem State.onAon_jobMap (f : Aon → Aon) : (s.onAon f).jobMap = s.jobMap := rfl
@[simp] theorem State.onAon_ctx (f : Aon → Aon) (d : Ctx) : (s.onAon f).ctx d = s.ctx d := rfl

/-! ## send -/

@[simp] theorem State.send_pending (o : Out) : (s.send o).pending = s.pending := rfl
@[simp] theorem State.send_out (o : Out) : (s.send o).out = s.out ++ [o] := rfl
@[simp] theorem State.send_free (o : Out) : (s.send o).free = s.free := rfl
@[simp] theorem State.send_fuses (o : Out) : (s.send o).fuses = s.fuses := rfl
@[simp] theorem State.send_aon (o : Out) : (s.send o).aon = s.aon := rfl
@[simp] theorem State.send_xing (o : Out) : (s.send o).xing = s.xing := rfl
@[simp] theorem State.send_irq (o : Out) : (s.send o).irq = s.irq := rfl
@[simp] theorem State.send_time (o : Out) : (s.send o).time = s.time := rfl
@[simp] theorem State.send_spn (o : Out) : (s.send o).spn = s.spn := rfl
@[simp] theorem State.send_ctxs (o : Out) : (s.send o).ctxs = s.ctxs := rfl
@[simp] theorem State.send_mem (o : Out) : (s.send o).mem = s.mem := rfl
@[simp] theorem State.send_tags (o : Out) : (s.send o).tags = s.tags := rfl
@[simp] theorem State.send_mgtu (o : Out) : (s.send o).mgtu = s.mgtu := rfl
@[simp] theorem State.send_lgtu (o : Out) : (s.send o).lgtu = s.lgtu := rfl
@[simp] theorem State.send_retryLimit (o : Out) : (s.send o).retryLimit = s.retryLimit := rfl
@[simp] theorem State.send_wce (o : Out) : (s.send o).wce = s.wce := rfl
@[simp] theorem State.send_shd (o : Out) : (s.send o).shd = s.shd := rfl
@[simp] theorem State.send_fst (o : Out) : (s.send o).fst = s.fst := rfl
@[simp] theorem State.send_prv (o : Out) : (s.send o).prv = s.prv := rfl
@[simp] theorem State.send_pln (o : Out) : (s.send o).pln = s.pln := rfl
@[simp] theorem State.send_thm (o : Out) : (s.send o).thm = s.thm := rfl
@[simp] theorem State.send_rcd (o : Out) : (s.send o).rcd = s.rcd := rfl
@[simp] theorem State.send_fwp (o : Out) : (s.send o).fwp = s.fwp := rfl
@[simp] theorem State.send_scr (o : Out) : (s.send o).scr = s.scr := rfl
@[simp] theorem State.send_mgt (o : Out) : (s.send o).mgt = s.mgt := rfl
@[simp] theorem State.send_pwr (o : Out) : (s.send o).pwr = s.pwr := rfl
@[simp] theorem State.send_jobMap (o : Out) : (s.send o).jobMap = s.jobMap := rfl
@[simp] theorem State.send_ctx (o : Out) (d : Ctx) : (s.send o).ctx d = s.ctx d := rfl

/-! ## store -/

@[simp] theorem State.store_pending (st b : Nat) (ws : List (Nat × BitVec 32)) : (s.store st b ws).pending = s.pending := rfl
@[simp] theorem State.store_out (st b : Nat) (ws : List (Nat × BitVec 32)) : (s.store st b ws).out = s.out := rfl
@[simp] theorem State.store_free (st b : Nat) (ws : List (Nat × BitVec 32)) : (s.store st b ws).free = s.free := rfl
@[simp] theorem State.store_fuses (st b : Nat) (ws : List (Nat × BitVec 32)) : (s.store st b ws).fuses = s.fuses := rfl
@[simp] theorem State.store_aon (st b : Nat) (ws : List (Nat × BitVec 32)) : (s.store st b ws).aon = s.aon := rfl
@[simp] theorem State.store_xing (st b : Nat) (ws : List (Nat × BitVec 32)) : (s.store st b ws).xing = s.xing := rfl
@[simp] theorem State.store_irq (st b : Nat) (ws : List (Nat × BitVec 32)) : (s.store st b ws).irq = s.irq := rfl
@[simp] theorem State.store_time (st b : Nat) (ws : List (Nat × BitVec 32)) : (s.store st b ws).time = s.time := rfl
@[simp] theorem State.store_spn (st b : Nat) (ws : List (Nat × BitVec 32)) : (s.store st b ws).spn = s.spn := rfl
@[simp] theorem State.store_ctxs (st b : Nat) (ws : List (Nat × BitVec 32)) : (s.store st b ws).ctxs = s.ctxs := rfl
@[simp] theorem State.store_mem (st b : Nat) (ws : List (Nat × BitVec 32)) : (s.store st b ws).mem = putWords s.mem st b ws := rfl
@[simp] theorem State.store_tags (st b : Nat) (ws : List (Nat × BitVec 32)) : (s.store st b ws).tags = s.tags := rfl
@[simp] theorem State.store_mgtu (st b : Nat) (ws : List (Nat × BitVec 32)) : (s.store st b ws).mgtu = s.mgtu := rfl
@[simp] theorem State.store_lgtu (st b : Nat) (ws : List (Nat × BitVec 32)) : (s.store st b ws).lgtu = s.lgtu := rfl
@[simp] theorem State.store_retryLimit (st b : Nat) (ws : List (Nat × BitVec 32)) : (s.store st b ws).retryLimit = s.retryLimit := rfl
@[simp] theorem State.store_wce (st b : Nat) (ws : List (Nat × BitVec 32)) : (s.store st b ws).wce = s.wce := rfl
@[simp] theorem State.store_shd (st b : Nat) (ws : List (Nat × BitVec 32)) : (s.store st b ws).shd = s.shd := rfl
@[simp] theorem State.store_fst (st b : Nat) (ws : List (Nat × BitVec 32)) : (s.store st b ws).fst = s.fst := rfl
@[simp] theorem State.store_prv (st b : Nat) (ws : List (Nat × BitVec 32)) : (s.store st b ws).prv = s.prv := rfl
@[simp] theorem State.store_pln (st b : Nat) (ws : List (Nat × BitVec 32)) : (s.store st b ws).pln = s.pln := rfl
@[simp] theorem State.store_thm (st b : Nat) (ws : List (Nat × BitVec 32)) : (s.store st b ws).thm = s.thm := rfl
@[simp] theorem State.store_rcd (st b : Nat) (ws : List (Nat × BitVec 32)) : (s.store st b ws).rcd = s.rcd := rfl
@[simp] theorem State.store_fwp (st b : Nat) (ws : List (Nat × BitVec 32)) : (s.store st b ws).fwp = s.fwp := rfl
@[simp] theorem State.store_scr (st b : Nat) (ws : List (Nat × BitVec 32)) : (s.store st b ws).scr = s.scr := rfl
@[simp] theorem State.store_mgt (st b : Nat) (ws : List (Nat × BitVec 32)) : (s.store st b ws).mgt = s.mgt := rfl
@[simp] theorem State.store_pwr (st b : Nat) (ws : List (Nat × BitVec 32)) : (s.store st b ws).pwr = s.pwr := rfl
@[simp] theorem State.store_jobMap (st b : Nat) (ws : List (Nat × BitVec 32)) : (s.store st b ws).jobMap = s.jobMap := rfl
@[simp] theorem State.store_ctx (st b : Nat) (ws : List (Nat × BitVec 32)) (d : Ctx) : (s.store st b ws).ctx d = s.ctx d := rfl

/-! ## setTag -/

@[simp] theorem State.setTag_pending (st b : Nat) (t : BitVec 64) : (s.setTag st b t).pending = s.pending := rfl
@[simp] theorem State.setTag_out (st b : Nat) (t : BitVec 64) : (s.setTag st b t).out = s.out := rfl
@[simp] theorem State.setTag_free (st b : Nat) (t : BitVec 64) : (s.setTag st b t).free = s.free := rfl
@[simp] theorem State.setTag_fuses (st b : Nat) (t : BitVec 64) : (s.setTag st b t).fuses = s.fuses := rfl
@[simp] theorem State.setTag_aon (st b : Nat) (t : BitVec 64) : (s.setTag st b t).aon = s.aon := rfl
@[simp] theorem State.setTag_xing (st b : Nat) (t : BitVec 64) : (s.setTag st b t).xing = s.xing := rfl
@[simp] theorem State.setTag_irq (st b : Nat) (t : BitVec 64) : (s.setTag st b t).irq = s.irq := rfl
@[simp] theorem State.setTag_time (st b : Nat) (t : BitVec 64) : (s.setTag st b t).time = s.time := rfl
@[simp] theorem State.setTag_spn (st b : Nat) (t : BitVec 64) : (s.setTag st b t).spn = s.spn := rfl
@[simp] theorem State.setTag_ctxs (st b : Nat) (t : BitVec 64) : (s.setTag st b t).ctxs = s.ctxs := rfl
@[simp] theorem State.setTag_mem (st b : Nat) (t : BitVec 64) : (s.setTag st b t).mem = s.mem := rfl
@[simp] theorem State.setTag_tags (st b : Nat) (t : BitVec 64) : (s.setTag st b t).tags = alPut emptyTag s.tags (tagKey st b) t := rfl
@[simp] theorem State.setTag_mgtu (st b : Nat) (t : BitVec 64) : (s.setTag st b t).mgtu = s.mgtu := rfl
@[simp] theorem State.setTag_lgtu (st b : Nat) (t : BitVec 64) : (s.setTag st b t).lgtu = s.lgtu := rfl
@[simp] theorem State.setTag_retryLimit (st b : Nat) (t : BitVec 64) : (s.setTag st b t).retryLimit = s.retryLimit := rfl
@[simp] theorem State.setTag_wce (st b : Nat) (t : BitVec 64) : (s.setTag st b t).wce = s.wce := rfl
@[simp] theorem State.setTag_shd (st b : Nat) (t : BitVec 64) : (s.setTag st b t).shd = s.shd := rfl
@[simp] theorem State.setTag_fst (st b : Nat) (t : BitVec 64) : (s.setTag st b t).fst = s.fst := rfl
@[simp] theorem State.setTag_prv (st b : Nat) (t : BitVec 64) : (s.setTag st b t).prv = s.prv := rfl
@[simp] theorem State.setTag_pln (st b : Nat) (t : BitVec 64) : (s.setTag st b t).pln = s.pln := rfl
@[simp] theorem State.setTag_thm (st b : Nat) (t : BitVec 64) : (s.setTag st b t).thm = s.thm := rfl
@[simp] theorem State.setTag_rcd (st b : Nat) (t : BitVec 64) : (s.setTag st b t).rcd = s.rcd := rfl
@[simp] theorem State.setTag_fwp (st b : Nat) (t : BitVec 64) : (s.setTag st b t).fwp = s.fwp := rfl
@[simp] theorem State.setTag_scr (st b : Nat) (t : BitVec 64) : (s.setTag st b t).scr = s.scr := rfl
@[simp] theorem State.setTag_mgt (st b : Nat) (t : BitVec 64) : (s.setTag st b t).mgt = s.mgt := rfl
@[simp] theorem State.setTag_pwr (st b : Nat) (t : BitVec 64) : (s.setTag st b t).pwr = s.pwr := rfl
@[simp] theorem State.setTag_jobMap (st b : Nat) (t : BitVec 64) : (s.setTag st b t).jobMap = s.jobMap := rfl
@[simp] theorem State.setTag_ctx (st b : Nat) (t : BitVec 64) (d : Ctx) : (s.setTag st b t).ctx d = s.ctx d := rfl

/-! ## emit: the fields but those it appends to; irqSet -/

@[simp] theorem State.emit_pending (e : Ev) : (s.emit e).pending = s.pending := by unfold State.emit; split <;> rfl
@[simp] theorem State.emit_out (e : Ev) : (s.emit e).out = s.out := by unfold State.emit; split <;> rfl
@[simp] theorem State.emit_free (e : Ev) : (s.emit e).free = s.free := by unfold State.emit; split <;> rfl
@[simp] theorem State.emit_fuses (e : Ev) : (s.emit e).fuses = s.fuses := by unfold State.emit; split <;> rfl
@[simp] theorem State.emit_aon (e : Ev) : (s.emit e).aon = s.aon := by unfold State.emit; split <;> rfl
@[simp] theorem State.emit_xing (e : Ev) : (s.emit e).xing = s.xing := by unfold State.emit; split <;> rfl
@[simp] theorem State.emit_irq (e : Ev) : (s.emit e).irq = s.irq := by unfold State.emit; split <;> rfl
@[simp] theorem State.emit_time (e : Ev) : (s.emit e).time = s.time := by unfold State.emit; split <;> rfl
@[simp] theorem State.emit_spn (e : Ev) : (s.emit e).spn = s.spn := by unfold State.emit; split <;> rfl
@[simp] theorem State.emit_ctxs (e : Ev) : (s.emit e).ctxs = s.ctxs := by unfold State.emit; split <;> rfl
@[simp] theorem State.emit_mem (e : Ev) : (s.emit e).mem = s.mem := by unfold State.emit; split <;> rfl
@[simp] theorem State.emit_tags (e : Ev) : (s.emit e).tags = s.tags := by unfold State.emit; split <;> rfl
@[simp] theorem State.emit_mgtu (e : Ev) : (s.emit e).mgtu = s.mgtu := by unfold State.emit; split <;> rfl
@[simp] theorem State.emit_lgtu (e : Ev) : (s.emit e).lgtu = s.lgtu := by unfold State.emit; split <;> rfl
@[simp] theorem State.emit_retryLimit (e : Ev) : (s.emit e).retryLimit = s.retryLimit := by unfold State.emit; split <;> rfl
@[simp] theorem State.emit_wce (e : Ev) : (s.emit e).wce = s.wce := by unfold State.emit; split <;> rfl
@[simp] theorem State.emit_shd (e : Ev) : (s.emit e).shd = s.shd := by unfold State.emit; split <;> rfl
@[simp] theorem State.emit_prv (e : Ev) : (s.emit e).prv = s.prv := by unfold State.emit; split <;> rfl
@[simp] theorem State.emit_pln (e : Ev) : (s.emit e).pln = s.pln := by unfold State.emit; split <;> rfl
@[simp] theorem State.emit_thm (e : Ev) : (s.emit e).thm = s.thm := by unfold State.emit; split <;> rfl
@[simp] theorem State.emit_fwp (e : Ev) : (s.emit e).fwp = s.fwp := by unfold State.emit; split <;> rfl
@[simp] theorem State.emit_scr (e : Ev) : (s.emit e).scr = s.scr := by unfold State.emit; split <;> rfl
@[simp] theorem State.emit_mgt (e : Ev) : (s.emit e).mgt = s.mgt := by unfold State.emit; split <;> rfl
@[simp] theorem State.emit_pwr (e : Ev) : (s.emit e).pwr = s.pwr := by unfold State.emit; split <;> rfl
@[simp] theorem State.emit_jobMap (e : Ev) : (s.emit e).jobMap = s.jobMap := by unfold State.emit; split <;> rfl
@[simp] theorem State.emit_ctx (e : Ev) (d : Ctx) : (s.emit e).ctx d = s.ctx d := by unfold State.emit; split <;> rfl

/-- A record goes to the intake. -/
theorem State.emit_record {e : Ev} (h : e.cls = .record) : s.emit e = s.onRec (fun r => { r with intake := r.intake ++ [s.stamp e] }) := by
  unfold State.emit
  rw [h]

/-- A fault goes to the fault steward. -/
theorem State.emit_fault {e : Ev} (h : e.cls ≠ .record) : s.emit e = s.onFst (fun f => { f with faultQ := f.faultQ ++ [s.stamp e] }) := by
  unfold State.emit
  split
  · contradiction
  · rfl

@[simp] theorem State.irqSet_pending (m : BitVec 8) : (s.irqSet m).pending = s.pending := rfl
@[simp] theorem State.irqSet_free (m : BitVec 8) : (s.irqSet m).free = s.free := rfl
@[simp] theorem State.irqSet_fuses (m : BitVec 8) : (s.irqSet m).fuses = s.fuses := rfl
@[simp] theorem State.irqSet_aon (m : BitVec 8) : (s.irqSet m).aon = s.aon := rfl
@[simp] theorem State.irqSet_xing (m : BitVec 8) : (s.irqSet m).xing = s.xing := rfl
@[simp] theorem State.irqSet_time (m : BitVec 8) : (s.irqSet m).time = s.time := rfl
@[simp] theorem State.irqSet_spn (m : BitVec 8) : (s.irqSet m).spn = s.spn := rfl
@[simp] theorem State.irqSet_ctxs (m : BitVec 8) : (s.irqSet m).ctxs = s.ctxs := rfl
@[simp] theorem State.irqSet_mem (m : BitVec 8) : (s.irqSet m).mem = s.mem := rfl
@[simp] theorem State.irqSet_tags (m : BitVec 8) : (s.irqSet m).tags = s.tags := rfl
@[simp] theorem State.irqSet_mgtu (m : BitVec 8) : (s.irqSet m).mgtu = s.mgtu := rfl
@[simp] theorem State.irqSet_lgtu (m : BitVec 8) : (s.irqSet m).lgtu = s.lgtu := rfl
@[simp] theorem State.irqSet_retryLimit (m : BitVec 8) : (s.irqSet m).retryLimit = s.retryLimit := rfl
@[simp] theorem State.irqSet_wce (m : BitVec 8) : (s.irqSet m).wce = s.wce := rfl
@[simp] theorem State.irqSet_shd (m : BitVec 8) : (s.irqSet m).shd = s.shd := rfl
@[simp] theorem State.irqSet_fst (m : BitVec 8) : (s.irqSet m).fst = s.fst := rfl
@[simp] theorem State.irqSet_prv (m : BitVec 8) : (s.irqSet m).prv = s.prv := rfl
@[simp] theorem State.irqSet_pln (m : BitVec 8) : (s.irqSet m).pln = s.pln := rfl
@[simp] theorem State.irqSet_thm (m : BitVec 8) : (s.irqSet m).thm = s.thm := rfl
@[simp] theorem State.irqSet_rcd (m : BitVec 8) : (s.irqSet m).rcd = s.rcd := rfl
@[simp] theorem State.irqSet_fwp (m : BitVec 8) : (s.irqSet m).fwp = s.fwp := rfl
@[simp] theorem State.irqSet_scr (m : BitVec 8) : (s.irqSet m).scr = s.scr := rfl
@[simp] theorem State.irqSet_mgt (m : BitVec 8) : (s.irqSet m).mgt = s.mgt := rfl
@[simp] theorem State.irqSet_pwr (m : BitVec 8) : (s.irqSet m).pwr = s.pwr := rfl
@[simp] theorem State.irqSet_jobMap (m : BitVec 8) : (s.irqSet m).jobMap = s.jobMap := rfl

end Machine
end Sys2Proof
end

