-- ==== Sys2Proof/Laws/TickAndPower.lean ====
section
/-! SUPPORT. The commands that change the tick, the fuses, or all tags at once: power-up and its loss, TICK_SYNC and its reply, the
barrier commands that take a deferred step, bring-up step 4; and the passing of time. -/

-- One proof at a time: the package is also compiled as one text, and proofs in parallel would need more memory than the check allows.
set_option Elab.async false

namespace Sys2Proof.Machine

/-- What the commands that change the tick leave alone. -/
def State.held (s : State) : List Instr × Fuses × List Host.Cell × List (Nat × BitVec 64) := (s.pending, s.fuses, s.mem, s.tags)

theorem held_of_kept {s t : State} (h : t.kept = s.kept) : t.held = s.held := by
  simp only [State.kept, State.still, Prod.mk.injEq] at h
  simp [State.held, h]

theorem sound_of_held {s t : State} (h : t.held = s.held) (x : s.Sound) : t.Sound := by
  simp only [State.held, Prod.mk.injEq] at h
  unfold State.Sound
  rw [h.2.2.1, h.2.2.2]
  exact x

/-! ## The tick -/

theorem stepTick_held (s : State) (cause : BitVec 16) (n : Nat) : (stepTick s cause n).held = s.held := rfl

theorem stepOrDefer_held (s : State) (cause : BitVec 16) (n : Nat) : (stepOrDefer s cause n).held = s.held := by
  unfold stepOrDefer
  split
  · rfl
  · exact stepTick_held ..

theorem takeDeferred_held (s : State) : (takeDeferred s).held = s.held := by
  unfold takeDeferred
  split
  · rfl
  · split
    · rfl
    · exact stepTick_held ..

theorem execTickSync_held (l : Lnk) (t : BitVec 64) (f : BitVec 4) (a : Option (BitVec 64)) (r : Nat) (s : State) :
    AllNext (fun t => t.held = s.held) (execTickSync l t f a r s) := by
  unfold execTickSync
  dsimp only
  split
  · exact rfl
  · split
    · exact (stepOrDefer_held ..).trans rfl
    · exact rfl

theorem execTickSyncReply_held (l : Lnk) (a : BitVec 64) (b : BitVec 4) (c : BitVec 64) (d : BitVec 4) (r : Nat) (s : State) :
    AllNext (fun t => t.held = s.held) (execTickSyncReply l a b c d s r) := by
  unfold execTickSyncReply
  dsimp only
  split
  · exact rfl
  · split
    · exact (stepOrDefer_held ..).trans rfl
    · split <;> exact rfl

theorem execAbandon_held (g n : BitVec 16) (cause : BitVec 4) (r : Nat) (s : State) :
    AllNext (fun t => t.held = s.held) (execAbandon g n cause r s) := by
  unfold execAbandon
  split
  · exact rfl
  · rename_i c _
    dsimp only
    have k : (frameRetries s c r).kept = s.kept := frameRetries_kept ..
    generalize frameRetries s c r = u at k ⊢
    refine iteInduction (fun _ => held_of_kept k) fun _ => ?_
    refine iteInduction (fun _ => iteInduction (fun _ => held_of_kept k) fun _ =>
      held_of_kept (by rw [abortStopCtx_kept, State.emit_kept, State.onBar_kept, k])) fun _ => ?_
    refine iteInduction (fun _ => held_of_kept k) fun _ => ?_
    refine iteInduction (fun _ => held_of_kept (by rw [barrierFail_kept, k])) fun _ => ?_
    have m : ∀ x : BitVec 12, ((recordAbandon (u.fresh.2.onBar c BarSt.coming) c cause x).onBar c BarSt.back).kept = s.kept := fun x => by
      rw [State.onBar_kept, recordAbandon_kept, State.onBar_kept, fresh_kept, k]
    refine iteInduction (motive := fun t : State => t.held = s.held) (fun _ => held_of_kept ?_) fun _ => ?_
    · rw [planMismatch_kept]; exact m _
    · exact (takeDeferred_held _).trans (held_of_kept (m _))

theorem execBarrierFire_held (c : Ctx) (s : State) : AllNext (fun t => t.held = s.held) (execBarrierFire c s) := by
  unfold execBarrierFire
  dsimp only
  split
  · exact rfl
  · refine iteInduction (fun _ => rfl) fun _ => (takeDeferred_held _).trans (held_of_kept ?_)
    rw [kept_ite, State.emit_kept, State.onBar_kept, ite_self]

/-! ## Power -/

/-- A power-up changes fuses and tick; the commands waiting, memory and tags stay. -/
theorem execAonPowerValid_stays (f : Fuses) (a b c : Bool) (bad : List (Nat × BitVec 32)) (s : State) :
    AllNext (fun t => t.pending = s.pending ∧ t.mem = s.mem ∧ t.tags = s.tags) (execAonPowerValid f a b c s bad) := by
  unfold execAonPowerValid
  split
  · exact ⟨rfl, rfl, rfl⟩
  · have h := held_of_kept (confBad_kept (withoutPower s) bad)
    simp only [State.held, Prod.mk.injEq] at h
    exact ⟨h.1, h.2.2.1, h.2.2.2⟩

theorem execVddAonLoss_held (s : State) : AllNext (fun t => t.held = s.held) (execVddAonLoss s) := by
  unfold execVddAonLoss
  split <;> exact rfl

/-! ## Bring-up -/

theorem clearPortTags_stores (s : State) (g : Gtu) : Stores s (clearPortTags s g) := by
  refine ⟨rfl, fun x => ⟨x.1, ?_, fun e he => x.2.2 e (List.mem_filter.mp he).1⟩⟩
  exact filter_wf x.2.1

theorem coldPort_stores (s : State) (g : Gtu) : Stores s (coldPort s g) := (clearPortTags_stores s g).then (State.emit_kept ..)

theorem endStep4_stores (x : StepReport) (s : State) : Stores s (endStep4 x s) := by
  unfold endStep4
  dsimp only
  have h : Stores s (declareFailed s x.failed) := .of_kept (declareFailed_kept ..)
  generalize declareFailed s x.failed = u at h ⊢
  have k : Stores s (if u.pwr.path = 2 then u.each (x.cold.filter (fun g => u.unitExists (uMgtu g))) coldPort else { u with tags := [] }) := by
    split
    · exact h.trans (Stores.each coldPort_stores)
    · exact h.trans ⟨rfl, fun y => ⟨y.1, rfl, fun e he => absurd he List.not_mem_nil⟩⟩
  generalize (if u.pwr.path = 2 then u.each (x.cold.filter (fun g => u.unitExists (uMgtu g))) coldPort else { u with tags := [] }) = v at k ⊢
  have p : (v.each (List.finRange 40) portReady).kept = v.kept := State.each_kept _ _ _ (by simp)
  exact (k.then p).then (by rw [toStep_kept, recordStep_kept])

theorem execBringupStep_stores (x : StepReport) (s : State) : AllNext (Stores s) (execBringupStep x s) := by
  unfold execBringupStep
  split
  · exact Stores.refl s
  · split
    · exact .of_kept (endStep1_kept ..)
    · exact .of_kept (endStep2_kept ..)
    · exact .of_kept (endStep3_kept ..)
    · exact endStep4_stores ..
    · exact .of_kept (endStep5_kept ..)
    · exact .of_kept (endStep6_kept ..)
    · exact .of_kept (endStep7_kept ..)

/-! ## Time -/

theorem controlTick_held (s : State) : (controlTick s).held = s.held := by
  unfold controlTick
  have h := held_of_kept (State.onAllCtx_kept s (advanceOffset s))
  generalize s.onAllCtx (advanceOffset s) = t at h ⊢
  exact (takeDeferred_held _).trans h

theorem idleTick_held (s : State) : (idleTick s).held = s.held := by
  unfold idleTick
  split
  · rfl
  · split
    · exact controlTick_held s
    · exact controlTick_held s
    · exact controlTick_held s
    · rfl
    · rfl

end Sys2Proof.Machine
end

