-- ==== Sys2Proof/Tests/Slice0.lean ====
section
/-! SUPPORT. The model's own tests: the refusals of WellFormed, values that the spec works out, and for every statement of Obligations.lean
states and operands that meet the hypotheses of each of its clauses. -/

-- One proof at a time: the package is also compiled as one text, and proofs in parallel would need more memory than the check allows.
set_option Elab.async false

namespace Sys2Proof.Tests
open Sys2Proof Sys2Proof.Machine

/-! ## States that the tests share -/

/-- A plan of context 0: two work arrays and a shadow in row 0, two positions, a barrier group whose master is chip 7, a dependence on chip 3. -/
def planA : Plan :=
  { core := { primary := 1, rowsUsed := 1, window := 4, requested := 4, owned := [⟨0, 0⟩, ⟨1, 0⟩, ⟨2, 1⟩], positions := [⟨1000, false, false, 0⟩, ⟨1000, true, true, 0⟩], seed := List.replicate 32 0, deps := [⟨0, 3, 1, 0⟩], types := [1, 2, 3, 4], claims := [⟨2, 0, 1⟩] }
    cover := { chase := [⟨0, 2, 0, 900, 100⟩], chaseTiles := [⟨0, 0, 1⟩, ⟨0, 1, 2⟩], areas := [⟨0, 16, 2⟩], retained := [⟨0, 0, 5⟩], targets := [0x0000, 0x0001, 0x5000] }
    extra := { group := some (5, 7), members := [⟨7, 0, 1⟩, ⟨9, 0, 1⟩], barrierPos := [1], results := [⟨0, 1⟩], lists := [⟨0, 0, 0, 5, 0⟩], ring := some (0x100000, 8) } }

/-- The same plan for a context of a lock-step pair with chip 7. -/
def planP : Plan := { planA with core := { planA.core with lockstep := true }, extra := { planA.extra with pair := some ⟨7, 1, 0, 1, 0x1234, 0⟩ } }

/-- A brought-up engine in VS0 with every processor in RUN and no plan loaded. -/
def ready : State :=
  { aon := { valid := true, sampled := true, sentinel := true, refOk := true, pgMain := true, pgMem := true, pgIo := true, alive := true, dynAddr := 8 }
    shd := { rows := Vector.replicate 24 { shadow := 24, reserve := 25, ready := true } }
    mgtu := Vector.replicate 40 { ready := true, tagOk := true }, lgtu := Vector.replicate 24 { width := 8 }
    fwp := { fwpAtReset with procs := Vector.replicate 6 { state := .run, greeted := true, major := 1, version := 1, period := 2 } }
    rcd := { flashOk := true, seqSet := true, nextSeq := 5 }, time := { tick := 10000000, opsec := 100 }
    pwr := { vs := .vs0, ready := true, step := 7, path := 1 } }

/-- Context `c` with a plan. -/
def put (s : State) (c : Ctx) (x : CtxSt) : State := { s with ctxs := s.ctxs.upd c (fun _ => x) }

/-- A context that runs pass 7 of a plan. -/
def runs (p : Plan) : CtxSt :=
  { pass := { st := .running, index := 7, commitCount := 7 }, exec := { injected := false, used := some 0, token := 8, seed := List.replicate 32 0 }
    plan := { active := some p, loaded := true, rho := 12345, keyCheck := 0x77, hash := List.replicate 32 0 } }

/-- A context whose pass 7 has ended and is collected. -/
def ended (p : Plan) : CtxSt :=
  { runs p with pass := { (runs p).pass with st := .boundary }, exec := { (runs p).exec with ended := true, collected := true } }

/-- A context at its boundary with nothing to decide. -/
def atRest (p : Plan) : CtxSt := { ended p with exec := { (ended p).exec with injected := true, committed := true, ended := false, collected := false } }

/-- The brought-up engine with context 0 running plan A, context 1 at rest under the paired plan, context 2 stopped. -/
def busy : State :=
  put (put (put ready 0 (runs planA)) 1 (atRest planP)) 2 { atRest planA with pass := { (atRest planA).pass with st := .stopped, stopEvent := 0x500C } }

/-! ## Witnesses: register accesses, the always-on domain and the management bus -/

theorem witness_AlignedAccessesAreCarriedOutAndOthersRefused :
    (ready.early = false ∧ 0x228 % 8 = 0 ∧ regAt 0x228 = some .irqEnable ∧ RegAt.present ready .irqEnable = true ∧ ready.clockStopped (RegAt.domain .irqEnable) = false ∧
      ready.sliceInReset .irqEnable = false ∧ ready.behindWait (RegAt.domain .irqEnable) = false ∧ ready.mgtUp = true) ∧
    (ready.early = false ∧ (4 ≠ 8 ∨ 0x228 % 8 ≠ 0)) ∧ (8 ≠ 8 ∨ 0x22C % 8 ≠ 0) := by decide

theorem witness_UnmappedAccessIsRefused : ready.early = false ∧ 0x000008 % 8 = 0 ∧ regAt 0x000018 = none ∧ 0x3FFFFF8 % 8 = 0 ∧ regAt 0x3FFFFF8 = none := by decide

theorem witness_EarlyAccessIsCounted : (State.reset.pwr.step = 1 ∨ State.reset.pwr.step = 2 ∨ State.reset.pwr.vs = .vs3 ∨ State.reset.pwr.vs = .vs4) ∧
    ((0x000208 : Nat) ≠ 0x000000 ∧ (0x000208 : Nat) ≠ 0x000200 ∧ (0x000208 : Nat) ≠ 0xE00000 ∧ (0x000208 : Nat) ≠ 0xE00008) := by decide

theorem witness_InterruptMessages : ready.gate 0x000228 = .carry ∧ ready.gate 0x000220 = .carry := by decide

/-- Accesses at the stopped compute domain: one waits, one has timed out and is captured, one of these a write that was accepted. -/
def waits (w : XingWait) : State := { ready with xing := { waits := [w], stopped := [] } }
def waitW : XingWait := { src := .host, off := 0x228, acc := .write 3, domain := 0, row := none }

theorem witness_CrossingsTimeOutAndRestart :
    ((waits waitW).xing.waits = waitW :: [] ∧ waitW.timedOut = false ∧ (waits waitW).xing.valid = false ∧ ({ waits waitW with xing := { (waits waitW).xing with valid := true } } : State).xing.valid = true) ∧
    ready.gate 0x000208 = .carry ∧
    ((waits waitW).early = false ∧ RegAt.present (waits waitW) .irqEnable = true ∧ (∃ w ∈ (waits waitW).xing.waits, w.timedOut = false ∧ (w.domain, w.row) = RegAt.domain .irqEnable) ∧
      ({ ready with xing := { stopped := [0] } } : State).clockStopped (RegAt.domain .irqEnable) = true) ∧
    (regAt waitW.off = some .irqEnable ∧ (waits waitW).sliceInReset .irqEnable = false ∧ (waits waitW).clockStopped (waitW.domain, waitW.row) = false ∧ waitW.acc = .write 3 ∧ isWrite waitW.acc = true) ∧
    (let w := { waitW with timedOut := true, captured := true }; (waits w).xing.waits = [w] ∧ w.timedOut = true ∧ w.captured = true ∧ isWrite w.acc = true ∧ w.acc = .write 3) ∧
    (let w := { waitW with timedOut := true, acc := .read }; (waits w).xing.waits = [w] ∧ w.acc = .read ∧ w.timedOut = true) := by decide

theorem witness_PowerUpAndPowerLossOfTheAlwaysOnDomain :
    State.reset.aon.valid = false ∧ State.reset.rcd.flash.item 1 = none ∧
    ({ State.reset with rcd := { flash := (({} : Flash).putItem 1 5 0) } } : State).rcd.flash.item 1 = some 5 ∧ ready.aon.valid = true ∧
    (∃ r ∈ (({} : Flash).putItem 1 5 0).conf0, (0, r.seq) ∈ [((0 : Nat), (0 : BitVec 32))] ∧ r.ok = true) := by decide

/-- The engine in VS3. -/
def asleep : State := { ready with pwr := { ready.pwr with vs := .vs3, ready := false } }

theorem witness_StrapsSentinelBusAndReferenceClock :
    (let s : State := { State.reset with aon := { valid := true } }
     s.aon.valid = true ∧ s.aon.sampled = false ∧ s.aon.sentinel = false ∧ s.pwr.tripLost = false ∧ ({ s with pwr := { s.pwr with tripLost := true } } : State).pwr.tripLost = true ∧
      s.aon.refOk = false ∧ s.busUp = false) ∧
    (ready.aon.sampled = true ∧ ready.aon.valid = true ∧ ready.aon.sentinel = true ∧ asleep.aon.sentinel = true ∧ asleep.pwr.vs = .vs3 ∧ ready.busUp = true ∧ (0x30 : BitVec 7).toNat = 0x30 + ready.aon.strap.toNat % 4 ∧ (0x31 : BitVec 7).toNat ≠ 0x30 + ready.aon.strap.toNat % 4) ∧
    (asleep.aon.valid = true ∧ asleep.aon.refOk = true ∧ (asleep.pwr.vs = .vs3 ∨ asleep.pwr.vs = .vs4 ∨ asleep.pwr.step.toNat ≤ 2)) ∧
    (ready.aon.valid = true ∧ ready.aon.refOk = true ∧ ready.pwr.vs.code ≤ 2 ∧ 3 ≤ ready.pwr.step.toNat ∧ ready.allStopped = true) ∧
    (busy.aon.valid = true ∧ busy.aon.refOk = true ∧ busy.pwr.vs.code ≤ 2 ∧ 3 ≤ busy.pwr.step.toNat ∧ busy.deciding 0 = true ∧ busy.hasPlan 0 = true ∧ (busy.ctx 0).pass.st ≠ .stopped) := by decide

theorem witness_PowerGoodInputs : (ready.aon.valid = true ∧ ready.aon.sentinel = true ∧ (true || false || false) = true ∧ ready.pwr.vs ≠ .vs4) ∧
    (let s : State := { ready with aon := { ready.aon with sentinel := false } }; s.aon.valid = true ∧ s.aon.sentinel = false) ∧
    (let s : State := { ready with pwr := { ready.pwr with vs := .vs4, lossVs4 := true } }; s.pwr.lossVs4 = true ∧ s.pwr.vs = .vs4 ∧ s.aon.valid = true ∧ s.aon.trip = false) ∧
    ((true && true && false) = false ∧ ready.pwr.lossVs4 = false ∧ ({ ready with aon := { ready.aon with trip := true } } : State).aon.trip = true) := by decide

/-- Sensor 639, the last of the base die, holds the trip. -/
def tripped : State := { ready with aon := { ready.aon with trip := true, tripBy := 639 } }

/-- No sensor's comparator has tripped, so all are cool. -/
theorem cool (s : State) (h : s.thm.sensors = Vector.replicate 640 {}) : s.allCool = true := by
  refine List.all_eq_true.2 fun n _ => ?_
  have : (s.thm.sensors.at n).hot = false := by rw [h]; simp [Tab.at]
  simp [this]

theorem witness_TripIsHeldUntilReleased :
    (ready.aon.sentinel = true ∧ ready.unitExists (uSensor 0) = true ∧ (ready.thm.sensors.at 0).state = .live ∧ ready.aon.trip = false) ∧
    (tripped.aon.sentinel = true ∧ tripped.unitExists (uSensor 0) = true ∧ (tripped.thm.sensors.at 0).state = .live ∧ tripped.aon.trip = true ∧ (tripped.thm.sensors.at 0).tripped = false) ∧
    (let s := { tripped with thm := { tripped.thm with sensors := tripped.thm.sensors.upd 639 (fun x => { x with tripped := true }) } }; s.aon.trip = true ∧ (s.thm.sensors.at 639).tripped = true) ∧
    ((tripped.mgtUp || tripped.responder) = true ∧ tripped.aon.trip = true ∧ tripped.allCool = true) ∧ ((ready.mgtUp || ready.responder) = true ∧ (ready.aon.trip = false ∨ ready.allCool = false)) := by
  refine ⟨by decide, by decide, by decide +kernel, ⟨by decide, by decide, cool _ rfl⟩, by decide, .inl (by decide)⟩

theorem witness_ManagementPortRequests : (ready.mgtUp = true ∧ 4 ≤ 4 ∧ ready.rcd.incomplete = false) ∧
    (let s : State := { ready with fwp := { ready.fwp with procs := ready.fwp.procs.upd 0 (fun x => { x with state := .restarting }) } }
     s.mgtUp = false ∧ s.busUp = true ∧ (s.proc mc).state = .restarting) := by decide

/-! ## Witnesses: memory, tags and links -/

theorem witness_NoReservedTagStateIsEverStored : State.reset.Sound ∧ (∃ t, step State.reset = .next t) ∧ 4 < (tagState 0xE000000000000000).toNat :=
  ⟨⟨by decide, by decide, by decide⟩, ⟨_, rfl⟩, by decide⟩

/-- One of the two ports of stack 0 serves a stave, and one does not. -/
theorem a_port_serves (st : Nat) : ∃ g : Gtu, g.val < 2 ∧ serves g.val st = true := by
  cases h : Config.portOfStave 0 st
  · exact ⟨0, by decide, by simp [serves, h]⟩
  · exact ⟨1, by decide, by simp [serves, h]⟩
theorem a_port_does_not_serve (st : Nat) : ∃ g : Gtu, serves g.val st = false := by
  cases h : Config.portOfStave 0 st
  · exact ⟨1, by simp [serves, h]⟩
  · exact ⟨0, by simp [serves, h]⟩

/-- The tags the witnesses use: CLEAN of the empty blank, POISON_DERIVED, UNTAGGED and a reserved state. -/
theorem witness_ReadsDeliverTheBlankUnderTheReadRows :
    ((tagState (mkTag 0 5)).toNat ≤ 4 ∧ tagState (mkTag 0 5) ≠ 4 ∧ tagFp (mkTag 0 5) = 5 ∧ tagFp (mkTag 0 5) ≠ 6) ∧ ((tagState (mkTag 4 0)).toNat ≤ 4 ∧ tagState (mkTag 4 0) = 4) ∧
    (busy.Sound ∧ 4096 < jobRegionBlanks * 4096 ∧ busy.keyOf 0 = some 12345 ∧ (busy.ctx 0).prv.span = none ∧
      (∃ g : Gtu, g.val < busy.ports ∧ serves g.val (4096 / 4096 / 8) = true) ∧ ∃ g : Gtu, serves g.val (4096 / 4096 / 8) = false) := by
  refine ⟨by decide, by decide, ⟨by decide, by decide, by decide⟩, by decide, by decide, by decide, ?_, ?_⟩
  · obtain ⟨g, h, hs⟩ := a_port_serves 0
    exact ⟨g, Nat.lt_trans h (by decide), hs⟩
  · exact a_port_does_not_serve 0

/-- Context 0 in a span that lists blank 5 of port 0 under role 0, not yet captured or captured in this execution, and blank 6 of port 0 under role 2. -/
def capturing (caps : List Capture) : State :=
  let p : Plan := { planA with extra := { planA.extra with lists := [⟨0, 0, 0, 5, 0⟩, ⟨0, 2, 0, 6, 0⟩] } }
  put ready 0 { runs p with prv := { span := some { plan := p, caps } } }

theorem witness_ReadsDeliverTheBlankUnderTheReadRows_listed :
    (let k : Capture := { role := 0, pos := 0, tag := 0, pass := 7, replay := 0 }
     (∃ sp, ((capturing []).ctx 0).prv.span = some sp ∧ ((capturing []).keyOf 0).isSome = true ∧ listedAt sp.plan sp.result 0 0 5 = [0] ∧ listedAt sp.plan sp.result (1 - 0) 0 5 = [] ∧
       takesCapture k sp.caps = true) ∧
     ∃ sp, ((capturing [k]).ctx 0).prv.span = some sp ∧ listedAt sp.plan sp.result 0 0 5 = [0] ∧ takesCapture k sp.caps = false) ∧
    (capturing []).Sound ∧ (capturing []).unlisted 0 [0, 1] 0 6 ∧ (capturing []).unlisted 0 [2] 0 5 ∧ (capturing []).lineLost 0 5 true = true := by
  have e : (capturing []).ctx 0 = _ := rfl
  refine ⟨⟨⟨_, rfl, by decide, by decide, by decide, by decide⟩, ⟨_, rfl, by decide, by decide⟩⟩, ⟨by decide, by decide, by decide⟩, ?_, ?_, by decide⟩ <;>
    (intro sp h; injection h with h; subst h; decide)

theorem witness_PoisonKeepsItsFirstCause :
    isPoison (tagState (mkTag 1 7)) = true ∧ isPoison (tagState (mkTag 3 7)) = true ∧ isPoison (tagState (mkTag 4 7)) = false ∧ tagFp (mkTag 1 7) ≠ 8 ∧
    isPoison (tagState (fullRow (some 3) (mkTag 1 7) (mkTag 2 0) []).1) = true ∧ tagState (fullRow (some 3) (mkTag 1 7) (mkTag 0 0) []).1 = 0 ∧
    isPoison (tagState (fullRow none (mkTag 1 7) (mkTag 2 0) []).1) = true ∧ tagState (hostFullRow (some 3) false (mkTag 1 7) []) = 0 ∧ (true || false) = true ∧ tagState (mkTag 4 7) = 4 := by decide

/-- A unit under a pattern. -/
def patterned (u : UnitId) : State := { ready with scr := { ready.scr with running := [{ unit := u, pattern := 1, start := 5, retest := false, round := 1 }] } }

theorem witness_MeshWritesStoreWordsAndTag :
    (busy.Sound ∧ 4096 < jobRegionBlanks * 4096 ∧ (∃ g : Gtu, serves g.val (4096 / 4096 / 8) = true ∧ g.val < busy.ports ∧ busy.fencedAt 0 (uMgtu g) = false ∧ busy.retains g 0 (4096 / 4096) = false ∧
        isPoison (tagState (busy.tagOf (stackOf g) ((busy.mgtu.at g).place (4096 / 4096)))) = false) ∧
      (some (0 : Arr)).any busy.isolated = false ∧ (busy.ctx 0).prv.span = none ∧ busy.keyOf 0 = some 12345 ∧ (∀ x ∈ [(1023, (5 : BitVec 32))], x.1 < 1024)) ∧
    (79999999999 < stackSize ∧ (put ready 0 { runs planA with exec := { (runs planA).exec with fenced := [uMgtu 0] } }).fencedAt 0 (uMgtu 0) = true ∧
      (some (0 : Arr)).any (patterned (uArr 0)).isolated = true) := by
  refine ⟨⟨⟨by decide, by decide, by decide⟩, by decide, ?_, by decide, by decide, by decide, by decide⟩, by decide, by decide, by decide⟩
  obtain ⟨g, h, hs⟩ := a_port_serves 0
  have all : ∀ g : Gtu, g.val < 2 → g.val < busy.ports ∧ busy.fencedAt 0 (uMgtu g) = false ∧ busy.retains g 0 (4096 / 4096) = false ∧
      isPoison (tagState (busy.tagOf (stackOf g) ((busy.mgtu.at g).place (4096 / 4096)))) = false := by decide
  exact ⟨g, hs, all g h⟩

theorem witness_HostWritesStoreWordsAndTag :
    ready.Sound ∧ 4096 < jobRegionBlanks * 4096 ∧ (∃ g : Gtu, g.val < ready.ports ∧ serves g.val (4096 / 4096 / 8) = true) ∧ (∀ x ∈ [(0, (5 : BitVec 32)), (1023, 6)], x.1 < 1024) := by
  obtain ⟨g, h, hs⟩ := a_port_serves 0
  exact ⟨⟨by decide, by decide, by decide⟩, by decide, ⟨g, Nat.lt_trans h (by decide), hs⟩, by decide⟩

/-- Context 0 with blank 129 of a port, which its plan retains at position 0 in an area of one stave that starts there: copied to slot 130, or not yet; its copy
of blank 6 is committed. -/
def retaining (g : Gtu) (copied : Bool) : State :=
  let p : Plan := { planA with cover := { planA.cover with areas := [⟨g.val, 16, 1⟩], retained := [⟨0, g.val, 129⟩] } }
  { put ready 0 (runs p) with mgtu := ready.mgtu.upd g (fun m => { m with
      retained := (if copied then [{ ctx := 0, orig := 129, copy := 130, committed := false }] else []) ++ [{ ctx := 0, orig := 6, copy := 131, committed := true }] }) }

/-- An area of one stave. -/
theorem one_stave (g st : Nat) (h : serves g st = true) (fuel : Nat) : servedStaves g (fuel + 1) st 1 = [st] := by
  rw [servedStaves, if_pos h]; cases fuel <;> rfl

/-- What the witness below asks of the port, but for which staves it serves. -/
theorem retaining_holds : ∀ g : Gtu, g.val < 2 → ∀ copied, g.val < (retaining g copied).ports ∧ (retaining g copied).fencedAt 0 (uMgtu g) = false ∧
    (retaining g copied).retains g 0 (129 * 4096 / 4096) = true ∧ tagKey (stackOf g) 130 ≠ tagKey (stackOf g) (129 * 4096 / 4096) ∧
    tagKey (stackOf g) 128 ≠ tagKey (stackOf g) (129 * 4096 / 4096) ∧
    (((retaining g copied).mgtu.at g).provisionalOf 0 (129 * 4096 / 4096)).map (·.copy) = if copied then some 130 else none := by decide

theorem witness_RetainedWritesLeaveTheOriginal : ∃ g : Gtu, serves g.val (129 * 4096 / 4096 / 8) = true ∧ g.val < 2 ∧ 129 * 4096 < jobRegionBlanks * 4096 ∧
    (∀ copied, (retaining g copied).Sound ∧ (some (0 : Arr)).any (retaining g copied).isolated = false ∧ ((retaining g copied).ctx 0).prv.span = none) ∧
    (retaining g false).freeSlot g 0 = some 128 := by
  obtain ⟨g, h, hs⟩ := a_port_serves 16
  have sound : ∀ g : Gtu, g.val < 2 → ∀ copied, (retaining g copied).mem = [] ∧ (retaining g copied).tags = [] ∧ (some (0 : Arr)).any (retaining g copied).isolated = false ∧
      ((retaining g copied).ctx 0).prv.span = none := by decide
  refine ⟨g, hs, h, by decide, fun b => ?_, ?_⟩
  · obtain ⟨hm, ht, hi, hp⟩ := sound g h b
    refine ⟨⟨?_, ?_, ?_⟩, hi, hp⟩
    · rw [hm]; rfl
    · rw [ht]; rfl
    · rw [ht]; simp
  · have e : areaStaves g.val 16 1 = [16] := one_stave g.val 16 hs 2436620
    have hp : (retaining g false).planOf 0 = some { planA with cover := { planA.cover with areas := [⟨g.val, 16, 1⟩], retained := [⟨0, g.val, 129⟩] } } := rfl
    have hc : ((retaining g false).mgtu.at g).retained = [{ ctx := 0, orig := 6, copy := 131, committed := true }] := by simp [retaining, Tab.at, Tab.upd]
    simp only [State.freeSlot, hp, Option.bind_some, List.find?_cons, decide_true, e, hc]
    decide

/-- The same context where its plan gives the port no area, so that no slot is free. -/
def spilling (g : Gtu) : State :=
  put ready 0 (runs { planA with cover := { planA.cover with areas := [], retained := [⟨0, g.val, 129⟩] } })

theorem witness_RetainedWritesLeaveTheOriginal_overflow : ∃ g : Gtu, serves g.val (129 * 4096 / 4096 / 8) = true ∧ g.val < (spilling g).ports ∧ (spilling g).Sound ∧
    (spilling g).fencedAt 0 (uMgtu g) = false ∧ (spilling g).retains g 0 (129 * 4096 / 4096) = true ∧ ((spilling g).mgtu.at g).provisionalOf 0 (129 * 4096 / 4096) = none ∧
    (spilling g).freeSlot g 0 = none := by
  obtain ⟨g, h, hs⟩ := a_port_serves 16
  have all : ∀ g : Gtu, g.val < 2 → g.val < (spilling g).ports ∧ ((spilling g).mem = [] ∧ (spilling g).tags = []) ∧
    (spilling g).fencedAt 0 (uMgtu g) = false ∧ (spilling g).retains g 0 (129 * 4096 / 4096) = true ∧ ((spilling g).mgtu.at g).provisionalOf 0 (129 * 4096 / 4096) = none ∧
    (spilling g).freeSlot g 0 = none := by decide
  obtain ⟨hp, ⟨hm, ht⟩, hf⟩ := all g h
  refine ⟨g, hs, hp, ⟨?_, ?_, ?_⟩, hf⟩
  · rw [hm]; rfl
  · rw [ht]; rfl
  · rw [ht]; simp

/-- One of the two ports of stack 0 serves stave 0, and a probe waits there. -/
def probing (g : Gtu) (blank : BitVec 25) : State := { ready with mgtu := ready.mgtu.upd g (fun m => { m with probing := true, probe := blank }) }

theorem witness_TagRegionAccessesAndProbes :
    (jobRegionBlanks * 4096 ≤ 79843721216 ∧ 79843721216 < stackSize ∧ jobRegionBlanks * 4096 ≤ 79999999999 ∧ 79999999999 < stackSize ∧ (39 : Gtu).val < ready.ports ∧ ready.aon.refOk = true ∧ ready.fencedAt 0 (uMgtu 39) = false) ∧
    (ready.gate (0x400018 + 0x1000 * (39 : Gtu).val) = .carry ∧ flag (0x2000005 : Reg) 25 = true) ∧
    (∃ g : Gtu, ((probing g 0).mgtu.at g).probing = true ∧ servedBy g ((probing g 0).mgtu.at g).probe.toNat = true) ∧
    (((probing 0 0x1FFFFFF).mgtu.at 0).probing = true ∧ servedBy 0 ((probing 0 0x1FFFFFF).mgtu.at 0).probe.toNat = false) := by
  refine ⟨by decide, by decide, ?_, by decide⟩
  cases h : Config.portOfStave 0 0
  · exact ⟨0, by decide, by show (decide (0 < jobRegionBlanks) && (Config.portOfStave 0 0 == false)) = true; rw [h]; rfl⟩
  · exact ⟨1, by decide, by show (decide (0 < jobRegionBlanks) && (Config.portOfStave 0 0 == true)) = true; rw [h]; rfl⟩

/-- A span of context 0 that wants the full hash of blank 7 of port 0, no output of it. -/
def hashing : State :=
  put ready 0 { runs planA with prv := { span := some { plan := { planA with extra := { planA.extra with lists := [⟨0, 3, 0, 7, 2⟩] } } } } }

/-- The same blank listed as an output of a closed span. -/
def outHashing : State := { ready with prv := { ready.prv with spans := [{ ctx := 0, plan := { planA with extra := { planA.extra with lists := [⟨0, 3, 0, 7, 2⟩, ⟨0, 2, 0, 7, 0⟩] } } }] } }

theorem witness_CopyBackAndFullHashRead :
    ((retaining 0 true).Sound ∧ ((retaining 0 true).mgtu.at 0).retained.find? (fun r => r.committed && r.ctx = 0 && r.orig = 6) = some { ctx := 0, orig := 6, copy := 131, committed := true } ∧
      tagKey (stackOf 0) 131 ≠ tagKey (stackOf 0) 6) ∧
    (∃ sp, (outHashing.prv.spans.find? (fun x => x.ctx = 0 && x.wants 2 0 7 && x.outputs 0 7)) = some sp ∧ outHashing.Sound) ∧
    (hashing.Sound ∧ 7 < jobRegionBlanks ∧ (∃ sp, (hashing.ctx 0).prv.span = some sp ∧ sp.wants 2 0 7 = true ∧ sp.outputs 0 7 = false) ∧
      hashing.prv.spans.find? (fun x => x.ctx = 0 && x.wants 2 0 7 && x.outputs 0 7) = none) :=
  ⟨⟨⟨by decide, by decide, by decide⟩, by decide, by decide⟩, ⟨_, rfl, by decide, by decide, by decide⟩, ⟨by decide, by decide, by decide⟩, by decide, ⟨_, rfl, by decide, by decide⟩, by decide⟩

/-- A frame of context 0 whose tag agrees with its one word under the key, and one whose tag does not. -/
def frame (tag : BitVec 64) : Frame := { ctx := 0, keyCheck := 0x77, tag, data := [1], seq := 9, crcRetry := 0, adaptive := false }

theorem witness_LinkFramesAreCheckedAndSent :
    busy.hasLink 23 = true ∧ (busy.lgtu.at 23).fenced = false ∧ busy.fencedAt 0 (uLgtu 23) = false ∧ tagHolds (busy.keyOf 0) (frame 12345).data (frame 12345).tag = true ∧
    tagHolds (busy.keyOf 0) (frame 0).data (frame 0).tag = false ∧ busy.deciding 0 = true ∧ busy.named 0 7 0 = .current ∧ ready.keyOf 5 = none ∧ tagHolds (ready.keyOf 5) (frame 0).data (frame 0).tag = true ∧
    (let s : State := { busy with lgtu := busy.lgtu.upd 23 (fun x => { x with sent := [(0, frame 12345)] }) }
     (s.lgtu.at 23).sent.find? (fun e => Frame.is e.2 0 9) = some (0, frame 12345)) ∧
    (put ready 0 { runs planA with exec := { (runs planA).exec with fenced := [uLgtu 23] } }).fencedAt 0 (uLgtu 23) = true := by decide

theorem witness_ReceivedFramesAreDeliveredOrRetried :
    busy.hasLink 0 = true ∧ (busy.lgtu.at 0).fenced = false ∧ busy.aon.refOk = true ∧ (busy.ctx 0).plan.loaded = true ∧ (frame 12345).keyCheck = (busy.ctx 0).plan.keyCheck ∧
    tagMatches (busy.ctx 0).plan.rho (frame 12345).data (frame 12345).tag = true ∧ tagMatches (busy.ctx 0).plan.rho (frame 0).data (frame 0).tag = false ∧
    ((busy.lgtu.at 0).retryOf 0 9 busy.retryLimit.toNat).made < ((busy.lgtu.at 0).retryOf 0 9 busy.retryLimit.toNat).limit ∧
    (let x : Lgtu := { width := 8, open_ := [{ ctx := 0, seq := 9, made := 4, limit := 4 }] }; (x.retryOf 0 9 4).limit ≤ (x.retryOf 0 9 4).made) ∧
    (busy.ctx 5).plan.loaded = false ∧ ({ frame 12345 with keyCheck := 0x78 } : Frame).keyCheck ≠ (busy.ctx 0).plan.keyCheck := by decide

/-- The plan of context 0 in RELAXED mode. -/
def relaxedA : Plan := { planA with core := { planA.core with relaxed := true } }

theorem witness_LinksTrainAndRetrain :
    (ready.hasLink 0 = true ∧ (ready.lgtu.at 0).retired = false ∧ 0 < 1 ∧ 8 ≤ 8 ∧ 7 < 8 ∧ ready.aon.refOk = true ∧ (ready.lgtu.at 0).fenced = false ∧ busy.linkInUse 0 = true) ∧
    (let s : State := { put busy 0 { runs relaxedA with bar := {} } with lgtu := (busy.lgtu.upd 0 (fun x => { x with fenced := true, sent := [(0, frame 5)] })) }
     s.hasLink 0 = true ∧ (s.lgtu.at 0).retired = false ∧ (s.lgtu.at 0).fenced = true ∧ s.relaxed 0 = true ∧ s.hasLink 1 = true ∧ (s.lgtu.at 1).fenced = false ∧
      (s.lgtu.at 0).sent.find? (fun e => Frame.is e.2 0 9) = some (0, frame 5)) ∧
    (ready.gate 0x600018 = .carry ∧ (∀ c ∈ ready.loadedCtxs, ∀ p, ready.planOf c = some p → p.usesLink (0 : Lnk).val = false)) ∧
    (0 ∈ busy.loadedCtxs ∧ busy.planOf 0 = some planA ∧ planA.usesLink (0 : Lnk).val = true) := by
  refine ⟨by decide, by decide, ⟨by decide, fun c hc => ?_⟩, by decide⟩
  have : ready.loadedCtxs = [] := by decide
  simp [this] at hc

theorem witness_TheFrontCommandRuns : ({ ready with pending := [.cperGet, .cperResend] } : State).pending = .cperGet :: [.cperResend] ∧ ready.pending = [] := by decide

theorem witness_EveryCommandCompletes :
    (∀ a, memAddr .cperGet = some a → a < stackSize) ∧ memAddr (.hostRead 0 none 80000000000 [] false false) = some 80000000000 ∧ stackSize ≤ 80000000000 ∧
    memAddr (.hostRead 0 none 79999999999 [] false false) = some 79999999999 ∧ 79999999999 < stackSize := by
  refine ⟨fun a h => by simp [memAddr] at h, by decide, by decide, by decide, by decide⟩

theorem witness_OnlyTheNamedCommandsChangeMemory :
    (∃ t, exec .cperGet ready = .next t) ∧ (∀ f x y z, Instr.cperGet ≠ .aonPowerValid f x y z) ∧ writesMemory .cperGet = false ∧ writesTags .cperGet = false ∧ movesTick .cperGet = false :=
  ⟨⟨_, rfl⟩, by simp, by decide, by decide, by decide⟩

/-! ## Witnesses: the Calipers -/

/-- A descriptor of context 0: one segment of 32 steps of FP8 operands. -/
def desc : TileDesc := { ctx := 0, seq := 4, segs := [⟨32, .e4m3, .e4m3, 0⟩], lastOnPort := false }
/-- A tile of it, and the engine with a port in a given state. -/
def tile : Tile := { desc, pass := 7, replay := 0, rho := 3, lambda := 5, member := false, slice := 0 }
def port (p : Port) : State := { busy with wce := { busy.wce with ports := busy.wce.ports.upd 0 (fun _ => p) } }
def group : Group := { ctx := 0, pass := 7, replay := 0, seq := 1, rho := 3 }
/-- Parked tiles of consecutive numbers. -/
def parked (n : Nat) : List Tile := (List.range n).map (fun i => { tile with desc := { desc with seq := BitVec.ofNat 32 i } })

theorem witness_TileStartPlacesTheTile :
    (patterned (uArr 0)).isolated 0 = true ∧ ((port {}).wce.ports.at 0).cur = none ∧ (port {}).isolated 0 = false ∧ (∀ p, (port {}).planOf desc.ctx = some p → p.isMonitor = false) ∧
    ((port {}).wce.ports.at 0).group = none ∧
    tileLength { desc with segs := [⟨255, .e4m3, .e4m3, 0⟩] } < 256 ∧ ¬ tileLength { desc with segs := [⟨256, .e4m3, .e4m3, 0⟩] } < 256 ∧
    8 < ({ park := parked 10 } : Port).debt ∧ ¬ 8 < ({ park := parked 9 } : Port).debt ∧
    (((port { group := some group }).wce.ports.at 0).group = some group ∧ group.closing = false ∧ desc.ctx = group.ctx ∧ (busy.ctx 0).pass.index = group.pass ∧ (busy.ctx 0).pass.replay = group.replay) ∧
    ({ group with closing := true } : Group).closing = true ∧ descCause desc = 0 ∧ descCause { desc with segs := [⟨32, .unlisted, .e4m3, 0⟩] } ≠ 0 := by
  refine ⟨by decide, by decide, by decide, fun p h => ?_, by decide⟩
  have : (port {}).planOf desc.ctx = some planA := by decide
  rw [this] at h; injection h with h; subst h; decide

/-- The tile with all its operand cycles taken, alone or a member, read or not. -/
def done : Tile := { tile with side := { cycles := 32, y := List.replicate 64 0 } }
def reading : Tile := { done with reading := true }
def member : Tile := { done with member := true }

theorem witness_TileParksWithItsOperandSide :
    (((port { cur := some tile }).wce.ports.at 0).cur = some tile ∧ tile.monitor = false ∧ (port {}).isolated 0 = false ∧
      ((port { cur := some tile, park := parked 11 }).wce.ports.at 0).park.length < 12 ∧ tile.member = false ∧ (parked 11).any (fun x => x.member) = false) ∧
    (((port { cur := some member }).wce.ports.at 0).cur = some member ∧ member.member = true ∧ ([] : List Tile).any (fun x => x.member) = false ∧ member.side.cause = 0 ∧
      sideCause member.desc member.side = 0 ∧ [({ member with reading := true } : Tile)].any (fun x => x.reading && x.member) = true) ∧
    (let p : Port := { cur := some tile, park := parked 12 }; ∃ lost, 12 ≤ p.park.length ∧ p.park.find? (fun x => !p.begun x) = some lost ∧ p.caught.contains lost.exec = false ∧
      p.park.any (fun x => x.member) = false) ∧
    (((port { cur := some { tile with monitor := true } }).wce.ports.at 0).cur = some { tile with monitor := true } ∧ ({ tile with monitor := true } : Tile).tagBad = false) := by
  refine ⟨by decide, by decide, ⟨{ tile with desc := { desc with seq := 1 } }, by decide, by decide, by decide, by decide⟩, by decide⟩

/-- All accumulators zero, and one set. -/
def accs (v : BitVec 160) : Accs := [[v]]

theorem witness_SingleReadGivesTheVerdict :
    (({ park := parked 2 } : Port).open_.any (fun x => x.desc.seq = 1) = true ∧ (({ park := parked 2 } : Port).dueSingle).map (fun x => x.desc.seq) = some 0) ∧
    (((port { park := [done] }).wce.ports.at 0).park.any (fun x => x.reading && !x.member) = false ∧
      ((port { park := [done] }).wce.ports.at 0).park.find? (fun x => !x.reading && !x.member) = some done ∧ done.side.cause = 0 ∧ done.side.cycles = tileK done.desc ∧ descCause done.desc = 0) ∧
    (((port { park := [reading] }).wce.ports.at 0).park.find? (fun y => y.reading && !y.member) = some reading ∧ ((port { park := [reading] }).wce.ports.at 0).caught.contains reading.exec = false ∧
      reading.side.cause = 0 ∧ reading.tagBad = false ∧ reading.side.low = false ∧ reading.side.special = false ∧ highP reading.desc reading.side = false) ∧
    (({ reading.side with low := true } : Side).low = true ∧ ({ reading.side with special := true } : Side).special = true ∧ ({ reading.side with cause := 3 } : Side).cause ≠ 0 ∧
      highP reading.desc { reading.side with high := some 155 } = true ∧ highP reading.desc { reading.side with high := some 154 } = false ∧ ({ reading with tagBad := true } : Tile).tagBad = true) := by decide

/-- No difference without a set accumulator, one in row 0 with it. -/
theorem witness_SingleReadGivesTheVerdict_differ :
    rowDiffs reading.side.y (tapRows (accs 1) (tileAnchor reading.desc) (vector64 reading.rho.toNat)) ≠ [] ∧
    rowDiffs reading.side.y (tapRows [] (tileAnchor reading.desc) (vector64 reading.rho.toNat)) = [] := by decide +kernel

def closing : Group := { group with closing := true, members := 1, read := 1, y := List.replicate 64 0, bsum := [] }

theorem witness_GroupsAreCheckedAtTheirClose :
    (let x : Tile := { member with reading := true }; let p := (port { park := [x], group := some group }).wce.ports.at 0
     p.park.find? (fun y => y.reading && y.member) = some x ∧ p.group = some group ∧ x.side.cause = 0 ∧ x.tagBad = false ∧ (p.park.erase x).any (fun y => y.member) = false ∧
      p.caught.contains x.exec = false ∧ x.side.low = false ∧ x.side.special = false ∧ (x.side.low || x.side.special || highP x.desc x.side) = false ∧
      (({ x.side with low := true } : Side).low || x.side.special || highP x.desc x.side) = true) ∧
    (((port { group := some closing }).wce.ports.at 0).group = some closing ∧ closing.closing = true ∧ closing.read = closing.members ∧
      ((port { group := some closing }).wce.ports.at 0).caught.contains (closing.ctx, closing.pass, closing.replay) = false) := by decide

theorem witness_GroupsAreCheckedAtTheirClose_agree : rowDiffs closing.y (groupZ closing) = [] ∧ rowDiffs (closing.y.set 0 1) (groupZ closing) ≠ [] := by decide +kernel

theorem witness_OperandBlanksAreChecked :
    (let p := (port { cur := some tile }).wce.ports.at 0
     (port {}).keyOf 0 = some 12345 ∧ p.tileOf 0 4 = some tile ∧ p.tracked tile.exec 9 = none ∧ (p.blanks.filter (fun k => (k.exec.1 ≠ 0 || k.exec = tile.exec) && !k.done)).length < 16 ∧
      tile.side.cause = 0 ∧ tile.tagBad = false ∧ p.cur = some tile ∧ tile.desc.ctx = 0 ∧ tile.desc.seq = 4 ∧ (port {}).isolated 0 = false ∧ isPoison (tagState (mkTag 2 0)) = true ∧
      isPoison (tagState (mkTag 0 0)) = false) ∧
    ((port { park := [tile] }).wce.ports.at 0).tileOf 0 4 = some tile ∧
    (let p := (port { watched := some tile }).wce.ports.at 0; p.watched = some tile ∧ p.tileOf 0 4 = some tile ∧ p.caught.contains tile.exec = false) ∧
    (({ tile with tagBad := true } : Tile).tagBad = true ∧ ({ tile with side := { cause := 4 } } : Tile).side.cause ≠ 0) ∧
    (let k : Tracker := { exec := tile.exec, blank := 9, done := true }; let p := (port { cur := some tile, blanks := [k] }).wce.ports.at 0
     p.tileOf 0 4 = some tile ∧ p.tracked tile.exec 9 = some k ∧ k.done = true) := by decide +kernel

theorem witness_OperandBlanksAreChecked_holds :
    tagMatches 12345 ((List.range 1024).map (fun i => [1].getD i 0)) (mkTag 0 12345) = true ∧ tagMatches 12345 ((List.range 1024).map (fun i => [1].getD i 0)) (mkTag 0 0) = false := by
  decide +kernel

/-- Slices changed in the brought-up engine. -/
def slices (w : Wce) : State := { ready with wce := w }
def inReset (held : BitVec 5) : State := slices { slices := ({} : Wce).slices.upd 3 (fun x => { x with state := .reset, heldBy := held }) }
/-- A reset of row 3 is in progress. -/
def heldBack : State := { ready with pwr := { ready.pwr with resets := [{ domain := 9, index := 3, from_ := 5 }] } }
/-- The engine in VS1. -/
def asleepLess : State := { ready with pwr := { ready.pwr with vs := .vs1, ready := false } }
def lent : Wce := { slices := ((({} : Wce).slices.upd 23 (fun x => { x with state := .idle, heldBy := 24, row := 31 })).upd 24 (fun x => { x with state := .serving, row := 23 })), reason := 4 }

theorem witness_SliceHandovers :
    (ready.gate (sliceCtrlOff (rowSlice 0)) = .carry ∧ (ready.wce.slices.at (rowSlice 0)).state = .serving ∧ ready.standbyFree = true ∧ ready.gate (sliceCtrlOff (rowSlice 23)) = .carry) ∧
    ((slices lent).gate (sliceCtrlOff (rowSlice 23)) = .carry ∧ ((slices lent).wce.slices.at (rowSlice 23)).state = .idle ∧ ((slices lent).wce.slices.at (rowSlice 23)).heldBy = 24 ∧ (slices lent).wce.handover = none) ∧
    ((slices { handover := some { row := 23, away := true, reason := 4 } }).wce.handover = some { row := 23, away := true, reason := 4 } ∧ ready.wce.orders = []) ∧
    ((slices { handover := some { row := 23, away := false, reason := 3 } }).wce.handover = some { row := 23, away := false, reason := 3 } ∧ ready.wce.orders = []) ∧
    (((slices lent).wce.slices.at (rowSlice 23)).state ≠ .serving ∧ (slices lent).standbyFree = false ∧ (ready.wce.slices.at (rowSlice 0)).state ≠ .idle ∧
      (heldBack.gate (sliceCtrlOff (rowSlice 3)) = .carry ∧ heldBack.sliceHeld (rowSlice 3) = true ∧ (heldBack.wce.slices.at (rowSlice 3)).state ≠ .retired) ∧ asleepLess.pwr.vs ≠ .vs0 ∧ asleepLess.gate (sliceCtrlOff 24) = .carry) := by decide

def sbBusy : State := slices { slices := ({} : Wce).slices.upd 24 (fun x => { x with state := .serving, row := 5 }) }

theorem witness_SliceAndPortResets :
    (sbBusy.testOf (rowSlice 3) = none ∧ ready.testOf (rowSlice 3) = none ∧ ready.testOf standby = none ∧ ready.heldRow = none ∧ sbBusy.gate (sliceCtrlOff (rowSlice 3)) = .carry ∧ sbBusy.mayResetSlice (rowSlice 3) = true ∧ (sbBusy.wce.slices.at (rowSlice 3)).state = .serving ∧ sbBusy.standbyFree = false) ∧
    (ready.gate (sliceCtrlOff (rowSlice 3)) = .carry ∧ ready.mayResetSlice (rowSlice 3) = true ∧ (ready.wce.slices.at (rowSlice 3)).state = .serving ∧ ready.standbyFree = true) ∧
    (((inReset 24).wce.slices.at (rowSlice 3)).state = .reset ∧ ((inReset 24).wce.slices.at (rowSlice 3)).heldBy = 24 ∧ (inReset 24).wce.orders = [] ∧ (inReset 24).wce.handover = none ∧ (inReset 24).xing.waits = [] ∧
      ((inReset 3).wce.slices.at (rowSlice 3)).heldBy ≠ 24 ∧ (inReset 3).wce.orders = [] ∧ ({ (inReset 24).wce with reason := 2 } : Wce).reason = 2) ∧
    (ready.gate (sliceCtrlOff 24) = .carry ∧ ready.mayResetSlice 24 = true ∧ (ready.wce.slices.at 24).state = .idle) ∧
    (let w : XingWait := { src := .host, off := 0x200000 + 0x10000 * 3, acc := .read, domain := 1, row := some 3 }
     let s : State := { inReset 3 with xing := { waits := [w] } }
     s.xing.waits = [w] ∧ (w.domain, w.row) = (RegAt.wceSliceStatus (rowSlice 3)).domain ∧ s.clockStopped (w.domain, w.row) = false ∧ regAt w.off = some (.wceSliceStatus (rowSlice 3)) ∧
      w.timedOut = false ∧ w.acc = .read) ∧
    (ready.gate (portCtrlOff 623) = .carry ∧ ready.portInReset 623 = false) := by decide

/-- A slice under test. -/
def underTest (n : Slice) (why : BitVec 3) : State := slices { testing := [(n, why)] }

theorem witness_SliceSelfTests :
    (ready.gate (sliceCtrlOff 24) = .carry ∧ ready.pwr.vs = .vs0 ∧ (ready.wce.slices.at 24).state = .idle) ∧
    (ready.gate (sliceCtrlOff (rowSlice 23)) = .carry ∧ (ready.wce.slices.at (rowSlice 23)).state = .serving ∧ ready.standbyFree = true) ∧
    (ready.wce.interval ≠ 0 ∧ (ready.fwp.procs.at 5).state = .run ∧ (0 : Row).val < ready.rows ∧ ready.wce.nextTurn = (0 : Row).val ∧ (ready.wce.slices.at (rowSlice 0)).state = .serving) ∧
    (sbBusy.wce.interval ≠ 0 ∧ (sbBusy.fwp.procs.at 5).state = .run ∧ sbBusy.pwr.vs = .vs0 ∧ sbBusy.standbyFree = false ∧ (0 : Row).val < sbBusy.rows ∧
      sbBusy.wce.nextTurn = (0 : Row).val ∧ (sbBusy.wce.slices.at (rowSlice 0)).state = .serving ∧ sbBusy.rowDeclaredIdle 0 3200000 = true) ∧
    (∀ why, (underTest (rowSlice 0) why).testOf (rowSlice 0) = some why ∧ (underTest (rowSlice 0) why).wce.orders = []) ∧
    (let s := underTest (rowSlice 0) 5; (s.wce.slices.at (rowSlice 0)).heldBy ≠ 24 ∧ (s.wce.slices.at (rowSlice 0)).heldBy ≠ 31 ∧ s.standbyFree = true ∧ s.heldRow = none ∧ s.rowInReset 0 = false) ∧
    ((underTest standby 4).testOf standby = some 4 ∧ (4 : BitVec 3) ≠ 5 ∧ (underTest standby 4).wce.orders = []) := by decide

/-! ## Witnesses: shadow passes and passes -/

def cmp (a b : BitVec 61) (r : Option (Arr × BitVec 61)) : Compare := { pass := 7, replay := 0, logical := 1, cls := 2, kind := .sample, shadow := 24, primaryFp := a, shadowFp := b, referee := r }

/-- The replay after the shadow catch of the comparison, which it has decided or not. -/
def refereed (settled : Bool) : State := put ready 0 { runs planA with
  pass := { (runs planA).pass with replay := 1 }, exec := { (runs planA).exec with caught := [{ slot := cmp 1 2 none, replay := 0, settled }] } }

theorem witness_ShadowComparisonsAreDecided :
    (busy.named 0 7 0 = .current ∧ (busy.ctx 0).refereeRun (cmp 1 2 none) = false ∧ (busy.ctx 0).refereeRun (cmp 1 1 none) = false) ∧
    (∀ b, (refereed b).named 0 7 1 = .current ∧ ((refereed b).ctx 0).refereeRun { cmp 1 2 (some (25, 2)) with replay := 1 } = true ∧
      ((refereed b).ctx 0).exec.settledSlot { cmp 1 2 (some (25, 2)) with replay := 1 } = b ∧ ((refereed b).ctx 0).refereeRun { cmp 1 2 none with replay := 1 } = true) ∧
    (busy.named 0 6 0 = .committed 6 ∧ busy.named 0 7 5 = .aborted) ∧ ((cmp 1 2 (some (25, 2))).referee = some (25, 2) ∧ (cmp 1 2 (some (25, 1))).referee = some (25, 1) ∧
      (cmp 1 2 (some (25, 3))).referee = some (25, 3) ∧ (cmp 1 2 none).referee = none) := by decide

def offered : State := put ready 0 { runs planA with cov := { offers := [(0, 0, 1), (0, 1, 2)] } }

theorem witness_VoidTilesAndChases :
    (busy.planOf 0 = some planA ∧ busy.logicalOf 0 = some 0 ∧ busy.deciding 0 = true ∧ planA.rotates = true ∧ planA.core.owned.any (fun o => o.logical = 0 ∧ o.role = 0) = true ∧ (8 : BitVec 48) ≠ (busy.ctx 0).pass.index) ∧
    (offered.planOf 0 = some planA ∧ (offered.ctx 0).pass.st = .running ∧ planA.chaseOver 0 (offered.ctx 0).pos.offset.toNat = false ∧ planA.chaseOver 0 900 = true ∧
      planA.cover.chase.find? (fun k => k.row = (0 : Row).val) = some ⟨0, 2, 0, 900, 100⟩ ∧ offered.endOf 0 = some 1000 ∧ ((offered.ctx 0).cov.chases.filter (fun o => o.1 = 0)).length < planA.chaseSlots 0 ∧
      chaseNext planA (offered.ctx 0).pos.position (offered.ctx 0).cov 0 (offered.shd.rows.at 0).chased = some (0, 0, 1)) ∧
    chaseNext planA (busy.ctx 0).pos.position (busy.ctx 0).cov 0 (busy.shd.rows.at 0).chased = none ∧ ready.gate 0x004200 = .carry := by decide

/-- Context 1 with its notices in, its barrier released and the commit arrived at its arrays. -/
def startable : State := put ready 1 { atRest planP with
  exec := { (atRest planP).exec with got := [0, 1, 2] }, bar := { released := true, notices := [(3, 7)] } }

theorem witness_ExecutionsStartAndEnd :
    (startable.planOf 1 = some planP ∧ startable.mayStart 1 planP = true ∧ (∀ r, planP.usesRow r = true → (startable.shd.rows.at r).ready = true ∧ 0 < (startable.shd.rows.at r).freeSpares)) ∧
    (busy.planOf 1 = some planP ∧ busy.mayStart 1 planP = false) ∧ (busy.planOf 0 = some planA ∧ (busy.ctx 0).pass.st = .running) ∧
    (planP.core.lockstep = true ∧ (busy.ctx 1).lsc.partner = none ∧ planA.core.lockstep = false ∧ (busy.ctx 0).exec.injected = false ∧ (busy.ctx 0).pass.holdFw = false) ∧
    (let x : CtxSt := { ended planA with exec := { (ended planA).exec with collected := false } }
     (put ready 0 x).planOf 0 = some planA ∧ x.exec.ended = true ∧ x.exec.collected = false ∧ x.exec.injected = false ∧ planA.extra.pair = none) := by decide

/-- Context 0 with its pass 7 ended, changed. -/
def endedWith (f : ExecSt → ExecSt) : State := put ready 0 { ended planA with exec := f (ended planA).exec }
def needing : Plan := { planA with core := { planA.core with counts := [⟨0, 0, 0, 1, 0, 0, 0⟩] } }
def slotted : Plan := { planA with cover := { planA.cover with slots := [⟨0, 0, 0, 1, 1, 0, 0, 0, 0⟩] } }
def late (k : Option AbortCause) : State :=
  put ready 0 { ended planA with pass := { (ended planA).pass with st := .held, holdFw := true }, exec := { (ended planA).exec with token := 3, tokenWait := true, cause := k } }

theorem witness_TheCommitDecision :
    (let s := endedWith id
     s.planOf 0 = some planA ∧ (s.ctx 0).exec.ended = true ∧ (s.ctx 0).exec.injected = false ∧ (s.ctx 0).exec.collected = true ∧ (s.ctx 0).exec.cause = none ∧ s.tileShort 0 planA = none ∧
      (s.ctx 0).compareOwing planA = none ∧ (s.ctx 0).exec.poison = 0 ∧ planA.core.lockstep = false ∧ s.tokenMissing 0 = false ∧ (s.ctx 0).exec.stopAfter = none) ∧
    ((endedWith (fun e => { e with cause := some { reason := 1, unit := 0 } })).ctx 0).exec.cause = some { reason := 1, unit := 0 } ∧
    (put ready 0 (ended needing)).tileShort 0 needing = some 0 ∧ (put ready 0 (ended slotted)).tileShort 0 slotted = none ∧ (ended slotted).compareOwing slotted = some (0, 1) ∧ ((endedWith (fun e => { e with poison := 1 })).ctx 0).exec.poison ≠ 0 ∧
    (let s := endedWith (fun e => { e with token := 7 }); s.tokenMissing 0 = true ∧ (s.ctx 0).exec.tokenWait = false ∧ (s.ctx 0).pass.st = .boundary) ∧
    ((late none).planOf 0 = some planA ∧ ((late none).ctx 0).exec.ended = true ∧ ((late none).ctx 0).exec.injected = false ∧ ((late none).ctx 0).exec.tokenWait = true ∧ (late none).tokenMissing 0 = true ∧
      (late none).tileShort 0 planA = none ∧ ((late none).ctx 0).compareOwing planA = none ∧ ((late none).ctx 0).exec.poison = 0 ∧ ((late none).ctx 0).pass.st = .held ∧
      ((late none).ctx 0).pass.index.toNat + 1 ≤ (8 : BitVec 48).toNat ∧ ((late none).ctx 0).exec.stopAfter = none) ∧
    (let k : AbortCause := { reason := 1, unit := 0 }; ((late (some k)).ctx 0).exec.tokenWait = true ∧ (late (some k)).tokenMissing 0 = true ∧ ((late (some k)).ctx 0).exec.cause = some k) := by decide

def aborting (f : CtxSt → CtxSt) : State := put ready 0 (f { ended planA with
  pass := { (ended planA).pass with st := .aborting }, exec := { (ended planA).exec with injected := true, quiet := [0, 1, 2] } })
def flit (v : Verdict) : VerdictFlit := { ctx := 0, port := uPort 0, seq := 4, verdict := v, covers := 1, voids := 0, reason := 0, replay := 0, passLow := 7 }

theorem targets_of_planA : (aborting id).fenceTargets 0 = [0x0000, 0x0001, 0x5000, 0x0002] := by decide +kernel

theorem witness_ReportsDrainsAndReplays_last : ∀ w ∈ (aborting id).fenceTargets 0, w = 0x5000 ∨ ((aborting id).ctx 0).exec.quiet.contains w = true := by
  have q : ((aborting id).ctx 0).exec.quiet = [0, 1, 2] := by decide
  intro w hw
  rw [targets_of_planA] at hw
  rw [q]
  simp only [List.mem_cons, List.not_mem_nil, or_false] at hw
  rcases hw with rfl | rfl | rfl | rfl <;> decide

theorem witness_ReportsDrainsAndReplays :
    ((busy.fenceTargets 0).contains 0x5000 = true ∧ busy.deciding 0 = true ∧ (busy.ctx 0).exec.fenced.contains 0x5000 = false) ∧
    ((busy.fenceTargets 1).contains 0x5000 = true ∧ (busy.ctx 1).exec.committed = true ∧ (busy.ctx 1).exec.got.contains 0x5000 = false) ∧
    (((aborting id).fenceTargets 0).contains (uArr 0) = true ∧ ((aborting id).ctx 0).exec.committed = false ∧ ((aborting id).ctx 0).pass.st = .aborting) ∧
    ((flit .clean).port = uPort 0 ∧ busy.named 0 (busy.passOf 0 (flit .clean).passLow) 0 = .current ∧ busy.named 0 (busy.passOf 0 6) 0 = .committed 6 ∧ busy.named 0 (busy.passOf 0 7) 1 = .aborted ∧
      (flit .notProduced).verdict = .notProduced) ∧
    (((aborting id).fenceTargets 0).contains 0x5000 = true ∧ ((aborting id).ctx 0).exec.quiet.contains 0x5000 = false ∧ ((aborting id).ctx 0).exec.stopAfter = none ∧ ((aborting id).ctx 0).pass.sinceStart ≠ 3 ∧
      (aborting id).aon.refOk = true ∧ (aborting id).notQuiet 0 = some 0x5000) ∧
    ((aborting (fun x => { x with pass := { x.pass with sinceStart := 3 } })).ctx 0).pass.sinceStart = 3 ∧
    ((aborting (fun x => { x with exec := { x.exec with stopAfter := some 0x500C } })).ctx 0).exec.stopAfter = some 0x500C ∧
    (let s := aborting (fun x => { x with pass := { x.pass with st := .boundary }, exec := { x.exec with replayDue := true } })
     (s.ctx 0).exec.replayDue = true ∧ (s.ctx 0).exec.replaySent = false ∧ (s.ctx 0).exec.startOut = false ∧ (s.ctx 0).pass.st = .boundary ∧ (s.fwp.procs.at (pcOf (s.home 0))).state ≠ .restarting ∧ (s.ctx 0).exec.used = some 0) ∧
    (let s := aborting (fun x => { x with pass := { x.pass with st := .boundary }, exec := { x.exec with replayDue := true, startOut := true } })
     s.planOf 0 = some planA ∧ (s.ctx 0).exec.startOut = true ∧ (s.ctx 0).exec.replayDue = true ∧ (s.ctx 0).exec.replaySent = false) := by decide

theorem witness_DriverCommandsToAContext :
    (busy.gate (passCtrlOff 31) = .carry ∧ busy.gate (passCtrlOff 0) = .carry ∧ busy.idleCtx 0 = false ∧ (busy.ctx 0).pass.st = .running ∧ busy.deciding 0 = true ∧ (busy.ctx 0).pass.st ≠ .aborting) ∧
    ((busy.ctx 1).pass.st = .boundary ∧ (busy.ctx 1).exec.injected = true ∧ busy.idleCtx 1 = false ∧ busy.deciding 1 = false ∧ busy.aon.refOk = true) ∧
    (let s := put ready 0 { atRest planA with pass := { (atRest planA).pass with st := .held, driverHold := true } }
     s.gate (passCtrlOff 0) = .carry ∧ (s.ctx 0).pass.st = .held ∧ (s.ctx 0).pass.driverHold = true ∧ (s.ctx 0).pass.holdFw = false ∧ (s.ctx 0).pass.holdDigest = false ∧ s.subWait 0 = false) ∧
    (let s := put ready 0 { atRest planA with pass := { (atRest planA).pass with st := .aborting } }; s.gate (passCtrlOff 0) = .carry ∧ (s.ctx 0).pass.st = .aborting ∧ s.deciding 0 = false) ∧
    busy.mayRestart 2 = true ∧ busy.mayRestart 0 = false ∧ busy.idleCtx 31 = true ∧ ((busy.ctx 0).pass.st ≠ .held ∧ (busy.ctx 0).pass.driverHold = false) := by decide

def ordered (o : SubOrder) : State := { busy with fst := { orders := [o] }, ctxs := busy.ctxs.upd 0 (fun _ => atRest planA) }

/-- MC is to declare array 23, which serves logical position 23 of row 0, lasting. -/
def declaring : State := { ordered { row := 1, col := 0, spare := 31 } with fst := { histQ := [{ unit := uArr 23, act := .declare 4, event := 0xD001, opsec := 50 }] } }

theorem witness_SubstitutionAtABoundary_ordered :
    declaring.fst.histQ = { unit := uArr 23, act := .declare 4, event := 0xD001, opsec := 50 } :: [] ∧ declaring.fst.declared (uArr 23) = false ∧ (declaring.proc mc).state = .run ∧
    declaring.logicalOf 23 = some 23 ∧ declaring.spareFor (rowOf 23) = true ∧ declaring.planOf 0 = some planA ∧ planA.usesRow (rowOf 23) = true ∧ (declaring.ctx 0).exec.injected = true ∧
    (declaring.ctx 0).pass.st = .boundary := by decide

theorem witness_SubstitutionAtABoundary :
    (let o : SubOrder := { row := 0, col := 23, spare := 31 }
     (ordered o).fst.orderOf 0 = some o ∧ o.issued = false ∧ (ordered o).rowAtBoundary 0 = true ∧ (ordered o).rowInReset 0 = false ∧ (∃ sp, ((ordered o).sparesOf 0).head? = some sp)) ∧
    busy.rowAtBoundary 0 = false ∧
    (let o : SubOrder := { row := 0, col := 23, spare := 25, issued := true }
     (ordered o).fst.orders = [o] ∧ o.issued = true ∧ o.redo = false ∧ o.col < 24 ∧ o.spare < 26 ∧ ((ordered o).shd.rows.at 0).place.length = 24 ∧ ((ordered o).shd.rows.at 0).lendTo = 31 ∧
      2 ≤ ((ordered o).shd.rows.at 0).freeSpares ∧ o.spare ≠ ((ordered o).shd.rows.at 0).place.getD o.col 0 ∧ (ordered o).fst.orderOf 0 = some o ∧ (ordered o).aon.refOk = true) := by
  refine ⟨⟨by decide, by decide, by decide, by decide, ?_⟩, by decide, by decide⟩
  cases h : ((ordered { row := 0, col := 23, spare := 31 }).sparesOf 0).head?
  · exact absurd h (by decide)
  · exact ⟨_, rfl⟩

/-! ## Witnesses: Spindle and lock-step -/

def synced (f : Spn → Spn) : State := { busy with spn := f { busy.spn with up := 3, joined := true, chip := 7 } }

theorem witness_TickAlignmentAndNotices :
    ((synced id).syncLink = some 3 ∧ (synced id).hasLink 23 = true ∧ ((synced id).lgtu.at 23).fenced = false ∧ (synced id).spn.joined = true ∧ (synced id).startPending = false) ∧
    (let s := synced (fun x => { x with sentTick := 9980000 })
     let at_ (rx tx : BitVec 64) : Int := ((tick16 s.spn.sentTick s.spn.sentFrac - tick16 rx 0) + (tick16 s.time.tick s.time.frac - tick16 tx 0)) / 2
     (s.syncLink = some 3 ∧ at_ 9980000 9980000 = 160000 ∧ at_ 9979999 9979999 = 160016 ∧ at_ 10000000 10000000 = -160000 ∧ at_ 10000001 10000001 < -160000 ∧ s.startPending = false)) ∧
    ((synced (fun x => { x with joined := false })).spn.joined = false ∧ (synced (fun x => { x with joined := false })).syncLink = some 3) ∧
    (put (synced id) 1 { (synced id).ctx 1 with bar := { state := 2, startAt := some 99 } }).startPending = true ∧
    (ready.gate 0x600008 = .carry ∧ (synced id).spn.master = false ∧ (synced id).spn.up ≠ 31 ∧ ready.loadedCtxs = [] ∧ busy.loadedCtxs ≠ [] ∧
      (let s : State := { ready with time := { ready.time with tick := 0x40000000 } }; s.time.high ≠ (s.time.tick >>> 30).setWidth 34)) ∧
    (busy.planOf 1 = some planP ∧ (busy.ctx 1).missingNotice planP = some ⟨0, 3, 1, 0⟩ ∧ (busy.ctx 1).pass.st = .boundary ∧ busy.deciding 1 = false ∧ busy.aon.refOk = true) := by decide

/-- Context 0 of the group, this chip its master (7) or a member (9), at its barrier. -/
def barrier (chip : BitVec 12) (b : BarSt) : State :=
  { put ready 0 { atRest planA with pos := { position := 1 }, exec := { (atRest planA).exec with got := [0, 1, 2] }, bar := b } with spn := { ready.spn with chip := chip } }

theorem witness_HeadstockBarriers :
    (let s := barrier 7 {}
     s.planOf 0 = some planA ∧ (s.ctx 0).pass.st = .boundary ∧ (s.ctx 0).exec.injected = true ∧ (s.ctx 0).needsBarrier planA = true ∧ (s.ctx 0).bar.waiting = false ∧ (s.ctx 0).bar.released = false ∧
      s.commitArrived 0 = true ∧ (s.ctx 0).noticesIn planA = true ∧ s.loadAllows 0 = true ∧ s.isMaster 0 = true ∧ s.otherMembers 0 = [9] ∧ s.routesOf 0 9 = [0, 1]) ∧
    ((barrier 9 { armSeen := true }).isMaster 0 = false ∧ ((barrier 9 { armSeen := true }).ctx 0).bar.armSeen = true ∧ (barrier 9 {}).ctxOfGroup 5 = some 0 ∧ (barrier 9 {}).isMaster 0 = false ∧
      ((barrier 9 {}).ctx 0).bar.state ≠ 1 ∧ ((barrier 9 {}).ctx 0).bar.state ≠ 2 ∧ ((barrier 9 {}).ctx 0).bar.armSeen = false ∧ ((barrier 9 {}).ctx 0).bar.waiting = false) ∧
    (let s := barrier 7 { state := 1, waiting := true }
     s.ctxOfGroup 5 = some 0 ∧ s.isMaster 0 = true ∧ (s.ctx 0).bar.state = 1 ∧ (s.otherMembers 0).contains ((9 : BitVec 12).setWidth 16) = true ∧ (s.pairOf 0).isSome = false ∧
      s.missingMember 0 (s.ctx 0).bar.armed = some 9 ∧ (s.ctx 0).bar.waiting = true ∧ (s.ctx 0).bar.attempts ≠ 2) ∧
    ((barrier 9 { state := 1 }).ctxOfGroup 5 = some 0 ∧ (barrier 9 { state := 1 }).isMaster 0 = false ∧ ((barrier 9 { state := 1 }).ctx 0).bar.state = 1 ∧ ((barrier 9 { state := 1 }).ctx 0).bar.coming.attempts ≠ 3 ∧
      (3 : BitVec 4) ≠ 4 ∧ ((barrier 9 { state := 1, attempts := 3 }).ctx 0).bar.coming.attempts = 3 ∧ (barrier 9 { state := 1, attempts := 3 }).aon.refOk = true ∧ ((barrier 9 { state := 3, attempts := 3 }).ctx 0).bar.coming.attempts ≠ 3 ∧
      ((barrier 9 { state := 3 }).ctx 0).bar.state = 3 ∧ ((barrier 9 { state := 3 }).ctx 0).bar.split = false ∧ (barrier 9 { state := 3 }).aon.refOk = true ∧ ((barrier 9 { state := 3, split := true }).ctx 0).bar.split = true) ∧
    (let s := barrier 7 { state := 2, startAt := some 99 }
     s.isMaster 0 = true ∧ (s.ctx 0).bar.state = 2 ∧ s.missingMember 0 (s.ctx 0).bar.acked = some 9 ∧ (s.ctx 0).bar.attempts ≠ 2) ∧
    (let s := barrier 7 { state := 2, startAt := some 99, acked := [9] }
     (s.ctx 0).bar.state = 2 ∧ (s.ctx 0).bar.startAt = some 99 ∧ s.isMaster 0 = true ∧ s.missingMember 0 (s.ctx 0).bar.acked = none) := by decide

/-- The masters of a group of three: with member 11 still out, the one that arms last decides. -/
theorem witness_HeadstockBarriers_armed :
    (let s := barrier 7 { state := 1 }; ∀ m ∈ s.otherMembers 0, m = (9 : BitVec 12).setWidth 16 ∨ m ∈ (s.ctx 0).bar.armed) ∧
    (let p : Plan := { planA with extra := { planA.extra with members := [⟨7, 0, 1⟩, ⟨9, 0, 1⟩, ⟨11, 0, 1⟩] } }
     let s := put (barrier 7 {}) 0 { (barrier 7 { state := 1 }).ctx 0 with plan := { active := some p } }
     ∃ m ∈ s.otherMembers 0, m ≠ (9 : BitVec 12).setWidth 16 ∧ m ∉ (s.ctx 0).bar.armed) := by
  have h : (barrier 7 { state := 1 }).otherMembers 0 = [9] := by decide
  refine ⟨?_, 11, by decide, by decide, by decide⟩
  intro s m hm
  rw [show s.otherMembers 0 = [9] from h] at hm
  simp only [List.mem_cons, List.not_mem_nil, or_false] at hm
  exact .inl (by subst hm; rfl)

/-- Context 1 of the pair in the pass whose digest it has formed, or in the hunt. -/
def paired (l : LscSt) : State := { put ready 1 { ended planP with lsc := l } with jobMap := [⟨0, 0x40000000, 0, 0⟩] }
def digest (d : BitVec 61) : DigestFrame := { ctx := 1, round := 0, replay := 0, pass := 7, n := 0, pairCheck := 0x1234, digest := d, segments := 0 }

theorem witness_LockStepDigestsAndHunt :
    (let s := paired { own := some 5 }
     (∃ pr, s.pairOf 1 = some pr ∧ (digest 5).pairCheck = pr.check ∧ ({ digest 5 with pairCheck := 0 } : DigestFrame).pairCheck ≠ pr.check) ∧ s.idleCtx 1 = false ∧ (digest 5).pass = (s.ctx 1).pass.index ∧
      (digest 5).round = (s.ctx 1).lsc.round ∧ (s.ctx 1).lsc.own = some 5 ∧ (digest 6).digest ≠ 5 ∧ s.deciding 1 = true ∧ (s.ctx 1).lsc.own ≠ none ∧ (s.ctx 1).lsc.equal = false ∧
      (s.ctx 1).lsc.partner = none ∧ (s.ctx 1).exec.injected = false ∧ ({ digest 5 with pass := 6 } : DigestFrame).pass ≠ (s.ctx 1).pass.index ∧
      ({} : LscSt).contradicts { digest 5 with pass := 6 } = false ∧ ({ past := some (6, 0, 9) } : LscSt).contradicts { digest 5 with pass := 6 } = true) ∧
    (let s := paired { hunt := true }; let s := put s 1 { s.ctx 1 with exec := { (s.ctx 1).exec with collected := false } }
     s.planOf 1 = some planP ∧ planP.extra.pair = some ⟨7, 1, 0, 1, 0x1234, 0⟩ ∧ (s.ctx 1).exec.ended = true ∧ (s.ctx 1).exec.collected = false ∧ (s.ctx 1).exec.injected = false ∧ (s.ctx 1).lsc.hunt = true ∧
      ∀ i : Fin 8, s.enginePlace (0 + i.val) = some (0, i.val)) ∧
    (let s := paired { segment := some 0, area := [1, 2] }
     s.planOf 1 = some planP ∧ (s.ctx 1).lsc.segment = some 0 ∧ firstDiff (((s.ctx 1).lsc.area.drop (4096 * 0)).take 4096) [1, 3] = some 1) ∧
    (let s := paired { locus := some (1, 3) }
     (s.ctx 1).lsc.locus = some (1, 3) ∧ s.deciding 1 = true ∧ s.huntReferee 1 = some (arrOf 0 25) ∧
      ({ s with shd := { s.shd with rows := Vector.replicate 24 { ready := true } } } : State).huntReferee 1 = none ∧ ¬ ((3 : BitVec 61) = 2 ∧ (2 : BitVec 61) = 3) ∧ ¬ ((2 : BitVec 61) = 3 ∧ (3 : BitVec 61) = 3)) ∧
    ((∃ pr, busy.pairOf 1 = some pr) ∧ busy.idleCtx 1 = false ∧ busy.deciding 1 = false ∧ (busy.ctx 1).pass.st ≠ .aborting ∧ busy.aon.refOk = true) := by
  refine ⟨⟨⟨_, rfl, by decide, by decide⟩, by decide⟩, by decide, by decide, by decide, ⟨_, rfl⟩, by decide, by decide, by decide, by decide⟩

theorem witness_LockStepDigestsAndHunt_word : digestFrame (digestWord (digest 5)) = some (digest 5) ∧ digestFrame (digestWord { digest 6 with pass := 6 }) = some { digest 6 with pass := 6 } := by
  decide +kernel

/-- No segment of an empty hunt area, one digest from the partner. -/
theorem witness_LockStepDigestsAndHunt_segment :
    let s := paired { sentSegs := true }
    s.planOf 1 = some planP ∧ (s.ctx 1).lsc.sentSegs = true ∧ firstDiff (segmentDigests (digestKey planP.core.seed (s.ctx 1).pass.index) (s.ctx 1).lsc.area) [1] = some 0 := by
  exact ⟨by decide, by decide, by decide +kernel⟩

/-! ## Witnesses: provenance and plans -/

/-- A span of context 0 whose last leaf is on core 7. -/
def span0 : Span := { plan := planA, busy := [(0, 0)] }
def hashed : State := { busy with jobMap := [⟨0, 0x40000000, 0, 0⟩], prv := { cores := Vector.ofFn (fun i => if i = 7 then some (span0.id, 0, 0) else none), spans := [span0] } }

theorem witness_ProvenanceRecordsAndFetches :
    (hashed.prv.cores = Vector.ofFn (fun i => if i = 7 then some (span0.id, 0, 0) else none) ∧ hashed.prv.spans = [span0] ∧ span0.todo = [] ∧ span0.busy = [(0, 0)] ∧
      (∀ c, (hashed.ctx c).prv.stalled = false) ∧ (leafBytes hashed span0 0 0 ⟨[], []⟩).2.1 = false ∧ (leafBytes hashed span0 0 0 ⟨[], [0]⟩).2.1 = true) ∧
    (let s := put ready 31 { prv := { lastSeq := 9, ackSeq := 8 } }
     let x := (s.ctx 31).prv
     s.gate (0x700200 + 8 * (31 : Ctx).val) = .carry ∧ x.lastSeq ≠ 0xFFFFFFFF ∧ (field (9 : Reg) 0 32 : BitVec 32) ≠ 0xFFFFFFFF ∧ seqDiff (field (9 : Reg) 0 32 : BitVec 32) x.lastSeq ≤ 0 ∧
      (x.ackSeq = 0xFFFFFFFF ∨ seqDiff x.ackSeq (field (9 : Reg) 0 32 : BitVec 32) ≤ 0) ∧ 0 < seqDiff (field (10 : Reg) 0 32 : BitVec 32) x.lastSeq) ∧
    (ready.ctx 31).prv.lastSeq = 0xFFFFFFFF ∧ ready.gate 0x700408 = .carry ∧ flag (0x2000000000 : Reg) 37 = true ∧
    (let s : State := { ready with prv := { ready.prv with going := true, selSeq := 4 } }
     s.prv.going = true ∧ (s.ctx (Fin.ofNat 32 s.prv.selCtx.toNat)).prv.ring.find? (fun e => e.1 = s.prv.selSeq) = none) ∧
    (let s : State := { put ready 0 { prv := { ring := [(4, 0x100400)] } } with prv := { ready.prv with going := true, selSeq := 4 } }
     s.prv.going = true ∧ (s.ctx (Fin.ofNat 32 s.prv.selCtx.toNat)).prv.ring.find? (fun e => e.1 = s.prv.selSeq) = some (4, 0x100400)) := by decide

def phased (x : CtxSt) (p : Phase) : State := put ready 0 { x with plan := { x.plan with phase := p } }

theorem witness_PlanCommands :
    (busy.gate (planCtrlOff 0) = .carry ∧ (busy.ctx 0).plan.phase = .none ∧ busy.loadsAccepted = true ∧ 0 ∉ busy.pln.queue ∧ (busy.ctx 2).plan.phase = .none ∧ (busy.ctx 2).pass.st = .stopped ∧
      busy.gate (planCtrlOff 2) = .carry) ∧
    ((phased (atRest planA) .queued).gate (planCtrlOff 0) = .carry ∧ ((phased (atRest planA) .queued).ctx 0).plan.phase = .queued ∧ ((phased (atRest planA) .pending).ctx 0).plan.phase = .pending ∧
      ((phased (atRest planA) .switching).ctx 0).plan.phase ≠ .none) ∧
    (let s := phased { atRest planA with pass := { (atRest planA).pass with st := .stopped } } .unloading; (s.ctx 0).plan.phase = .unloading ∧ s.copiesLeft 0 = 0) := by decide

/-- A SCREEN plan image of 136 bytes: PASSES with one position, ROUTES, SCREEN with pattern 0x0001 on array 0. -/
def screenImage : List Byte :=
  [86, 88, 80, 76, 1, 0, 3, 0, 136, 0, 0, 0, 1, 0, 5, 0, 8, 0, 8, 0, 0, 0, 0, 0, 0, 0, 0, 0, 2, 243, 254, 213,
   3, 0, 0, 0, 80, 0, 0, 0, 16, 0, 0, 0, 140, 3, 88, 80, 9, 0, 0, 0, 96, 0, 0, 0, 16, 0, 0, 0, 151, 50, 224, 233, 14, 0, 0, 0, 112, 0, 0, 0, 24, 0, 0, 0, 94, 103, 152, 221,
   1, 0, 8, 0, 1, 0, 0, 0, 0, 64, 0, 0, 0, 0, 0, 0, 1, 0, 8, 0, 0, 0, 0, 0, 2, 0, 8, 0, 0, 0, 0, 0, 1, 0, 16, 0, 1, 0, 0, 0, 0, 0, 0, 0, 1, 0, 0, 0, 100, 0, 0, 0, 0, 0, 0, 0]

def screenPlan : Plan := planIn screenImage {}
def loading (phase : Phase) (pend : Option Plan) : State :=
  { put ready 0 { plan := { phase, pend, kib := 1 } } with pln := { validating := if phase = .validating then some 0 else none }, jobMap := [⟨0, 0x40000000, 0, 0⟩] }

/-- The image as the memory delivers it where it stores zeros. -/
def read_ (b : List Byte) : JobRead := { flips := (List.range b.length).map (fun i => (i, b.getD i 0)), errors := [] }
def bytesOf (s : State) (r : JobRead) : List Byte := s.engineBytes (s.ctx 0).plan.from_.toNat (1024 * (s.ctx 0).plan.kib.toNat) r

/-- A plan in distribution whose last flit of its last section is on its way to array 0. -/
def distributing : State :=
  let s := loading .distributing (some planA); { s with pln := { s.pln with dists := [{ ctx := 0, todo := [], flit := some (4, 8, 5), owing := [uArr 0] }] } }

theorem witness_PlanValidationAndSwitch :
    ((loading .validating none).pln.validating = some 0 ∧ 0 ∉ (loading .validating none).pln.queue) ∧
    (∃ d, distributing.unitExists (uArr 0) = true ∧ (distributing.ctx 0).plan.pend = some planA ∧ distributing.distOf 0 = some d ∧ d.flit = some (4, 8, 5) ∧ d.owing.contains (uArr 0) = true ∧
      d.todo.any (fun f => f.1 = 4) = false ∧ d.owing.erase (uArr 0) = []) ∧
    (let d : Dist := { ctx := 0, todo := [(4, 8), (5, 0)], flit := some (4, 0, 5), owing := [uArr 0, uArr 1] }
     let s : State := { distributing with pln := { distributing.pln with dists := [d] } }
     s.distOf 0 = some d ∧ d.todo.any (fun f => f.1 = 4) = true ∧ d.owing.erase (uArr 0) ≠ [] ∧ ({ d with owing := [uArr 0] } : Dist).owing.erase (uArr 0) = []) ∧
    ((loading .pending (some screenPlan)).ctx 0).plan.owed = [] ∧ (let s := loading .pending (some screenPlan); let s := s.onPlan 0 (fun q => { q with owed := [uArr 0] }); (s.ctx 0).plan.owed ≠ [] ∧ (s.ctx 0).plan.pend = some screenPlan ∧ (s.ctx 0).plan.phase = .pending) ∧
    (distributing.distTaken 0 = false ∧ (loading .distributing (some planA)).distTaken 0 = true) ∧
    (let s := put busy 1 { runs planA with plan := { (runs planA).plan with pend := some planA, phase := .pending } }; (s.ctx 1).plan.pend ≠ none ∧ s.atPoint 1 = false) :=
  ⟨by decide, ⟨_, by decide, by decide, rfl, by decide, by decide, by decide, by decide⟩, by decide, by decide, by decide, by decide, by decide⟩

set_option maxRecDepth 4000 in
theorem witness_PlanValidationAndSwitch_image :
    (let s := loading .validating none; let r := readImage (bytesOf s (read_ screenImage)) 1 {}
     r.2 = none ∧ validate (programOf (imageOf s 0 (read_ screenImage)).2 r.1 ⟨[], []⟩).2 0 r.1 r.2 ⟨[], []⟩ = none) ∧
    (let s := loading .validating none; let r := readImage (bytesOf s (read_ [])) 1 {}; validate (imageOf s 0 (read_ [])).2 0 r.1 r.2 ⟨[], []⟩ = some { cause := 1 }) ∧
    (let s := loading .distributing (some screenPlan)
     badHeader (bytesOf s (read_ screenImage)) 1 = false ∧ badCrc (bytesOf s (read_ screenImage)) = none ∧ badHeader (bytesOf s (read_ [])) 1 = true) := by decide +kernel

theorem witness_PlanValidationAndSwitch_present :
    (let s := loading .pending (some screenPlan); (s.ctx 0).plan.pend = some screenPlan ∧ (s.ctx 0).plan.phase = .pending ∧ s.atPoint 0 = true ∧ presentChecks s 0 screenPlan = none) ∧
    (let p := { screenPlan with core := { screenPlan.core with rowsUsed := 25 } }; let s := loading .pending (some p)
     (s.ctx 0).plan.pend = some p ∧ s.atPoint 0 = true ∧ presentChecks s 0 p = some { cause := 0x20 }) := by decide +kernel

/-! ## Witnesses: the fault steward -/

def fault (cls : Cls) : Ev := { code := 0x4001, cls, unit := uMgtu 0, ctx := some 0, addr := 5, tick := 9 }
def faulted (cls : Cls) (k : Nat) (code : BitVec 16) : State :=
  { busy with fst := { faultQ := [fault cls], slots := Vector.ofFn (fun i => if i.val < k then { valid := true, event := code, unit := uMgtu 0 } else {}) } }

theorem witness_FaultsAreTakenBySlots :
    ((faulted .c 0 0).fst.faultQ = [fault .c] ∧ (faulted .c 0 0).early = false ∧ (faulted .c 0 0).fst.state ≠ .halted ∧ (fault .c).cls = .c ∧ ((faulted .c 0 0).fst.slots.at 0).valid = false) ∧
    ((fault .u).cls = .u ∧ ((faulted .u 1 0).fst.slots.at 1).valid = false) ∧ ((faulted .c 1 0x4001).fst.slots.at 0).sameAs (fault .c) = true ∧
    (((faulted .c 1 0x4002).fst.slots.at 0).valid = true ∧ ((faulted .c 1 0x4002).fst.slots.at 0).sameAs (fault .c) = false ∧ ((faulted .c 1 0x4002).fst.slots.at 1).valid = false) ∧
    ((fault .f).cls = .f ∧ ((faulted .f 2 0).fst.slots.at 2).valid = false ∧ (faulted .f 2 0).fst.state = .run ∧ (faulted .f 2 0).aon.refOk = true) ∧
    (((faulted .f 3 0).fst.slots.at 2).valid = true ∧ ((faulted .f 3 0).fst.slots.at 2).sameAs (fault .f) = false) ∧
    ((faulted .u 2 0x4001).fst.slots.at 1).sameAs (fault .u) = true ∧
    (((faulted .c 2 0x4002).fst.slots.at 0).sameAs (fault .c) = false ∧ ((faulted .c 2 0x4002).fst.slots.at 1).valid = true ∧ ((faulted .c 2 0x4002).fst.slots.at 1).sameAs (fault .c) = false) ∧
    ((fault .u).esc = false ∧ ((faulted .u 2 0x4002).fst.slots.at 1).valid = true ∧ ((faulted .u 2 0x4002).fst.slots.at 1).sameAs (fault .u) = false ∧
      ((faulted .u 2 0x4002).fst.slots.at 2).valid = false ∧ (faulted .u 2 0x4002).fst.state = .run ∧ (faulted .u 2 0x4002).aon.refOk = true) ∧
    (((faulted .u 3 0x4002).fst.slots.at 2).valid = true ∧ ((faulted .u 3 0x4002).fst.slots.at 2).sameAs (fault .u) = false ∧ ((faulted .u 3 0x4002).fst.slots.at 1).sameAs (fault .u) = false) := by decide

def waiting (a : HistAct) : State := { ready with fst := { histQ := [{ unit := uSensor 639, act := a, event := 0x8004, opsec := 50 }] } }

theorem witness_FaultStewardHistoryAndReports :
    (ready.gate (0x100100 + 0x20 * (2 : Fin 3).val) = .carry ∧ ready.fst.state = .run ∧ ({ ready with fst := { state := .draining } } : State).fst.state = .draining) ∧
    ((waiting .undecided).fst.histQ = { unit := uSensor 639, act := .undecided, event := 0x8004, opsec := 50 } :: [] ∧ ((waiting .undecided).fwp.procs.at mc).state = .run ∧ uClass (uSensor 639) ≠ 1 ∧
      ((waiting .confirm).fst.unit (uSensor 639)).state ≠ .lasting ∧ ((waiting .confirm).fst.unit (uSensor 639)).state ≠ .retired ∧ (waiting .confirm).fst.wouldMeet (uSensor 639) 50 0xFF = false) ∧
    ((State.reset.fwp.procs.at 1).state ≠ .hold ∧ (let s : State := { ready with fwp := { ready.fwp with procs := ready.fwp.procs.upd 0 (fun x => { x with state := .restarting }) } }
      (s.fwp.procs.at mc).state ≠ .hold ∧ (s.fwp.procs.at mc).state ≠ .run)) ∧
    (ready.gate 0x100010 = .carry ∧ ready.loadedCtxs = [] ∧ ready.aon.refOk = true ∧ busy.loadedCtxs ≠ [] ∧ busy.gate 0x100010 = .carry) ∧
    (let s := port { cur := some tile, park := [done] }; tile ∈ (s.wce.ports.at 0).open_ ∧ (s.wce.ports.at 0).caught.contains tile.exec = false) ∧
    (0x3FF < ready.fst.ceStorm.toNat ∧ ready.fst.ceStorm.toNat ≤ 0x400) ∧ ready.gate 0x100200 = .carry := by decide

/-! ## Witnesses: screening and the thermal guard -/

def running (q : Pattern) : State := { ready with scr := { ready.scr with running := [q] } }
def pattern : Pattern := { unit := uMgtu 0, pattern := 0x0101, start := 5, retest := false, round := 1 }

/-- Context 0 runs a SCREEN plan with a pattern on array 0. -/
def screening : State :=
  put ready 0 (runs { planA with core := { planA.core with primary := 5, positions := [⟨4000000, false, false, 0⟩] }, extra := { planA.extra with patterns := [⟨0, 0, 1, 100⟩] } })

/-- Port 0 completed a pattern at second 0, and the engine has run for these seconds. -/
def completed (n : BitVec 40) : State :=
  { ready with time := { ready.time with opsec := n }, scr := ready.scr.setUnit (uMgtu 0) { lastTick := some 5 } }

theorem witness_FieldScreening :
    (ready.eligible (uMgtu 39) = true ∧ ready.tcRuns = true ∧ ready.pwr.vs = .vs0 ∧ ready.scr.running.any (fun q => q.unit = uMgtu 39) = false ∧ (ready.scr.unit (uMgtu 39)).round = false ∧
      (ready.scr.unit (uMgtu 39)).retest = none) ∧
    (ready.eligible (uArr 0) = true ∧ ready.scr.running.any (fun q => q.unit = uArr 0) = false ∧ ready.scr.running.any (fun q => q.field && uClass q.unit = 0) = false ∧ ready.screenSlot 0 = none) ∧
    (screening.eligible (uArr 0) = true ∧ screening.tcRuns = true ∧ screening.pwr.vs = .vs0 ∧ screening.screenSlot 0 = some (0, ⟨0, 0, 1, 100⟩)) ∧
    (running pattern).scr.running.find? (fun y => y.unit = pattern.unit) = some pattern ∧ (running { pattern with retest := true }).scr.running.find? (fun y => y.unit = pattern.unit) = some { pattern with retest := true } ∧
    ((completed 3601).overdue (uMgtu 0) = true ∧ ((completed 3601).scr.unit (uMgtu 0)).late = false ∧ (completed 3600).overdue (uMgtu 0) = false) ∧
    (running pattern).tcRuns = true ∧ ({ running pattern with fwp := {} } : State).tcRuns = false ∧
    (ready.gate 0xD00030 = .carry ∧ ready.eligible ready.scr.sel = true ∧ ready.scr.testNow = none ∧ ready.gate 0xD00100 = .carry ∧
      ({ ready with scr := { ready.scr with sel := 0x7000 } } : State).eligible 0x7000 = false) := by decide

/-- Every row but row 0 is in reset. -/
def rowZero : State := { ready with pwr := { ready.pwr with resets := (List.range 23).map (fun r => { domain := 9, index := BitVec.ofNat 12 (r + 1), from_ := 5 }) } }

theorem witness_FieldScreening_chosen : rowZero.chosenArray = some 0 ∧ rowZero.chosenArray ≠ some 1 := by decide +kernel

/-- A pattern that ends with the MISR the part expects, and one whose cycles are not the pattern's. -/
theorem witness_FieldScreening_judged :
    (Config.expectedMisr pattern.pattern (ready.unitKind pattern.unit) ready.fuses.stepping = Config.expectedMisr pattern.pattern (ready.unitKind pattern.unit) ready.fuses.stepping ∧
      patternCycles pattern.pattern = patternCycles pattern.pattern) ∧ patternCycles pattern.pattern + 1 ≠ patternCycles pattern.pattern := ⟨⟨rfl, rfl⟩, by decide⟩

def sample (r : BitVec 16) : Sample := { delivered := true, code := 7, reading := r, refDiff := none }

theorem witness_SensorsAndThrottle :
    (ready.unitExists (uSensor 0) = true ∧ ready.aon.valid = true ∧ ready.pwr.vs.code ≤ 2 ∧ (ready.thm.sensors.at 0).state = .live ∧ (sample 0).delivered = true ∧ (sample 0).refDiff = none ∧
      (ready.thm.sensors.at 0).known = false) ∧
    (-640 ≤ (sample 0xFD80).reading.toInt ∧ (sample 0xFD80).reading.toInt ≤ 2400 ∧ (sample 0xFD80).reading.toInt < ready.thm.critNow.toNat * 16 ∧ (sample 0xFD7F).reading.toInt < -640 ∧
      2400 < (sample 2401).reading.toInt ∧ (sample 2400).reading.toInt ≤ 2400 ∧ ready.thm.critNow.toNat * 16 ≤ (sample 1840).reading.toInt ∧ (sample 1839).reading.toInt < ready.thm.critNow.toNat * 16) ∧
    (({ (ready.thm.sensors.at 0) with crit := 2 } : SensorSt).crit = 2 ∧ ready.thm.stopped = false ∧ ready.aon.refOk = true) ∧
    (ready.gate 0x800000 = .carry ∧ ready.gate 0x800010 = .carry ∧ ready.aon.trip = false ∧ (field (0x6E5A46 : Reg) 0 8 : BitVec 8).toNat = 70 ∧ (field (0x6E5A46 : Reg) 8 8 : BitVec 8).toNat = 70 + 20 ∧
      90 + 5 ≤ (field (0x6E5A46 : Reg) 16 8 : BitVec 8).toNat ∧ (field (0x6E5A46 : Reg) 16 8 : BitVec 8).toNat ≤ 125 ∧ (field (0x6E5A45 : Reg) 0 8 : BitVec 8).toNat < 70) := by decide

/-- The engine with one sensor read. -/
def warm (n : Sensor) (v : Vs) : State := { ready with pwr := { ready.pwr with vs := v }, thm := { ready.thm with sensors := ready.thm.sensors.upd n (fun x => { x with known := true, reading := 800 }) } }

theorem witness_SensorsAndThrottle_low : (warm 0 .vs3).unitExists (uSensor 1) = true ∧ ((warm 0 .vs3).thm.sensors.at 1).state = .live ∧ (warm 0 .vs3).pwr.vs = .vs3 ∧ (warm 0 .vs4).pwr.vs = .vs4 := by decide

theorem witness_SensorsAndThrottle_compensation : (warm 624 .vs3).aon.valid = true ∧ 3 ≤ (warm 624 .vs3).pwr.vs.code ∧ medianHigh (warm 624 .vs3).compReadings = some 800 := by decide +kernel

theorem greatest_of_mem {x : Int} {xs : List Int} (h : x ∈ xs) : ∃ y, greatestInt xs = some y := by
  cases xs with
  | nil => simp at h
  | cons a as => unfold greatestInt; split <;> exact ⟨_, rfl⟩

theorem witness_SensorsAndThrottle_update : (warm 0 .vs0).pwr.vs = .vs0 ∧ (warm 0 .vs0).thm.stopped = false ∧ ∃ te, (warm 0 .vs0).tEff = some te := by
  refine ⟨by decide, by decide, greatest_of_mem (x := 800) ?_⟩
  exact List.mem_filterMap.2 ⟨0, List.mem_filter.2 ⟨List.mem_finRange 0, by decide⟩, by decide⟩

theorem witness_ClockStretch :
    ((1 : Fin 17).val ≠ 0 ∧ ready.pwr.vs = .vs0 ∧ ready.thm.asks = [] ∧ (16 : Fin 17).val ≠ 0) ∧
    (let s : State := { ready with thm := { ready.thm with stretch := 16, asks := [(1, 3), (2, 16)] } }
     s.pwr.vs = .vs0 ∧ s.thm.asks ≠ [] ∧ (∃ a ∈ s.thm.asks, s.thm.stretch ≤ a.2) ∧ (∃ a ∈ s.thm.asks, a.2 = 16) ∧ s.thm.stopped = false ∧ s.aon.refOk = true) ∧
    (let s : State := { ready with thm := { ready.thm with m := 40, stretch := 16, asks := [(1, 3)] } }; s.pwr.vs.code ≤ 2 ∧ (∀ a ∈ s.thm.asks, a.2 < s.thm.stretch) ∧ s.thm.pct = 40) := by decide

/-! ## Witnesses: recorder, processors, power -/

def recorded (r : RecSt → RecSt) : State := { ready with rcd := r ready.rcd }
def staged (code : BitVec 16) (cls : Cls) : Staged := { record := { code, cls, unit := 0x7A00, tick := 5, wall := 0 } }
def event : Ev := { code := 0xE001, unit := 0x7A00, tick := 5 }

theorem witness_RecordsFromIntakeToFlash :
    (let s := recorded (fun r => { r with intake := [event] })
     s.rcd.intake = [event] ∧ event.glued = false ∧ s.rcd.openTill = none ∧ s.rcd.queue.length < 4096 ∧ s.rcd.seqSet = true) ∧
    (let s := recorded (fun r => { r with intake := [event], queue := [staged 0xE001 .record], openTill := some 6 })
     s.rcd.queue = [] ++ [staged 0xE001 .record] ∧ s.rcd.openTill = some 6 ∧ s.merges = true ∧ event.tick.toNat < (6 : BitVec 64).toNat ∧ (staged 0xE001 .record).record.sameAs event = true) ∧
    (let s := recorded (fun r => { r with queue := [staged 0x8006 .f], codes := [0xE001] })
     s.rcd.flashOk = true ∧ s.rcd.histOut = [] ∧ s.rcd.queue = staged 0x8006 .f :: [] ∧ s.rcd.seqSet = true ∧ (staged 0x8006 .f).numbered = true ∧ s.rcd.openTill = none ∧
      priorityCodes.contains (staged 0x8006 .f).record.code = true ∧ s.rcd.flash.perm.length < 262144 ∧ s.rcd.codes.contains (staged 0xE001 .record).record.code = true ∧
      (staged 0xE001 .record).record.cls ≠ .f ∧ priorityCodes.contains (staged 0xE001 .record).record.code = false) ∧
    (let h : HistRec := { seq := 0, kind := 1, state := 1, unit := 0, opsec := 0, event := 0, tick := 0 }
     let s := recorded (fun r => { r with histOut := [h] }); s.rcd.flashOk = true ∧ s.rcd.histOut = h :: [] ∧ s.rcd.flash.hist.length + 1 < 98304) ∧
    (ready.gate 0x900018 = .carry ∧ ready.gate 0x900010 = .carry ∧ ready.gate 0x900028 = .carry ∧ flag (0x400000000 : Reg) 34 = true ∧ ready.gate 0x900070 = .carry ∧ flag (0x1000001 : Reg) 24 = true ∧
      ready.rcd.read.busy = false ∧ (field (0x1000001 : Reg) 0 22 : BitVec 22) ≠ 0 ∧ ready.time.wallSet = false) ∧
    (let s := recorded (fun r => { r with read := { going := true, busy := true } })
     s.rcd.read.going = true ∧ s.rcd.read.busy = true ∧ s.rcd.flash.slot s.rcd.read.region s.rcd.read.index = none) ∧
    (let f : Flash := { perm := [.entry (staged 0x8006 .f).record] }; ∃ x, f.slot 1 0 = some x) ∧
    (let s := { recorded (fun r => { r with flash := { r.flash with perm := [.entry (staged 0x8006 .f).record] }, read := { busy := true, count := 1, addr := 64, dRegion := 1 } }) with jobMap := [⟨0, 0x40000000, 0, 0⟩] }
     s.rcd.read.busy = true ∧ ((s.rcd.flash.slotsFrom s.rcd.read.dRegion s.rcd.read.first s.rcd.read.count.toNat).flatten).length = 32 ∧ s.enginePlace (s.rcd.read.addr.toNat + 31) = some (0, 95)) := by
  refine ⟨by decide, by decide, by decide, by decide, by decide, by decide, ⟨_, rfl⟩, by decide⟩

def proc (p : Proc) (f : ProcSt → ProcSt) : State := { ready with fwp := { ready.fwp with procs := ready.fwp.procs.upd p f } }

/-- A pass-controller image of four code bytes, with its CRC. -/
def procImage : List Byte := [86, 88, 70, 87, 1, 1, 0, 0, 0, 0, 0, 0, 3, 0, 0, 0, 4, 0, 0, 0, 0, 0, 0, 0, 0, 0, 0, 0, 189, 36, 11, 60, 1, 2, 3, 4]
def loadingProcs : State := { proc 1 (fun x => { x with state := .loading }) with fwp := { (proc 1 (fun x => { x with state := .loading })).fwp with busy := true, job := 2, kib := 1 } }

theorem witness_ProcessorsRestartAndLoad :
    (ready.fwRuns 0 = true ∧ asleep.fwRuns 0 = false ∧ ready.coreRuns 0 = true ∧ asleep.coreRuns 0 = false ∧ ((ready.proc 0).counted ready.time.opsec).length < 2 ∧ 2 ≤ (((proc 1 (fun x => { x with recent := [50, 100] })).proc 1).counted ready.time.opsec).length ∧ ready.aon.refOk = true) ∧
    (ready.gate (fwpCtrlOff 5) = .carry ∧ (ready.proc 5).state = .run ∧ ((proc 5 (fun x => { x with state := .failed })).proc 5).state ≠ .run ∧ (proc 5 (fun x => { x with state := .failed })).gate (fwpCtrlOff 5) = .carry) ∧
    (let s := proc 0 (fun x => { x with state := .restarting }); (s.proc mc).state = .restarting ∧ s.clocked mc = true ∧ s.mgt = [] ∧ ({ s with mgt := [.tripStatus] } : State).mgt = [.tripStatus]) ∧
    (∀ c, (ready.ctx c).exec.tokenWait = false) ∧
    (let s := proc 2 (fun x => { x with state := .restarting, greeted := false }); s.clocked 2 = true ∧ (s.proc 2).greeted = false ∧ 5 < tcmWords 2 .code ∧
      (let s := proc 2 (fun x => { x with state := .restarting, locked := true }); (s.proc 2).locked = true ∧ ((s.proc 2).counted s.time.opsec).length < 2)) ∧
    (((proc 2 (fun x => { x with state := .restarting, cause := 1, greeted := true })).proc 2).greeted = true ∧ ((proc 2 (fun x => { x with state := .restarting, cause := 1 })).proc 2).state = .restarting ∧ ((proc 2 (fun x => { x with state := .restarting, cause := 1 })).proc 2).cause = 1) ∧
    (let s := proc 1 (fun x => { x with state := .off }); let mask : BitVec 6 := field (2 : Reg) 0 6
     s.gate 0xB00008 = .carry ∧ s.fwp.busy = false ∧ mask ≠ 0 ∧ mask.getLsbD 0 = false ∧ (∀ p : Proc, mask.getLsbD p.val = true → s.mayLoad p = true) ∧ (field (1 : Reg) 0 6 : BitVec 6).getLsbD 0 = true) ∧
    (loadingProcs.fwp.busy = true ∧ loadingProcs.fwRuns mc = true ∧ loadingProcs.fwp.job.getLsbD 0 = false ∧ loadingProcs.fwp.job.getLsbD (1 : Proc).val = true) := by decide

theorem witness_ProcessorsRestartAndLoad_image :
    let s : State := { loadingProcs with jobMap := [⟨0, 0x40000000, 0, 0⟩] }
    let n := 1024 * s.fwp.kib.toNat
    imageCause s (s.engineBytes s.fwp.base.toNat n (read_ procImage)) (JobRead.ecc (read_ procImage) n) = 0 ∧
    imageCause s (s.engineBytes s.fwp.base.toNat n ⟨[], [5]⟩) (JobRead.ecc ⟨[], [5]⟩ n) ≠ 0 := by decide +kernel

/-- A request of side 0 with its CRC (low byte first) in the mailbox of a processor. -/
def asked (p : Proc) (op : Byte) (payload : List Byte) (crc : List Byte) : State :=
  let b : List Byte := [1, 0, op, 0, 9, 0, BitVec.ofNat 8 payload.length, 0] ++ exactly 52 payload ++ crc
  { ready with fwp := { ready.fwp with mbox := ready.fwp.mbox.upd (mboxOf p 0) (fun m => { m with busy := true, inReq := toRegs b }) } }

/-- A good request in progress: what the statement asks of one, with its opcode. -/
def goodFor (s : State) (p : Proc) (op : Nat) : Bool :=
  let m := s.fwp.mbox.at (mboxOf p 0)
  let q := requestOf m.bytes
  m.busy && s.fwRuns p && q.crcOk && decide (q.major = (s.proc p).major.toNat) && decide (q.length ≤ 52) && (m.last.filter (fun r => r.1.toNat = q.tag && r.2.1.toNat = q.opcode)).isNone && decide (q.opcode = op)

theorem witness_MailboxExchanges :
    (ready.gate (mbxCtrlOff (mboxOf 5 1)) = .carry ∧ (ready.fwp.mbox.at (mboxOf 5 1)).busy = false ∧ ((1 : Fin 2) = 0 ↔ Src.mgt = .host) ∧ (ready.proc 5).state ≠ .failed) ∧
    ((asked 0 1 [] [98, 150, 104, 225]).gate (mbxCtrlOff (mboxOf 0 0)) = .carry ∧ ((asked 0 1 [] [98, 150, 104, 225]).fwp.mbox.at (mboxOf 0 0)).busy = true ∧
      ((asked 0 1 [] [98, 150, 104, 225]).fwp.mbox.at (mboxOf 0 0)).timedOut = false) ∧
    (asleep.coreRuns 0 = false ∧ ready.coreRuns 0 = true ∧ 7 < tcmWords 0 .working ∧ 7 < tcmWords 0 .retained) := by decide

set_option maxRecDepth 4000 in
theorem witness_MailboxExchanges_good :
    goodFor (asked 0 1 [] [98, 150, 104, 225]) 0 1 = true ∧ goodFor (asked 5 2 [] [143, 131, 26, 59]) 5 2 = true ∧ goodFor (asked 0 3 [1, 2, 3, 4] [72, 9, 32, 68]) 0 3 = true := by decide +kernel

set_option maxRecDepth 4000 in
theorem witness_MailboxExchanges_good' :
    (goodFor (asked 1 4 [0] [13, 104, 255, 128]) 1 4 = true ∧ imageField (requestOf ((asked 1 4 [0] [13, 104, 255, 128]).fwp.mbox.at (mboxOf 1 0)).bytes).payload 0 1 = (0 : Ctx).val) ∧
    (goodFor (asked 5 5 [64] [32, 131, 54, 185]) 5 5 = true ∧ 64 ≤ imageField (requestOf ((asked 5 5 [64] [32, 131, 54, 185]).fwp.mbox.at (mboxOf 5 0)).bytes).payload 0 1 ∧ (5 : Proc) ≠ mc) := by decide +kernel

set_option maxRecDepth 4000 in
theorem witness_MailboxExchanges_other :
    (requestOf ((asked 0 3 [1, 2, 3, 4] [0, 0, 0, 0]).fwp.mbox.at (mboxOf 0 0)).bytes).crcOk = false ∧
    (let m := (asked 0 3 [1, 2, 3, 4] [72, 9, 32, 68]).fwp.mbox.at (mboxOf 0 0); let q := requestOf m.bytes
     ({ m with last := some (9, 3, m.rsp) } : Mbox).last = some (BitVec.ofNat 8 q.tag, 3, m.rsp) ∧ q.opcode = 3) := by decide +kernel

def chan (c : Chan) (f : ChanSt → ChanSt) : State := { ready with fwp := { ready.fwp with chans := ready.fwp.chans.upd c f } }
def entry (kind : BitVec 2) : ChanEntry := { kind, tag := 1, opcode := 2, arg := 3, data := 4 }

theorem witness_ChannelOperations :
    (ready.mayOperate 0 = true ∧ 10 ≤ (10 : Chan).val ∧ (ready.fwp.chans.at 10).state = .free ∧ (9 : Chan).val < 10) ∧
    ((ready.fwp.chans.at 0).heldBy 0 = true ∧ (ready.fwp.chans.at 0).told.contains 0 = false ∧ (ready.fwp.chans.at 0).entries.length + (if (entry 0).kind = 1 then 1 else 2) ≤ 16 ∧
      (∀ q : Proc, (ready.fwp.chans.at 0).receiver.toNat = q.val → (ready.proc q).waitRecv = false ∧ (ready.proc q).waitSend = none) ∧
      16 < ((chan 0 (fun x => { x with entries := List.replicate 15 (entry 0) })).fwp.chans.at 0).entries.length + (if (entry 0).kind = 1 then 1 else 2) ∧
      ((chan 0 (fun x => { x with entries := List.replicate 15 (entry 0) })).fwp.chans.at 0).entries.length + (if (entry 1).kind = 1 then 1 else 2) ≤ 16) ∧
    (14 < ((chan 0 (fun x => { x with entries := List.replicate 15 (entry 0) })).fwp.chans.at 0).entries.length ∧ ((chan 0 (fun x => { x with entries := List.replicate 14 (entry 0) })).fwp.chans.at 0).entries.length ≤ 14) ∧
    (let s := chan 0 (fun x => { x with entries := [entry 0, entry 1] }); s.mayOperate 1 = true ∧ s.chosen 1 = some 0 ∧ (s.fwp.chans.at 0).entries = entry 0 :: [entry 1] ∧ (s.fwp.chans.at 0).told.contains 1 = false) ∧
    (∀ d : Chan, (ready.fwp.chans.at d).receiver.toNat = (1 : Proc).val → (ready.fwp.chans.at d).entries = []) ∧
    (let s := chan 31 (fun x => { x with state := .open_, sender := 2, receiver := 1 }); s.mayOperate 2 = true ∧ 10 ≤ (31 : Chan).val ∧ (s.fwp.chans.at 31).heldBy 2 = true ∧ (s.fwp.chans.at 31).entries = []) ∧
    (let s : State := { ready with fwp := { ready.fwp with procs := (ready.fwp.procs.upd 0 (fun x => { x with waitSend := some (0, false) })).upd 1 (fun x => { x with waitSend := some (4, false) }) } }
     (0 : Proc).val < (1 : Proc).val ∧ s.blockedOn 0 = some (1, 0) ∧ s.blockedOn 1 = some (0, 4) ∧ ((s.proc 1).counted s.time.opsec).length < 2) := by decide

def step_ (n : BitVec 3) : State := { ready with pwr := { ready.pwr with step := n, ready := false } }
def report : StepReport := { failed := [], cold := [], widths := [], kaRuns := [], rounds := [], memTick := 0, linkTick := 0, refFail := [], histCrc := [], confCrc := [], timeUs := 100 }

theorem witness_BringUpStepsLeadToReady :
    ((step_ 1).aon.valid = true ∧ (step_ 1).pwr.down = none ∧ (step_ 1).pwr.step = 1 ∧ (step_ 1).aon.sentinel = true ∧ (step_ 1).aon.pgMain = true ∧ (step_ 1).aon.pgMem = true ∧ (step_ 1).aon.pgIo = true ∧
      (let s : State := { step_ 1 with aon := { ready.aon with pgIo := false } }; (s.aon.sentinel && s.aon.pgMain && s.aon.pgMem && s.aon.pgIo) = false)) ∧
    ((step_ 2).pwr.step = 2 ∧ (step_ 2).mcRuns = true ∧ report.confCrc = [] ∧ (let s : State := { step_ 2 with fwp := {} }; s.mcRuns = false)) ∧
    ((step_ 3).pwr.step = 3 ∧ (step_ 3).aon.refOk = true ∧ report.failed = [] ∧ report.refFail = [] ∧ ({ step_ 3 with aon := { ready.aon with refOk := false } } : State).aon.refOk = false) ∧
    ((step_ 4).pwr.step = 4 ∧ (step_ 4).pwr.path ≠ 2 ∧ ({ (step_ 4).pwr with path := 2 } : Pwr).path = 2 ∧ report.cold = [] ∧ (step_ 4).unitExists (uMgtu 39) = true ∧ ((step_ 4).fst.unit (uMgtu 39)).state ≠ .retired) ∧
    ((step_ 5).pwr.step = 5 ∧ report.widths = [] ∧ (step_ 5).linksDone = true ∧ (step_ 5).fst.units = [] ∧ ({ step_ 5 with lgtu := Vector.replicate 24 {} } : State).linksDone = false) ∧
    ((step_ 6).pwr.step = 6 ∧ ((step_ 6).proc 5).state ≠ .off ∧ ((step_ 6).proc 5).state ≠ .loading ∧ (step_ 6).fst.orders = [] ∧ report.kaRuns = [] ∧ (step_ 6).allRun = true ∧ (step_ 6).kaRuns (uArr 623) = true ∧ (step_ 6).eligible (uArr 623) = true ∧
      ((step_ 6).fst.unit (uArr 623)).state ≠ .lasting ∧ ((proc 5 (fun x => { x with state := .off })).proc 5).state = .off ∧ (proc 3 (fun x => { x with state := .off })).allRun = false) ∧
    ((step_ 7).pwr.step = 7 ∧ (step_ 7).allRun = true ∧ ({ (step_ 7).pwr with waitDrv := true } : Pwr).waitDrv = true ∧ (step_ 7).pwr.waitDrv = false) := by decide

/-- A known-answer run with the expected MISR and a count of cycles of the caller's. -/
def kaOf (cycles : BitVec 32) : KaRun :=
  { misr := Config.expectedMisr (bringupPattern (uArr 623)) ((step_ 6).unitKind (uArr 623)) (step_ 6).fuses.stepping, cycles := cycles, tick := 0 }

/-- A first run with the wrong number of cycles fails; the run made again passes with the right one and fails with the wrong one. -/
theorem witness_BringUpStepsLeadToReady_knownAnswer :
    ((step_ 6).kaRuns (uArr 623) = true ∧ (step_ 6).fst.declared (uArr 623) = false) ∧ (step_ 6).kaPass (uArr 623) (kaOf 0) = false ∧
    (step_ 6).kaPass (uArr 623) (kaOf (patternCycles (bringupPattern (uArr 623)))) = true := by
  refine ⟨by decide, ?_, ?_⟩
  · have h : decide ((kaOf 0).cycles = patternCycles (bringupPattern (uArr 623))) = false := by decide
    have u : uClass (uArr 623) ≠ 2 := by decide
    simp only [State.kaPass, if_neg u, h, Bool.and_false]
  · have u : uClass (uArr 623) ≠ 2 := by decide
    simp [State.kaPass, if_neg u, kaOf]

/-- The engine in an orderly shutdown with every context unloaded. -/
def downTo (target : BitVec 4) (testing : Bool) : State := { ready with pwr := { ready.pwr with down := some { target, from_ := 5, testing } } }
def inVs (v : Vs) : State := { ready with pwr := { ready.pwr with vs := v } }

theorem witness_PowerStatesAndTheOrderlyShutdown :
    (ready.gate 0xE00008 = .carry ∧ flag (9 : Reg) 4 = false ∧ ready.pwr.resets = [] ∧ ready.pwr.down = none ∧ ready.wce.testing = [] ∧ (field (9 : Reg) 0 3 : BitVec 3) = 1 ∧ ready.allStopped = true ∧ ready.prv.spans = [] ∧
      ready.scr.running = [] ∧ busy.allStopped = false) ∧
    ((inVs .vs1).gate 0xE00008 = .carry ∧ (field (10 : Reg) 0 3 : BitVec 3) = 2 ∧ (inVs .vs2).gate 0xE00008 = .carry ∧ (field (8 : Reg) 0 3 : BitVec 3) = 0 ∧ asleep.gate 0xE00008 = .carry ∧ (inVs .vs4).gate 0xE00008 = .carry ∧ (inVs .vs4).pwr.step ≠ 1 ∧ (inVs .vs4).aon.refOk = true ∧ 2 < (inVs .vs3).pwr.vs.code ∧
      (inVs .vs2).thm.stopped = false ∧ 3 ≤ (field (11 : Reg) 0 3 : BitVec 3).toNat ∧ (downTo 3 false).gate 0xE00008 = .carry ∧ (downTo 3 false).pwr.down.isSome = true) ∧
    (flag (0x13 : Reg) 3 = false ∧ (field (0x13 : Reg) 0 3 : BitVec 3) = 3 ∧ (field (0x14 : Reg) 0 3 : BitVec 3) = 4 ∧ ready.pwr.vs.code ≤ 2 ∧ ready.aon.refOk = true ∧ ready.rcd.flashOk = true ∧
      (field (0x15 : Reg) 0 3 : BitVec 3) ≠ 3 ∧ (field (0x15 : Reg) 0 3 : BitVec 3) ≠ 4) ∧
    (let s : State := { busy with pwr := { busy.pwr with down := some { target := 3, from_ := 5 } } }
     s.pwr.down.isSome = true ∧ (s.ctx 0).pass.st = .running ∧ (s.ctx 2).pass.st = .stopped) ∧
    ((downTo 3 false).pwr.down = some { target := 3, from_ := 5 } ∧ (downTo 3 false).readyForTest = true ∧ (downTo 3 false).rcd.flash.conf.length + 2 < 15360 ∧ (downTo 3 false).noTest = false ∧
      ({ downTo 3 false with thm := { ready.thm with stopped := true } } : State).noTest = true ∧ ({ busy with pwr := (downTo 3 false).pwr } : State).readyForTest = false) ∧
    ((downTo 4 true).pwr.down = some { target := 4, from_ := 5, testing := true } ∧ (downTo 4 true).rcd.flash.conf.length + 1 < 15360) := by
  refine ⟨by decide, by decide, by decide, by decide, by decide, by decide⟩

/-- The part has an item of each group of the self-test. -/
theorem witness_PowerStatesAndTheOrderlyShutdown_items :
    [0x7640, 0x6000, 0x4000, 0x7610].all (downTo 4 true).hasItem = true ∧ itemGroup 0x7640 = 1 ∧ itemGroup 0x6000 = 2 ∧ itemGroup 0x4000 = 3 ∧ itemGroup 0x7610 = 4 := by decide +kernel

def resetting (j : ResetJob) : State := { ready with pwr := { ready.pwr with resets := [j] } }

theorem witness_ResetDomains :
    (ready.gate 0xE00010 = .carry ∧ (field (0x179 : Reg) 0 4 : BitVec 4) = 9 ∧ (field (0x179 : Reg) 4 12 : BitVec 12) = 23 ∧ ready.pwr.resets = [] ∧ ready.pwr.whole = none ∧ ready.pwr.down = none ∧
      ready.resetAllowed 9 23 = true ∧ ready.resetAllowed 9 24 = false ∧ ready.resetAllowed 1 623 = true ∧ ready.resetAllowed 1 624 = false ∧ ready.resetAllowed 3 3 = true ∧ ready.aon.refOk = true) ∧
    (let j : ResetJob := { domain := 9, index := 23, from_ := 5 }; (resetting j).pwr.resets = j :: [] ∧ j.drained = false ∧ (resetting j).gate 0xE00010 = .carry ∧ (resetting j).wce.orders = []) ∧
    (let j : ResetJob := { domain := 8, index := 623, from_ := 5 }; (resetting j).pwr.resets = j :: [] ∧ j.domain ≠ 3 ∧ j.domain ≠ 9 ∧ j.domain ≠ 10) ∧
    (let j : ResetJob := { domain := 9, index := 0, from_ := 5, drained := true }; (resetting j).pwr.resets = j :: [] ∧ j.drained = true) := by decide

/-- The whole engine may be reset while every context is stopped, the part is cool and no trip is held. -/
theorem witness_ResetDomains_whole : ready.resetAllowed 4 0 = true := by
  have h : ready.allCool = true := cool _ rfl
  simp [State.resetAllowed, State.wholeAllowed, h]
  decide

theorem witness_IdentityAndChannelResetValues :
    State.reset.fuses.stepping = 0 ∧ State.reset.fuses.product = 0 ∧ State.reset.fuses.rowCnt = 24 ∧ State.reset.fuses.stackCnt = 20 ∧ State.reset.fuses.linkCnt = 24 ∧ 10 ≤ (10 : Chan).val ∧ 10 ≤ (31 : Chan).val := by decide

/-! ## What the spec works out: its printed values, computed by the model's own operations -/

/-- The product table of chapter 00: a T9-L-A reads VX_ID 0x0000_0009_3E42_0001. -/
theorem test_id_of_a_T9_L_A :
    readReg { State.reset with fuses := { State.reset.fuses with product := 2, rowCnt := 18, stackCnt := 15, linkCnt := 18 } } .id = 0x000000093E420001 := by decide

/-- R489: the check values of CRC-16 and CRC-32C over the nine ASCII digits. -/
theorem test_crc_check_values : crc16 (ascii "123456789") = 0x29B1 ∧ crc32c (ascii "123456789") = 0xE3069283 := by decide +kernel

/-- Chapter 03: the key 2^40 over a blank with d₀ = 5 and d₂ = 3, and the same blank with bit 2 of word 2 flipped. -/
theorem test_fingerprint_of_the_worked_blank :
    fpOf 0x10000000000 [5, 0, 3] = 0x1800050000000000 ∧ fpOf 0x10000000000 [5, 0, 7] = 0x1800050000000001 := by decide +kernel

/-- Chapter 03: that read finds TAG_MISMATCH_READ and delivers POISON_MEM over the computed fingerprint. -/
theorem test_read_of_the_corrupted_blank :
    readRow true false 0x1800050000000000 0x1800050000000001 = { stored := 0x3800050000000000, delivered := 0x3800050000000001, event := some 0x4001 } := by decide

/-- Chapter 03: the partial write of word 1 over an old 0, and of word 2 over a corrupted 7. -/
theorem test_partial_writes_of_the_worked_blank :
    deltaOf 0x10000000000 0x1800050000000000 [(1, 9)] [(1, 0)] = 0x1800050000480000 ∧
    deltaOf 0x10000000000 0x1800050000000000 [(2, 4)] [(2, 7)] = 0x0000050000000000 := by decide +kernel

/-- R136: an MXFP4 element with S = 0, E = 0b10, M = 1 under the scale byte 0x79 has the residue 3·2^55. -/
theorem test_scaled_element : phiMul (scaled (decodeElem .e2m1 5) (some 0x79)) 1 = 0x0180000000000000 := by decide +kernel

/-- Chapter 04: the element residues of the clean tile's table. -/
theorem test_element_residues :
    phiMul (decodeElem .e4m3 0x3C) 1 = 0x1000000000000001 ∧ phiMul (decodeElem .e4m3 0xA8) 1 = 0x17FFFFFFFFFFFFFF ∧
    phiMul (decodeElem .e4m3 0x40) 1 = 2 ∧ phiMul (decodeElem .e4m3 0x30) 1 = 2 ^ 60 ∧ phiMul (decodeElem .e4m3 0x48) 1 = 4 := by decide +kernel

/-- R139: the fold of −5 is p − 5. -/
theorem test_fold_of_minus_five : fold160 (BitVec.ofInt 160 (-5)) = p61 - 5 := by decide +kernel

/-- The descriptor and the operand cycles of the clean tile of chapter 04, up to its two useful cycles. -/
def workedTile : TileDesc := { ctx := 0, seq := 0, segs := [⟨32, .e4m3, .e4m3, -8⟩], lastOnPort := false }
def workedSide (rho : Nat) : Side :=
  takeCycle workedTile (vector64 rho) 1 (takeCycle workedTile (vector64 rho) 1 {} { a := [0x3C, 0x40], b := [0x34, 0x48], sa := [], sb := [] })
    { a := [0xA8, 0x30], b := [0xC4, 0x3A], sa := [], sb := [] }

/-- Chapter 04: y[0] and y[1] of the clean tile under ρ_t = 3, with LOW_P and HIGH_P clear and H = 5. -/
theorem test_operand_side_of_the_clean_tile :
    (workedSide 3).y.take 2 = [0x1A00000000000038, 0x140000000000004D] ∧ (workedSide 3).low = false ∧ (workedSide 3).high = some 5 ∧
    highP workedTile (workedSide 3) = false := by decide +kernel

/-- Chapter 04: the tap finds the same rows from the accumulators 480, 1,456, 0 and 2,208. -/
theorem test_tap_of_the_clean_tile : rowDiffs (workedSide 3).y (tapRows [[480, 1456], [0, 2208]] (-8) (vector64 3)) = [] := by decide +kernel

/-- Chapter 04: the corrupted accumulators pass under ρ_t = 3, the root of their error, and differ in row 1 alone under ρ_t = 5. -/
theorem test_tap_of_the_corrupted_tile :
    rowDiffs (workedSide 3).y (tapRows [[480, 1456], [9, 2205]] (-8) (vector64 3)) = [] ∧
    rowDiffs (workedSide 5).y (tapRows [[480, 1456], [9, 2205]] (-8) (vector64 5)) = [1] := by decide +kernel

/-- Chapter 01: WITNESS with LOCKSTEP in STRICT mode, W = 64, level 0, no borrowing. -/
theorem test_integrity_register :
    readIntegrity { pass := { st := .running }, plan := { active := some { core := { primary := 1, lockstep := true, window := 64 } } } } = 0x0000000400400009 := by decide

/-- Chapter 07: VX_CTX_PASS while the substitution holds context 5. -/
theorem test_pass_register :
    readPass { index := 3000000, replay := 1, st := .held, sinceStart := 1, holdSub := true } = 0x4C010000002DC6C0 ∧
    readPass { index := 3000000, replay := 2, st := .running, sinceStart := 2 } = 0x11020000002DC6C0 := by decide

/-- Chapter 10: the refusal with check 0x22 that VX_PLN_CTX_RESULT shows. -/
theorem test_load_result_register :
    readResult { outcome := 2, event := 0xC005, cause := 0x22, cls := 3, index := 5, conflict := 2, valid := true } = 0x1020005322C00502 := by decide

/-- Chapter 11: slot F of the unanswered slot. -/
theorem test_capture_register :
    readCapInfo { event := 0x4001, unit := 0x3007, acc := 1, ctx := 12, valid := true, esc := true } = 0x00030C0130074001 := by decide

/-- Chapter 11: the drained engine, and row 16 with columns 3, 7 and 10 failed. -/
theorem test_fault_steward_registers :
    readFst { State.reset with fst := { state := .drained, replace := true, cause := 2 } } = 0x2A ∧
    readReg { State.reset with fst := { failed := State.reset.fst.failed.upd 16 (fun _ => 0x488) } } (.fstRowFailed 16) = 0x9103 := by decide +kernel

/-- Chapter 08: the hunt results of chips 5 and 4. -/
theorem test_hunt_register :
    readReg (put State.reset 3 { lsc := { index := 13517, logical := 200, outcome := 1, valid := true } }) (.lscHunt 3) = 0x000024C8000034CD ∧
    readReg (put State.reset 3 { lsc := { index := 13517, logical := 200, outcome := 3, valid := true } }) (.lscHunt 3) = 0x00002CC8000034CD := by decide +kernel

/-- Chapter 16: VX_PWR_STATUS after the warm start, and partition 2 on a T9-X and on a T9-L. -/
theorem test_power_registers :
    readPwr { State.reset with pwr := { State.reset.pwr with vs := .vs0, ready := true, step := 7, path := 2, bringUs := 172000 } } = 0xAC0178 ∧
    readPart State.reset 2 = 0x03F000003FF00000 ∧
    readPart { State.reset with fuses := { State.reset.fuses with product := 2, rowCnt := 18, stackCnt := 15, linkCnt := 18 } } 2 = 0x003E0000007F8000 := by decide +kernel

/-- Chapter 15: PC2 in its restart and after it. -/
theorem test_processor_register :
    readProc { state := .restarting, latches := true, cause := 1, restarts := 1, recent := [100] } 100 = 0x100011C ∧
    readProc { state := .run, cause := 1, restarts := 1, recent := [100] } 100 = 0x1000113 := by decide

/-- Chapter 13: the m of the worked example at 101.5 °C, at 110 °C and at 101.2 °C (1,619 sixteenths). -/
theorem test_throttle_of_the_worked_example : mTarget 0x658 95 = 74 ∧ mTarget 1760 95 = 40 ∧ mTarget 1619 95 = 75 := by decide

/-! ## Well-formedness: for each check a term that it refuses beside one that it takes -/

theorem wf_registerWrite : Instr.wellFormed (.registerWrite .host 0x228 8 .read) = true ∧ Instr.wellFormed (.registerWrite .host 0x4000000 8 .read) = false ∧
    Instr.wellFormed (.registerWrite .mgt 0x228 3 .read) = false := by decide
theorem wf_aonPowerValid (a b c : Bool) : Instr.wellFormed (.aonPowerValid State.reset.fuses a b c) = true ∧
    Instr.wellFormed (.aonPowerValid { State.reset.fuses with rowCnt := 25 } a b c) = false ∧ Instr.wellFormed (.aonPowerValid { State.reset.fuses with stackCnt := 21 } a b c) = false ∧
    Instr.wellFormed (.aonPowerValid { State.reset.fuses with linkCnt := 25 } a b c) = false := by refine ⟨?_, ?_, ?_, ?_⟩ <;> rfl
theorem wf_powerLoss : Instr.wellFormed (.powerLoss false true false) = true ∧ Instr.wellFormed (.powerLoss false false false) = false := by decide
theorem wf_mctpRegisterAccess : Instr.wellFormed (.mctpRegisterAccess 0x3FFFFFF 1 (.access .read)) = true ∧ Instr.wellFormed (.mctpRegisterAccess 0x4000000 1 (.access .read)) = false ∧
    Instr.wellFormed (.mctpRegisterAccess 0 16 (.access .read)) = false := by decide
theorem wf_recRead : Instr.wellFormed (.recRead 0 0 4) = true ∧ Instr.wellFormed (.recRead 0 0 0) = false ∧ Instr.wellFormed (.recRead 0 0 5) = false := by decide
theorem wf_jobRead : Instr.wellFormed (.jobRead 0 0 79999999999 [(1023, 1)] false false none false false) = true ∧
    Instr.wellFormed (.jobRead 0 0 80000000000 [] false false none false false) = false ∧ Instr.wellFormed (.jobRead 0 0 0 [(1024, 1)] false false none false false) = false := by decide
theorem wf_hostRead : Instr.wellFormed (.hostRead 0 none 0 [] false false) = true ∧ Instr.wellFormed (.hostRead 0 none 80000000000 [] false false) = false ∧
    Instr.wellFormed (.hostRead 0 none 0 [(1024, 1)] false false) = false := by decide
theorem wf_jobFullWrite : Instr.wellFormed (.jobFullWrite 0 0 0 (List.replicate 1024 0) 0 false false none false []) = true ∧
    Instr.wellFormed (.jobFullWrite 0 0 0 [] 0 false false none false []) = false ∧
    Instr.wellFormed (.jobFullWrite 0 0 80000000000 (List.replicate 1024 0) 0 false false none false []) = false := by decide +kernel
theorem wf_hostFullWrite : Instr.wellFormed (.hostFullWrite 0 none 0 (List.replicate 1024 0) false false) = true ∧ Instr.wellFormed (.hostFullWrite 0 none 0 [0] false false) = false ∧
    Instr.wellFormed (.hostFullWrite 0 none 80000000000 (List.replicate 1024 0) false false) = false := by decide +kernel
theorem wf_jobPartialWrite : Instr.wellFormed (.jobPartialWrite 0 0 0 [(0, 1), (1, 2)] 0 0 [] false false false none false []) = true ∧
    Instr.wellFormed (.jobPartialWrite 0 0 0 [(1024, 1)] 0 0 [] false false false none false []) = false ∧
    Instr.wellFormed (.jobPartialWrite 0 0 0 [(0, 1), (0, 2)] 0 0 [] false false false none false []) = false ∧
    Instr.wellFormed (.jobPartialWrite 0 0 80000000000 [] 0 0 [] false false false none false []) = false ∧
    Instr.wellFormed (.jobPartialWrite 0 0 0 [] 0 0 [(1024, 1)] false false false none false []) = false := by decide
theorem wf_wordWrites_of_a_whole_blank : wfWords ((List.range 1024).map (fun i => (i, 0))) = false ∧ wfWords [(0, 1)] = true := by decide +kernel
theorem wf_hostPartialWrite : Instr.wellFormed (.hostPartialWrite 0 none 0 [(0, 1)] false [] false false) = true ∧
    Instr.wellFormed (.hostPartialWrite 0 none 0 [(0, 1), (0, 1)] false [] false false) = false ∧ Instr.wellFormed (.hostPartialWrite 0 none 80000000000 [] false [] false false) = false ∧
    Instr.wellFormed (.hostPartialWrite 0 none 0 [] false [(1024, 1)] false false) = false := by decide
theorem wf_copyback : Instr.wellFormed (.copyback 0 0 19493095 [] false false) = true ∧ Instr.wellFormed (.copyback 0 0 19493096 [] false false) = false ∧
    Instr.wellFormed (.copyback 0 0 0 [(1024, 1)] false false) = false := by decide
theorem wf_fullHashRead : Instr.wellFormed (.fullHashRead 0 0 0 0 [] false false) = true ∧ Instr.wellFormed (.fullHashRead 0 0 0 19493096 [] false false) = false ∧
    Instr.wellFormed (.fullHashRead 0 0 0 0 [(1024, 1)] false false) = false := by decide
/-- A frame over a list of words. -/
def frameOf (d : List (BitVec 32)) : Frame := { ctx := 0, keyCheck := 0, tag := 0, data := d, seq := 0, crcRetry := 0, adaptive := false }
theorem wf_linkFrames : Instr.wellFormed (.linkFrameSend 0 (frameOf (List.replicate 1024 0)) 0 0 false) = true ∧ Instr.wellFormed (.linkFrameSend 0 (frameOf []) 0 0 false) = false ∧
    Instr.wellFormed (.linkFrameSend 0 (frameOf (List.replicate 1024 0)) 0 19493096 false) = false ∧ Instr.wellFormed (.linkFrameReceive 0 (frameOf (List.replicate 1024 0))) = true ∧
    Instr.wellFormed (.linkFrameReceive 0 (frameOf [])) = false := by decide +kernel
theorem wf_linkTrained : Instr.wellFormed (.linkTrained 0 ⟨4, 0xF0, 20⟩ 0 []) = true ∧ Instr.wellFormed (.linkTrained 0 ⟨3, 0, 20⟩ 0 []) = false := by decide
theorem wf_tileStart : Instr.wellFormed (.tileStart 0 workedTile) = true ∧ Instr.wellFormed (.tileStart 0 { workedTile with segs := [] }) = false ∧
    Instr.wellFormed (.tileStart 0 { workedTile with segs := [⟨0, .e4m3, .e4m3, 0⟩] }) = false ∧ Instr.wellFormed (.tileStart 0 { workedTile with segs := [⟨32, .e4m3, .e4m3, 1024⟩] }) = false ∧
    Instr.wellFormed (.tileStart 0 { workedTile with segs := [⟨32, .e4m3, .e4m3, -1025⟩] }) = false := by decide
theorem wf_tilePark : Instr.wellFormed (.tilePark 0 [{ a := [], b := [], sa := [], sb := [] }] []) = true ∧
    Instr.wellFormed (.tilePark 0 [{ a := List.replicate 65 0, b := [], sa := [], sb := [] }] []) = false ∧
    Instr.wellFormed (.tilePark 0 [{ a := [], b := List.replicate 65 0, sa := [], sb := [] }] []) = false ∧
    Instr.wellFormed (.tilePark 0 [{ a := [], b := [], sa := List.replicate 65 0, sb := [] }] []) = false ∧
    Instr.wellFormed (.tilePark 0 [{ a := [], b := [], sa := [], sb := List.replicate 65 0 }] []) = false ∧
    Instr.wellFormed (.tilePark 0 [] [⟨19493095, 0, [(1023, 1)], 0⟩]) = true ∧ Instr.wellFormed (.tilePark 0 [] [⟨19493096, 0, [], 0⟩]) = false ∧
    Instr.wellFormed (.tilePark 0 [] [⟨0, 0, [(1024, 1)], 0⟩]) = false := by decide
theorem wf_reads : Instr.wellFormed (.singleReadEnd 0 false []) = true ∧ Instr.wellFormed (.singleReadEnd 0 false (List.replicate 65 [])) = false ∧
    Instr.wellFormed (.memberRead 0 false []) = true ∧ Instr.wellFormed (.memberRead 0 false [List.replicate 65 0]) = false := by decide
theorem wf_operandBlankComplete : Instr.wellFormed (.operandBlankComplete 0 0 0 0 0 [(1023, 5)]) = true ∧ Instr.wellFormed (.operandBlankComplete 0 0 0 0 0 [(1024, 5)]) = false ∧
    Instr.wellFormed (.operandBlankComplete 0 0 0 19493096 0 []) = false := by decide
theorem wf_shadow : Instr.wellFormed (.shadowMissing 0 575 5 0 7 0) = true ∧ Instr.wellFormed (.shadowMissing 0 576 5 0 7 0) = false ∧ Instr.wellFormed (.shadowMissing 0 0 6 0 7 0) = false ∧
    Instr.wellFormed (.shadowCompare 0 (cmp 1 2 none)) = true ∧ Instr.wellFormed (.shadowCompare 0 { cmp 1 2 none with logical := 576 }) = false := by decide
theorem wf_tileVerdict : Instr.wellFormed (.tileVerdict (flit .clean)) = true ∧ Instr.wellFormed (.tileVerdict { flit .clean with reason := 9 }) = false := by decide
theorem wf_huntTags : Instr.wellFormed (.huntTags 0 [1] 0) = true ∧ Instr.wellFormed (.huntTags 0 (List.replicate 4097 0) 0) = false := by decide +kernel
theorem wf_memCeStorm : Instr.wellFormed (.memCeStorm 0 0 79999999999) = true ∧ Instr.wellFormed (.memCeStorm 0 0 80000000000) = false := by decide
theorem wf_clockStretch : Instr.wellFormed (.clockStretch 16 0) = true ∧ Instr.wellFormed (.clockStretch 0 0) = false := by decide
theorem wf_bringupStep : Instr.wellFormed (.bringupStep { report with widths := [(0, ⟨8, 0, 20⟩)] }) = true ∧ Instr.wellFormed (.bringupStep { report with widths := [(0, ⟨5, 0, 20⟩)] }) = false := by decide

end Sys2Proof.Tests
end

namespace Sys2Proof.Machine

/-! ## Faults whose parameters are open values (log 8) -/

/-- An infrastructure event as it is queued: stamped, its parameters the next open value. -/
def State.openEvent (s : State) (e : Ev) : Ev :=
  s.stamp { e with p16 := s.fresh.1.setWidth 16, p32 := (s.fresh.1 >>> 16).setWidth 32 }

@[simp] theorem State.openEvent_code (s : State) (e : Ev) : (s.openEvent e).code = e.code := rfl

@[simp] theorem State.openEvent_cls (s : State) (e : Ev) : (s.openEvent e).cls = e.cls := rfl

@[simp] theorem State.openEvent_unit (s : State) (e : Ev) : (s.openEvent e).unit = e.unit := rfl

/-- An infrastructure fault takes one open value and goes to the fault steward; nothing else changes. -/
theorem State.emitOpen_fault (s : State) {e : Ev} (fault : e.cls ≠ .record) :
    s.emitOpen e = { s with free := s.free + 1, fst := { s.fst with faultQ := s.fst.faultQ ++ [s.openEvent e] } } :=
  State.emit_fault s.fresh.2 fault

/-! ## Errors of the register fabric (R12, R13) -/

/-- The C fault of the register fabric for a failed access, before it is stamped. -/
def fabricFault (code : BitVec 16) (src : Src) (off : Nat) : Ev :=
  { code, cls := .c, unit := uFabric, acc := accOf src, addr := BitVec.ofNat 64 off }

/-- An access error queues the fault of the register fabric and completes with an error; nothing else changes. -/
theorem accessError_eq (s : State) (code : BitVec 16) (src : Src) (off : Nat) (acc : Access) :
    accessError s code src off acc =
      ({ s with free := s.free + 1
                fst := { s.fst with faultQ := s.fst.faultQ ++ [s.openEvent (fabricFault code src off)] } } : State).complete
        src off true code (errorData acc) := by
  have is_fault : (fabricFault code src off).cls ≠ .record := Cls.noConfusion
  rw [← State.emitOpen_fault s is_fault]
  rfl

/-! ## Accesses to an offset without a register (R13) -/

theorem State.gate_of_no_register {s : State} {off : Nat} (awake : s.early = false) (none_at : regAt off = none) : s.gate off = .unmapped := by
  simp [State.gate, awake, none_at]

/-- Outside the states of R460 an aligned 8-byte access goes by the gate alone; where the gate says unmapped it is an access error. -/
theorem access_of_gate_unmapped {s : State} {off : Nat} (src : Src) (acc : Access) (awake : s.early = false) (aligned : off % 8 = 0)
    (unmapped : s.gate off = .unmapped) : access s src off 8 acc = accessError s 0x0003 src off acc := by
  simp [access, awake, aligned, unmapped]

theorem exec_registerWrite (src : Src) (off width : Nat) (acc : Access) (s : State) :
    exec (.registerWrite src off width acc) s = .next (access s src off width acc) := rfl

/-- Settles O2: the gate finds no register at the offset, so the access ends as an error of the register fabric. -/
theorem unmappedAccessIsRefused : Obligations.UnmappedAccessIsRefused := by
  unfold Obligations.UnmappedAccessIsRefused
  intro s src off acc awake aligned none_at
  refine ⟨s.openEvent (fabricFault 0x0003 src off), s.openEvent_code _, s.openEvent_cls _, s.openEvent_unit _, ?_⟩
  have unmapped : s.gate off = .unmapped := State.gate_of_no_register awake none_at
  rw [exec_registerWrite, access_of_gate_unmapped src acc awake aligned unmapped, accessError_eq]
  cases acc <;> rfl

end Sys2Proof.Machine

namespace Sys2Proof.Machine

/-! ## Every step keeps memory and tags sound (R95) -/

/-- The next state of an answer, where there is one, is sound if the state before is. -/
def KeepsSound (s : State) (r : Res) : Prop := AllNext (fun t => s.Sound → t.Sound) r

theorem AllNext.mono {p q : State → Prop} (imp : ∀ t, p t → q t) {r : Res} (h : AllNext p r) : AllNext q r := by
  cases r with
  | next t => exact imp t h
  | fault _ => trivial
  | refused _ => trivial

theorem KeepsSound.of_stores {s : State} {r : Res} (h : AllNext (Stores s) r) : KeepsSound s r :=
  h.mono fun _ stores => (stores_iff.mp stores).2

theorem KeepsSound.of_keeps {s : State} {r : Res} (h : Keeps s r) : KeepsSound s r := .of_stores (.of_keeps h)

theorem KeepsSound.of_held {s : State} {r : Res} (h : AllNext (fun t => t.held = s.held) r) : KeepsSound s r :=
  h.mono fun _ => sound_of_held

theorem sound_congr {s t : State} (mem : t.mem = s.mem) (tags : t.tags = s.tags) (sound : s.Sound) : t.Sound := by
  unfold State.Sound
  rw [mem, tags]
  exact sound

/-- No command leaves an unsound state (R95). The named cases store bytes or tags, may restart a processor and so decide a commit, or
move the tick or the fuses; every other command leaves memory and tags alone, which is the `_kept` lemma of its meaning. -/
theorem exec_keepsSound (i : Instr) (s : State) : KeepsSound s (exec i s) := by
  cases i
  case jobRead => exact .of_stores (memAccess_stores (jobRead_stores ..))
  case jobFullWrite => exact .of_stores (memAccess_stores (jobFullWrite_stores ..))
  case jobPartialWrite => exact .of_stores (memAccess_stores (jobPartialWrite_stores ..))
  case hostRead => exact .of_stores (memAccess_stores (hostRead_stores ..))
  case hostFullWrite => exact .of_stores (memAccess_stores (hostFullWrite_stores ..))
  case hostPartialWrite => exact .of_stores (memAccess_stores (hostPartialWrite_stores ..))
  case mgtuProbeRun => exact .of_stores (execMgtuProbeRun_stores ..)
  case copyback => exact .of_stores (execCopyback_stores ..)
  case fullHashRead => exact .of_stores (execFullHashRead_stores ..)
  case registerWrite => exact .of_stores (execRegisterWrite_stores ..)
  case mctpRegisterAccess => exact .of_stores (execMctpRegisterAccess_stores ..)
  case crossingClockRestart => exact .of_stores (execCrossingClockRestart_stores ..)
  case sliceResetEnd => exact .of_stores (execSliceResetEnd_stores ..)
  case poisonCollect => exact .of_stores (execPoisonCollect_stores ..)
  case commitInject => exact .of_stores (execCommitInject_stores ..)
  case readinessToken => exact .of_stores (execReadinessToken_stores ..)
  case commitHoldTimeout => exact .of_stores (execCommitHoldTimeout_stores ..)
  case targetQuiet => exact .of_stores (execTargetQuiet_stores ..)
  case abortDrainTimeout => exact .of_stores (execAbortDrainTimeout_stores ..)
  case prvLeafDone => exact .of_stores (execPrvLeafDone_stores ..)
  case prvReadDone => exact .of_stores (execPrvReadDone_stores ..)
  case planValidated => exact .of_stores (execPlanValidated_stores ..)
  case distributionDone => exact .of_stores (execDistributionDone_stores ..)
  case recDumpDone => exact .of_stores (execRecDumpDone_stores ..)
  case fwpLoadDone => exact .of_stores (execFwpLoadDone_stores ..)
  case hello => exact .of_stores (serveActs_stores ..)
  case getStatus => exact .of_stores (serveActs_stores ..)
  case echo => exact .of_stores (serveActs_stores ..)
  case queueStatus => exact .of_stores (serveActs_stores ..)
  case traceName => exact .of_stores (serveActs_stores ..)
  case queueCycle => exact .of_stores (execQueueCycle_stores ..)
  case watchdogExpiry => exact .of_stores (execWatchdogExpiry_stores ..)
  case fwpCtrlRestart => exact .of_stores (execFwpCtrlRestart_stores ..)
  case tcmError => exact .of_stores (execTcmError_stores ..)
  case latchRelease => exact .of_stores (execLatchRelease_stores ..)
  case fwpFailed => exact .of_stores (execFwpFailed_stores ..)
  case resetEnd => exact .of_stores (execResetEnd_stores ..)
  case bringupStep => exact .of_stores (execBringupStep_stores ..)
  case tickSync l tick frac ahead retries => exact .of_held (execTickSync_held l tick frac ahead retries s)
  case tickSyncReply => exact .of_held (execTickSyncReply_held ..)
  case abandon => exact .of_held (execAbandon_held ..)
  case barrierFire => exact .of_held (execBarrierFire_held ..)
  case vddAonLoss => exact .of_held (execVddAonLoss_held ..)
  case aonPowerValid fuses main mem io bad =>
    exact (execAonPowerValid_stays fuses main mem io bad s).mono fun _ ⟨_, mem, tags⟩ => sound_congr mem tags
  all_goals exact .of_keeps (by simp [exec])

/-- The passing of time leaves memory and tags alone; a command is carried out on the state with the rest of the queue. -/
theorem step_keepsSound (s : State) : KeepsSound s (step s) := by
  unfold step
  split
  · exact sound_of_held (idleTick_held s)
  · exact exec_keepsSound ..

/-- A carried tag of a reserved state holds for no words (R95, R96). -/
theorem tagMatches_of_reserved {tag : BitVec 64} (reserved : 4 < (tagState tag).toNat) (rho : BitVec 61) (words : List (BitVec 32)) :
    tagMatches rho words tag = false := by
  simp [tagMatches, reserved]

/-- Settles O11: soundness is kept by the meaning of every command and by the passing of time. -/
theorem noReservedTagStateIsEverStored : Obligations.NoReservedTagStateIsEverStored := by
  unfold Obligations.NoReservedTagStateIsEverStored
  refine ⟨fun s t sound stepped => ?_, fun rho words tag reserved => tagMatches_of_reserved reserved rho words⟩
  have keeps := step_keepsSound s
  rw [stepped] at keeps
  exact keeps sound

/-! ## The state table on poisoned blanks (R115, R116) -/

@[simp] theorem mkTag_tagState_tagFp (tag : BitVec 64) : mkTag (tagState tag) (tagFp tag) = tag := by
  unfold mkTag tagState tagFp
  ext i hi
  rw [BitVec.getElem_append]
  split
  · simp [BitVec.getLsbD_eq_getElem hi]
  · simp [show 61 + (i - 61) = i by omega, BitVec.getLsbD_eq_getElem hi]

theorem poisonOver_of_isPoison {st : BitVec 3} (poisoned : isPoison st = true) : poisonOver st = st := if_pos poisoned

theorem poisonOver_ne_clean (st : BitVec 3) : poisonOver st ≠ 0 := by revert st; decide

theorem ne_clean_of_isPoison {st : BitVec 3} (poisoned : isPoison st = true) : st ≠ tClean := by rintro rfl; cases poisoned

theorem ne_untagged_of_isPoison {st : BitVec 3} (poisoned : isPoison st = true) : st ≠ tUntagged := by rintro rfl; cases poisoned

theorem fullRow_of_matches {rho : BitVec 61} {carried : BitVec 64} {data : List (BitVec 32)} (holds : tagMatches rho data carried = true)
    (stored : BitVec 64) : fullRow (some rho) stored carried data =
      (mkTag (if isPoison (tagState stored) && isPoison (tagState carried) then tagState stored else tagState carried) (tagFp carried), false) := by
  simp [fullRow, holds]

theorem fullRow_of_mismatch {rho : BitVec 61} {carried : BitVec 64} {data : List (BitVec 32)} (mismatch : ¬ tagMatches rho data carried = true)
    (stored : BitVec 64) : fullRow (some rho) stored carried data = (mkTag (poisonOver (tagState stored)) (fpOf rho data), true) := by
  simp [fullRow, mismatch]

theorem fullRow_unkeyed (stored carried : BitVec 64) (data : List (BitVec 32)) : (fullRow none stored carried data).1 =
    mkTag (if 4 < (tagState carried).toNat ∨ isPoison (tagState carried) = true then poisonOver (tagState stored) else tUntagged) 0 := by
  unfold fullRow
  dsimp only
  split
  · next reserved => rw [if_pos (.inl reserved)]
  · next legal =>
    split
    · next poison => rw [if_pos (.inr poison)]
    · next unpoisoned => rw [if_neg (not_or.mpr ⟨legal, unpoisoned⟩)]

theorem tagFp_fullRow_keyed (rho : BitVec 61) (stored carried : BitVec 64) (data : List (BitVec 32)) :
    tagFp (fullRow (some rho) stored carried data).1 = if tagMatches rho data carried then tagFp carried else fpOf rho data := by
  split
  · next holds => rw [fullRow_of_matches holds, tagFp_mkTag]
  · next mismatch => rw [fullRow_of_mismatch mismatch, tagFp_mkTag]

/-- The fingerprint of a host full write: of its data under the key, 0 without one. -/
def hostFp (key : Option (BitVec 61)) (data : List (BitVec 32)) : BitVec 61 := match key with | some rho => fpOf rho data | none => 0

theorem hostFullRow_eq (key : Option (BitVec 61)) (ep : Bool) (stored : BitVec 64) (data : List (BitVec 32)) : hostFullRow key ep stored data =
    if ep then mkTag (poisonOver (tagState stored)) (hostFp key data) else if key.isSome then mkTag tClean (hostFp key data) else mkTag tUntagged 0 := rfl

/-- Only a keyed host full write with EP clear leaves a blank CLEAN. -/
theorem hostFullRow_clean {key : Option (BitVec 61)} {ep : Bool} {stored : BitVec 64} {data : List (BitVec 32)}
    (clean : tagState (hostFullRow key ep stored data) = 0) : key.isSome = true ∧ ep = false := by
  rw [hostFullRow_eq] at clean
  split at clean
  · exact absurd (by simpa using clean) (poisonOver_ne_clean (tagState stored))
  · split at clean
    · next no_ep keyed => exact ⟨keyed, by simpa using no_ep⟩
    · cases (tagState_mkTag ..).symm.trans clean

section Poisoned

variable {stored : BitVec 64} (poisoned : isPoison (tagState stored) = true)
include poisoned

/-- Every row of a read leaves the whole tag of a poisoned blank. -/
theorem readRow_stored_of_poisoned (keyed ecc : Bool) (fp : BitVec 61) : (readRow keyed ecc stored fp).stored = stored := by
  unfold readRow
  dsimp only
  rw [poisonOver_of_isPoison poisoned, mkTag_tagState_tagFp]
  repeat' split
  all_goals rfl

theorem readRow_event_of_mismatch {fp : BitVec 61} (mismatch : tagFp stored ≠ fp) : (readRow true false stored fp).event = some 0x4001 := by
  simp [readRow, ne_untagged_of_isPoison poisoned, mismatch]

theorem partialRow_keyed_of_poisoned (rho : BitVec 61) (ecc : Bool) (carried : BitVec 3) (g : BitVec 61) (new old : WordWrites) :
    (partialRow (some rho) ecc stored carried g new old).1 = mkTag (tagState stored) (deltaOf rho stored new old) := by
  have untagged := ne_untagged_of_isPoison poisoned
  have clean := ne_clean_of_isPoison poisoned
  unfold partialRow
  dsimp only
  rw [poisonOver_of_isPoison poisoned, if_neg untagged, if_neg clean]
  repeat' split
  all_goals rfl

theorem partialRow_unkeyed_of_poisoned (ecc : Bool) (carried : BitVec 3) (g : BitVec 61) (new old : WordWrites) :
    (partialRow none ecc stored carried g new old).1 =
      if 4 < carried.toNat ∨ (ecc || isPoison carried) = true then mkTag (tagState stored) 0 else stored := by
  have clean := ne_clean_of_isPoison poisoned
  unfold partialRow
  dsimp only
  rw [poisonOver_of_isPoison poisoned, if_neg clean]
  split
  · next reserved => rw [if_pos (.inl reserved)]
  · next legal =>
    simp only [legal, false_or]
    split <;> rfl

theorem hostPartialRow_keyed_of_poisoned (rho : BitVec 61) (ep ecc : Bool) (new old : WordWrites) :
    hostPartialRow (some rho) ep ecc stored new old = mkTag (tagState stored) (deltaOf rho stored new old) := by
  have untagged := ne_untagged_of_isPoison poisoned
  unfold hostPartialRow
  dsimp only
  rw [poisonOver_of_isPoison poisoned, if_neg untagged, if_neg untagged, ite_self, ite_self]

theorem hostPartialRow_unkeyed_of_poisoned (ep ecc : Bool) (new old : WordWrites) :
    hostPartialRow none ep ecc stored new old = if (ep || ecc) = true then mkTag (tagState stored) 0 else stored := by
  have clean := ne_clean_of_isPoison poisoned
  unfold hostPartialRow
  dsimp only
  rw [poisonOver_of_isPoison poisoned, if_neg clean]

/-- A full write that leaves a poisoned blank poisoned leaves its state: the carried POISON state gives way to the stored one. -/
theorem tagState_fullRow_of_poisoned {key : Option (BitVec 61)} {carried : BitVec 64} {data : List (BitVec 32)}
    (still : isPoison (tagState (fullRow key stored carried data).1) = true) :
    tagState (fullRow key stored carried data).1 = tagState stored := by
  cases key with
  | none =>
    rw [fullRow_unkeyed, tagState_mkTag, poisonOver_of_isPoison poisoned] at still ⊢
    split at still
    · next carries => rw [if_pos carries]
    · cases still
  | some rho =>
    by_cases holds : tagMatches rho data carried = true
    · rw [fullRow_of_matches holds, tagState_mkTag, poisoned, Bool.true_and] at still ⊢
      split at still
      · next both => rw [if_pos both]
      · next unpoisoned => exact absurd still unpoisoned
    · rw [fullRow_of_mismatch holds, tagState_mkTag, poisonOver_of_isPoison poisoned]

/-- Only a keyed full write that carries CLEAN leaves a poisoned blank CLEAN. -/
theorem fullRow_clean_of_poisoned {key : Option (BitVec 61)} {carried : BitVec 64} {data : List (BitVec 32)}
    (clean : tagState (fullRow key stored carried data).1 = 0) : key.isSome = true ∧ tagState carried = 0 := by
  cases key with
  | none =>
    rw [fullRow_unkeyed, tagState_mkTag] at clean
    split at clean
    · exact absurd clean (poisonOver_ne_clean _)
    · cases clean
  | some rho =>
    refine ⟨rfl, ?_⟩
    by_cases holds : tagMatches rho data carried = true
    · rw [fullRow_of_matches holds, tagState_mkTag] at clean
      split at clean
      · exact absurd clean (ne_clean_of_isPoison poisoned)
      · exact clean
    · rw [fullRow_of_mismatch holds, tagState_mkTag] at clean
      exact absurd clean (poisonOver_ne_clean _)

theorem hostFullRow_of_ep {ep : Bool} (marked : ep = true) (key : Option (BitVec 61)) (data : List (BitVec 32)) :
    hostFullRow key ep stored data = mkTag (tagState stored) (hostFp key data) := by
  rw [hostFullRow_eq, if_pos marked, poisonOver_of_isPoison poisoned]

theorem tagState_partialRow_of_poisoned (key : Option (BitVec 61)) (ecc : Bool) (carried : BitVec 3) (g : BitVec 61) (new old : WordWrites) :
    tagState (partialRow key ecc stored carried g new old).1 = tagState stored := by
  cases key with
  | none => rw [partialRow_unkeyed_of_poisoned poisoned, apply_ite tagState, tagState_mkTag, ite_self]
  | some rho => rw [partialRow_keyed_of_poisoned poisoned, tagState_mkTag]

theorem tagState_hostPartialRow_of_poisoned (key : Option (BitVec 61)) (ep ecc : Bool) (new old : WordWrites) :
    tagState (hostPartialRow key ep ecc stored new old) = tagState stored := by
  cases key with
  | none => rw [hostPartialRow_unkeyed_of_poisoned poisoned, apply_ite tagState, tagState_mkTag, ite_self]
  | some rho => rw [hostPartialRow_keyed_of_poisoned poisoned, tagState_mkTag]

end Poisoned

/-! ## The state table on UNTAGGED blanks (R115, R116) -/

theorem poisonOver_untagged : poisonOver tUntagged = tMem := rfl

theorem ne_clean_of_mem_or_untagged {st : BitVec 3} (h : st = tMem ∨ st = tUntagged) : st ≠ 0 := by
  rcases h with rfl | rfl <;> decide

section Untagged

variable {stored : BitVec 64} (untagged : tagState stored = tUntagged)
include untagged

theorem readRow_of_untagged (keyed ecc : Bool) (fp : BitVec 61) :
    tagState (readRow keyed ecc stored fp).stored = tMem ∨ tagState (readRow keyed ecc stored fp).stored = tUntagged := by
  unfold readRow
  dsimp only
  rw [untagged, poisonOver_untagged, if_pos rfl]
  split
  · exact .inl (tagState_mkTag ..)
  · split <;> exact .inr untagged

theorem partialRow_of_untagged (key : Option (BitVec 61)) (ecc : Bool) (carried : BitVec 3) (g : BitVec 61) (new old : WordWrites) :
    tagState (partialRow key ecc stored carried g new old).1 = tMem ∨ tagState (partialRow key ecc stored carried g new old).1 = tUntagged := by
  unfold partialRow
  dsimp only
  rw [untagged, poisonOver_untagged]
  cases key with
  | none =>
    dsimp only
    rw [if_neg (by decide : tUntagged ≠ tClean)]
    repeat' split
    all_goals simp [untagged]
  | some rho =>
    dsimp only
    rw [if_pos rfl]
    repeat' split
    all_goals simp [untagged]

theorem hostPartialRow_of_untagged (key : Option (BitVec 61)) (ep ecc : Bool) (new old : WordWrites) :
    tagState (hostPartialRow key ep ecc stored new old) = tMem ∨ tagState (hostPartialRow key ep ecc stored new old) = tUntagged := by
  unfold hostPartialRow
  dsimp only
  rw [untagged, poisonOver_untagged]
  cases key with
  | none =>
    dsimp only
    rw [if_neg (by decide : tUntagged ≠ tClean)]
    split <;> simp [untagged]
  | some rho =>
    dsimp only
    rw [if_pos rfl, if_pos rfl]
    repeat' split
    all_goals simp [untagged]

end Untagged

/-- Settles O14: on a poisoned blank every row that leaves a POISON state leaves the stored one. -/
theorem poisonKeepsItsFirstCause : Obligations.PoisonKeepsItsFirstCause := by
  unfold Obligations.PoisonKeepsItsFirstCause
  intro key stored carried st g fp data new old ep ecc keyed
  refine ⟨fun poisoned => ⟨readRow_stored_of_poisoned poisoned keyed ecc fp, fun error => ?_, fun no_ecc is_keyed mismatch => ?_,
      fun still => ⟨tagState_fullRow_of_poisoned poisoned still, ?_⟩, tagState_partialRow_of_poisoned poisoned .., fun rho key_eq => ?_,
      fun key_eq marked => ?_, fun marked => hostFullRow_of_ep poisoned marked key data, tagState_hostPartialRow_of_poisoned poisoned ..,
      fun marked => ?_, fullRow_clean_of_poisoned poisoned, hostFullRow_clean⟩,
    fun untagged => ⟨ne_clean_of_mem_or_untagged (readRow_of_untagged untagged ..), ne_clean_of_mem_or_untagged (partialRow_of_untagged untagged ..),
      ne_clean_of_mem_or_untagged (hostPartialRow_of_untagged untagged ..)⟩⟩
  · rw [error]; rfl
  · rw [no_ecc, is_keyed]; exact readRow_event_of_mismatch poisoned mismatch
  · cases key with
    | none => rw [fullRow_unkeyed, tagFp_mkTag]
    | some rho => exact tagFp_fullRow_keyed rho stored carried data
  · rw [key_eq, partialRow_keyed_of_poisoned poisoned, tagFp_mkTag]
  · rw [key_eq, partialRow_unkeyed_of_poisoned poisoned, if_pos (.inr (by simpa using marked)), tagFp_mkTag]
  · cases key with
    | none => rw [hostPartialRow_unkeyed_of_poisoned poisoned, if_pos marked, tagFp_mkTag]
    | some rho => rw [hostPartialRow_keyed_of_poisoned poisoned, tagFp_mkTag]

end Sys2Proof.Machine

namespace Sys2Proof.Machine

/-! ## VX_ID and the channel registers at reset (R487, R488) -/

/-- The fields of a packed register add up. -/
theorem pack_cons (lo w n : Nat) (fs : List (Nat × Nat × Nat)) :
    pack ((lo, w, n) :: fs) = BitVec.ofNat 64 (n % 2 ^ w * 2 ^ lo) + pack fs := by
  simp [pack, BitVec.ofNat_add]

/-- What VX_ID reads on a grade -A part. -/
def idOfGradeA (f : Fuses) : Reg :=
  pack [(0, 8, 1), (8, 8, f.stepping.toNat), (16, 4, f.product.toNat), (21, 5, f.rowCnt), (26, 5, f.stackCnt), (31, 5, f.linkCnt)]

/-- A grade -B part of the same product reads bit 20 higher, on every stepping. -/
theorem readReg_id_eq_add_grade (s : State) :
    readReg s .id = idOfGradeA s.fuses + if s.fuses.gradeB then 0x100000 else 0 := by
  have grade_field : BitVec.ofNat 64 (b2n s.fuses.gradeB % 2 ^ 1 * 2 ^ 20) = if s.fuses.gradeB then 0x100000 else 0 := by
    cases s.fuses.gradeB <;> rfl
  simp only [readReg, readId, idOfGradeA, State.rows, State.links, pack_cons, grade_field]
  ac_rfl

/-- On a part of known product and counts, VX_ID is the product's word and the grade bit. -/
theorem readReg_id_of_part {s : State} {product : BitVec 4} {rows memories links : Nat} (stepping : s.fuses.stepping = 0)
    (is_product : s.fuses.product = product) (has_rows : s.fuses.rowCnt = rows) (has_memories : s.fuses.stackCnt = memories)
    (has_links : s.fuses.linkCnt = links) :
    readReg s .id = pack [(0, 8, 1), (8, 8, 0), (16, 4, product.toNat), (21, 5, rows), (26, 5, memories), (31, 5, links)] +
      if s.fuses.gradeB then 0x100000 else 0 := by
  rw [readReg_id_eq_add_grade, idOfGradeA, stepping, is_product, has_rows, has_memories, has_links]
  rfl

theorem chans_reset_at (h : Chan) : State.reset.fwp.chans.at h = chanAtReset h :=
  Vector.getElem_ofFn h.isLt

theorem readReg_fwpChanStatus_reset (h : Chan) : readReg State.reset (.fwpChanStatus h) = readChan h (chanAtReset h) := by
  rw [readReg, chans_reset_at]

theorem readReg_fwpChanStatus_reset_of_dynamic {h : Chan} (dynamic : 10 ≤ h.val) :
    readReg State.reset (.fwpChanStatus h) = 0x1F8 := by
  have not_fixed : ¬ h.val < 10 := Nat.not_lt.mpr dynamic
  rw [readReg_fwpChanStatus_reset, chanAtReset, if_neg not_fixed, readChan, decide_eq_false not_fixed]
  rfl

/-- A fixed channel is OPEN and fixed (5) with priority 3 (0x600), its sender in bits 3 to 5 and its receiver in bits 6 to 8. -/
theorem readReg_fwpChanStatus_reset_of_fixed {h : Chan} (fixed : h.val < 10) :
    readReg State.reset (.fwpChanStatus h) =
      BitVec.ofNat 64 (0x605 + 8 * (fixedEnds h.val).1.toNat + 0x40 * (fixedEnds h.val).2.toNat) := by
  have sender := (fixedEnds h.val).1.isLt
  have receiver := (fixedEnds h.val).2.isLt
  rw [readReg_fwpChanStatus_reset, chanAtReset, if_pos fixed, readChan, pack, decide_eq_true fixed]
  refine congrArg (BitVec.ofNat 64) ?_
  simp only [List.map_cons, List.map_nil, List.sum_cons, List.sum_nil, List.length_nil, ChanState.code, b2n, BitVec.reduceToNat,
    if_true, Bool.false_eq_true, if_false]
  omega

/-- The sender and the receiver of each fixed channel (R441, R488). -/
def fixedEndsTable : List (Nat × Nat) := [(0, 1), (0, 2), (0, 3), (0, 4), (1, 0), (2, 0), (3, 0), (4, 0), (0, 5), (5, 0)]

theorem fixedEnds_eq_table : ∀ i : Fin 10, fixedEndsTable[i.val]? = some ((fixedEnds i.val).1.toNat, (fixedEnds i.val).2.toNat) := by
  decide

/-- A fixed channel resets to 0x605 + 8 × sender + 0x40 × receiver. -/
theorem readReg_fwpChanStatus_reset_of_ends {h : Chan} {a b : Nat} (ends : fixedEndsTable[h.val]? = some (a, b)) :
    readReg State.reset (.fwpChanStatus h) = BitVec.ofNat 64 (0x605 + 8 * a + 0x40 * b) := by
  obtain ⟨fixed, -⟩ := List.getElem?_eq_some_iff.mp ends
  have listed := fixedEnds_eq_table ⟨h.val, fixed⟩
  rw [ends, Option.some_inj, Prod.mk.injEq] at listed
  obtain ⟨rfl, rfl⟩ := listed
  exact readReg_fwpChanStatus_reset_of_fixed fixed

/-- Settles O59: VX_ID is the sum of its fields, the grade's apart, and a channel register at reset is read off the channel's ends. -/
theorem identityAndChannelResetValues : Obligations.IdentityAndChannelResetValues := by
  unfold Obligations.IdentityAndChannelResetValues
  refine ⟨fun s stepping => ⟨?t9x, ?t9, ?t9l, ?t9m⟩, fun h dynamic => readReg_fwpChanStatus_reset_of_dynamic dynamic,
    fun h a b ends => readReg_fwpChanStatus_reset_of_ends ends, ?fixed⟩
  case fixed => refine ⟨?_, ?_, ?_, ?_, ?_, ?_, ?_, ?_, ?_, ?_⟩ <;> exact readReg_fwpChanStatus_reset_of_fixed (by decide)
  all_goals
    intro is_product has_rows has_memories has_links
    rw [readReg_id_of_part stepping is_product has_rows has_memories has_links]
    rfl

end Sys2Proof.Machine

namespace Sys2Proof.Machine

/-! ## Every command completes but for an access outside its stack (R101) -/

/-- The answer is a next state. -/
def Completes (r : Res) : Prop := ∃ t, r = .next t

theorem Completes.next (t : State) : Completes (.next t) := ⟨t, rfl⟩

theorem Completes.of_keeps {s : State} {r : Res} (h : Keeps s r) : Completes r := h.imp fun _ kept => kept.1

theorem Completes.ite {p : Prop} [Decidable p] {a b : Res} (ha : Completes a) (hb : Completes b) : Completes (if p then a else b) := by
  split <;> assumption

theorem memAccess_completes {s : State} {g : Gtu} {a : Nat} {f : State} (inside : a < stackSize) : Completes (memAccess s g a f) := by
  rw [memAccess, if_neg (Nat.not_le.mpr inside)]
  exact .ite (.next _) (.next _)

theorem memAccess_outside {s : State} {g : Gtu} {a : Nat} {f : State} (outside : stackSize ≤ a) : memAccess s g a f = .fault .outsideStack :=
  if_pos outside

theorem exec_completes_of_memAddr_none {i : Instr} (no_address : memAddr i = none) (s : State) : Completes (exec i s) := by
  cases i
  case jobRead | jobFullWrite | jobPartialWrite | hostRead | hostFullWrite | hostPartialWrite => cases no_address
  case registerWrite | crossingClockRestart | hello | getStatus | echo | queueStatus | traceName | watchdogExpiry | fwpCtrlRestart |
      fwpFailed => exact .next _
  case mgtuProbeRun | copyback | fullHashRead | mctpRegisterAccess | sliceResetEnd | poisonCollect | commitInject | readinessToken |
      commitHoldTimeout | targetQuiet | abortDrainTimeout | prvLeafDone | prvReadDone | planValidated | distributionDone | recDumpDone |
      fwpLoadDone | queueCycle | tcmError | latchRelease | resetEnd | bringupStep | tickSync | tickSyncReply | abandon | barrierFire |
      vddAonLoss | aonPowerValid =>
    simp only [exec, execMgtuProbeRun, execCopyback, execFullHashRead, execMctpRegisterAccess, execSliceResetEnd, execPoisonCollect, execCommitInject,
      execReadinessToken, execCommitHoldTimeout, execTargetQuiet, execAbortDrainTimeout, execPrvLeafDone, execPrvReadDone,
      execPlanValidated, execDistributionDone, execRecDumpDone, execFwpLoadDone, execQueueCycle, execTcmError, execLatchRelease,
      execResetEnd, execBringupStep, execTickSync, execTickSyncReply, execAbandon, execBarrierFire, execVddAonLoss, execAonPowerValid]
    repeat' split
    all_goals exact .next _
  all_goals exact .of_keeps (s := s) (by simp [exec])

theorem exec_of_memAddr_inside {i : Instr} {a : Nat} (address : memAddr i = some a) (inside : a < stackSize) (s : State) :
    Completes (exec i s) := by
  cases i <;> cases address <;> exact memAccess_completes inside

theorem exec_of_memAddr_outside {i : Instr} {a : Nat} (address : memAddr i = some a) (outside : stackSize ≤ a) (s : State) :
    exec i s = .fault .outsideStack := by
  cases i <;> cases address <;> exact memAccess_outside outside

/-- Settles O24: only the memory commands name an address, and the check of it is the one way for a command to stop. -/
theorem everyCommandCompletes : Obligations.EveryCommandCompletes := by
  unfold Obligations.EveryCommandCompletes
  refine fun i s => ⟨fun inside => ?_, fun a address outside => exec_of_memAddr_outside address outside s⟩
  cases address : memAddr i with
  | none => exact exec_completes_of_memAddr_none address s
  | some a => exact exec_of_memAddr_inside address (inside a address) s

/-! ## A command outside `writesMemory` that stores bytes

GET_STATUS carries what the firmware did before the request. A store to the locked code part restarts the processor (R426); with two
restarts counted it fails instead (R451), and the commit that waited for its token is decided (R452). That commit closes a span, whose
record is written to memory (R307). -/

/-- A plan of one position, a result point without lists: its spans have no leaves to hash. -/
def resultPlan : Plan := { core := { positions := [{ e := 0, barrier := false, result := true, resultNo := 0 }] } }

/-- A context that waits for its token with its span open. -/
def awaitingToken : CtxSt :=
  { pass := { st := .held }, exec := { injected := false, tokenWait := true }, plan := { active := some resultPlan }
    prv := { span := some { plan := resultPlan } } }

/-- Context 0 waits for the token of PC0, which has restarted twice; of its ring the first byte lies in a stack. -/
def controllerRestartedTwice : State :=
  { State.reset with
    jobMap := [{ job := 0, size := 1, stack := 0, addr := 0 }]
    pwr := { vs := .vs0 }
    ctxs := State.reset.ctxs.upd 0 (fun _ => awaitingToken)
    fwp := { State.reset.fwp with procs := State.reset.fwp.procs.upd 1 (fun _ => { state := .run, locked := true, recent := [0, 0] }) } }

/-- The store of the firmware before the request writes the first byte of the span's record. -/
theorem getStatus_stores_record :
    (serveOpcode 2 1 0 (fwActs controllerRestartedTwice 1 [.store .code 0 0])).mem = [(0, 1)] := by decide +kernel

/-- Refutes O25: GET_STATUS is not among the named commands, and the failure it may bring with it ends in a commit that writes a record. -/
theorem not_onlyTheNamedCommandsChangeMemory : ¬ Obligations.OnlyTheNamedCommandsChangeMemory := by
  unfold Obligations.OnlyTheNamedCommandsChangeMemory
  intro claim
  obtain ⟨-, -, same_memory, -, -⟩ := claim (.getStatus 1 0 [.store .code 0 0]) controllerRestartedTwice _ rfl
  exact absurd (getStatus_stores_record.symm.trans (same_memory rfl)) (by decide)

end Sys2Proof.Machine


namespace Sys2Proof.Machine

/-! ## Register values after reset (chapter 17) -/

@[simp] theorem at_replicate {n : Nat} {α : Type} (x : α) (i : Fin n) : Tab.at (Vector.replicate n x) i = x := by
  simp [Tab.at]

/-- A context after reset. -/
theorem ctx_reset (c : Ctx) : State.reset.ctx c = {} := at_replicate ..

/-- After reset no context has a plan, and so none has a pair. -/
theorem pairOf_reset (c : Ctx) : State.reset.pairOf c = none := by
  rw [State.pairOf, State.planOf, ctx_reset]
  rfl

theorem slot_reset (k : Fin 3) : State.reset.fst.slots.at k = {} := at_replicate ..

theorem slice_reset (n : Slice) : State.reset.wce.slices.at n = sliceAtReset n := by
  simp [State.reset, Tab.at]

theorem port_reset (a : Arr) : State.reset.wce.ports.at a = {} := at_replicate ..

theorem mgtu_reset (g : Gtu) : State.reset.mgtu.at g = {} := at_replicate ..

theorem lgtu_reset (l : Lnk) : State.reset.lgtu.at l = {} := at_replicate ..

theorem proc_reset (p : Proc) : State.reset.proc p = procAtReset p := by
  simp [State.reset, State.proc, fwpAtReset, Tab.at]

/-- A row slice serves its own row after reset, the standby none. -/
theorem readReg_wceSliceStatus_reset (n : Slice) : readReg State.reset (.wceSliceStatus n) =
    if n.val = 24 then 0x1F3F else BitVec.ofNat 64 (n.val + 0x100 * n.val) := by
  rw [readReg, slice_reset]
  revert n
  decide

theorem readReg_fwpStatus_reset (p : Proc) : readReg State.reset (.fwpStatus p) = if p = 0 then 2 else 0 := by
  rw [readReg, proc_reset]
  revert p
  decide

theorem readReg_fwpWdt_reset (p : Proc) : readReg State.reset (.fwpWdt p) = if p = 0 then 0x14 else if p = 5 then 0x32 else 2 := by
  rw [readReg, proc_reset]
  revert p
  decide

theorem readReg_ctx_reset (c : Ctx) :
    readReg State.reset (.ctxIntegrity c) = 0 ∧ readReg State.reset (.ctxPass c) = 0 ∧ readReg State.reset (.ctxPassCtrl c) = 0x10000 ∧
    readReg State.reset (.ctxBarrier c) = 0x0FFF0000 ∧ readReg State.reset (.lscCtxStatus c) = 0x07FF803E ∧
    readReg State.reset (.prvCtxStatus c) = 0xFFFFFFFF ∧ readReg State.reset (.prvCtxAck c) = 0xFFFFFFFF ∧
    readReg State.reset (.plnCtxResult c) = 0x0FF0000000000000 ∧ readReg State.reset (.plnCtxStatus c) = 0 := by
  simp only [readReg, readLsc, pairOf_reset, ctx_reset]
  decide

theorem sensor_reset (n : Sensor) : State.reset.thm.sensors.at n = {} := at_replicate ..

/-- Every sensor is LIVE after reset. -/
theorem failedSensors_reset : State.reset.failedSensors = 0 := by
  simp [State.failedSensors, sensor_reset]

/-- No unit has completed a pattern after reset, so that none is overdue. -/
theorem overdue_reset (u : UnitId) : State.reset.overdue u = false := by
  simp [State.overdue, State.reset, Scr.unit]

theorem readReg_thmStatus_reset : readReg State.reset .thmStatus = 0x6403FF0000 := by
  rw [readReg, readThm, failedSensors_reset]
  decide

theorem readReg_scrStatus_reset : readReg State.reset .scrStatus = 0xFFFF0000 := by
  have none_overdue : State.reset.screened.any State.reset.overdue = false := by simp [overdue_reset]
  rw [readReg, readScr, none_overdue]
  decide

/-- No reset is in progress after reset, so that no port is BUSY. -/
theorem readReg_wcePortStatus_reset (a : Arr) : readReg State.reset (.wcePortStatus a) = 0x07F80000 := by
  have no_resets : State.reset.pwr.resets = [] := rfl
  simp only [readReg, readPort, port_reset, no_resets, List.any_nil]
  decide

/-- Settles O60: every copy of a block holds the same structure after reset, from which its register is computed. -/
theorem registersResetToTheirIndexValues : Obligations.RegistersResetToTheirIndexValues := by
  unfold Obligations.RegistersResetToTheirIndexValues
  refine ⟨readReg_ctx_reset, fun k => ?slot, ?_, ?_, ?_, ?_, readReg_wceSliceStatus_reset, readReg_wcePortStatus_reset, fun g => ?gtu, fun l => ?link, ?_, ?_, ?_, ?_,
    readReg_thmStatus_reset, ?_, ?_,
    fun p => ⟨readReg_fwpStatus_reset p, readReg_fwpWdt_reset p⟩, ?_, ?_,
    readReg_scrStatus_reset, ?_, ?_, ?_, ?_, ?_⟩
  case slot => rw [readReg, slot_reset]; decide
  case gtu => simp only [readReg, mgtu_reset]; decide
  case link => rw [readReg, lgtu_reset]; decide
  all_goals decide +kernel

end Sys2Proof.Machine


namespace Sys2Proof.Machine

/-! ## The state after reset and the queue of commands -/

/-- Settles O12: nothing is listed, so nothing is out of order and no reserved tag is stored. -/
theorem resetStateIsSound : Obligations.ResetStateIsSound := by
  unfold Obligations.ResetStateIsSound
  exact ⟨⟨rfl, rfl, fun e listed => nomatch listed⟩, rfl, rfl⟩

theorem step_of_front {s : State} {c : Instr} {rest : List Instr} (front : s.pending = c :: rest) :
    step s = exec c { s with pending := rest } := by
  simp [step, front]

theorem step_of_empty {s : State} (empty : s.pending = []) : step s = .next (idleTick s) := by
  simp [step, empty]

/-- Settles O23: by the two cases of a step; the passing of time is what `idleTick_held` says of it. -/
theorem theFrontCommandRuns : Obligations.TheFrontCommandRuns := by
  unfold Obligations.TheFrontCommandRuns
  refine ⟨fun s c rest front => step_of_front front, fun s empty => ⟨idleTick s, step_of_empty empty, ?_⟩⟩
  obtain ⟨pending, fuses, mem, tags⟩ : s.pending = (idleTick s).pending ∧ s.fuses = (idleTick s).fuses ∧ s.mem = (idleTick s).mem ∧
      s.tags = (idleTick s).tags := by
    simpa [State.held] using (idleTick_held s).symm
  exact ⟨pending.symm.trans empty, mem.symm, tags.symm, fuses.symm⟩

/-! ## Register accesses (R12 to R15, R460) -/

/-- In the states of R460 every access but to the four registers is counted. -/
theorem access_of_early {s : State} {off : Nat} (early : s.early = true) (other : alwaysAnswer.contains off = false) (src : Src) (width : Nat)
    (acc : Access) : access s src off width acc = accessEarly s src off acc :=
  if_pos ⟨early, by rw [other]; rfl⟩

/-- Outside the states of R460 the width and the alignment come first. -/
theorem access_of_badWidth {s : State} {off width : Nat} (awake : s.early = false) (bad : width ≠ 8 ∨ off % 8 ≠ 0) (src : Src) (acc : Access) :
    access s src off width acc = accessError s 0x0002 src off acc := by
  simp [access, awake, bad]

/-- An aligned 8-byte access that its gate carries is answered with what the register gives. -/
theorem access_of_gate_carry {s : State} {off : Nat} (carried : s.gate off = .carry) (aligned : off % 8 = 0)
    (answers : s.early = true → alwaysAnswer.contains off = true) (src : Src) (acc : Access) :
    access s src off 8 acc = (carryAccess s src off acc).1.complete src off false 0 (carryAccess s src off acc).2 := by
  have on_time : ¬ (s.early = true ∧ (!alwaysAnswer.contains off) = true) := fun ⟨early, missing⟩ => by
    rw [answers early] at missing
    cases missing
  rw [access, if_neg on_time, if_neg (by simp [aligned]), carried]

theorem State.gate_of_register {s : State} {off : Nat} {r : RegAt} (awake : s.early = false) (at_off : regAt off = some r)
    (present : r.present s = true) (clocked : s.clockStopped r.domain = false) (serving : s.sliceInReset r = false)
    (first : s.behindWait r.domain = false) : s.gate off = .carry := by
  simp [State.gate, awake, at_off, present, clocked, serving, first]

theorem State.gate_of_early {s : State} {off : Nat} (early : s.early = true) (answers : alwaysAnswer.contains off = true) :
    s.gate off = .carry := by
  rw [State.gate, if_pos early, if_pos answers]

theorem carryAccess_write {off : Nat} {r : RegAt} (at_off : regAt off = some r) (s : State) (src : Src) (v : Reg) :
    carryAccess s src off (.write v) = (writeReg src v s r, 0) := by
  simp [carryAccess, at_off]

theorem carryAccess_read {off : Nat} {r : RegAt} (at_off : regAt off = some r) (s : State) (src : Src) :
    carryAccess s src off .read = (s, readReg s r) := by
  simp [carryAccess, at_off]

/-- While the management port is up it carries a register access out as the host side does. -/
theorem exec_mctp_access {s : State} (up : s.mgtUp = true) (off width : Nat) (acc : Access) :
    exec (.mctpRegisterAccess off width (.access acc)) s = .next (access s .mgt off width acc) := by
  simp [exec, execMctpRegisterAccess, State.mgtServe, up, MctpOp.request, mctpRequest]

theorem State.complete_to_mgt (s : State) (off : Nat) (error : Bool) (event : BitVec 16) (data : Reg) :
    s.complete .mgt off error event data = { s with out := s.out ++ [.inBand, .mctp (.access off error event data)] } := by
  simp [State.complete, State.sendMctp, State.send]

/-- Settles O1: by the gate, which carries the access; and by the check of width and alignment that comes before it. -/
theorem alignedAccessesAreCarriedOutAndOthersRefused : Obligations.AlignedAccessesAreCarriedOutAndOthersRefused := by
  unfold Obligations.AlignedAccessesAreCarriedOutAndOthersRefused
  refine ⟨fun s src off r v awake aligned at_off present clocked serving first => ?_, fun s src off width acc awake bad => ?_⟩
  · have carried := State.gate_of_register awake at_off present clocked serving first
    have answered := access_of_gate_carry carried aligned (fun early => absurd early (by simp [awake]))
    refine ⟨?_, ?_, fun up => ⟨?_, ?_⟩⟩
    · rw [exec_registerWrite, answered, carryAccess_write at_off]
    · rw [exec_registerWrite, answered, carryAccess_read at_off]
    · rw [exec_mctp_access up, answered, carryAccess_write at_off, State.complete_to_mgt]
    · rw [exec_mctp_access up, answered, carryAccess_read at_off, State.complete_to_mgt]
  · refine ⟨s.openEvent (fabricFault 0x0002 src off), s.openEvent_code _, s.openEvent_cls _, s.openEvent_unit _, ?_⟩
    rw [exec_registerWrite, access_of_badWidth awake bad, accessError_eq]
    cases acc <;> rfl

theorem early_of_step_or_state {s : State} (h : s.pwr.step = 1 ∨ s.pwr.step = 2 ∨ s.pwr.vs = .vs3 ∨ s.pwr.vs = .vs4) : s.early = true := by
  rcases h with h | h | h | h <;> simp [State.early, h]

/-- Settles O3: the early check comes before every other, and the gate carries the four registers. -/
theorem earlyAccessIsCounted : Obligations.EarlyAccessIsCounted := by
  unfold Obligations.EarlyAccessIsCounted
  intro s src off width acc state
  have early := early_of_step_or_state state
  have answered {off : Nat} {r : RegAt} (answers : alwaysAnswer.contains off = true) (aligned : off % 8 = 0) (at_off : regAt off = some r) :
      exec (.registerWrite src off 8 .read) s = .next (s.complete src off false 0 (readReg s r)) := by
    rw [exec_registerWrite, access_of_gate_carry (State.gate_of_early early answers) aligned (fun _ => answers), carryAccess_read at_off]
  refine ⟨fun ⟨not_id, not_boundary, not_status, not_ctrl⟩ => ?_, answered rfl rfl rfl, answered rfl rfl rfl, answered rfl rfl rfl,
    answered rfl rfl rfl⟩
  have other : alwaysAnswer.contains off = false := by simp [alwaysAnswer, not_id, not_boundary, not_status, not_ctrl]
  rw [exec_registerWrite, access_of_early early other]
  cases acc <;> rfl

/-! ## Interrupt vectors (R71) -/

theorem gatedWrite_of_carry {s : State} {off : Nat} (carried : s.gate off = .carry) (src : Src) (v : Reg) (eff : State → State) :
    gatedWrite s src off v eff = (eff s).complete src off false 0 0 := by
  simp [gatedWrite, carried]

theorem msix_mem_msixFor (mask : BitVec 8) (i : Fin 8) : Out.msix i ∈ msixFor mask ↔ mask.getLsbD i.val = true := by
  simp [msixFor]

/-- Settles O4: each of the three events sends the messages that its own rule names. -/
theorem interruptMessages : Obligations.InterruptMessages := by
  unfold Obligations.InterruptMessages
  refine ⟨fun s mask => rfl, fun s src v carried => ?_, fun s src v now carried => ?_, msix_mem_msixFor⟩
  · exact congrArg Host.Outcome.next (gatedWrite_of_carry carried src v _)
  · exact congrArg Host.Outcome.next (gatedWrite_of_carry carried src v _)

end Sys2Proof.Machine


namespace Sys2Proof.Machine

/-! ## Completions and events as explicit updates -/

/-- What goes to the side that asked when its access completes. -/
def completion (src : Src) (off : Nat) (error : Bool) (event : BitVec 16) (data : Reg) : List Out :=
  match src with
  | .host => [.access .host off error data]
  | .mgt => [.inBand, .mctp (.access off error event data)]

theorem State.complete_eq (s : State) (src : Src) (off : Nat) (error : Bool) (event : BitVec 16) (data : Reg) :
    s.complete src off error event data = { s with out := s.out ++ completion src off error event data } := by
  cases src with
  | host => rfl
  | mgt => exact s.complete_to_mgt off error event data

/-! ## Stopped crossings (R91, R92) -/

/-- The waiting access at the front that has not timed out, with its mark. -/
def XingWait.expired (w : XingWait) (x : Xing) : XingWait := { w with timedOut := true, captured := !x.valid }

/-- The crossings after the timeout of the access at the front. -/
def Xing.timeout (x : Xing) (w : XingWait) : Xing := ({ x with waits := x.waits.set 0 (w.expired x) } : Xing).capture w

theorem execRegTimeout_front {s : State} {w : XingWait} {rest : List XingWait} (front : s.xing.waits = w :: rest) (waiting : w.timedOut = false) :
    execRegTimeout s = .next ((accessError { s with xing := s.xing.timeout w } 0x0001 w.src w.off w.acc).irqSet irqBoundary) := by
  simp [execRegTimeout, Xing.timeout, XingWait.expired, List.findIdx?_cons, front, waiting]

theorem Xing.capture_valid (x : Xing) (w : XingWait) : (x.capture w).valid = true := by
  unfold Xing.capture
  split
  · assumption
  · rfl

theorem Xing.capture_count (x : Xing) (w : XingWait) : (x.capture w).count = satBits 16 (x.count.toNat + 1) := by
  unfold Xing.capture
  split <;> rfl

theorem State.gate_of_wait {s : State} {off : Nat} {r : RegAt} (awake : s.early = false) (at_off : regAt off = some r)
    (present : r.present s = true) (held : s.clockStopped r.domain = true ∨ s.behindWait r.domain = true) :
    s.gate off = .wait r.domain.1 r.domain.2 := by
  rcases held with held | held <;> simp [State.gate, awake, at_off, present, held]

theorem access_of_gate_wait {s : State} {off : Nat} {d : BitVec 8} {row : Option Row} (awake : s.early = false) (aligned : off % 8 = 0)
    (waits : s.gate off = .wait d row) (src : Src) (acc : Access) : access s src off 8 acc = accessWait s src off acc d row := by
  simp [access, awake, aligned, waits]

theorem State.behindWait_of_mem {s : State} {w : XingWait} {d : BitVec 8 × Option Row} (waiting : w ∈ s.xing.waits)
    (same : (w.domain, w.row) = d) : s.behindWait d = true := by
  subst same
  exact List.any_eq_true.mpr ⟨w, waiting, by simp⟩

/-- The one access that waits is taken when its clock runs and its slice is not in reset. -/
theorem execCrossingClockRestart_single {s : State} {w : XingWait} {r : RegAt} (single : s.xing.waits = [w]) (at_off : regAt w.off = some r)
    (serving : s.sliceInReset r = false) (clocked : s.clockStopped (w.domain, w.row) = false) (accepted : Bool) :
    execCrossingClockRestart w.domain none accepted s =
      .next (takeWait accepted { s with xing := { s.xing with waits := [] } } w) := by
  simp [execCrossingClockRestart, takeWaits, splitWaits, single, clocked, State.waitsForSlice, at_off, serving, State.each]

theorem takeWait_of_waiting_write {w : XingWait} {r : RegAt} {v : Reg} (waiting : w.timedOut = false) (at_off : regAt w.off = some r)
    (write : w.acc = .write v) (accepted : Bool) (s : State) :
    takeWait accepted s w = (writeReg w.src v s r).complete w.src w.off false 0 0 := by
  simp [takeWait, waiting, write, carryAccess_write at_off]

theorem takeWait_of_timedOut_read {w : XingWait} (late : w.timedOut = true) (read : w.acc = .read) (accepted : Bool) (s : State) :
    takeWait accepted s w = s := by
  simp [takeWait, late, read, isWrite]

theorem takeWait_of_discarded_write {w : XingWait} (late : w.timedOut = true) (write : isWrite w.acc = true) (s : State) :
    takeWait false s w = captured s w 1 := by
  simp [takeWait, late, write]

theorem takeWait_of_accepted_write {w : XingWait} {r : RegAt} {v : Reg} (late : w.timedOut = true) (at_off : regAt w.off = some r)
    (write : w.acc = .write v) (s : State) : takeWait true s w = captured (writeReg w.src v s r) w 2 := by
  simp [takeWait, late, write, isWrite, carryAccess_write at_off]

/-- The outcome of a captured access becomes known. -/
theorem captured_of_captured {w : XingWait} (is_captured : w.captured = true) (s : State) (outcome : BitVec 2) :
    captured s w outcome = { s with xing := { s.xing with outcome } } := if_pos is_captured

/-- Settles O5: a timeout by what it captures, the accesses behind it by the gate, and a restart by what becomes of the one that waits. -/
theorem crossingsTimeOutAndRestart : Obligations.CrossingsTimeOutAndRestart := by
  unfold Obligations.CrossingsTimeOutAndRestart
  refine ⟨fun s w rest front waiting => ?timeout, fun s src carried => ?clear, fun s src off acc r awake aligned at_off present held => ?behind,
    fun s w accepted r single at_off serving clocked => ?restart⟩
  case timeout =>
    refine ⟨_, ({ s with xing := s.xing.timeout w } : State).openEvent (fabricFault 0x0001 w.src w.off), execRegTimeout_front front waiting, ?_⟩
    rw [accessError_eq, State.complete_eq]
    refine ⟨rfl, rfl, rfl, rfl, rfl, Xing.capture_valid .., Xing.capture_count .., fun first => ?_, fun later => ?_, fun host => ?_⟩
    · change ((s.xing.timeout w).write = _ ∧ _)
      simp [State.irqSet, Xing.timeout, Xing.capture, first]
    · simp [State.irqSet, Xing.timeout, Xing.capture, later]
    · simp [State.irqSet, host, completion]
  case clear => exact congrArg Host.Outcome.next (gatedWrite_of_carry carried src 1 xingClear)
  case behind =>
    have waits : s.gate off = .wait r.domain.1 r.domain.2 :=
      State.gate_of_wait awake at_off present (held.imp_right fun ⟨_, waiting, _, same⟩ => State.behindWait_of_mem waiting same)
    rw [exec_registerWrite, access_of_gate_wait awake aligned waits]
    rfl
  case restart =>
    have taken := execCrossingClockRestart_single single at_off serving clocked accepted
    refine ⟨fun waiting v write => ?_, fun late dropped write is_captured => ?_, fun late kept is_captured v write => ?_, fun late read => ?_⟩
    · exact taken.trans (congrArg _ (takeWait_of_waiting_write waiting at_off write accepted _))
    · subst dropped
      exact taken.trans (congrArg _ ((takeWait_of_discarded_write late write _).trans (captured_of_captured is_captured ..)))
    · subst kept
      exact taken.trans (congrArg _ ((takeWait_of_accepted_write late at_off write _).trans (captured_of_captured is_captured ..)))
    · exact taken.trans (congrArg _ (takeWait_of_timedOut_read late read accepted _))

end Sys2Proof.Machine


namespace Sys2Proof.Machine

/-! ## Fields of the shared operations

What an update of the always-on domain, a message of the management port and an entry of a processor's log leave in each field. -/

section Fields

variable (s : State)

/-! ### setAon: the fields but the domain and what an interrupt changes -/

@[simp] theorem State.setAon_pending (f : Aon → Aon) : (s.setAon f).pending = s.pending := by unfold State.setAon; split <;> rfl
@[simp] theorem State.setAon_free (f : Aon → Aon) : (s.setAon f).free = s.free := by unfold State.setAon; split <;> rfl
@[simp] theorem State.setAon_fuses (f : Aon → Aon) : (s.setAon f).fuses = s.fuses := by unfold State.setAon; split <;> rfl
@[simp] theorem State.setAon_xing (f : Aon → Aon) : (s.setAon f).xing = s.xing := by unfold State.setAon; split <;> rfl
@[simp] theorem State.setAon_time (f : Aon → Aon) : (s.setAon f).time = s.time := by unfold State.setAon; split <;> rfl
@[simp] theorem State.setAon_spn (f : Aon → Aon) : (s.setAon f).spn = s.spn := by unfold State.setAon; split <;> rfl
@[simp] theorem State.setAon_ctxs (f : Aon → Aon) : (s.setAon f).ctxs = s.ctxs := by unfold State.setAon; split <;> rfl
@[simp] theorem State.setAon_mem (f : Aon → Aon) : (s.setAon f).mem = s.mem := by unfold State.setAon; split <;> rfl
@[simp] theorem State.setAon_tags (f : Aon → Aon) : (s.setAon f).tags = s.tags := by unfold State.setAon; split <;> rfl
@[simp] theorem State.setAon_mgtu (f : Aon → Aon) : (s.setAon f).mgtu = s.mgtu := by unfold State.setAon; split <;> rfl
@[simp] theorem State.setAon_lgtu (f : Aon → Aon) : (s.setAon f).lgtu = s.lgtu := by unfold State.setAon; split <;> rfl
@[simp] theorem State.setAon_retryLimit (f : Aon → Aon) : (s.setAon f).retryLimit = s.retryLimit := by unfold State.setAon; split <;> rfl
@[simp] theorem State.setAon_wce (f : Aon → Aon) : (s.setAon f).wce = s.wce := by unfold State.setAon; split <;> rfl
@[simp] theorem State.setAon_shd (f : Aon → Aon) : (s.setAon f).shd = s.shd := by unfold State.setAon; split <;> rfl
@[simp] theorem State.setAon_fst (f : Aon → Aon) : (s.setAon f).fst = s.fst := by unfold State.setAon; split <;> rfl
@[simp] theorem State.setAon_prv (f : Aon → Aon) : (s.setAon f).prv = s.prv := by unfold State.setAon; split <;> rfl
@[simp] theorem State.setAon_pln (f : Aon → Aon) : (s.setAon f).pln = s.pln := by unfold State.setAon; split <;> rfl
@[simp] theorem State.setAon_thm (f : Aon → Aon) : (s.setAon f).thm = s.thm := by unfold State.setAon; split <;> rfl
@[simp] theorem State.setAon_rcd (f : Aon → Aon) : (s.setAon f).rcd = s.rcd := by unfold State.setAon; split <;> rfl
@[simp] theorem State.setAon_fwp (f : Aon → Aon) : (s.setAon f).fwp = s.fwp := by unfold State.setAon; split <;> rfl
@[simp] theorem State.setAon_scr (f : Aon → Aon) : (s.setAon f).scr = s.scr := by unfold State.setAon; split <;> rfl
@[simp] theorem State.setAon_mgt (f : Aon → Aon) : (s.setAon f).mgt = s.mgt := by unfold State.setAon; split <;> rfl
@[simp] theorem State.setAon_pwr (f : Aon → Aon) : (s.setAon f).pwr = s.pwr := by unfold State.setAon; split <;> rfl
@[simp] theorem State.setAon_jobMap (f : Aon → Aon) : (s.setAon f).jobMap = s.jobMap := by unfold State.setAon; split <;> rfl
@[simp] theorem State.setAon_ctx (f : Aon → Aon) (d : Ctx) : (s.setAon f).ctx d = s.ctx d := by unfold State.setAon; split <;> rfl

@[simp] theorem State.setAon_aon (f : Aon → Aon) : (s.setAon f).aon = f s.aon := by unfold State.setAon; split <;> rfl

/-- A change outside the watched fields sets no interrupt. -/
theorem State.setAon_of_same {f : Aon → Aon} (same : (f s.aon).watched = s.aon.watched) : s.setAon f = { s with aon := f s.aon } := by
  rw [State.setAon, if_pos same]
  rfl

/-- A change of a watched field sets BOUNDARY. -/
theorem State.setAon_of_changed {f : Aon → Aon} (changed : (f s.aon).watched ≠ s.aon.watched) :
    s.setAon f = ({ s with aon := f s.aon } : State).irqSet irqBoundary := by
  rw [State.setAon, if_neg changed]
  rfl

/-- The interrupt that an update of the always-on domain sets is that of a watched field that changes. -/
theorem State.setAon_irqStatus (f : Aon → Aon) :
    (s.setAon f).irq.status = if (f s.aon).watched = s.aon.watched then s.irq.status else s.irq.status ||| 0x80 := by
  rw [State.setAon]
  split <;> rfl

/-! ### sendMctp -/

/-- A message of the management port goes behind its in-band interrupt. -/
theorem State.sendMctp_eq (m : Mctp) : s.sendMctp m = { s with out := s.out ++ [.inBand, .mctp m] } := by
  simp [State.sendMctp, State.send]

@[simp] theorem State.sendMctp_pending (m : Mctp) : (s.sendMctp m).pending = s.pending := rfl
@[simp] theorem State.sendMctp_free (m : Mctp) : (s.sendMctp m).free = s.free := rfl
@[simp] theorem State.sendMctp_fuses (m : Mctp) : (s.sendMctp m).fuses = s.fuses := rfl
@[simp] theorem State.sendMctp_aon (m : Mctp) : (s.sendMctp m).aon = s.aon := rfl
@[simp] theorem State.sendMctp_xing (m : Mctp) : (s.sendMctp m).xing = s.xing := rfl
@[simp] theorem State.sendMctp_irq (m : Mctp) : (s.sendMctp m).irq = s.irq := rfl
@[simp] theorem State.sendMctp_time (m : Mctp) : (s.sendMctp m).time = s.time := rfl
@[simp] theorem State.sendMctp_spn (m : Mctp) : (s.sendMctp m).spn = s.spn := rfl
@[simp] theorem State.sendMctp_ctxs (m : Mctp) : (s.sendMctp m).ctxs = s.ctxs := rfl
@[simp] theorem State.sendMctp_mem (m : Mctp) : (s.sendMctp m).mem = s.mem := rfl
@[simp] theorem State.sendMctp_tags (m : Mctp) : (s.sendMctp m).tags = s.tags := rfl
@[simp] theorem State.sendMctp_mgtu (m : Mctp) : (s.sendMctp m).mgtu = s.mgtu := rfl
@[simp] theorem State.sendMctp_lgtu (m : Mctp) : (s.sendMctp m).lgtu = s.lgtu := rfl
@[simp] theorem State.sendMctp_retryLimit (m : Mctp) : (s.sendMctp m).retryLimit = s.retryLimit := rfl
@[simp] theorem State.sendMctp_wce (m : Mctp) : (s.sendMctp m).wce = s.wce := rfl
@[simp] theorem State.sendMctp_shd (m : Mctp) : (s.sendMctp m).shd = s.shd := rfl
@[simp] theorem State.sendMctp_fst (m : Mctp) : (s.sendMctp m).fst = s.fst := rfl
@[simp] theorem State.sendMctp_prv (m : Mctp) : (s.sendMctp m).prv = s.prv := rfl
@[simp] theorem State.sendMctp_pln (m : Mctp) : (s.sendMctp m).pln = s.pln := rfl
@[simp] theorem State.sendMctp_thm (m : Mctp) : (s.sendMctp m).thm = s.thm := rfl
@[simp] theorem State.sendMctp_rcd (m : Mctp) : (s.sendMctp m).rcd = s.rcd := rfl
@[simp] theorem State.sendMctp_fwp (m : Mctp) : (s.sendMctp m).fwp = s.fwp := rfl
@[simp] theorem State.sendMctp_scr (m : Mctp) : (s.sendMctp m).scr = s.scr := rfl
@[simp] theorem State.sendMctp_mgt (m : Mctp) : (s.sendMctp m).mgt = s.mgt := rfl
@[simp] theorem State.sendMctp_pwr (m : Mctp) : (s.sendMctp m).pwr = s.pwr := rfl
@[simp] theorem State.sendMctp_jobMap (m : Mctp) : (s.sendMctp m).jobMap = s.jobMap := rfl
@[simp] theorem State.sendMctp_ctx (m : Mctp) (d : Ctx) : (s.sendMctp m).ctx d = s.ctx d := rfl

@[simp] theorem State.sendMctp_out (m : Mctp) : (s.sendMctp m).out = s.out ++ [.inBand, .mctp m] := by rw [State.sendMctp_eq]

/-! ### complete -/

@[simp] theorem State.complete_pending (src : Src) (off : Nat) (error : Bool) (event : BitVec 16) (data : Reg) : (s.complete src off error event data).pending = s.pending := by cases src <;> rfl
@[simp] theorem State.complete_free (src : Src) (off : Nat) (error : Bool) (event : BitVec 16) (data : Reg) : (s.complete src off error event data).free = s.free := by cases src <;> rfl
@[simp] theorem State.complete_fuses (src : Src) (off : Nat) (error : Bool) (event : BitVec 16) (data : Reg) : (s.complete src off error event data).fuses = s.fuses := by cases src <;> rfl
@[simp] theorem State.complete_aon (src : Src) (off : Nat) (error : Bool) (event : BitVec 16) (data : Reg) : (s.complete src off error event data).aon = s.aon := by cases src <;> rfl
@[simp] theorem State.complete_xing (src : Src) (off : Nat) (error : Bool) (event : BitVec 16) (data : Reg) : (s.complete src off error event data).xing = s.xing := by cases src <;> rfl
@[simp] theorem State.complete_irq (src : Src) (off : Nat) (error : Bool) (event : BitVec 16) (data : Reg) : (s.complete src off error event data).irq = s.irq := by cases src <;> rfl
@[simp] theorem State.complete_time (src : Src) (off : Nat) (error : Bool) (event : BitVec 16) (data : Reg) : (s.complete src off error event data).time = s.time := by cases src <;> rfl
@[simp] theorem State.complete_spn (src : Src) (off : Nat) (error : Bool) (event : BitVec 16) (data : Reg) : (s.complete src off error event data).spn = s.spn := by cases src <;> rfl
@[simp] theorem State.complete_ctxs (src : Src) (off : Nat) (error : Bool) (event : BitVec 16) (data : Reg) : (s.complete src off error event data).ctxs = s.ctxs := by cases src <;> rfl
@[simp] theorem State.complete_mem (src : Src) (off : Nat) (error : Bool) (event : BitVec 16) (data : Reg) : (s.complete src off error event data).mem = s.mem := by cases src <;> rfl
@[simp] theorem State.complete_tags (src : Src) (off : Nat) (error : Bool) (event : BitVec 16) (data : Reg) : (s.complete src off error event data).tags = s.tags := by cases src <;> rfl
@[simp] theorem State.complete_mgtu (src : Src) (off : Nat) (error : Bool) (event : BitVec 16) (data : Reg) : (s.complete src off error event data).mgtu = s.mgtu := by cases src <;> rfl
@[simp] theorem State.complete_lgtu (src : Src) (off : Nat) (error : Bool) (event : BitVec 16) (data : Reg) : (s.complete src off error event data).lgtu = s.lgtu := by cases src <;> rfl
@[simp] theorem State.complete_retryLimit (src : Src) (off : Nat) (error : Bool) (event : BitVec 16) (data : Reg) : (s.complete src off error event data).retryLimit = s.retryLimit := by cases src <;> rfl
@[simp] theorem State.complete_wce (src : Src) (off : Nat) (error : Bool) (event : BitVec 16) (data : Reg) : (s.complete src off error event data).wce = s.wce := by cases src <;> rfl
@[simp] theorem State.complete_shd (src : Src) (off : Nat) (error : Bool) (event : BitVec 16) (data : Reg) : (s.complete src off error event data).shd = s.shd := by cases src <;> rfl
@[simp] theorem State.complete_fst (src : Src) (off : Nat) (error : Bool) (event : BitVec 16) (data : Reg) : (s.complete src off error event data).fst = s.fst := by cases src <;> rfl
@[simp] theorem State.complete_prv (src : Src) (off : Nat) (error : Bool) (event : BitVec 16) (data : Reg) : (s.complete src off error event data).prv = s.prv := by cases src <;> rfl
@[simp] theorem State.complete_pln (src : Src) (off : Nat) (error : Bool) (event : BitVec 16) (data : Reg) : (s.complete src off error event data).pln = s.pln := by cases src <;> rfl
@[simp] theorem State.complete_thm (src : Src) (off : Nat) (error : Bool) (event : BitVec 16) (data : Reg) : (s.complete src off error event data).thm = s.thm := by cases src <;> rfl
@[simp] theorem State.complete_rcd (src : Src) (off : Nat) (error : Bool) (event : BitVec 16) (data : Reg) : (s.complete src off error event data).rcd = s.rcd := by cases src <;> rfl
@[simp] theorem State.complete_fwp (src : Src) (off : Nat) (error : Bool) (event : BitVec 16) (data : Reg) : (s.complete src off error event data).fwp = s.fwp := by cases src <;> rfl
@[simp] theorem State.complete_scr (src : Src) (off : Nat) (error : Bool) (event : BitVec 16) (data : Reg) : (s.complete src off error event data).scr = s.scr := by cases src <;> rfl
@[simp] theorem State.complete_mgt (src : Src) (off : Nat) (error : Bool) (event : BitVec 16) (data : Reg) : (s.complete src off error event data).mgt = s.mgt := by cases src <;> rfl
@[simp] theorem State.complete_pwr (src : Src) (off : Nat) (error : Bool) (event : BitVec 16) (data : Reg) : (s.complete src off error event data).pwr = s.pwr := by cases src <;> rfl
@[simp] theorem State.complete_jobMap (src : Src) (off : Nat) (error : Bool) (event : BitVec 16) (data : Reg) : (s.complete src off error event data).jobMap = s.jobMap := by cases src <;> rfl
@[simp] theorem State.complete_ctx (src : Src) (off : Nat) (error : Bool) (event : BitVec 16) (data : Reg) (d : Ctx) : (s.complete src off error event data).ctx d = s.ctx d := by cases src <;> rfl

@[simp] theorem State.complete_out (src : Src) (off : Nat) (error : Bool) (event : BitVec 16) (data : Reg) :
    (s.complete src off error event data).out = s.out ++ completion src off error event data := by rw [State.complete_eq]

/-! ### logRefusal: the fields but that of the processors -/

@[simp] theorem State.logRefusal_pending (p : Proc) (c : Option Ctx) (src : Src) (off : Nat) : (s.logRefusal p c src off).pending = s.pending := rfl
@[simp] theorem State.logRefusal_out (p : Proc) (c : Option Ctx) (src : Src) (off : Nat) : (s.logRefusal p c src off).out = s.out := rfl
@[simp] theorem State.logRefusal_free (p : Proc) (c : Option Ctx) (src : Src) (off : Nat) : (s.logRefusal p c src off).free = s.free := rfl
@[simp] theorem State.logRefusal_fuses (p : Proc) (c : Option Ctx) (src : Src) (off : Nat) : (s.logRefusal p c src off).fuses = s.fuses := rfl
@[simp] theorem State.logRefusal_aon (p : Proc) (c : Option Ctx) (src : Src) (off : Nat) : (s.logRefusal p c src off).aon = s.aon := rfl
@[simp] theorem State.logRefusal_xing (p : Proc) (c : Option Ctx) (src : Src) (off : Nat) : (s.logRefusal p c src off).xing = s.xing := rfl
@[simp] theorem State.logRefusal_irq (p : Proc) (c : Option Ctx) (src : Src) (off : Nat) : (s.logRefusal p c src off).irq = s.irq := rfl
@[simp] theorem State.logRefusal_time (p : Proc) (c : Option Ctx) (src : Src) (off : Nat) : (s.logRefusal p c src off).time = s.time := rfl
@[simp] theorem State.logRefusal_spn (p : Proc) (c : Option Ctx) (src : Src) (off : Nat) : (s.logRefusal p c src off).spn = s.spn := rfl
@[simp] theorem State.logRefusal_ctxs (p : Proc) (c : Option Ctx) (src : Src) (off : Nat) : (s.logRefusal p c src off).ctxs = s.ctxs := rfl
@[simp] theorem State.logRefusal_mem (p : Proc) (c : Option Ctx) (src : Src) (off : Nat) : (s.logRefusal p c src off).mem = s.mem := rfl
@[simp] theorem State.logRefusal_tags (p : Proc) (c : Option Ctx) (src : Src) (off : Nat) : (s.logRefusal p c src off).tags = s.tags := rfl
@[simp] theorem State.logRefusal_mgtu (p : Proc) (c : Option Ctx) (src : Src) (off : Nat) : (s.logRefusal p c src off).mgtu = s.mgtu := rfl
@[simp] theorem State.logRefusal_lgtu (p : Proc) (c : Option Ctx) (src : Src) (off : Nat) : (s.logRefusal p c src off).lgtu = s.lgtu := rfl
@[simp] theorem State.logRefusal_retryLimit (p : Proc) (c : Option Ctx) (src : Src) (off : Nat) : (s.logRefusal p c src off).retryLimit = s.retryLimit := rfl
@[simp] theorem State.logRefusal_wce (p : Proc) (c : Option Ctx) (src : Src) (off : Nat) : (s.logRefusal p c src off).wce = s.wce := rfl
@[simp] theorem State.logRefusal_shd (p : Proc) (c : Option Ctx) (src : Src) (off : Nat) : (s.logRefusal p c src off).shd = s.shd := rfl
@[simp] theorem State.logRefusal_fst (p : Proc) (c : Option Ctx) (src : Src) (off : Nat) : (s.logRefusal p c src off).fst = s.fst := rfl
@[simp] theorem State.logRefusal_prv (p : Proc) (c : Option Ctx) (src : Src) (off : Nat) : (s.logRefusal p c src off).prv = s.prv := rfl
@[simp] theorem State.logRefusal_pln (p : Proc) (c : Option Ctx) (src : Src) (off : Nat) : (s.logRefusal p c src off).pln = s.pln := rfl
@[simp] theorem State.logRefusal_thm (p : Proc) (c : Option Ctx) (src : Src) (off : Nat) : (s.logRefusal p c src off).thm = s.thm := rfl
@[simp] theorem State.logRefusal_rcd (p : Proc) (c : Option Ctx) (src : Src) (off : Nat) : (s.logRefusal p c src off).rcd = s.rcd := rfl
@[simp] theorem State.logRefusal_scr (p : Proc) (c : Option Ctx) (src : Src) (off : Nat) : (s.logRefusal p c src off).scr = s.scr := rfl
@[simp] theorem State.logRefusal_mgt (p : Proc) (c : Option Ctx) (src : Src) (off : Nat) : (s.logRefusal p c src off).mgt = s.mgt := rfl
@[simp] theorem State.logRefusal_pwr (p : Proc) (c : Option Ctx) (src : Src) (off : Nat) : (s.logRefusal p c src off).pwr = s.pwr := rfl
@[simp] theorem State.logRefusal_jobMap (p : Proc) (c : Option Ctx) (src : Src) (off : Nat) : (s.logRefusal p c src off).jobMap = s.jobMap := rfl
@[simp] theorem State.logRefusal_ctx (p : Proc) (c : Option Ctx) (src : Src) (off : Nat) (d : Ctx) : (s.logRefusal p c src off).ctx d = s.ctx d := rfl

/-! ### emitOpen -/

@[simp] theorem State.emitOpen_pending (e : Ev) : (s.emitOpen e).pending = s.pending := State.emit_pending s.fresh.2 _
@[simp] theorem State.emitOpen_out (e : Ev) : (s.emitOpen e).out = s.out := State.emit_out s.fresh.2 _
@[simp] theorem State.emitOpen_fuses (e : Ev) : (s.emitOpen e).fuses = s.fuses := State.emit_fuses s.fresh.2 _
@[simp] theorem State.emitOpen_aon (e : Ev) : (s.emitOpen e).aon = s.aon := State.emit_aon s.fresh.2 _
@[simp] theorem State.emitOpen_xing (e : Ev) : (s.emitOpen e).xing = s.xing := State.emit_xing s.fresh.2 _
@[simp] theorem State.emitOpen_irq (e : Ev) : (s.emitOpen e).irq = s.irq := State.emit_irq s.fresh.2 _
@[simp] theorem State.emitOpen_time (e : Ev) : (s.emitOpen e).time = s.time := State.emit_time s.fresh.2 _
@[simp] theorem State.emitOpen_spn (e : Ev) : (s.emitOpen e).spn = s.spn := State.emit_spn s.fresh.2 _
@[simp] theorem State.emitOpen_ctxs (e : Ev) : (s.emitOpen e).ctxs = s.ctxs := State.emit_ctxs s.fresh.2 _
@[simp] theorem State.emitOpen_mem (e : Ev) : (s.emitOpen e).mem = s.mem := State.emit_mem s.fresh.2 _
@[simp] theorem State.emitOpen_tags (e : Ev) : (s.emitOpen e).tags = s.tags := State.emit_tags s.fresh.2 _
@[simp] theorem State.emitOpen_mgtu (e : Ev) : (s.emitOpen e).mgtu = s.mgtu := State.emit_mgtu s.fresh.2 _
@[simp] theorem State.emitOpen_lgtu (e : Ev) : (s.emitOpen e).lgtu = s.lgtu := State.emit_lgtu s.fresh.2 _
@[simp] theorem State.emitOpen_retryLimit (e : Ev) : (s.emitOpen e).retryLimit = s.retryLimit := State.emit_retryLimit s.fresh.2 _
@[simp] theorem State.emitOpen_wce (e : Ev) : (s.emitOpen e).wce = s.wce := State.emit_wce s.fresh.2 _
@[simp] theorem State.emitOpen_shd (e : Ev) : (s.emitOpen e).shd = s.shd := State.emit_shd s.fresh.2 _
@[simp] theorem State.emitOpen_prv (e : Ev) : (s.emitOpen e).prv = s.prv := State.emit_prv s.fresh.2 _
@[simp] theorem State.emitOpen_pln (e : Ev) : (s.emitOpen e).pln = s.pln := State.emit_pln s.fresh.2 _
@[simp] theorem State.emitOpen_thm (e : Ev) : (s.emitOpen e).thm = s.thm := State.emit_thm s.fresh.2 _
@[simp] theorem State.emitOpen_fwp (e : Ev) : (s.emitOpen e).fwp = s.fwp := State.emit_fwp s.fresh.2 _
@[simp] theorem State.emitOpen_scr (e : Ev) : (s.emitOpen e).scr = s.scr := State.emit_scr s.fresh.2 _
@[simp] theorem State.emitOpen_mgt (e : Ev) : (s.emitOpen e).mgt = s.mgt := State.emit_mgt s.fresh.2 _
@[simp] theorem State.emitOpen_pwr (e : Ev) : (s.emitOpen e).pwr = s.pwr := State.emit_pwr s.fresh.2 _
@[simp] theorem State.emitOpen_jobMap (e : Ev) : (s.emitOpen e).jobMap = s.jobMap := State.emit_jobMap s.fresh.2 _
@[simp] theorem State.emitOpen_ctx (e : Ev) (d : Ctx) : (s.emitOpen e).ctx d = s.ctx d := State.emit_ctx s.fresh.2 _ d

end Fields

/-! ## A step done for each member of a list -/

/-- What holds before and is kept by every single step holds after all of them. -/
theorem State.each_induction {α : Type} {P : State → Prop} {f : State → α → State} {xs : List α} {s : State} (start : P s)
    (keeps : ∀ t, ∀ x ∈ xs, P t → P (f t x)) : P (s.each xs f) := by
  unfold State.each
  induction xs generalizing s with
  | nil => exact start
  | cons x xs ih =>
    exact ih (keeps s x List.mem_cons_self start) fun t y listed => keeps t y (List.mem_cons_of_mem x listed)

/-- A field that no single step changes is unchanged. -/
theorem State.each_field {α β : Type} (field : State → β) {f : State → α → State} (keeps : ∀ t x, field (f t x) = field t) (xs : List α)
    (s : State) : field (s.each xs f) = field s :=
  State.each_induction (P := fun t => field t = field s) rfl fun t x _ before => (keeps t x).trans before

@[simp] theorem State.each_nil {α : Type} (s : State) (f : State → α → State) : s.each [] f = s := rfl

@[simp] theorem State.each_cons {α : Type} (s : State) (x : α) (xs : List α) (f : State → α → State) :
    s.each (x :: xs) f = (f s x).each xs f := rfl

end Sys2Proof.Machine


namespace Sys2Proof.Machine

/-! ## VDD_AON becoming valid and being lost (R4, R80, R254, R412) -/

/-- An item record after one of a number was found with a bad CRC. -/
def ConfRec.spoil (bytes : List Byte) (seq : BitVec 32) (r : ConfRec) : ConfRec := if r.seq = seq ∧ r.ok then { r with bad := some bytes } else r

theorem ConfRec.spoil_seq (bytes : List Byte) (seq : BitVec 32) (r : ConfRec) : (r.spoil bytes seq).seq = r.seq := by
  unfold ConfRec.spoil
  split <;> rfl

theorem ConfRec.spoil_ok (bytes : List Byte) (seq : BitVec 32) (r : ConfRec) : (r.spoil bytes seq).ok = (r.ok && decide (r.seq ≠ seq)) := by
  by_cases hit : r.seq = seq ∧ r.ok = true
  · rw [ConfRec.spoil, if_pos hit]
    simp [ConfRec.ok, hit.1]
  · rw [ConfRec.spoil, if_neg hit]
    by_cases same : r.seq = seq <;> simp_all

/-- A flash after one bad item record, named by bank and number. -/
def Flash.spoil (f : Flash) (bytes : List Byte) (b : Nat × BitVec 32) : Flash :=
  if b.1 = 0 then { f with conf0 := f.conf0.map (ConfRec.spoil bytes b.2) } else { f with conf1 := f.conf1.map (ConfRec.spoil bytes b.2) }

/-- One bad item record: four open values stand in its slot. -/
def spoilOne (s : State) (b : Nat × BitVec 32) : State := s.spoiled.2.onFlash (fun f => f.spoil s.spoiled.1 b)

theorem confBad_eq (s : State) (bad : List (Nat × BitVec 32)) : confBad s bad = s.each bad spoilOne := rfl

/-- No record of the bank with this number counts. -/
def Voided (records : List ConfRec) (seq : BitVec 32) : Prop := ∀ r ∈ records, r.seq = seq → r.ok = false

theorem voided_map_spoil (bytes : List Byte) (seq : BitVec 32) (records : List ConfRec) : Voided (records.map (ConfRec.spoil bytes seq)) seq := by
  intro r listed named
  obtain ⟨q, -, rfl⟩ := List.mem_map.mp listed
  rw [ConfRec.spoil_seq] at named
  simp [ConfRec.spoil_ok, named]

/-- A record once found bad stays bad. -/
theorem Voided.map_spoil {records : List ConfRec} {seq : BitVec 32} (voided : Voided records seq) (bytes : List Byte) (other : BitVec 32) :
    Voided (records.map (ConfRec.spoil bytes other)) seq := by
  intro r listed named
  obtain ⟨q, q_listed, rfl⟩ := List.mem_map.mp listed
  rw [ConfRec.spoil_seq] at named
  simp [ConfRec.spoil_ok, voided q q_listed named]

/-- The bank of an item record. -/
def Flash.bank (f : Flash) (n : Nat) : List ConfRec := if n = 0 then f.conf0 else f.conf1

theorem Flash.bank_spoil (f : Flash) (bytes : List Byte) (b : Nat × BitVec 32) (n : Nat) :
    (f.spoil bytes b).bank n = if b.1 = 0 ↔ n = 0 then (f.bank n).map (ConfRec.spoil bytes b.2) else f.bank n := by
  unfold Flash.spoil Flash.bank
  by_cases first : b.1 = 0 <;> by_cases zero : n = 0 <;> simp [first, zero]

theorem Flash.spoil_voids (f : Flash) (bytes : List Byte) (b : Nat × BitVec 32) : Voided ((f.spoil bytes b).bank b.1) b.2 := by
  rw [Flash.bank_spoil, if_pos Iff.rfl]
  exact voided_map_spoil _ _ _

theorem Flash.spoil_keeps_voided {f : Flash} {n : Nat} {seq : BitVec 32} (voided : Voided (f.bank n) seq) (bytes : List Byte)
    (b : Nat × BitVec 32) : Voided ((f.spoil bytes b).bank n) seq := by
  rw [Flash.bank_spoil]
  split
  · exact voided.map_spoil _ _
  · exact voided

/-- Every item record that is named gives no value afterwards. -/
theorem confBad_voids (bad : List (Nat × BitVec 32)) (s : State) {x : Nat × BitVec 32} (named : x ∈ bad) :
    Voided ((confBad s bad).rcd.flash.bank x.1) x.2 := by
  rw [confBad_eq]
  induction bad generalizing s with
  | nil => cases named
  | cons b bad ih =>
    rw [State.each_cons]
    rcases List.mem_cons.mp named with rfl | later
    · exact State.each_induction (P := fun t => Voided (t.rcd.flash.bank x.1) x.2) (Flash.spoil_voids _ _ _)
        fun t b _ voided => Flash.spoil_keeps_voided voided _ _
    · exact ih _ later

theorem Flash.spoil_other (f : Flash) (bytes : List Byte) (b : Nat × BitVec 32) (c0 c1 : List ConfRec) :
    { f.spoil bytes b with conf0 := c0, conf1 := c1 } = { f with conf0 := c0, conf1 := c1 } := by
  unfold Flash.spoil
  split <;> rfl

/-- Bad item records change nothing of the flash but its two configuration banks. -/
theorem confBad_flash (s : State) (bad : List (Nat × BitVec 32)) (c0 c1 : List ConfRec) :
    { (confBad s bad).rcd.flash with conf0 := c0, conf1 := c1 } = { s.rcd.flash with conf0 := c0, conf1 := c1 } := by
  rw [confBad_eq]
  exact State.each_field (fun t => ({ t.rcd.flash with conf0 := c0, conf1 := c1 } : Flash))
    (fun t b => Flash.spoil_other t.rcd.flash t.spoiled.1 b c0 c1) bad s

theorem confBad_aon (s : State) (bad : List (Nat × BitVec 32)) : (confBad s bad).aon = s.aon :=
  State.each_field State.aon (f := spoilOne) (fun _ _ => rfl) bad s

theorem confBad_time (s : State) (bad : List (Nat × BitVec 32)) : (confBad s bad).time = s.time :=
  State.each_field State.time (f := spoilOne) (fun _ _ => rfl) bad s

/-- Settles O6: what is latched is written over a state that keeps the flash, memory and tags; the bad records are `confBad`'s. -/
theorem powerUpAndPowerLossOfTheAlwaysOnDomain : Obligations.PowerUpAndPowerLossOfTheAlwaysOnDomain := by
  unfold Obligations.PowerUpAndPowerLossOfTheAlwaysOnDomain
  refine ⟨fun s f a b c crc unpowered => ?up, fun s powered => ?loss⟩
  case up =>
    have kept : (confBad (withoutPower s) crc).held = s.held := (held_of_kept (confBad_kept (withoutPower s) crc)).trans rfl
    obtain ⟨pending, -, mem, tags⟩ :
        (confBad (withoutPower s) crc).pending = s.pending ∧ (confBad (withoutPower s) crc).fuses = s.fuses ∧
        (confBad (withoutPower s) crc).mem = s.mem ∧ (confBad (withoutPower s) crc).tags = s.tags := by
      simpa [State.held] using kept
    refine ⟨_, if_neg (by simp [unpowered]), rfl, ?_, fun v item => ?_, fun blank => ?_, rfl, ?_, fun no_crc => ?_, confBad_flash .., ?_,
      mem, tags, pending⟩
    · exact congrArg (fun x : Aon => { x with valid := true, pgMain := a, pgMem := b, pgIo := c }) (confBad_aon ..)
    · change tickAtPowerUp (confBad (withoutPower s) crc).rcd.flash = _
      have stored : (confBad (withoutPower s) crc).rcd.flash.item 1 = some v := item
      rw [tickAtPowerUp, stored]
    · change tickAtPowerUp (confBad (withoutPower s) crc).rcd.flash = _
      have stored : (confBad (withoutPower s) crc).rcd.flash.item 1 = none := blank
      rw [tickAtPowerUp, stored]
    · exact congrArg Time.wallSet (confBad_time ..)
    · subst no_crc
      rfl
    · exact fun x named => confBad_voids crc (withoutPower s) named
  case loss => exact ⟨_, if_neg (by simp [powered]), rfl, rfl, rfl, rfl, rfl, rfl, rfl⟩

/-! ## Requests of the management port (R73, R74, R412, R416, R419) -/

theorem State.mgtServe_of_up {s : State} (up : s.mgtUp = true) (w : MgtWait) (f : State → State) : s.mgtServe w f = f s := if_pos up

theorem State.mgtServe_of_restarting {s : State} (down : s.mgtUp = false) (bus : s.busUp = true)
    (restarting : (s.proc mc).state = .restarting) (w : MgtWait) (f : State → State) :
    s.mgtServe w f = { s with mgt := s.mgt ++ [w] } := by
  rw [State.mgtServe, if_neg (by simp [down]), if_pos ⟨bus, restarting⟩]

/-- Each unacknowledged entry that is announced is sent again, the others are not. -/
theorem each_cperNotify (es : List Cper) (s : State) : s.each es cperNotify =
    { s with out := s.out ++ (es.filter (fun e => e.cls ≠ 0)).flatMap (fun e => [.inBand, .mctp (.cperNotify e)]) } := by
  induction es generalizing s with
  | nil => simp
  | cons e es ih =>
    rw [State.each_cons, ih]
    by_cases silent : e.cls = 0
    · simp [cperNotify, silent]
    · have sent : cperNotify s e = s.sendMctp (.cperNotify e) := if_neg silent
      rw [sent, State.sendMctp_eq, List.filter_cons_of_pos (by simpa using silent), List.flatMap_cons, ← List.append_assoc]

/-- Storing an item touches only the flash and what waits for it. -/
theorem State.putItem_eq (s : State) (item : BitVec 16) (value : BitVec 64) : s.putItem item value =
    { s with rcd := { s.rcd with flash := (s.putItem item value).rcd.flash, confOut := (s.putItem item value).rcd.confOut } } := by
  unfold State.putItem State.onRec
  dsimp only
  split <;> rfl

theorem storeAck_eq (s : State) : storeAck s =
    { s with rcd := { s.rcd with flash := (storeAck s).rcd.flash, confOut := (storeAck s).rcd.confOut } } := by
  unfold storeAck
  dsimp only
  split
  · split
    · rfl
    · exact State.putItem_eq ..
  · exact State.putItem_eq ..

theorem cperRefill_of_complete {s : State} (complete : s.rcd.incomplete = false) (newest : BitVec 32) : cperRefill s newest = s :=
  if_pos (by rw [complete]; rfl)

/-- The signature queue without the entries up to a number, which is kept. -/
def acknowledged (s : State) (q : BitVec 32) : State :=
  s.onRec (fun r => { r with cpers := r.cpers.filter (fun e => decide (0 < (e.seq - q).toInt)), ackSeq := q })

/-- With the queue complete an acknowledgement releases entries, stores the number, and answers. -/
theorem cperAck_of_complete {s : State} (complete : s.rcd.incomplete = false) (q : BitVec 32) :
    cperAck q s = (storeAck (acknowledged s q)).sendMctp (.ack true) := by
  have still : (storeAck (acknowledged s q)).rcd.incomplete = false := by
    rw [storeAck_eq]
    exact complete
  change (cperRefill (storeAck (acknowledged s q)) _).sendMctp (.ack true) = _
  rw [cperRefill_of_complete still]

/-- The first numeric sensor gives the hottest reading. -/
theorem mctpRequest_hottest (s : State) : mctpRequest (.numericSensor 0) s =
    { s with out := s.out ++ [.inBand, .mctp (.numericSensor 0 (s.hottest.map (fun h => tempParam h.2)))] } := by
  have reading : numericReading s 0 = (s.hottest.map (fun h => tempParam h.2), s) := if_pos rfl
  simp only [mctpRequest, reading, State.sendMctp_eq]

/-- Settles O10: each request by what MC answers while the port is up; in MC's restart a request is kept. -/
theorem managementPortRequests : Obligations.ManagementPortRequests := by
  unfold Obligations.ManagementPortRequests
  refine ⟨fun s region first n up few => ?_, fun s up => ?_, fun s up => ?_, fun s q up complete => ?_, fun s off width up => ?_,
    fun s off width op down bus restarting => ?_⟩
  · exact congrArg Host.Outcome.next (by rw [State.mgtServe_of_up up, recRead, Nat.min_eq_left few, State.sendMctp_eq])
  · exact congrArg Host.Outcome.next (by rw [State.mgtServe_of_up up, cperGet, State.sendMctp_eq])
  · exact congrArg Host.Outcome.next (by rw [State.mgtServe_of_up up, cperResend, each_cperNotify])
  · refine ⟨_, congrArg Host.Outcome.next ((State.mgtServe_of_up up ..).trans (cperAck_of_complete complete q)), ?_⟩
    rw [storeAck_eq, State.sendMctp_eq]
    exact ⟨rfl, rfl, rfl, rfl, rfl, rfl⟩
  · exact congrArg Host.Outcome.next ((State.mgtServe_of_up up ..).trans (mctpRequest_hottest s))
  · exact congrArg Host.Outcome.next (State.mgtServe_of_restarting down bus restarting ..)

end Sys2Proof.Machine


namespace Sys2Proof.Machine

/-! ## The hardware trip (R80, R386, R395) -/

/-- VX_TRIP_N is taken low, or the comparator of another sensor is asserted while it is held. -/
def tripTaken (s : State) (n : Sensor) : State :=
  ((s.setAon (fun a => { a with trip := true, tripBy := if a.trip then a.tripBy else n.val })).irqSet irqThermal).onSensor n
    (fun y => { y with hot := true, tripped := true })

/-- The fault of a trip. -/
def tripEvent (s : State) (n : Sensor) : Ev :=
  (tripTaken s n).stamp { code := 0x8007, cls := .f, unit := uSensor n, p32 := tempParam (s.thm.sensors.at n).reading, acc := 0x40
                          addr := (s.thm.sensors.at n).reading.setWidth 64 }

theorem execThermalTrip_of_asserted {s : State} {n : Sensor} (sentinel : s.aon.sentinel = true) (present : s.unitExists (uSensor n) = true)
    (live : (s.thm.sensors.at n).state = .live) (new : s.aon.trip = false ∨ (s.thm.sensors.at n).tripped = false) :
    execThermalTrip n s = .next (if (tripTaken s n).pwr.vs.code ≤ 2 ∧ !(tripTaken s n).early then tripFault (tripTaken s n) (tripEvent s n)
      else recordAs (tripTaken s n) (tripEvent s n)) := by
  refine if_neg ?_
  rcases new with new | new <;> simp [sentinel, present, live, new]

theorem execThermalTrip_of_held {s : State} {n : Sensor} (held : s.aon.trip = true) (tripped : (s.thm.sensors.at n).tripped = true) :
    execThermalTrip n s = .next s := if_pos (by simp [held, tripped])

theorem tripTaken_aon (s : State) (n : Sensor) :
    (tripTaken s n).aon = { s.aon with trip := true, tripBy := if s.aon.trip then s.aon.tripBy else n.val } := by
  simp [tripTaken]

theorem tripTaken_irqStatus (s : State) (n : Sensor) :
    (tripTaken s n).irq.status = (if s.aon.trip then s.irq.status else s.irq.status ||| 0x80) ||| 0x08 := by
  change (s.setAon _).irq.status ||| irqThermal = _
  rw [s.setAon_irqStatus]
  cases held : s.aon.trip <;> simp [Aon.watched, held, irqThermal]

theorem tripTaken_early (s : State) (n : Sensor) : (tripTaken s n).early = s.early := by
  simp [State.early, tripTaken]

/-! ## The release of the trip (R80) -/

/-- A request that both the trip responder and MC serve is served while either is up. -/
theorem served_of_up {s : State} (up : (s.mgtUp || s.responder) = true) (w : MgtWait) (f : State → State) :
    (if s.responder then f s else s.mgtServe w f) = f s := by
  cases responder : s.responder with
  | true => rfl
  | false =>
    rw [responder, Bool.or_false] at up
    exact State.mgtServe_of_up up w f

theorem tripRelease_of_refused {s : State} (refused : s.aon.trip = false ∨ s.allCool = false) :
    tripRelease s = s.sendMctp (.tripRelease false) :=
  if_pos (by rcases refused with refused | refused <;> simp [refused])

/-- What the return from a loss of power leaves alone. -/
theorem returnFromLoss_leaves (s : State) : (returnFromLoss s).aon = s.aon ∧ (returnFromLoss s).out = s.out ∧
    (returnFromLoss s).ctxs = s.ctxs ∧ (returnFromLoss s).mem = s.mem ∧ (returnFromLoss s).kept = s.kept := by
  unfold returnFromLoss
  split
  · exact ⟨by simp [beginBringup], by simp [beginBringup], by simp [beginBringup], by simp [beginBringup], beginBringup_kept ..⟩
  · exact ⟨rfl, rfl, rfl, rfl, rfl⟩

theorem tripRelease_of_cool {s : State} (held : s.aon.trip = true) (cool : s.allCool = true) :
    (tripRelease s).aon = { s.aon with trip := false, tripBy := 0x3FF } ∧ Out.mctp (.tripRelease true) ∈ (tripRelease s).out ∧
      (tripRelease s).ctxs = s.ctxs ∧ (tripRelease s).mem = s.mem := by
  have released : (!s.aon.trip || !s.allCool) = false := by simp [held, cool]
  unfold tripRelease
  rw [if_neg (by simp [released])]
  obtain ⟨aon, out, ctxs, mem, -⟩ := returnFromLoss_leaves _
  rw [aon, out, ctxs, mem]
  simp

/-- Settles O9: the comparator by the trip it takes, the requests by who serves them. -/
theorem tripIsHeldUntilReleased : Obligations.TripIsHeldUntilReleased := by
  unfold Obligations.TripIsHeldUntilReleased
  refine ⟨fun s n sentinel present live new => ?trip, fun s n held tripped => execThermalTrip_of_held held tripped,
    fun s up held cool => ?release, fun s up refused => ?refusal, fun s up => ?status⟩
  case trip =>
    refine ⟨tripEvent s n, tripTaken s n, rfl, rfl, rfl, tripTaken_aon .., tripTaken_irqStatus .., by simp [tripTaken], by simp [tripTaken],
      by simp [tripTaken], by simp [tripTaken], fun m other => by simp [tripTaken, other], ?_⟩
    have vs : (tripTaken s n).pwr = s.pwr := by simp [tripTaken]
    refine (execThermalTrip_of_asserted sentinel present live new).trans (congrArg _ (ite_congr (propext ?_) (fun _ => rfl) fun _ => rfl))
    rw [vs, tripTaken_early, Bool.not_eq_true']
  case release =>
    obtain ⟨aon, out, ctxs, mem⟩ := tripRelease_of_cool held cool
    exact ⟨_, congrArg Host.Outcome.next (served_of_up up ..), aon, out, ctxs, mem⟩
  case refusal =>
    exact congrArg Host.Outcome.next ((served_of_up up ..).trans ((tripRelease_of_refused refused).trans (State.sendMctp_eq ..)))
  case status => exact congrArg Host.Outcome.next ((served_of_up up ..).trans (State.sendMctp_eq ..))

end Sys2Proof.Machine


namespace Sys2Proof.Machine

/-- An access that comes to a memory GTU is carried out. -/
theorem memAccess_of_accepts {s f : State} {g : Gtu} {addr : Nat} (inside : addr < stackSize) (port : g.val < s.ports)
    (here : accepts g.val addr = true) : memAccess s g addr f = .next f :=
  (if_neg (Nat.not_le.mpr inside)).trans (if_pos ⟨port, here⟩)

/-! ## A write found changed in flight can end in VS4

A write whose tag does not agree, and which names an execution that has committed, is a late report (R226): the chip drains. Where the
reference clock is lost and every context has stopped by then, the engine moves to VS4 at once (R79), and the faults not yet taken are
recorded there and wait no longer (log 24). So a lost tag line of the same access is no waiting fault in the next state. -/

/-- A plan that retains blank 0 at a port at position 0. -/
def retainingPlan (g : Gtu) : Plan := { cover := { retained := [{ position := 0, gtu := g.val, blank := 0 }] } }

/-- The reference clock is lost in VS0; context 0 holds a key, has committed pass 0 and has no plan; its port holds a retained copy of blank 0
in blank 1, and `plan` says what the plan retains. -/
def clockLost (g : Gtu) (plan : Option Plan) : State :=
  { State.reset with
    aon := { refOk := false }
    pwr := { vs := .vs0, step := 7 }
    ctxs := State.reset.ctxs.upd 0 (fun _ => { pass := { index := 1 }, plan := { active := plan, loaded := true } })
    mgtu := State.reset.mgtu.upd g (fun m => { m with retained := [{ ctx := 0, orig := 0, copy := 1, committed := false, rho := none }] }) }

/-- The write: no words with a fingerprint that is not theirs, its tag line lost, naming the execution that committed. -/
def lateMismatch (g : Gtu) : Instr := .jobPartialWrite g 0 0 [] 1 0 [] false true false none false [] false (some (0, 0))

/-- The state the write leaves. -/
def afterLateMismatch (g : Gtu) (s : State) : State := jobPartialWrite s g 0 0 [] 1 0 [] false true false none false [] false (some (0, 0))

theorem afterLateMismatch_faultQ : ∀ g : Gtu, g.val < 2 → (afterLateMismatch g (clockLost g none)).fst.faultQ = [] := by decide +kernel

theorem afterLateMismatch_retained_faultQ :
    ∀ g : Gtu, g.val < 2 → (afterLateMismatch g (clockLost g (some (retainingPlan g)))).fst.faultQ = [] := by decide +kernel

/-- One of the two ports of stack 0 serves its first stave. -/
theorem exists_port_of_stave_zero : ∃ g : Gtu, g.val < 2 ∧ serves g.val 0 = true := by
  cases served : Config.portOfStave 0 0
  · exact ⟨0, by decide, by simp [serves, served]⟩
  · exact ⟨1, by decide, by simp [serves, served]⟩

theorem clockLost_sound (g : Gtu) (plan : Option Plan) : (clockLost g plan).Sound := resetStateIsSound.1

theorem clockLost_lineLost (g : Gtu) (plan : Option Plan) (blank : Nat) : (clockLost g plan).lineLost g blank true = true := by
  have visits : ((clockLost g plan).mgtu.at g).visits = [] :=
    congrArg Mgtu.visits ((Tab.at_upd_same ..).trans (congrArg _ (mgtu_reset g)))
  rw [State.lineLost, visits]
  rfl

theorem clockLost_ctx (g : Gtu) (plan : Option Plan) :
    (clockLost g plan).ctx 0 = { pass := { index := 1 }, plan := { active := plan, loaded := true } } := Tab.at_upd_same ..

/-- The late write, at a port that serves its stave. -/
theorem exec_lateMismatch {g : Gtu} (port : g.val < 2) (served : serves g.val 0 = true) (plan : Option Plan) :
    exec (lateMismatch g) (clockLost g plan) = .next (afterLateMismatch g (clockLost g plan)) :=
  memAccess_of_accepts (s := clockLost g plan) (addr := 0) (by decide) (Nat.lt_trans port (show 2 < 40 by decide)) (by simp [accepts, served])

/-- Refutes O15: a partial write whose tag line is lost, whose tag does not agree and whose execution has committed leaves no waiting fault
where it takes the engine to VS4. -/
theorem not_meshWritesStoreWordsAndTag : ¬ Obligations.MeshWritesStoreWordsAndTag := by
  unfold Obligations.MeshWritesStoreWordsAndTag
  rintro ⟨-, claim, -⟩
  obtain ⟨g, port, served⟩ := exists_port_of_stave_zero
  obtain ⟨t, done, -, -, -, -, lost⟩ := claim (clockLost g none) g 0 0 [] 1 0 [] false true false false false none [] (some (0, 0))
    (clockLost_sound g none) (by decide) (Nat.lt_trans port (show 2 < 40 by decide)) served (by rw [State.fencedAt, clockLost_ctx]; rfl) rfl
    (by rw [State.retains, State.planOf, clockLost_ctx]) (fun sp span => by rw [clockLost_ctx] at span; cases span)
    (fun x listed => absurd listed List.not_mem_nil)
  cases (exec_lateMismatch port served none).symm.trans done
  obtain ⟨e, waits, -⟩ := lost (clockLost_lineLost g none _)
  rw [afterLateMismatch_faultQ g port] at waits
  exact absurd waits List.not_mem_nil

/-- Refutes O17: so does such a write to the retained copy of a blank. -/
theorem not_retainedWritesLeaveTheOriginal : ¬ Obligations.RetainedWritesLeaveTheOriginal := by
  unfold Obligations.RetainedWritesLeaveTheOriginal
  intro claim
  obtain ⟨g, port, served⟩ := exists_port_of_stave_zero
  have plan : (clockLost g (some (retainingPlan g))).planOf 0 = some (retainingPlan g) := by rw [State.planOf, clockLost_ctx]
  have retained : ((clockLost g (some (retainingPlan g))).mgtu.at g).retained =
      [{ ctx := 0, orig := 0, copy := 1, committed := false, rho := none }] :=
    congrArg Mgtu.retained ((Tab.at_upd_same ..).trans (congrArg _ (mgtu_reset g)))
  have held : ((clockLost g (some (retainingPlan g))).mgtu.at g).provisionalOf 0 0 =
      some { ctx := 0, orig := 0, copy := 1, committed := false, rho := none } := by rw [Mgtu.provisionalOf, retained]; rfl
  obtain ⟨write, -⟩ := claim (clockLost g (some (retainingPlan g))) g 0 0 false false none [] (some (0, 0))
    (clockLost_sound g _) (by decide) (Nat.lt_trans port (show 2 < 40 by decide)) served (by rw [State.fencedAt, clockLost_ctx]; rfl) rfl
    (by rw [State.retains, plan, clockLost_ctx]; simp [retainingPlan])
  obtain ⟨-, to_copy⟩ := write 1 true (fun sp span => by rw [clockLost_ctx] at span; cases span) (by simp [tagKey])
  obtain ⟨t, done, ⟨-, -, lost⟩, -⟩ := (to_copy [] 1 0 [] false false (fun x listed => absurd listed List.not_mem_nil)).1
    (congrArg (Option.map Retention.copy) held)
  cases (exec_lateMismatch port served (some (retainingPlan g))).symm.trans done
  obtain ⟨e, waits, -⟩ := lost (clockLost_lineLost g _ _)
  rw [afterLateMismatch_retained_faultQ g port] at waits
  exact absurd waits List.not_mem_nil

end Sys2Proof.Machine


namespace Sys2Proof.Machine

/-! ## What is only ever appended to

The recorder's intake, the faults that wait and what has been sent grow at their ends, until the engine enters VS3 or VS4, where the
faults become records (log 24). While the reference clock runs no stop ends there (R79), so every stop, drain and report only appends. -/

/-- From `s` to `t` the recorder's intake, the faults that wait and what has been sent only grow; the reference clock is as it was. -/
structure Appends (s t : State) : Prop where
  intake : s.rcd.intake ⊆ t.rcd.intake
  faultQ : s.fst.faultQ ⊆ t.fst.faultQ
  out : s.out ⊆ t.out
  refOk : t.aon.refOk = s.aon.refOk

theorem Appends.refl (s : State) : Appends s s := ⟨fun _ => id, fun _ => id, fun _ => id, rfl⟩

theorem Appends.trans {s t u : State} (h : Appends s t) (k : Appends t u) : Appends s u :=
  ⟨List.Subset.trans h.intake k.intake, List.Subset.trans h.faultQ k.faultQ, List.Subset.trans h.out k.out, k.refOk.trans h.refOk⟩

/-- A step that leaves the three lists and the clock alone. -/
theorem Appends.of_same {s t : State} (intake : t.rcd.intake = s.rcd.intake) (faultQ : t.fst.faultQ = s.fst.faultQ) (out : t.out = s.out)
    (refOk : t.aon.refOk = s.aon.refOk) : Appends s t :=
  ⟨intake ▸ fun _ => id, faultQ ▸ fun _ => id, out ▸ fun _ => id, refOk⟩

theorem Appends.each {α : Type} {f : State → α → State} {xs : List α} {s : State} (step : ∀ t x, Appends t (f t x)) :
    Appends s (s.each xs f) :=
  State.each_induction (P := Appends s) (.refl s) fun t x _ before => before.trans (step t x)

/-- Steps that append while the reference clock runs. -/
theorem Appends.each_of_refOk {α : Type} {f : State → α → State} {xs : List α} {s : State} (clock : s.aon.refOk = true)
    (step : ∀ t x, t.aon.refOk = true → Appends t (f t x)) : Appends s (s.each xs f) :=
  State.each_induction (P := Appends s) (.refl s) fun t x _ before => before.trans (step t x (before.refOk.trans clock))

/-- What appends while the reference clock runs, done after something else. -/
theorem Appends.after {s t u : State} (before : Appends s t) (clock : s.aon.refOk = true) (step : t.aon.refOk = true → Appends t u) :
    Appends s u := before.trans (step (before.refOk.trans clock))

/-- Steps that append while the reference clock runs, done after others. -/
theorem Appends.then_each {α : Type} {f : State → α → State} {xs : List α} {s t : State} (before : Appends s t) (clock : s.aon.refOk = true)
    (step : ∀ t x, t.aon.refOk = true → Appends t (f t x)) : Appends s (t.each xs f) :=
  before.trans (.each_of_refOk (before.refOk.trans clock) step)

theorem Appends.ite {p : Prop} [Decidable p] {s t u : State} (yes : p → Appends s t) (no : ¬p → Appends s u) :
    Appends s (if p then t else u) := by
  split
  · next h => exact yes h
  · next h => exact no h

section Operations

variable (s : State)

theorem Appends.onCtx (c : Ctx) (f : CtxSt → CtxSt) : Appends s (s.onCtx c f) := .of_same rfl rfl rfl rfl

theorem Appends.onFst {f : Fst → Fst} (waits : (f s.fst).faultQ = s.fst.faultQ) : Appends s (s.onFst f) := .of_same rfl waits rfl rfl

theorem Appends.onRec {f : RecSt → RecSt} (waits : (f s.rcd).intake = s.rcd.intake) : Appends s (s.onRec f) := .of_same waits rfl rfl rfl

theorem Appends.send (o : Out) : Appends s (s.send o) := ⟨fun _ => id, fun _ => id, List.subset_append_left _ _, rfl⟩

theorem Appends.sendMctp (m : Mctp) : Appends s (s.sendMctp m) := (Appends.send s _).trans (.send _ _)

theorem Appends.sendCtl (d : Dest) (x : Ctl) : Appends s (s.sendCtl d x) := .send s _

theorem Appends.irqSet (m : BitVec 8) : Appends s (s.irqSet m) := ⟨fun _ => id, fun _ => id, List.subset_append_left _ _, rfl⟩

theorem Appends.notifyPass (c : Ctx) : Appends s (s.notifyPass c) := ⟨fun _ => id, fun _ => id, List.subset_append_left _ _, rfl⟩

theorem Appends.recordAs (e : Ev) : Appends s (recordAs s e) := ⟨List.subset_append_left _ _, fun _ => id, fun _ => id, rfl⟩

theorem Appends.emit (e : Ev) : Appends s (s.emit e) := by
  by_cases record : e.cls = .record
  · rw [State.emit_record _ record]
    exact ⟨List.subset_append_left _ _, fun _ => id, fun _ => id, rfl⟩
  · rw [State.emit_fault _ record]
    exact ⟨fun _ => id, List.subset_append_left _ _, fun _ => id, rfl⟩

theorem Appends.emitOpen (e : Ev) : Appends s (s.emitOpen e) := by
  unfold State.emitOpen
  exact Appends.trans (t := s.fresh.2) (.of_same rfl rfl rfl rfl) (.emit _ _)

theorem Appends.setAon {f : Aon → Aon} (clock : (f s.aon).refOk = s.aon.refOk) : Appends s (s.setAon f) := by
  have changed : Appends s (s.onAon f) := .of_same rfl rfl rfl clock
  unfold State.setAon
  exact .ite (fun _ => changed) fun _ => changed.trans (.irqSet _ _)

theorem Appends.putItem (item : BitVec 16) (value : BitVec 64) : Appends s (s.putItem item value) := by
  rw [State.putItem_eq]
  exact .of_same rfl rfl rfl rfl

theorem Appends.histPut (e : HistEntry) : Appends s (s.histPut e) := .of_same rfl rfl rfl rfl

/-- The fault steward but for its queues and the units' history. -/
def Fst.butUnits (f : Fst) : Fst := { f with faultQ := [], histQ := [], units := [] }

theorem Fst.setUnit_butUnits (f : Fst) (u : UnitId) (v : Hist) : (f.setUnit u v).butUnits = f.butUnits := by
  unfold Fst.setUnit
  split <;> rfl

theorem Fst.retire_butUnits (f : Fst) (u : UnitId) (v : Hist) : (f.retire u v).butUnits = f.butUnits := by
  unfold Fst.retire
  split
  · exact Fst.setUnit_butUnits ..
  · rfl

theorem Fst.setUnit_faultQ (f : Fst) (u : UnitId) (v : Hist) : (f.setUnit u v).faultQ = f.faultQ := by
  unfold Fst.setUnit
  split <;> rfl

theorem Fst.retire_faultQ (f : Fst) (u : UnitId) (v : Hist) : (f.retire u v).faultQ = f.faultQ := by
  unfold Fst.retire
  split
  · exact f.setUnit_faultQ u v
  · rfl

theorem Appends.histRecord (u : UnitId) (kind col : BitVec 8) (event : BitVec 16) (param : BitVec 32) (ctx : Option Ctx) :
    Appends s (s.histRecord u kind col event param ctx) := .of_same rfl (Fst.setUnit_faultQ ..) rfl rfl

end Operations

/-! ## What leaves service, ends a test or cuts a pattern changes -/

/-- The recorder's stored items, with those that wait for the flash. -/
def RecSt.stored (r : RecSt) : RecSt := { flash := { r.flash with histSeq := 0 }, confOut := r.confOut, flashOk := r.flashOk }

/-- A state but for what leaving service changes. -/
def State.butServed (s : State) : State := { s with free := 0, out := [], wce := {}, shd := {}, scr := {}, fst := s.fst.butUnits, rcd := s.rcd.stored }

/-- From `s` to `t` units, tests and patterns have ended and have been reported, and nothing else has changed. -/
structure Serves (s t : State) : Prop extends Appends s t where
  rest : t.butServed = s.butServed

theorem Serves.refl (s : State) : Serves s s := ⟨.refl s, rfl⟩

theorem Serves.trans {s t u : State} (h : Serves s t) (k : Serves t u) : Serves s u := ⟨h.toAppends.trans k.toAppends, k.rest.trans h.rest⟩

theorem Serves.each {α : Type} {f : State → α → State} {xs : List α} {s : State} (step : ∀ t x, Serves t (f t x)) : Serves s (s.each xs f) :=
  State.each_induction (P := Serves s) (.refl s) fun t x _ before => before.trans (step t x)

theorem Serves.ite {p : Prop} [Decidable p] {s t u : State} (yes : p → Serves s t) (no : ¬p → Serves s u) : Serves s (if p then t else u) := by
  split
  · next h => exact yes h
  · next h => exact no h

theorem Serves.ctxs {s t : State} (h : Serves s t) : t.ctxs = s.ctxs := (congrArg State.ctxs h.rest :)
theorem Serves.pwr {s t : State} (h : Serves s t) : t.pwr = s.pwr := (congrArg State.pwr h.rest :)
theorem Serves.aon {s t : State} (h : Serves s t) : t.aon = s.aon := (congrArg State.aon h.rest :)
theorem Serves.fst {s t : State} (h : Serves s t) : t.fst.butUnits = s.fst.butUnits := (congrArg State.fst h.rest :)
theorem Serves.stored {s t : State} (h : Serves s t) : t.rcd.stored = s.rcd.stored := (congrArg State.rcd h.rest :)
theorem Serves.lgtu {s t : State} (h : Serves s t) : t.lgtu = s.lgtu := (congrArg State.lgtu h.rest :)

theorem Serves.of_same {s t : State} (intake : t.rcd.intake = s.rcd.intake) (faultQ : t.fst.faultQ = s.fst.faultQ) (out : t.out = s.out)
    (rest : t.butServed = s.butServed) : Serves s t :=
  ⟨.of_same intake faultQ out (congrArg Aon.refOk (congrArg State.aon rest :)), rest⟩

section ServiceOperations

variable (s : State)

theorem Serves.onWce (f : Wce → Wce) : Serves s (s.onWce f) := .of_same rfl rfl rfl rfl
theorem Serves.onScr (f : Scr → Scr) : Serves s (s.onScr f) := .of_same rfl rfl rfl rfl
theorem Serves.onRow (r : Row) (f : ShdRow → ShdRow) : Serves s (s.onRow r f) := .of_same rfl rfl rfl rfl
theorem Serves.onFst {f : Fst → Fst} (waits : (f s.fst).faultQ = s.fst.faultQ) (rest : (f s.fst).butUnits = s.fst.butUnits) : Serves s (s.onFst f) :=
  .of_same rfl waits rfl (by unfold State.butServed; rw [show (s.onFst f).fst = f s.fst from rfl, rest]; rfl)
theorem Serves.onRec {f : RecSt → RecSt} (waits : (f s.rcd).intake = s.rcd.intake) (stored : (f s.rcd).stored = s.rcd.stored) : Serves s (s.onRec f) :=
  .of_same waits rfl rfl (by unfold State.butServed; rw [show (s.onRec f).rcd = f s.rcd from rfl, stored]; rfl)
theorem Serves.fresh : Serves s s.fresh.2 := .of_same rfl rfl rfl rfl
theorem Serves.send (o : Out) : Serves s (s.send o) := ⟨.send s o, rfl⟩
theorem Serves.histPut (e : HistEntry) : Serves s (s.histPut e) := .of_same rfl rfl rfl rfl

theorem Serves.emit (e : Ev) : Serves s (s.emit e) := by
  refine ⟨.emit s e, ?_⟩
  unfold State.emit
  split <;> rfl

theorem Serves.histRecord (u : UnitId) (kind col : BitVec 8) (event : BitVec 16) (param : BitVec 32) (ctx : Option Ctx) :
    Serves s (s.histRecord u kind col event param ctx) := by
  unfold State.histRecord
  exact (Serves.onFst s (Fst.setUnit_faultQ ..) (Fst.setUnit_butUnits ..)).trans (.onRec _ rfl rfl)

theorem Serves.cutSelftest (n : Slice) : Serves s (cutSelftest s n) := by
  unfold Machine.cutSelftest
  split
  · exact .refl s
  · exact (Serves.fresh s).trans ((Serves.onWce _ _).trans ((Serves.onWce _ _).trans (.emit _ _)))

theorem Serves.noteUse : Serves s (noteUse s) := by
  unfold Machine.noteUse
  refine .each fun t c => ?_
  dsimp only
  split
  · exact .onScr t _
  · exact .refl t

theorem Serves.withdrawSpare (a : Arr) : Serves s (withdrawSpare s a) := by
  unfold Machine.withdrawSpare
  exact (Serves.onRow s _ _).trans (.noteUse _)

theorem Serves.closeGroups (r : Row) : Serves s (closeGroups s r) := by
  unfold Machine.closeGroups
  refine .each fun t a => ?_
  exact .onWce t _

theorem Serves.giveBack (m : Row) (reason : BitVec 3) : Serves s (giveBack s m reason) := by
  unfold Machine.giveBack
  exact (Serves.closeGroups s m).trans (((Serves.onWce _ _).trans (.onWce _ _)).trans (.emit _ _))

theorem Serves.rowLost (r : Row) (cs : List Ctx) : Serves s (rowLost s r cs) := by
  unfold Machine.rowLost
  exact (Serves.onWce _ _).trans (.emit _ _)

theorem Serves.withdrawStandby {lose : State → Row → State} (lost : ∀ t r, Serves t (lose t r)) : Serves s (withdrawStandby lose s) := by
  unfold Machine.withdrawStandby
  dsimp only
  refine .trans ?_ (.each lost)
  have retired (ns : List Slice) : Serves s (((cutTestOf s ns).onSlice standby (fun x => { x with state := .retired })).onWce
      (fun w => { w with handover := none, reason := 0, orders := [] })) :=
    (Serves.each .cutSelftest).trans ((Serves.onWce _ _).trans (.onWce _ _))
  split
  · exact retired _
  · exact (retired _).trans (.ite (fun _ => lost _ _) fun _ => .giveBack _ _ _)

theorem Serves.rotationCheck : Serves s (rotationCheck s) := by
  unfold Machine.rotationCheck
  exact .ite (fun _ => (Serves.onScr s _).trans (.emit _ _)) fun _ => .refl s

theorem Serves.retireUnit (u : UnitId) : Serves s (retireUnit s u) := by
  unfold Machine.retireUnit
  exact .ite (fun _ => (Serves.onFst s (Fst.retire_faultQ ..) (Fst.retire_butUnits ..)).trans ((Serves.histRecord _ ..).trans (.rotationCheck _)))
    fun _ => (Serves.onFst s (Fst.retire_faultQ ..) (Fst.retire_butUnits ..)).trans (.histRecord _ ..)

theorem Serves.leaveService (u : UnitId) : Serves s (leaveService s u) := by
  unfold Machine.leaveService
  refine .trans ?_ (.retireUnit _ u)
  split
  · split
    · exact .ite (fun _ => .withdrawSpare s _) fun _ => .refl s
    · exact .refl s
  · split
    · exact .onWce s _
    · exact .withdrawStandby s fun t r => .rowLost t r []
  · exact .refl s

theorem Serves.cutOne (cause : BitVec 4) (p : Pattern) : Serves s (cutOne cause s p) := by
  unfold Machine.cutOne
  dsimp only [State.fresh]
  refine .trans (.trans ?_ (.emit _ _)) (.send _ _)
  exact .of_same rfl rfl rfl rfl

theorem Serves.cutPatterns (which : Pattern → Bool) (cause : BitVec 4) : Serves s (cutPatterns s which cause) :=
  .each fun t p => .cutOne t cause p

theorem Serves.recordMove (dest : Vs) (cause : BitVec 32) : Serves s (recordMove s dest cause) := by
  unfold Machine.recordMove
  exact .ite (fun _ => .refl s) fun _ => .emit s _

theorem Serves.stopTest (n : Slice) : Serves s (stopTest s n) := by
  unfold Machine.stopTest
  split
  · refine .ite (fun _ => ?_) fun _ => .cutSelftest s n
    exact (Serves.cutSelftest s n).trans ((Serves.onWce _ _).trans ((Serves.giveBack _ _ _).trans (.onWce _ _)))
  · exact .cutSelftest s n

theorem Serves.closeRecord : Serves s (closeRecord s) := by
  unfold Machine.closeRecord
  exact .onRec s rfl rfl

end ServiceOperations

/-! ## What stops, drains and catches change (R240 to R249, R346) -/

/-- A state but for what stops, drains and catches change. -/
def State.butStops (s : State) : State :=
  { s with free := 0, out := [], ctxs := Vector.replicate 32 {}, wce := {}, shd := {}, scr := {}, fst := {}, rcd := {}, irq := {}, pwr := {}
           xing := {}, pln := {} }

/-- From `s` to `t` stops, drains and catches have appended and have changed what they change, and nothing else. -/
structure Stops (s t : State) : Prop extends Appends s t where
  rest : t.butStops = s.butStops

theorem Serves.stops {s t : State} (h : Serves s t) : Stops s t := ⟨h.toAppends, (congrArg State.butStops h.rest :)⟩

theorem Stops.refl (s : State) : Stops s s := ⟨.refl s, rfl⟩

theorem Stops.trans {s t u : State} (h : Stops s t) (k : Stops t u) : Stops s u := ⟨h.toAppends.trans k.toAppends, k.rest.trans h.rest⟩

theorem Stops.each {α : Type} {f : State → α → State} {xs : List α} {s : State} (step : ∀ t x, Stops t (f t x)) : Stops s (s.each xs f) :=
  State.each_induction (P := Stops s) (.refl s) fun t x _ before => before.trans (step t x)

theorem Stops.ite {p : Prop} [Decidable p] {s t u : State} (yes : p → Stops s t) (no : ¬p → Stops s u) : Stops s (if p then t else u) := by
  split
  · next h => exact yes h
  · next h => exact no h

/-- A stop while the reference clock runs, done after another. -/
theorem Stops.after {s t u : State} (before : Stops s t) (clock : s.aon.refOk = true) (step : t.aon.refOk = true → Stops t u) : Stops s u :=
  before.trans (step (before.refOk.trans clock))

theorem Stops.each_of_refOk {α : Type} {f : State → α → State} {xs : List α} {s : State} (clock : s.aon.refOk = true)
    (step : ∀ t x, t.aon.refOk = true → Stops t (f t x)) : Stops s (s.each xs f) :=
  State.each_induction (P := Stops s) (.refl s) fun t x _ before => before.after clock (step t x)

theorem Stops.then_each {α : Type} {f : State → α → State} {xs : List α} {s t : State} (before : Stops s t) (clock : s.aon.refOk = true)
    (step : ∀ t x, t.aon.refOk = true → Stops t (f t x)) : Stops s (t.each xs f) :=
  before.after clock fun on => .each_of_refOk on step

theorem Stops.aon {s t : State} (h : Stops s t) : t.aon = s.aon := (congrArg State.aon h.rest :)
theorem Stops.mem {s t : State} (h : Stops s t) : t.mem = s.mem := (congrArg State.mem h.rest :)
theorem Stops.mgtu {s t : State} (h : Stops s t) : t.mgtu = s.mgtu := (congrArg State.mgtu h.rest :)
theorem Stops.lgtu {s t : State} (h : Stops s t) : t.lgtu = s.lgtu := (congrArg State.lgtu h.rest :)
theorem Stops.time {s t : State} (h : Stops s t) : t.time = s.time := (congrArg State.time h.rest :)

theorem Stops.of_same {s t : State} (intake : t.rcd.intake = s.rcd.intake) (faultQ : t.fst.faultQ = s.fst.faultQ) (out : t.out = s.out)
    (rest : t.butStops = s.butStops) : Stops s t :=
  ⟨.of_same intake faultQ out (congrArg Aon.refOk (congrArg State.aon rest :)), rest⟩

section StopOperations

variable (s : State)

theorem Stops.onWce (f : Wce → Wce) : Stops s (s.onWce f) := .of_same rfl rfl rfl rfl
theorem Stops.onCtx (c : Ctx) (f : CtxSt → CtxSt) : Stops s (s.onCtx c f) := .of_same rfl rfl rfl rfl
theorem Stops.onPwr (f : Pwr → Pwr) : Stops s (s.onPwr f) := .of_same rfl rfl rfl rfl
theorem Stops.onPln (f : Pln → Pln) : Stops s (s.onPln f) := .of_same rfl rfl rfl rfl
theorem Stops.onScr (f : Scr → Scr) : Stops s (s.onScr f) := .of_same rfl rfl rfl rfl
theorem Stops.onRow (r : Row) (f : ShdRow → ShdRow) : Stops s (s.onRow r f) := .of_same rfl rfl rfl rfl
theorem Stops.onFst {f : Fst → Fst} (waits : (f s.fst).faultQ = s.fst.faultQ) : Stops s (s.onFst f) := .of_same rfl waits rfl rfl
theorem Stops.onRec {f : RecSt → RecSt} (waits : (f s.rcd).intake = s.rcd.intake) : Stops s (s.onRec f) := .of_same waits rfl rfl rfl
theorem Stops.fresh : Stops s s.fresh.2 := .of_same rfl rfl rfl rfl
theorem Stops.withXing (xing : Xing) : Stops s { s with xing } := .of_same rfl rfl rfl rfl
theorem Stops.send (o : Out) : Stops s (s.send o) := ⟨.send s o, rfl⟩
theorem Stops.sendMctp (m : Mctp) : Stops s (s.sendMctp m) := ⟨.sendMctp s m, rfl⟩
theorem Stops.irqSet (m : BitVec 8) : Stops s (s.irqSet m) := ⟨.irqSet s m, rfl⟩
theorem Stops.notifyPass (c : Ctx) : Stops s (s.notifyPass c) := ⟨.notifyPass s c, rfl⟩
theorem Stops.recordAs (e : Ev) : Stops s (recordAs s e) := ⟨.recordAs s e, rfl⟩
theorem Stops.histPut (e : HistEntry) : Stops s (s.histPut e) := .of_same rfl rfl rfl rfl
theorem Stops.putItem (item : BitVec 16) (value : BitVec 64) : Stops s (s.putItem item value) := ⟨.putItem s item value, rfl⟩

theorem Stops.emit (e : Ev) : Stops s (s.emit e) := by
  refine ⟨.emit s e, ?_⟩
  unfold State.emit
  split <;> rfl

theorem Stops.histRecord (u : UnitId) (kind col : BitVec 8) (event : BitVec 16) (param : BitVec 32) (ctx : Option Ctx) :
    Stops s (s.histRecord u kind col event param ctx) := .of_same rfl (Fst.setUnit_faultQ ..) rfl rfl

theorem Stops.endDrain : Stops s (endDrain s) := by
  unfold Machine.endDrain
  exact (Stops.onFst s rfl).trans ((Stops.onPwr _ _).trans ((Stops.emit _ _).trans ((Serves.each .leaveService).stops.trans (.onFst _ rfl))))

theorem Stops.moveWithin (dest : Vs) (cause : BitVec 32) : Stops s (moveWithin s dest cause) := by
  unfold Machine.moveWithin
  dsimp only
  have left : Stops s (if s.pwr.vs = .vs0 ∧ dest ≠ .vs0 then
      Machine.closeRecord (Machine.cutPatterns (s.each (List.finRange 25) Machine.stopTest) (fun _ => true) 4) else s) :=
    .ite (fun _ => ((Serves.each .stopTest).trans ((Serves.cutPatterns _ _ _).trans (.closeRecord _))).stops) fun _ => .refl s
  refine left.trans ((Serves.recordMove _ dest cause).stops.trans ?_)
  exact .of_same rfl rfl rfl rfl

theorem Stops.afterStop (clock : s.aon.refOk = true) : Stops s (afterStop s) := by
  unfold Machine.afterStop
  dsimp only
  refine .ite (fun _ => .refl s) fun _ => ?_
  have drained : Stops s (if s.fst.state = .draining then Machine.endDrain s else s) := .ite (fun _ => .endDrain s) fun _ => .refl s
  generalize (if s.fst.state = .draining then Machine.endDrain s else s) = t at drained ⊢
  have moved : Stops s (if t.thm.stopped ∧ t.pwr.vs.code < 2 then (Machine.moveWithin t .vs2 2).send .stopArrayClock else t) :=
    .ite (fun _ => drained.trans ((Stops.moveWithin _ _ _).trans (.send _ _))) fun _ => drained
  refine .ite (fun lost => ?_) fun _ => moved
  obtain ⟨-, off, -⟩ := lost
  rw [moved.aon, clock] at off
  cases off

theorem Stops.endStall (c : Ctx) : Stops s (endStall s c) := by
  unfold Machine.endStall
  exact .ite (fun _ => (Stops.onCtx _ _ _).trans (.emit _ _)) fun _ => .refl s

theorem Stops.histCatch (c : Ctx) (k : OpenCatch) (act : HistAct) (event : BitVec 16) (sliceAct : HistAct) :
    Stops s (histCatch s c k act event sliceAct) := by
  unfold Machine.histCatch
  dsimp only
  split
  · exact (Stops.histPut _ _).trans (.histPut _ _)
  · exact .histPut _ _

end StopOperations

/-! ### A context enters STOPPED (R248), in its parts -/

/-- The pass registers of a context that enters STOPPED. -/
def PassSt.stop (event : BitVec 16) (p : PassSt) : PassSt :=
  { p with st := .stopped, stopEvent := event, stopPass := p.index, driverHold := false, holdSub := false, holdFw := false, holdDigest := false }

/-- The execution of a context that enters STOPPED. -/
def ExecSt.stop (e : ExecSt) : ExecSt :=
  { e with catches := [], caught := [], stopAfter := none, replayDue := false, replaySent := false, fenced := [], tokenWait := false, injected := true }

/-- The barrier of a context that enters STOPPED. -/
def BarSt.stop (b : BarSt) : BarSt := { b with waiting := false, startAt := none, released := false }

/-- The lock-step half of a context that enters STOPPED. -/
def LscSt.stop (l : LscSt) : LscSt := { l with waiting := false }

/-- CATCH_UNDECIDED for each open catch of a context (R242). -/
def leaveUndecided (s : State) (c : Ctx) : State :=
  s.each (s.ctx c).exec.catches (fun t k => if k.repeated then t else
    histCatch (t.emit { code := 0x5005, unit := k.unit, ctx := some c, p16 := k.replay.setWidth 16, p32 := (s.ctx c).pass.index.setWidth 32 })
      c k .undecided 0x5005 .undecided)

/-- The registers of a context that enters STOPPED. -/
def stopRegisters (s : State) (c : Ctx) (event : BitVec 16) : State :=
  (((s.onPass c (PassSt.stop event)).onExec c ExecSt.stop).onBar c BarSt.stop).onLsc c LscSt.stop

/-- PAIR_STOP to a lock-step partner (R285). -/
def tellPartner (s : State) (c : Ctx) : State :=
  match (s.planOf c).bind (fun p => p.extra.pair) with
  | some pr => s.sendCtl (.partner (BitVec.ofNat 16 pr.chip) (BitVec.ofNat 8 pr.ctx) (s.pairOnAlt pr)) .pairStop
  | none => s

/-- What entering STOPPED does before the engine looks whether every context has stopped. -/
def stopEffects (s : State) (c : Ctx) (event : BitVec 16) : State :=
  tellPartner ((endStall (stopRegisters (leaveUndecided s c) c event) c).notifyPass c) c

theorem enterStopped_eq (s : State) (c : Ctx) (event : BitVec 16) : enterStopped s c event = afterStop (stopEffects s c event) := rfl

section StopContext

variable (s : State)

theorem Stops.leaveUndecided (c : Ctx) : Stops s (leaveUndecided s c) := by
  unfold Machine.leaveUndecided
  exact .each fun t k => .ite (fun _ => .refl t) fun _ => (Stops.emit _ _).trans (.histCatch ..)

theorem Stops.stopRegisters (c : Ctx) (event : BitVec 16) : Stops s (stopRegisters s c event) :=
  ((Stops.onCtx _ c _).trans (.onCtx _ c _)).trans ((Stops.onCtx _ c _).trans (.onCtx _ c _))

theorem Stops.tellPartner (c : Ctx) : Stops s (tellPartner s c) := by
  unfold Machine.tellPartner
  split
  · exact .send ..
  · exact .refl s

theorem Stops.stopEffects (c : Ctx) (event : BitVec 16) : Stops s (stopEffects s c event) :=
  (Stops.leaveUndecided s c).trans ((Stops.stopRegisters _ c event).trans
    ((Stops.endStall _ c).trans ((Stops.notifyPass _ c).trans (.tellPartner _ c))))

theorem Stops.enterStopped (c : Ctx) (event : BitVec 16) (clock : s.aon.refOk = true) : Stops s (enterStopped s c event) :=
  (Stops.stopEffects s c event).after clock fun on => .afterStop _ on

theorem Stops.noteCause (c : Ctx) (reason : BitVec 4) (unit : UnitId) : Stops s (noteCause s c reason unit) := .onCtx s c _

theorem Stops.stopCtx (c : Ctx) (event : BitVec 16) (clock : s.aon.refOk = true) : Stops s (stopCtx s c event) := by
  unfold Machine.stopCtx
  split
  case h_1 | h_2 => exact .refl s
  case h_3 => exact .onCtx s c _
  all_goals exact .ite (fun _ => .onCtx s c _) fun _ => .enterStopped s c event clock

theorem Stops.abortStopCtx (c : Ctx) (event : BitVec 16) (clock : s.aon.refOk = true) : Stops s (abortStopCtx s c event) := by
  unfold Machine.abortStopCtx
  exact .ite (fun _ => (Stops.onCtx s c _).trans (.noteCause ..)) fun _ => .stopCtx s c event clock

/-! ### Loads cancelled (R316, R322) -/

theorem Stops.loadOutcome (c : Ctx) (outcome : BitVec 2) (event : BitVec 16) (atApp : Bool) (cause : BitVec 8) (cls : BitVec 4)
    (index : BitVec 16) (conflict : BitVec 8) : Stops s (loadOutcome s c outcome event atApp cause cls index conflict) :=
  (Stops.onCtx s c _).trans (.irqSet _ _)

theorem Stops.discardLoad (c : Ctx) : Stops s (discardLoad s c) := by
  unfold Machine.discardLoad
  exact (Stops.onCtx s c _).trans ((Stops.onPln _ _).trans ((Stops.loadOutcome _ ..).trans (.emit _ _)))

theorem Stops.planApplied (c : Ctx) : Stops s (planApplied s c) := by
  unfold Machine.planApplied
  exact (Stops.onCtx s c _).trans ((Stops.loadOutcome _ ..).trans (.emit _ _))

theorem Stops.endLoad (c : Ctx) : Stops s (endLoad s c) := by
  unfold Machine.endLoad
  split
  case h_5 => exact .ite (fun _ => .planApplied s c) fun _ => .discardLoad s c
  case h_6 | h_7 => exact .refl s
  all_goals exact .discardLoad s c

/-! ### Drains, REPLACE and reports (R226, R346, R359, R360) -/

theorem Stops.startDrain (cause : BitVec 3) (clock : s.aon.refOk = true) : Stops s (startDrain s cause) := by
  unfold Machine.startDrain
  have ended {t : State} (before : Stops s t) : Stops s (Machine.afterStop t) := before.after clock fun on => .afterStop t on
  refine .ite (fun _ => ended (.each_of_refOk clock fun t c on => .abortStopCtx t c _ on)) fun _ => .ite (fun _ => .refl s) fun _ => ended ?_
  refine .then_each ?_ clock fun t c on => .ite (fun _ => .abortStopCtx t c _ on) fun _ => .stopCtx t c _ on
  exact (Stops.onFst s rfl).trans ((Stops.onPwr _ _).trans ((Stops.emit _ _).trans ((Stops.irqSet _ _).trans (.each .endLoad))))

theorem Stops.healthEvent : Stops s (healthEvent s) := by
  unfold Machine.healthEvent
  exact .ite (fun _ => .refl s) fun _ => (Stops.onRec s rfl).trans (.sendMctp _ _)

theorem Stops.exportSig (e : Ev) (cls : BitVec 8) : Stops s (exportSig s e cls) := by
  unfold Machine.exportSig
  exact Stops.trans (t := s.fresh.2) (.of_same rfl rfl rfl rfl) (.recordAs _ _)

theorem Stops.setReplace (cause : BitVec 3) (unit : UnitId) : Stops s (setReplace s cause unit) := by
  unfold Machine.setReplace
  exact .ite (fun _ => .refl s) fun _ => (Stops.onFst s rfl).trans (.putItem _ _ _)

theorem Stops.replaceAndDrain (cause : BitVec 3) (unit : UnitId) (clock : s.aon.refOk = true) : Stops s (replaceAndDrain s cause unit) := by
  unfold Machine.replaceAndDrain
  exact ((Stops.exportSig s _ 3).trans (.setReplace _ cause unit)).after clock fun on => (Stops.startDrain _ cause on).trans (.healthEvent _)

theorem Stops.awaitRetire (u : UnitId) : Stops s (awaitRetire s u) := by
  unfold Machine.awaitRetire
  exact .ite (fun _ => .onFst s rfl) fun _ => (Serves.leaveService s u).stops

theorem Stops.lateReport (c : Ctx) (unit : UnitId) (kind : BitVec 16) (pass : BitVec 48) (clock : s.aon.refOk = true) :
    Stops s (lateReport s c unit kind pass) := by
  unfold Machine.lateReport
  exact ((Stops.emit _ _).trans (.emit _ _)).after clock fun on => (Stops.awaitRetire _ _).after on fun on => .replaceAndDrain _ 4 unit on

theorem Stops.exposure (c : Ctx) (unit : UnitId) (r : Nat × BitVec 3 × BitVec 48 × BitVec 32) : Stops s (exposure s c unit r) :=
  (Stops.emit _ _).trans ((Stops.emit _ _).trans (.onCtx _ c _))

theorem Stops.settle (c : Ctx) : Stops s (settle s c) := by
  unfold Machine.settle
  exact .ite (fun _ => .ite (fun _ => (Stops.onCtx s c _).trans (.notifyPass _ c)) fun _ => .onCtx s c _) fun _ => .refl s

theorem Stops.settleAll : Stops s (settleAll s) := .each .settle

theorem Stops.noteCatch (c : Ctx) (unit : UnitId) (slice : Option (BitVec 8 × BitVec 8)) (shadow : Option Compare) :
    Stops s (noteCatch s c unit slice shadow) := by
  unfold Machine.noteCatch
  dsimp only
  split
  · exact .onCtx s c _
  · refine .ite (fun _ => (Stops.onCtx s c _).trans (.each fun t x => .exposure t c unit _)) fun _ => .ite (fun _ => .onCtx s c _) fun _ => ?_
    exact (Stops.onCtx s c _).trans ((Stops.onCtx _ c _).trans ((Stops.onCtx _ c _).trans ((Stops.emit _ _).trans
      ((Stops.histCatch _ ..).trans ((Stops.settle _ c).trans (.each fun t x => .exposure t c unit _))))))

theorem Stops.reportCause (c : Ctx) (reason : BitVec 4) (unit : UnitId) (ex : Option ExecName) (clock : s.aon.refOk = true) :
    Stops s (reportCause s c reason unit ex) := by
  unfold Machine.reportCause
  have now : Stops s (Machine.noteCatch (Machine.noteCause s c reason unit) c unit none none) := (Stops.noteCause ..).trans (.noteCatch ..)
  split
  · split
    · exact now
    · exact .lateReport s c unit _ _ clock
    · exact .refl s
  · exact .ite (fun _ => now) fun _ => .ite (fun _ => .lateReport s c unit _ _ clock) fun _ => .refl s

end StopContext

/-- A report to the commit unit loses no fault, while the reference clock runs. -/
theorem Appends.reportCause (s : State) (c : Ctx) (reason : BitVec 4) (unit : UnitId) (ex : Option ExecName) (clock : s.aon.refOk = true) :
    Appends s (reportCause s c reason unit ex) := (Stops.reportCause s c reason unit ex clock).toAppends

theorem Appends.endStall (s : State) (c : Ctx) : Appends s (endStall s c) := (Stops.endStall s c).toAppends

end Sys2Proof.Machine


namespace Sys2Proof.Machine

/-! ## What the tag units' work leaves alone -/

/-- A state but for what the tag units' own work changes: the stored tags, their registers, faults that wait, open values. -/
def State.butTags (s : State) : State := { s with tags := [], mgtu := Vector.replicate 40 {}, fst := {}, free := 0 }

/-- The tables by which the tag units place accesses and hold lines: the retained blanks and the visits of each. -/
def State.tables (s : State) (g : Gtu) : List Retention × List Visit := ((s.mgtu.at g).retained, (s.mgtu.at g).visits)

theorem State.mem_eq_of_butTags {s t : State} (h : t.butTags = s.butTags) : t.mem = s.mem := (congrArg State.mem h :)

theorem State.out_eq_of_butTags {s t : State} (h : t.butTags = s.butTags) : t.out = s.out := (congrArg State.out h :)

theorem State.ctxs_eq_of_butTags {s t : State} (h : t.butTags = s.butTags) : t.ctxs = s.ctxs := (congrArg State.ctxs h :)

theorem State.ctx_eq_of_ctxs {s t : State} (h : t.ctxs = s.ctxs) (c : Ctx) : t.ctx c = s.ctx c := congrArg (fun v => Tab.at v c) h

theorem State.keyOf_eq_of_ctxs {s t : State} (h : t.ctxs = s.ctxs) : t.keyOf = s.keyOf :=
  funext fun c => by rw [State.keyOf, State.keyOf, State.ctx_eq_of_ctxs h]

theorem State.deliveredBlank_of_mem {s t : State} (h : t.mem = s.mem) : t.deliveredBlank = s.deliveredBlank := by
  unfold State.deliveredBlank State.delivered State.wordAt State.byteAt
  rw [h]

theorem State.byteAt_of_mem {s t : State} (h : t.mem = s.mem) : t.byteAt = s.byteAt := by
  unfold State.byteAt
  rw [h]

theorem State.tagOf_of_tags {s t : State} (h : t.tags = s.tags) : t.tagOf = s.tagOf := by
  unfold State.tagOf
  rw [h]

/-! ### Tag events -/

theorem countGtu_tables (code : BitVec 16) (m : Mgtu) : (countGtu code m).retained = m.retained ∧ (countGtu code m).visits = m.visits := by
  unfold countGtu
  split
  · exact ⟨rfl, rfl⟩
  split
  · exact ⟨rfl, rfl⟩
  split <;> exact ⟨rfl, rfl⟩

theorem keepFirst_tables (c : Option Ctx) (code : BitVec 16) (index : Nat) (st : BitVec 3) (m : Mgtu) :
    (keepFirst c code index st m).retained = m.retained ∧ (keepFirst c code index st m).visits = m.visits := by
  unfold keepFirst
  split <;> exact ⟨rfl, rfl⟩

theorem State.onMgtu_tables {s : State} {g : Gtu} {f : Mgtu → Mgtu} (retained : ∀ m, (f m).retained = m.retained)
    (visits : ∀ m, (f m).visits = m.visits) (h : Gtu) : (s.onMgtu g f).tables h = s.tables h := by
  unfold State.tables
  by_cases same : h = g
  · subst same
    rw [State.onMgtu_mgtu, Tab.at_upd_same, retained, visits]
  · rw [State.onMgtu_mgtu, Tab.at_upd_other _ _ same]

section Event

variable (s : State) (g : Gtu) (c : Option Ctx) (code : BitVec 16) (cls : Cls) (index : Nat) (st : BitVec 3) (p16 : BitVec 16) (p32 : Nat)
  (acc : BitVec 8) (addr : Nat)

theorem mgtuEvent_tables (h : Gtu) : (mgtuEvent s g c code cls index st p16 p32 acc addr).tables h = s.tables h := by
  unfold mgtuEvent
  rw [State.tables, State.emit_mgtu]
  split
  · rfl
  · exact State.onMgtu_tables (fun m => (keepFirst_tables ..).1.trans (countGtu_tables ..).1)
      (fun m => (keepFirst_tables ..).2.trans (countGtu_tables ..).2) h

theorem Appends.mgtuEvent : Appends s (mgtuEvent s g c code cls index st p16 p32 acc addr) := by
  unfold Machine.mgtuEvent
  refine .trans ?_ (.emit _ _)
  exact .ite (fun _ => .refl s) fun _ => .of_same rfl rfl rfl rfl

theorem mgtuEvent_ctxs : (mgtuEvent s g c code cls index st p16 p32 acc addr).ctxs = s.ctxs := by
  unfold mgtuEvent
  rw [State.emit_ctxs]
  split <;> rfl

variable (fault : cls ≠ .record)
include fault

theorem mgtuEvent_butTags : (mgtuEvent s g c code cls index st p16 p32 acc addr).butTags = s.butTags := by
  unfold mgtuEvent
  rw [State.emit_fault _ fault]
  split <;> rfl

/-- A tag event is a fault of its tag unit. -/
theorem mgtuEvent_raises : ∃ e ∈ (mgtuEvent s g c code cls index st p16 p32 acc addr).fst.faultQ,
    e.code = code ∧ e.cls = cls ∧ e.unit = uMgtu g ∧ e.ctx = c := by
  unfold mgtuEvent
  rw [State.emit_fault _ fault]
  exact ⟨_, List.mem_append_right _ (List.mem_singleton_self _), rfl, rfl, rfl, rfl⟩

end Event

/-! ### Stored tags -/

theorem State.tagOf_setTag_same {s : State} (wf : Tags.wf s.tags = true) (st b : Nat) (t : BitVec 64) : (s.setTag st b t).tagOf st b = t :=
  alGet_alPut_same wf

theorem State.tagOf_setTag {s : State} (wf : Tags.wf s.tags = true) (st b x y : Nat) (t : BitVec 64) :
    (s.setTag st b t).tagOf x y = if tagKey x y = tagKey st b then t else s.tagOf x y := by
  split
  · next same =>
    rw [State.tagOf, same]
    exact alGet_alPut_same wf
  · next other => exact alGet_alPut_other other

theorem State.tagOf_setTag_other {s : State} {st b x y : Nat} (other : tagKey x y ≠ tagKey st b) (t : BitVec 64) :
    (s.setTag st b t).tagOf x y = s.tagOf x y := alGet_alPut_other other

theorem State.setTag_wf {s : State} (wf : Tags.wf s.tags = true) (st b : Nat) (t : BitVec 64) : Tags.wf (s.setTag st b t).tags = true :=
  alPut_wf wf

/-- One tag written to each blank of a list. -/
theorem State.tagOf_each_setTag {s : State} (wf : Tags.wf s.tags = true) (st : Nat) (key : Nat → Nat) (t : BitVec 64) (is : List Nat) (x y : Nat) :
    (s.each is (fun s i => s.setTag st (key i) t)).tagOf x y =
      if is.any (fun i => decide (tagKey x y = tagKey st (key i))) then t else s.tagOf x y := by
  induction is generalizing s with
  | nil => rfl
  | cons i is ih =>
    rw [State.each_cons, ih (State.setTag_wf wf _ _ _), State.tagOf_setTag wf, List.any_cons]
    by_cases here : tagKey x y = tagKey st (key i) <;> simp [here]

/-! ### Tag lines (R104 to R106) -/

section Line

variable (s : State) (g : Gtu) (c : Option Ctx) (b : Nat) (le : Bool)

theorem State.each_setTag_butTags (st : Nat) (key : Nat → Nat) (t : BitVec 64) (is : List Nat) :
    (s.each is (fun s i => s.setTag st (key i) t)).butTags = s.butTags := 
  State.each_field State.butTags (f := fun s i => s.setTag st (key i) t) (fun _ _ => rfl) is s

theorem fetchLine_of_kept {s : State} {g : Gtu} {b : Nat} {le : Bool} (kept : s.lineLost g b le = false) (c : Option Ctx) : fetchLine s g c b le = s := by
  refine if_neg fun lost => ?_
  rw [Bool.and_comm] at lost
  exact Bool.false_ne_true (kept.symm.trans lost)

theorem fetchLine_of_lost {s : State} {g : Gtu} {b : Nat} {le : Bool} (lost : s.lineLost g b le = true) (c : Option Ctx) :
    fetchLine s g c b le = lineError s g c (b / 8) := by
  refine if_pos ?_
  rw [Bool.and_comm]
  exact lost

theorem lineError_butTags (stave : Nat) : (lineError s g c stave).butTags = s.butTags := by
  unfold lineError
  rw [mgtuEvent_butTags _ _ _ _ _ _ _ _ _ _ _ Cls.noConfusion, State.each_setTag_butTags s _ (fun i => stave * 8 + i)]

theorem fetchLine_butTags : (fetchLine s g c b le).butTags = s.butTags := by
  unfold fetchLine
  split
  · exact lineError_butTags s g c _
  · rfl

theorem fetchLine_tables (h : Gtu) : (fetchLine s g c b le).tables h = s.tables h := by
  unfold fetchLine
  split
  · unfold lineError
    dsimp only
    rw [mgtuEvent_tables, State.each_field (fun t => t.tables h) (f := fun s i => s.setTag (stackOf g) (b / 8 * 8 + i) (mkTag tMem 0)) (fun _ _ => rfl)]
  · rfl

theorem Appends.fetchLine : Appends s (fetchLine s g c b le) := by
  unfold Machine.fetchLine lineError
  refine .ite (fun _ => .trans (.each fun t i => ?_) (.mgtuEvent ..)) fun _ => .refl s
  exact .of_same rfl rfl rfl rfl

/-- A lost line is TAG_LINE_ECC. -/
theorem fetchLine_raises (lost : s.lineLost g b le = true) :
    ∃ e ∈ (fetchLine s g c b le).fst.faultQ, e.code = 0x4004 ∧ e.cls = .u ∧ e.unit = uMgtu g := by
  rw [fetchLine_of_lost lost]
  obtain ⟨e, waits, code, cls, unit, -⟩ := mgtuEvent_raises (s.each (List.range 8) (fun s i => s.setTag (stackOf g) (b / 8 * 8 + i) (mkTag tMem 0)))
    g c 0x4004 .u (b / 8) tMem 0 (b / 8) 0x06 (tagLineAddr (b / 8)) Cls.noConfusion
  exact ⟨e, waits, code, cls, unit⟩

variable {s}

/-- The stored tags after the fetch are those an access finds. -/
theorem fetchLine_tagOf (wf : Tags.wf s.tags = true) : (fetchLine s g c b le).tagOf = s.fetchedTag g b le := by
  funext x y
  unfold State.fetchedTag afterLine
  cases lost : s.lineLost g b le
  · rw [fetchLine_of_kept lost]
    rfl
  · rw [fetchLine_of_lost lost, lineError]
    rw [State.tagOf_of_tags (congrArg (fun k => k.2.2) (mgtuEvent_kept ..)), State.tagOf_each_setTag wf, Bool.true_and]

theorem fetchLine_wf (wf : s.Sound) : Tags.wf (fetchLine s g c b le).tags = true := ((fetchLine_stores s g c b le).2 wf).2.1

end Line

/-! ### A tag written after its line has been fetched -/

theorem mem_of_kept {s t : State} (h : t.kept = s.kept) : t.mem = s.mem := congrArg (fun k => k.2.1) h

theorem tags_of_kept {s t : State} (h : t.kept = s.kept) : t.tags = s.tags := congrArg (fun k => k.2.2) h

/-- From `s` to `u` the tag line of a blank has been fetched: the stored tags are those an access finds, and a lost line is TAG_LINE_ECC. -/
structure Fetched (s u : State) (g : Gtu) (b : Nat) (le : Bool) : Prop where
  mem : u.mem = s.mem
  tagOf : u.tagOf = s.fetchedTag g b le
  wf : Tags.wf u.tags = true
  raised : s.lineLost g b le = true → ∃ e ∈ u.fst.faultQ, e.code = 0x4004 ∧ e.cls = .u ∧ e.unit = uMgtu g

/-- From `s` to `t` the tag line of a blank has been fetched and the tag of the blank written. -/
structure TagWritten (s t : State) (g : Gtu) (b : Nat) (le : Bool) (v : BitVec 64) : Prop where
  tag : t.tagOf (stackOf g) b = v
  others : ∀ st x, tagKey st x ≠ tagKey (stackOf g) b → t.tagOf st x = s.fetchedTag g b le st x
  raised : s.lineLost g b le = true → ∃ e ∈ t.fst.faultQ, e.code = 0x4004 ∧ e.cls = .u ∧ e.unit = uMgtu g

section Written

variable {r s t u : State} {g : Gtu} {b : Nat} {le : Bool} {v : BitVec 64}

theorem fetchLine_fetched (sound : s.Sound) (c : Option Ctx) : Fetched s (fetchLine s g c b le) g b le :=
  ⟨State.mem_eq_of_butTags (fetchLine_butTags ..), fetchLine_tagOf g c b le sound.2.1, fetchLine_wf g c b le sound,
    fetchLine_raises s g c b le⟩

/-- What keeps memory and tags and loses no fault may follow. -/
theorem Fetched.later (h : Fetched s t g b le) (kept : u.kept = t.kept) (appends : Appends t u) : Fetched s u g b le := by
  refine ⟨(mem_of_kept kept).trans h.mem, (State.tagOf_of_tags (tags_of_kept kept)).trans h.tagOf, by rw [tags_of_kept kept]; exact h.wf, fun lost => ?_⟩
  obtain ⟨e, waits, is_line_error⟩ := h.raised lost
  exact ⟨e, appends.faultQ waits, is_line_error⟩

/-- What keeps memory, tags and visits may come before. -/
theorem Fetched.earlier (h : Fetched s t g b le) (kept : s.kept = r.kept) (tables : s.tables g = r.tables g) : Fetched r t g b le := by
  have lost : r.lineLost g b le = s.lineLost g b le := congrArg (fun x : _ × List Visit => le && !x.2.any (fun v => v.stave = b / 8)) tables.symm
  have found : r.fetchedTag g b le = s.fetchedTag g b le := by
    rw [State.fetchedTag, State.fetchedTag, lost, State.tagOf_of_tags (tags_of_kept kept)]
  exact ⟨h.mem.trans (mem_of_kept kept), h.tagOf.trans found.symm, h.wf, fun was_lost => h.raised (lost ▸ was_lost)⟩

theorem Fetched.write (h : Fetched s u g b le) (tags : t.tags = alPut emptyTag u.tags (tagKey (stackOf g) b) v) (appends : Appends u t) :
    TagWritten s t g b le v := by
  refine ⟨by rw [State.tagOf, tags]; exact alGet_alPut_same h.wf, fun st x other => ?_, fun lost => ?_⟩
  · rw [← h.tagOf, State.tagOf, tags]
    exact alGet_alPut_other other
  · obtain ⟨e, waits, is_line_error⟩ := h.raised lost
    exact ⟨e, appends.faultQ waits, is_line_error⟩

theorem TagWritten.later (h : TagWritten s t g b le v) (tags : u.tags = t.tags) (appends : Appends t u) : TagWritten s u g b le v := by
  refine ⟨by rw [State.tagOf_of_tags tags, h.tag], fun st x other => by rw [State.tagOf_of_tags tags, h.others st x other], fun lost => ?_⟩
  obtain ⟨e, waits, is_line_error⟩ := h.raised lost
  exact ⟨e, appends.faultQ waits, is_line_error⟩

theorem TagWritten.onlyFetched_of_mem (h : TagWritten s t g b le v) (mem : t.mem = s.mem) : OnlyFetched s t g b le :=
  ⟨fun st a _ => by rw [State.byteAt_of_mem mem], h.others, h.raised⟩

theorem TagWritten.onlyFetched_of_words (h : TagWritten s t g b le v) {ws : List (Nat × BitVec 32)}
    (inside : ∀ w ∈ ws, w.1 < 1024) (mem : t.mem = putWords s.mem (stackOf g) b ws) : OnlyFetched s t g b le := by
  refine ⟨fun st a outside => ?_, h.others, h.raised⟩
  rw [State.byteAt, mem]
  exact alGet_putWords inside outside

end Written

theorem fullWords_inside (data : List (BitVec 32)) : ∀ w ∈ fullWords data, w.1 < 1024 := by
  intro w listed
  obtain ⟨i, range, rfl⟩ := List.mem_map.mp listed
  exact List.mem_range.mp range

/-! ### Reads (R115) -/

section Read

variable (s : State) (g : Gtu) (c : Option Ctx) (key : Option (BitVec 61)) (b : Nat) (n : Noise) (ecc : Bool) (acc : BitVec 8)

/-- What a read of a blank as the memory gives it finds and does to its tag. -/
def State.rowRead : ReadRow :=
  readRow key.isSome ecc (s.tagOf (stackOf g) b) (readFp s key ecc (s.deliveredBlank (stackOf g) b n)).1

theorem readFp_keyed (rho : BitVec 61) (data : List (BitVec 32)) : readFp s (some rho) ecc data = (fpOf rho data, s) := rfl

theorem readFp_state (data : List (BitVec 32)) : (readFp s key ecc data).2.butTags = s.butTags ∧ (readFp s key ecc data).2.tags = s.tags ∧
    (readFp s key ecc data).2.mgtu = s.mgtu ∧ Appends s (readFp s key ecc data).2 := by
  unfold readFp
  split
  · exact ⟨rfl, rfl, rfl, .refl s⟩
  · split
    · exact ⟨rfl, rfl, rfl, .of_same rfl rfl rfl rfl⟩
    · exact ⟨rfl, rfl, rfl, .refl s⟩

theorem checkRead_data : (checkRead s g c key b n ecc acc).2.1 = s.deliveredBlank (stackOf g) b n := by
  unfold checkRead
  dsimp only

theorem checkRead_row : (checkRead s g c key b n ecc acc).2.2 = s.rowRead g key b n ecc := by
  unfold checkRead State.rowRead
  dsimp only
  rw [State.tagOf_of_tags (readFp_state s key ecc _).2.1]

theorem checkRead_butTags : (checkRead s g c key b n ecc acc).1.butTags = s.butTags := by
  unfold checkRead
  dsimp only
  split
  · exact (mgtuEvent_butTags _ _ _ _ _ _ _ _ _ _ _ Cls.noConfusion).trans (readFp_state ..).1
  · exact (readFp_state ..).1

theorem checkRead_tables (h : Gtu) : (checkRead s g c key b n ecc acc).1.tables h = s.tables h := by
  have same := congrArg (fun m => ((Tab.at m h).retained, (Tab.at m h).visits)) (readFp_state s key ecc (s.deliveredBlank (stackOf g) b n)).2.2.1
  unfold checkRead
  dsimp only
  split
  · exact (mgtuEvent_tables ..).trans same
  · exact same

theorem Appends.checkRead : Appends s (checkRead s g c key b n ecc acc).1 := by
  unfold Machine.checkRead
  dsimp only
  split
  · exact (readFp_state ..).2.2.2.trans (.mgtuEvent ..)
  · exact (readFp_state ..).2.2.2

/-- A read of a blank: what is checked, and the tag of the read rows stored. -/
theorem gtuRead_eq : gtuRead s g c key b n ecc acc = ((checkRead s g c key b n ecc acc).1.setTag (stackOf g) b (s.rowRead g key b n ecc).stored,
    s.deliveredBlank (stackOf g) b n, (s.rowRead g key b n ecc).delivered) := by
  unfold gtuRead
  dsimp only
  rw [checkRead_row, checkRead_data]

theorem gtuRead_data : (gtuRead s g c key b n ecc acc).2.1 = s.deliveredBlank (stackOf g) b n := by rw [gtuRead_eq]

theorem gtuRead_tag : (gtuRead s g c key b n ecc acc).2.2 = (s.rowRead g key b n ecc).delivered := by rw [gtuRead_eq]

theorem gtuRead_butTags : (gtuRead s g c key b n ecc acc).1.butTags = s.butTags := by
  rw [gtuRead_eq]
  exact checkRead_butTags ..

theorem gtuRead_tables (h : Gtu) : (gtuRead s g c key b n ecc acc).1.tables h = s.tables h := by
  rw [gtuRead_eq]
  exact checkRead_tables ..

theorem gtuRead_tags : (gtuRead s g c key b n ecc acc).1.tags =
    alPut emptyTag s.tags (tagKey (stackOf g) b) (s.rowRead g key b n ecc).stored := by
  rw [gtuRead_eq]
  exact congrArg (fun l => alPut emptyTag l _ _) (tags_of_kept (checkRead_kept ..))

theorem Appends.gtuRead : Appends s (gtuRead s g c key b n ecc acc).1 := by
  rw [gtuRead_eq]
  refine (Appends.checkRead s g c key b n ecc acc).trans ?_
  exact .of_same rfl rfl rfl rfl

end Read

section FetchedRead

variable {s u : State} {g : Gtu} {b : Nat} {le : Bool} (h : Fetched s u g b le) (key : Option (BitVec 61)) (n : Noise) (ecc : Bool)
include h

theorem Fetched.deliveredBlank : u.deliveredBlank = s.deliveredBlank := State.deliveredBlank_of_mem h.mem

/-- The row of a read after its line has been fetched; its fingerprint with a key is that of the blank as the memory gives it. -/
theorem Fetched.rowRead : ∃ fp, (∀ rho, key = some rho → fp = fpOf rho (s.deliveredBlank (stackOf g) b n)) ∧
    u.rowRead g key b n ecc = readRow key.isSome ecc (s.fetchedTag g b le (stackOf g) b) fp := by
  refine ⟨_, fun rho keyed => ?_, by rw [State.rowRead, h.tagOf]⟩
  rw [keyed, readFp_keyed, h.deliveredBlank]

/-- A read after its line has been fetched writes the tag of the read rows. -/
theorem Fetched.read (c : Option Ctx) (acc : BitVec 8) :
    TagWritten s (gtuRead u g c key b n ecc acc).1 g b le (u.rowRead g key b n ecc).stored := h.write (gtuRead_tags ..) (.gtuRead ..)

end FetchedRead

end Sys2Proof.Machine


namespace Sys2Proof.Machine

/-! ## Accesses of the host (R113, R114) -/

theorem outsideJob_of_lt {addr : Nat} (inside : addr < jobRegionBlanks * 4096) : outsideJob addr = false :=
  decide_eq_false (Nat.not_le.mpr inside)

theorem stack_of_job {addr : Nat} (inside : addr < jobRegionBlanks * 4096) : addr < stackSize :=
  Nat.lt_trans inside (show jobRegionBlanks * 4096 < stackSize by decide)

/-- An access to a stave of the job region that the port serves is carried out. -/
theorem memAccess_of_serves {s f : State} {g : Gtu} {addr : Nat} (inside : addr < jobRegionBlanks * 4096) (port : g.val < s.ports)
    (served : serves g.val (addr / 4096 / 8) = true) : memAccess s g addr f = .next f :=
  memAccess_of_accepts (stack_of_job inside) port (by simp [accepts, served])

/-- One to a stave of the other port changes nothing. -/
theorem memAccess_of_not_served {s f : State} {g : Gtu} {addr : Nat} (inside : addr < jobRegionBlanks * 4096)
    (other : serves g.val (addr / 4096 / 8) = false) : memAccess s g addr f = .next s := by
  refine (if_neg (Nat.not_le.mpr (stack_of_job inside))).trans (if_neg fun here => ?_)
  simp [accepts, outsideJob_of_lt inside, other] at here

theorem Appends.hostWriteNote (s : State) (g : Gtu) (b : Nat) : Appends s (hostWriteNote s g b) := by
  unfold Machine.hostWriteNote
  refine .each fun t c => ?_
  split
  · exact .refl t
  · exact (Appends.onCtx _ _ _).trans (.emit _ _)

theorem Appends.poisonedWrite (s : State) (g : Gtu) (c : Option Ctx) (ep : Bool) (place : Nat) (st : BitVec 3) :
    Appends s (poisonedWrite s g c ep place st) := .ite (fun _ => .mgtuEvent ..) fun _ => .refl s

theorem State.keyFor_eq_of_ctxs {s t : State} (h : t.ctxs = s.ctxs) (c : Option Ctx) : t.keyFor c = s.keyFor c := by
  rw [State.keyFor, State.keyFor, State.keyOf_eq_of_ctxs h]

theorem fetchLine_ctxs (s : State) (g : Gtu) (c : Option Ctx) (b : Nat) (le : Bool) : (fetchLine s g c b le).ctxs = s.ctxs :=
  State.ctxs_eq_of_butTags (fetchLine_butTags ..)

theorem fetchLine_mem (s : State) (g : Gtu) (c : Option Ctx) (b : Nat) (le : Bool) : (fetchLine s g c b le).mem = s.mem :=
  State.mem_eq_of_butTags (fetchLine_butTags ..)

/-- Words stored in a blank with its tag, its line fetched before. -/
def storeFetched (s : State) (g : Gtu) (c : Option Ctx) (b : Nat) (le : Bool) (ws : List (Nat × BitVec 32)) (v : BitVec 64) : State :=
  ((fetchLine s g c b le).store (stackOf g) b ws).setTag (stackOf g) b v

theorem storeFetched_mem (s : State) (g : Gtu) (c : Option Ctx) (b : Nat) (le : Bool) (ws : List (Nat × BitVec 32)) (v : BitVec 64) :
    (storeFetched s g c b le ws v).mem = putWords s.mem (stackOf g) b ws :=
  congrArg (fun m => putWords m (stackOf g) b ws) (fetchLine_mem ..)

theorem storeFetched_written {s : State} (sound : s.Sound) (g : Gtu) (c : Option Ctx) (b : Nat) (le : Bool) (ws : List (Nat × BitVec 32))
    (v : BitVec 64) : TagWritten s (storeFetched s g c b le ws v) g b le v := (fetchLine_fetched sound c).write rfl (.of_same rfl rfl rfl rfl)

theorem wordAt_fetchLine (s : State) (g : Gtu) (c : Option Ctx) (b : Nat) (le : Bool) : (fetchLine s g c b le).wordAt = s.wordAt := by
  unfold State.wordAt State.byteAt
  rw [fetchLine_mem]

theorem oldWords_of_mem {s t : State} (h : t.mem = s.mem) : oldWords t = oldWords s := by
  unfold oldWords State.delivered State.wordAt State.byteAt
  rw [h]

theorem State.send_tagOf (s : State) (o : Out) : (s.send o).tagOf = s.tagOf := rfl

/-- The tag that a host full write stores. -/
def hostFullTag (s : State) (g : Gtu) (c : Option Ctx) (b : Nat) (data : List (BitVec 32)) (ep le : Bool) : BitVec 64 :=
  hostFullRow (s.keyFor c) ep (s.fetchedTag g b le (stackOf g) b) (sentWords data)

/-- The tag that a host partial write stores. -/
def hostPartialTag (s : State) (g : Gtu) (c : Option Ctx) (b : Nat) (words : WordWrites) (n : Noise) (ep ecc le : Bool) : BitVec 64 :=
  hostPartialRow (s.keyFor c) ep ecc (s.fetchedTag g b le (stackOf g) b) words (oldWords s (stackOf g) b words n)

section HostWrite

variable {s : State} {g : Gtu} {c : Option Ctx} {addr : Nat} {ep le : Bool}

/-- What a host write leaves: words and tag stored in the place, and nothing else of memory and tags but a lost line. -/
structure HostWritten (s t : State) (g : Gtu) (b : Nat) (le : Bool) (ws : List (Nat × BitVec 32)) (v : BitVec 64) : Prop where
  mem : t.mem = putWords s.mem (stackOf g) b ws
  tag : t.tagOf (stackOf g) b = v
  done : Out.hostDone g false ∈ t.out
  only : OnlyFetched s t g b le

theorem hostWritten_of_later {u : State} {b : Nat} {ws : List (Nat × BitVec 32)} {v : BitVec 64} (sound : s.Sound) (words : ∀ w ∈ ws, w.1 < 1024)
    (kept : u.kept = (storeFetched s g c b le ws v).kept) (appends : Appends (storeFetched s g c b le ws v) u) :
    HostWritten s (u.send (.hostDone g false)) g b le ws v := by
  have written : TagWritten s (u.send (.hostDone g false)) g b le v :=
    (storeFetched_written sound ..).later (tags_of_kept kept) (appends.trans (.send _ _))
  have mem : (u.send (.hostDone g false)).mem = putWords s.mem (stackOf g) b ws := (mem_of_kept kept).trans (storeFetched_mem ..)
  exact ⟨mem, written.tag, List.mem_append_right _ (List.mem_singleton_self _), written.onlyFetched_of_words words mem⟩

theorem hostFullWrite_written (data : List (BitVec 32)) (sound : s.Sound) (inside : addr < jobRegionBlanks * 4096) :
    HostWritten s (hostFullWrite s g c addr data ep le) g ((s.mgtu.at g).place (addr / 4096)) le (fullWords data)
      (hostFullTag s g c ((s.mgtu.at g).place (addr / 4096)) data ep le) := by
  unfold hostFullWrite
  rw [if_neg (by simp [outsideJob_of_lt inside])]
  dsimp only
  rw [State.keyFor_eq_of_ctxs (fetchLine_ctxs ..), fetchLine_tagOf _ _ _ _ sound.2.1]
  exact hostWritten_of_later sound (fullWords_inside data) ((hostWriteNote_kept ..).trans (poisonedWrite_kept ..))
    ((Appends.poisonedWrite ..).trans (.hostWriteNote ..))

theorem hostPartialWrite_written {words : WordWrites} (listed : ∀ w ∈ words, w.1 < 1024) (n : Noise) (ecc : Bool) (sound : s.Sound)
    (inside : addr < jobRegionBlanks * 4096) :
    HostWritten s (hostPartialWrite s g c addr words ep n ecc le) g ((s.mgtu.at g).place (addr / 4096)) le words
      (hostPartialTag s g c ((s.mgtu.at g).place (addr / 4096)) words n ep ecc le) := by
  unfold hostPartialWrite
  rw [if_neg (by simp [outsideJob_of_lt inside])]
  dsimp only
  rw [State.keyFor_eq_of_ctxs (fetchLine_ctxs ..), fetchLine_tagOf _ _ _ _ sound.2.1, oldWords_of_mem (fetchLine_mem ..)]
  refine hostWritten_of_later (c := c) sound listed ?_ ?_
  · rw [hostWriteNote_kept]
    split
    · exact (eccEvent_kept ..).trans (poisonedWrite_kept ..)
    · exact poisonedWrite_kept ..
  · refine .trans ?_ (.hostWriteNote ..)
    exact .ite (fun _ => (Appends.poisonedWrite ..).trans (.mgtuEvent ..)) fun _ => .poisonedWrite ..

end HostWrite

/-- Settles O16: the words and the tag go to the place that serves the blank, and what follows only raises events and completes. -/
theorem hostWritesStoreWordsAndTag : Obligations.HostWritesStoreWordsAndTag := by
  unfold Obligations.HostWritesStoreWordsAndTag
  refine ⟨fun s g c addr data ep le sound inside port served => ?full, fun s g c addr words ep ecc le n sound inside port served listed => ?partly⟩
  case full =>
    obtain ⟨mem, tag, done, only⟩ := hostFullWrite_written (g := g) (c := c) (ep := ep) (le := le) data sound inside
    exact ⟨_, memAccess_of_serves inside port served, mem, tag, done, only⟩
  case partly =>
    obtain ⟨mem, tag, done, only⟩ := hostPartialWrite_written (g := g) (c := c) (ep := ep) (le := le) listed n ecc sound inside
    exact ⟨_, memAccess_of_serves inside port served, mem, tag, done, only⟩

end Sys2Proof.Machine


namespace Sys2Proof.Machine

/-! ## The read rows (R115) -/

theorem poisonOver_eq (st : BitVec 3) : poisonOver st = if isPoison st then st else 1 := rfl

theorem readRow_ecc (keyed : Bool) (stored : BitVec 64) (fp : BitVec 61) : readRow keyed true stored fp =
    { stored := mkTag (poisonOver (tagState stored)) (tagFp stored), delivered := mkTag (poisonOver (tagState stored)) fp, event := some 0x4003 } := rfl

theorem readRow_unkeyed (stored : BitVec 64) (fp : BitVec 61) :
    readRow false false stored fp = { stored, delivered := stored, event := none } := rfl

theorem readRow_untagged {stored : BitVec 64} (untagged : tagState stored = 4) (fp : BitVec 61) :
    readRow true false stored fp = { stored, delivered := mkTag 4 fp, event := none } := if_pos untagged

theorem readRow_of_agrees {stored : BitVec 64} {fp : BitVec 61} (tagged : tagState stored ≠ 4) (agrees : tagFp stored = fp) :
    readRow true false stored fp = { stored, delivered := stored, event := none } := (if_neg tagged).trans (if_pos agrees)

theorem readRow_of_differs {stored : BitVec 64} {fp : BitVec 61} (tagged : tagState stored ≠ 4) (differs : tagFp stored ≠ fp) :
    readRow true false stored fp = { stored := mkTag (poisonOver (tagState stored)) (tagFp stored)
                                     delivered := mkTag (poisonOver (tagState stored)) fp, event := some 0x4001 } :=
  (if_neg tagged).trans (if_neg differs)

/-! ## Captures (R293, R294) -/

/-- Where the engine's own writes go depends on the T9's placing and on the retained blanks alone. -/
theorem enginePlace_congr {s t : State} (jobMap : t.jobMap = s.jobMap) (retained : ∀ g, (t.mgtu.at g).retained = (s.mgtu.at g).retained)
    (a : Nat) : t.enginePlace a = s.enginePlace a := by
  unfold State.enginePlace State.jobPlace State.placeIn Mgtu.committedOf
  simp only [jobMap, retained]

theorem State.each_setTag_eq {α : Type} (s : State) (xs : List α) (st b : α → Nat) (v : State → α → BitVec 64) :
    ∃ tags, s.each xs (fun s x => s.setTag (st x) (b x) (v s x)) = { s with tags } :=
  State.each_induction (P := fun t => ∃ tags, t = { s with tags }) ⟨s.tags, rfl⟩ fun t x _ ⟨_, before⟩ => by
    subst before
    exact ⟨_, rfl⟩

/-- The memory after a write of the engine itself. -/
def State.engineMem (s : State) (a : Nat) (bytes : List Byte) : List Host.Cell :=
  (bytes.zipIdx.filterMap (fun x => (s.enginePlace (a + x.2)).map (fun y => (x.1, y)))).foldl
    (fun m (x : Byte × Nat × Nat) => putByte m x.2.1 x.2.2 x.1) s.mem

/-- A write of the engine itself changes memory and tags, and nothing else. -/
theorem engineWrite_eq (s : State) (a : Nat) (bytes : List Byte) : ∃ tags, s.engineWrite a bytes = { s with mem := s.engineMem a bytes, tags } := by
  unfold State.engineWrite
  dsimp only
  exact State.each_setTag_eq (st := Prod.fst) (b := Prod.snd) ..

theorem engineWrite_mem (s : State) (a : Nat) (bytes : List Byte) : (s.engineWrite a bytes).mem = s.engineMem a bytes := by
  obtain ⟨tags, eq⟩ := engineWrite_eq s a bytes
  rw [eq]

theorem engineWrite_mem_congr {s t : State} (mem : t.mem = s.mem) (jobMap : t.jobMap = s.jobMap)
    (retained : ∀ g, (t.mgtu.at g).retained = (s.mgtu.at g).retained) (a : Nat) (bytes : List Byte) : (t.engineWrite a bytes).mem = (s.engineWrite a bytes).mem := by
  rw [engineWrite_mem, engineWrite_mem, State.engineMem, State.engineMem, mem]
  simp only [enginePlace_congr jobMap retained]

theorem engineWrite_onPrv_mem (s : State) (c : Ctx) (f : PrvCtx → PrvCtx) (a : Nat) (bytes : List Byte) :
    ((s.onPrv c f).engineWrite a bytes).mem = (s.engineWrite a bytes).mem := by
  have retained : ∀ g, ((s.onPrv c f).mgtu.at g).retained = (s.mgtu.at g).retained := fun _ => rfl
  exact engineWrite_mem_congr (s := s) (t := s.onPrv c f) rfl rfl retained a bytes

theorem engineWrite_ctx (s : State) (a : Nat) (bytes : List Byte) (c : Ctx) : (s.engineWrite a bytes).ctx c = s.ctx c := by
  obtain ⟨tags, eq⟩ := engineWrite_eq s a bytes
  rw [eq]
  rfl

theorem Appends.engineWrite (s : State) (a : Nat) (bytes : List Byte) : Appends s (s.engineWrite a bytes) := by
  obtain ⟨tags, eq⟩ := engineWrite_eq s a bytes
  rw [eq]
  exact .of_same rfl rfl rfl rfl

theorem Appends.writeCapture (s : State) (c : Ctx) (sp : Span) (k : Capture) : Appends s (writeCapture s c sp k) :=
  .ite (fun _ => (Appends.onCtx s c _).trans (.engineWrite ..)) fun _ => .refl s

theorem Appends.captureTag (s : State) (g : Gtu) (c : Ctx) (b : Nat) (roles : List Nat) (tag : BitVec 64) :
    Appends s (captureTag s g c b roles tag) := by
  unfold Machine.captureTag
  split
  · exact .refl s
  · exact .each fun t k => .writeCapture t c _ k

/-- A tag that the open span lists nowhere is not captured. -/
theorem captureTag_of_unlisted {s : State} {g : Gtu} {c : Ctx} {b : Nat} {roles : List Nat} (unlisted : s.unlisted c roles g b) (tag : BitVec 64) :
    captureTag s g c b roles tag = s := by
  unfold captureTag
  split
  · rfl
  · next sp span =>
    have none_listed : roles.flatMap (fun r => (listedAt sp.plan sp.result r g b).map (fun pos =>
        ({ role := r, pos, tag, pass := (s.ctx c).pass.index, replay := (s.ctx c).pass.replay } : Capture))) = [] := by
      refine List.flatMap_eq_nil_iff.mpr fun r role => ?_
      rw [unlisted sp span r role, List.map_nil]
    dsimp only
    rw [none_listed, State.each_nil]

/-- A tag listed in one place is captured there. -/
theorem captureTag_of_single {s : State} {g : Gtu} {c : Ctx} {b r pos : Nat} {sp : Span} (span : (s.ctx c).prv.span = some sp) (role : r ≤ 1)
    (here : listedAt sp.plan sp.result r g b = [pos]) (not_there : listedAt sp.plan sp.result (1 - r) g b = []) (tag : BitVec 64) :
    captureTag s g c b [0, 1] tag =
      writeCapture s c sp { role := r, pos, tag, pass := (s.ctx c).pass.index, replay := (s.ctx c).pass.replay } := by
  unfold captureTag
  rw [span]
  dsimp only
  obtain rfl | rfl : r = 0 ∨ r = 1 := by omega
  · simp [here, show listedAt sp.plan sp.result 1 g b = [] from not_there]
  · simp [here, show listedAt sp.plan sp.result 0 g b = [] from not_there]

theorem writeCapture_taken {s : State} {c : Ctx} {sp : Span} {k : Capture} (span : (s.ctx c).prv.span = some sp)
    (taken : takesCapture k sp.caps = true) :
    (writeCapture s c sp k).mem = (s.engineWrite (sp.plan.bankAddr k.role sp.bank + 8 * k.pos) (tagBytes k.tag)).mem ∧
      ((writeCapture s c sp k).ctx c).prv.span = some { sp with caps := putCapture k sp.caps } := by
  unfold writeCapture
  rw [span, Option.map_some, Option.getD_some, if_pos taken]
  refine ⟨engineWrite_onPrv_mem .., ?_⟩
  rw [engineWrite_ctx, State.onPrv_ctx_same, span]
  rfl

theorem writeCapture_left {s : State} {c : Ctx} {sp : Span} {k : Capture} (span : (s.ctx c).prv.span = some sp)
    (left : takesCapture k sp.caps = false) : writeCapture s c sp k = s := by
  unfold writeCapture
  rw [span, Option.map_some, Option.getD_some]
  exact if_neg (by simp [left])

/-! ## Reads of a job (R103, R108, R115, R127) -/

/-- A state but for the counts of its contexts that a tag unit's access changes, and for the tag units' own work. -/
structure SameJob (s t : State) (c : Ctx) : Prop where
  mem : t.mem = s.mem
  jobMap : t.jobMap = s.jobMap
  retained : ∀ g, (t.mgtu.at g).retained = (s.mgtu.at g).retained
  plan : (t.ctx c).plan = (s.ctx c).plan
  prv : (t.ctx c).prv = (s.ctx c).prv
  pass : (t.ctx c).pass = (s.ctx c).pass

theorem SameJob.refl (s : State) (c : Ctx) : SameJob s s c := ⟨rfl, rfl, fun _ => rfl, rfl, rfl, rfl⟩

theorem SameJob.trans {s t u : State} {c : Ctx} (h : SameJob s t c) (k : SameJob t u c) : SameJob s u c :=
  ⟨k.mem.trans h.mem, k.jobMap.trans h.jobMap, fun g => (k.retained g).trans (h.retained g), k.plan.trans h.plan, k.prv.trans h.prv, k.pass.trans h.pass⟩

theorem SameJob.of_butTags {s t : State} (c : Ctx) (same : t.butTags = s.butTags) (tables : ∀ g, t.tables g = s.tables g) : SameJob s t c := by
  have ctx : t.ctx c = s.ctx c := State.ctx_eq_of_ctxs (State.ctxs_eq_of_butTags same) c
  exact ⟨State.mem_eq_of_butTags same, (congrArg State.jobMap same :), fun g => congrArg Prod.fst (tables g), by rw [ctx], by rw [ctx], by rw [ctx]⟩

theorem SameJob.keyOf {s t : State} {c : Ctx} (h : SameJob s t c) : t.keyOf c = s.keyOf c := by rw [State.keyOf, State.keyOf, h.plan]

theorem SameJob.unlisted {s t : State} {c : Ctx} (h : SameJob s t c) {roles : List Nat} {g : Gtu} {b : Nat} (unlisted : s.unlisted c roles g b) :
    t.unlisted c roles g b := by
  unfold State.unlisted
  rw [h.prv]
  exact unlisted

theorem countChatter_tables (s : State) (c : Ctx) (ad : Bool) (g : Gtu) : (countChatter s c ad).tables g = s.tables g := by
  unfold countChatter
  split <;> rfl

theorem countChatter_sameJob (s : State) (c : Ctx) (ad : Bool) : SameJob s (countChatter s c ad) c := by
  unfold countChatter
  split
  · exact ⟨rfl, rfl, fun _ => rfl, by rw [State.onBar_ctx_same], by rw [State.onBar_ctx_same], by rw [State.onBar_ctx_same]⟩
  · exact .refl s c

theorem Appends.countChatter (s : State) (c : Ctx) (ad : Bool) : Appends s (countChatter s c ad) := .ite (fun _ => .onCtx s c _) fun _ => .refl s

theorem onVisits_sameJob (s : State) (g : Gtu) (c : Ctx) (f : List Visit → List Visit) :
    SameJob s (s.onMgtu g (fun m => { m with visits := f m.visits })) c := by
  refine ⟨rfl, rfl, fun h => ?_, rfl, rfl, rfl⟩
  by_cases here : h = g
  · subst here
    rw [State.onMgtu_mgtu, Tab.at_upd_same]
  · rw [State.onMgtu_mgtu, Tab.at_upd_other _ _ here]

/-- What a job access finds after its tag line has been fetched. -/
theorem jobVisit_fetched {s : State} (sound : s.Sound) (g : Gtu) (c : Ctx) (ad : Bool) (b : Nat) (le v : Bool) :
    Fetched s (jobVisit (countChatter s c ad) g c b le v) g b le := by
  have fetched : Fetched s (fetchLine (countChatter s c ad) g (some c) b le) g b le :=
    (fetchLine_fetched (sound_of_kept (countChatter_kept ..) sound) (some c)).earlier (countChatter_kept ..) (countChatter_tables ..)
  exact fetched.later (State.onMgtu_kept ..) (.of_same rfl rfl rfl rfl)

theorem jobVisit_sameJob (s : State) (g : Gtu) (c : Ctx) (ad : Bool) (b : Nat) (le v : Bool) :
    SameJob s (jobVisit (countChatter s c ad) g c b le v) c :=
  (countChatter_sameJob s c ad).trans ((SameJob.of_butTags c (fetchLine_butTags ..) fun h => fetchLine_tables _ g (some c) b le h).trans
    (onVisits_sameJob _ g c (fun vs => visitAfter vs (b / 8) c v)))

/-- What a job read has done before it captures and delivers. -/
def readStage (s : State) (g : Gtu) (c : Ctx) (b : Nat) (n : Noise) (ecc le v ad : Bool) : State :=
  let u := jobVisit (countChatter s c ad) g c b le v
  let t := (gtuRead u g (some c) (u.keyOf c) b n ecc 0x01).1
  if tagState (u.tagOf (stackOf g) b) = tUntagged && !ecc && (u.keyOf c).isSome then t.onTag c (fun x => { x with untagged := bump x.untagged }) else t

section Stage

variable {s : State} (g : Gtu) (c : Ctx) (b : Nat) (n : Noise) (ecc le v ad : Bool)

theorem readStage_sameJob : SameJob s (readStage s g c b n ecc le v ad) c := by
  have read := (jobVisit_sameJob s g c ad b le v).trans (SameJob.of_butTags c
    (gtuRead_butTags _ g (some c) ((jobVisit (countChatter s c ad) g c b le v).keyOf c) b n ecc 0x01) fun h => gtuRead_tables ..)
  unfold readStage
  dsimp only
  split
  · exact read.trans ⟨rfl, rfl, fun _ => rfl, by rw [State.onTag_ctx_same], by rw [State.onTag_ctx_same], by rw [State.onTag_ctx_same]⟩
  · exact read

/-- A read writes the tag of the read rows, and delivers theirs. -/
theorem readStage_written (sound : s.Sound) : ∃ fp,
    (∀ rho, s.keyOf c = some rho → fp = fpOf rho (s.deliveredBlank (stackOf g) b n)) ∧
    TagWritten s (readStage s g c b n ecc le v ad) g b le (readRow (s.keyOf c).isSome ecc (s.fetchedTag g b le (stackOf g) b) fp).stored ∧
    (gtuRead (jobVisit (countChatter s c ad) g c b le v) g (some c) (s.keyOf c) b n ecc 0x01).2.2 =
      (readRow (s.keyOf c).isSome ecc (s.fetchedTag g b le (stackOf g) b) fp).delivered := by
  have fetched := jobVisit_fetched sound g c ad b le v
  obtain ⟨fp, keyed, row⟩ := fetched.rowRead (s.keyOf c) n ecc
  have read := fetched.read (s.keyOf c) n ecc (some c) 0x01
  rw [row] at read
  refine ⟨fp, keyed, ?_, by rw [gtuRead_tag, row]⟩
  unfold readStage
  dsimp only
  rw [(jobVisit_sameJob s g c ad b le v).keyOf]
  split
  · exact read.later rfl (.of_same rfl rfl rfl rfl)
  · exact read

end Stage

/-- A job read in the job region: the stage, the capture where the read is keyed, and the delivery. -/
theorem jobRead_eq {s : State} {addr : Nat} (inside : addr < jobRegionBlanks * 4096) (g : Gtu) (c : Ctx) (n : Noise) (ecc le v ad : Bool)
    (a : Option Arr) (ex : Option ExecName) :
    let place := (s.mgtu.at g).readPlace c (addr / 4096)
    let tag := (gtuRead (jobVisit (countChatter s c ad) g c place le v) g (some c) (s.keyOf c) place n ecc 0x01).2.2
    let t := readStage s g c place n ecc le v ad
    jobRead s g c addr n ecc le a v ad ex = sendOperandTag
      ((if (s.keyOf c).isSome then captureTag t g c (addr / 4096) [0, 1] tag else t).send
        (.jobData g c (s.deliveredBlank (stackOf g) place n) tag)) a c tag := by
  intro place tag t
  have same := jobVisit_sameJob s g c ad place le v
  have stage := readStage_sameJob (s := s) g c place n ecc le v ad
  unfold jobRead
  rw [if_neg (by simp [outsideJob_of_lt inside])]
  have place_eq : ((countChatter s c ad).mgtu.at g).readPlace c (addr / 4096) = place := by
    unfold Mgtu.readPlace Mgtu.provisionalOf Mgtu.place Mgtu.committedOf
    rw [(countChatter_sameJob s c ad).retained]
    rfl
  dsimp only
  rw [place_eq]
  change sendOperandTag ((if (t.keyOf c).isSome then captureTag t g c (addr / 4096) [0, 1] _ else t).send _) a c _ = _
  rw [stage.keyOf, gtuRead_data, State.deliveredBlank_of_mem same.mem, same.keyOf]

/-! ### What is delivered -/

theorem Appends.sendOperandTag (s : State) (a : Option Arr) (c : Ctx) (tag : BitVec 64) : Appends s (sendOperandTag s a c tag) := by
  unfold Machine.sendOperandTag
  split
  · exact .send s _
  · exact .refl s

theorem sendOperandTag_ctx (s : State) (a : Option Arr) (c d : Ctx) (tag : BitVec 64) : (sendOperandTag s a c tag).ctx d = s.ctx d := by
  unfold sendOperandTag
  split <;> rfl

/-- The data goes out with its tag, and the tag to the array that consumes it. -/
theorem delivered_out (s : State) (g : Gtu) (c : Ctx) (data : List (BitVec 32)) (tag : BitVec 64) (a : Option Arr) :
    Out.jobData g c data tag ∈ (sendOperandTag (s.send (.jobData g c data tag)) a c tag).out ∧
      ∀ x, a = some x → Out.operandTag x c tag ∈ (sendOperandTag (s.send (.jobData g c data tag)) a c tag).out := by
  have sent : Out.jobData g c data tag ∈ (s.send (.jobData g c data tag)).out := List.mem_append_right _ (List.mem_singleton_self _)
  refine ⟨(Appends.sendOperandTag ..).out sent, fun x consumer => ?_⟩
  subst consumer
  exact List.mem_append_right _ (List.mem_singleton_self _)

/-- A delivery changes neither memory nor tags. -/
theorem TagWritten.after_delivery {s t : State} {g : Gtu} {b : Nat} {le : Bool} {v : BitVec 64} (h : TagWritten s t g b le v)
    (mem : t.mem = s.mem) (o : Out) (a : Option Arr) (c : Ctx) (tag : BitVec 64) :
    (sendOperandTag (t.send o) a c tag).mem = s.mem ∧ (sendOperandTag (t.send o) a c tag).tagOf (stackOf g) b = v ∧
      OnlyFetched s (sendOperandTag (t.send o) a c tag) g b le := by
  have kept : (sendOperandTag (t.send o) a c tag).kept = t.kept := (sendOperandTag_kept ..).trans (State.send_kept ..)
  have delivered := h.later (tags_of_kept kept) ((Appends.send t o).trans (.sendOperandTag _ a c tag))
  have same := (mem_of_kept kept).trans mem
  exact ⟨same, delivered.tag, delivered.onlyFetched_of_mem same⟩

theorem hostRead_read {s : State} {addr : Nat} (sound : s.Sound) (inside : addr < jobRegionBlanks * 4096) (g : Gtu) (c : Option Ctx) (n : Noise)
    (ecc le : Bool) :
    let place := (s.mgtu.at g).place (addr / 4096)
    ∃ fp, (∀ rho, s.keyFor c = some rho → fp = fpOf rho (s.deliveredBlank (stackOf g) place n)) ∧
      let row := readRow (s.keyFor c).isSome ecc (s.fetchedTag g place le (stackOf g) place) fp
      (hostRead s g c addr n ecc le).mem = s.mem ∧ TagWritten s (hostRead s g c addr n ecc le) g place le row.stored ∧
      Out.hostData g false (isPoison (tagState row.delivered)) (s.deliveredBlank (stackOf g) place n) ∈ (hostRead s g c addr n ecc le).out := by
  intro place
  have fetched : Fetched s (fetchLine s g c place le) g place le := fetchLine_fetched sound c
  obtain ⟨fp, keyed, row⟩ := fetched.rowRead (s.keyFor c) n ecc
  have read := fetched.read (s.keyFor c) n ecc c 0x04
  have eq : hostRead s g c addr n ecc le = (gtuRead (fetchLine s g c place le) g c (s.keyFor c) place n ecc 0x04).1.send
      (.hostData g false (isPoison (tagState ((fetchLine s g c place le).rowRead g (s.keyFor c) place n ecc).delivered))
        (s.deliveredBlank (stackOf g) place n)) := by
    unfold hostRead
    rw [if_neg (by simp [outsideJob_of_lt inside])]
    dsimp only
    rw [State.keyFor_eq_of_ctxs (fetchLine_ctxs ..), gtuRead_data, gtuRead_tag, fetched.deliveredBlank]
  rw [row] at read eq
  rw [eq]
  exact ⟨fp, keyed, (State.mem_eq_of_butTags (gtuRead_butTags ..)).trans fetched.mem, read.later rfl (.send _ _),
    List.mem_append_right _ (List.mem_singleton_self _)⟩

/-- Without a key, and where the span does not list the blank, nothing is captured. -/
theorem captured_of_not_listed {s t : State} {g : Gtu} {c : Ctx} {b : Nat} {tag : BitVec 64}
    (stays : s.unlisted c [0, 1] g b → t.unlisted c [0, 1] g b) (not_captured : s.keyOf c = none ∨ s.unlisted c [0, 1] g b) :
    (if (s.keyOf c).isSome = true then captureTag t g c b [0, 1] tag else t) = t := by
  rcases not_captured with unkeyed | unlisted
  · rw [unkeyed]
    rfl
  · rw [captureTag_of_unlisted (stays unlisted), ite_self]

/-- Settles O13: a read writes and delivers by its row after its line has been fetched; the capture that may follow goes to its slot. -/
theorem readsDeliverTheBlankUnderTheReadRows : Obligations.ReadsDeliverTheBlankUnderTheReadRows := by
  unfold Obligations.ReadsDeliverTheBlankUnderTheReadRows
  refine ⟨fun stored fp _ => ⟨fun keyed => readRow_ecc keyed stored fp, readRow_unkeyed stored fp, fun untagged => readRow_untagged untagged fp,
    readRow_of_agrees, readRow_of_differs⟩, fun s g c addr n ecc le v ad a ex sound inside port served => ?job,
    fun s g c addr n ecc le v ad a ex inside other => memAccess_of_not_served inside other,
    fun s g c addr n ecc le sound inside port served => ?host⟩
  case job =>
    intro place stored
    have eq := jobRead_eq inside g c n ecc le v ad a ex (s := s)
    obtain ⟨fp, keyed, written, tag_eq⟩ := readStage_written g c place n ecc le v ad sound
    have same := readStage_sameJob (s := s) g c place n ecc le v ad
    dsimp only at eq
    rw [tag_eq] at eq
    refine ⟨_, fp, _, memAccess_of_serves inside port served, keyed, rfl, ?_, ?_, ?_, ?_⟩
    all_goals rw [eq]
    · exact (delivered_out ..).1
    · exact (delivered_out ..).2
    · intro not_captured
      rw [captured_of_not_listed (fun unlisted => same.unlisted unlisted) not_captured]
      exact written.after_delivery same.mem ..
    · intro sp r pos span has_key role here not_there k
      have span' : ((readStage s g c place n ecc le v ad).ctx c).prv.span = some sp := by rw [same.prv, span]
      rw [if_pos has_key, captureTag_of_single span' role here not_there, same.pass, mem_of_kept (sendOperandTag_kept ..), sendOperandTag_ctx]
      refine ⟨fun taken => ?_, fun left => ?_⟩
      · obtain ⟨mem, caps⟩ := writeCapture_taken span' taken
        exact ⟨mem.trans (engineWrite_mem_congr same.mem same.jobMap same.retained _ _), caps⟩
      · have left_alone := writeCapture_left span' left
        exact ⟨(congrArg State.mem left_alone).trans same.mem, (congrArg (fun u => (State.ctx u c).prv.span) left_alone).trans span'⟩
  case host =>
    intro place stored
    obtain ⟨fp, keyed, mem, written, sent⟩ := hostRead_read sound inside g c n ecc le
    exact ⟨_, fp, _, memAccess_of_serves inside port served, mem, keyed, rfl, sent, written.tag, written.onlyFetched_of_mem mem⟩

end Sys2Proof.Machine


namespace Sys2Proof.Machine

/-! ## The gap and the tag region (R60) -/

/-- Memory and tags stay, and TAG_REGION_ACCESS is a C fault of the tag unit. -/
structure Shut (s t : State) (g : Gtu) (c : Option Ctx) : Prop where
  kept : t.kept = s.kept
  raised : ∃ x ∈ t.fst.faultQ, x.code = 0x4005 ∧ x.cls = .c ∧ x.unit = uMgtu g ∧ x.ctx = c

theorem Shut.later {s t u : State} {g : Gtu} {c : Option Ctx} (h : Shut s t g c) (kept : u.kept = t.kept) (appends : Appends t u) : Shut s u g c := by
  obtain ⟨x, waits, is_region⟩ := h.raised
  exact ⟨kept.trans h.kept, x, appends.faultQ waits, is_region⟩

theorem Shut.earlier {r s t : State} {g : Gtu} {c : Option Ctx} (h : Shut s t g c) (kept : s.kept = r.kept) : Shut r t g c :=
  ⟨h.kept.trans kept, h.raised⟩

theorem hostRegion_shut (s : State) (g : Gtu) (c : Option Ctx) (acc : BitVec 8) (addr : Nat) : Shut s (hostRegion s g c acc addr) g c :=
  ⟨hostRegion_kept .., mgtuEvent_raises _ _ _ _ _ _ _ _ _ _ _ Cls.noConfusion⟩

theorem hostRegion_out (s : State) (g : Gtu) (c : Option Ctx) (acc : BitVec 8) (addr : Nat) : (hostRegion s g c acc addr).out = s.out :=
  State.out_eq_of_butTags (mgtuEvent_butTags _ _ _ _ _ _ _ _ _ _ _ Cls.noConfusion)

/-- A job access there, while the reference clock runs. -/
theorem jobRegion_shut {s : State} (clock : s.aon.refOk = true) (g : Gtu) (c : Ctx) (acc : BitVec 8) (addr : Nat) (ad : Bool) (ex : Option ExecName) :
    Shut s (jobRegion (countChatter s c ad) g c acc addr ex) g (some c) := by
  have event : Shut (countChatter s c ad)
      (mgtuEvent (countChatter s c ad) g (some c) 0x4005 .c (addr / 4096) 0 1 (addr / 64) acc (addr / 4096 * 4096)) g (some c) :=
    ⟨mgtuEvent_kept .., mgtuEvent_raises _ _ _ _ _ _ _ _ _ _ _ Cls.noConfusion⟩
  have on := ((Appends.countChatter s c ad).trans (.mgtuEvent _ g (some c) 0x4005 .c (addr / 4096) 0 1 (addr / 64) acc (addr / 4096 * 4096))).refOk.trans clock
  exact (event.later (reportCause_kept ..) (.reportCause _ c 4 (uMgtu g) ex on)).earlier (countChatter_kept ..)

theorem outsideJob_of_ge {addr : Nat} (outside : jobRegionBlanks * 4096 ≤ addr) : outsideJob addr = true := decide_eq_true outside

section Closed

variable {s : State} {g : Gtu} {addr : Nat} (outside : jobRegionBlanks * 4096 ≤ addr)
include outside

theorem memAccess_of_outside (inside : addr < stackSize) (port : g.val < s.ports) (f : State) : memAccess s g addr f = .next f :=
  memAccess_of_accepts inside port (by rw [accepts, outsideJob_of_ge outside, Bool.true_or])

theorem hostRead_closed (c : Option Ctx) (n : Noise) (e le : Bool) :
    hostRead s g c addr n e le = (hostRegion s g c 0x04 addr).send (.hostData g true false []) := if_pos (outsideJob_of_ge outside)

theorem hostFullWrite_closed (c : Option Ctx) (d : List (BitVec 32)) (ep le : Bool) :
    hostFullWrite s g c addr d ep le = (hostRegion s g c 0x05 addr).send (.hostDone g true) := if_pos (outsideJob_of_ge outside)

theorem hostPartialWrite_closed (c : Option Ctx) (ws : WordWrites) (ep e le : Bool) (n : Noise) :
    hostPartialWrite s g c addr ws ep n e le = (hostRegion s g c 0x05 addr).send (.hostDone g true) := if_pos (outsideJob_of_ge outside)

theorem jobRead_closed (c : Ctx) (n : Noise) (e le v ad : Bool) (a : Option Arr) (ex : Option ExecName) :
    jobRead s g c addr n e le a v ad ex = sendOperandTag ((jobRegion (countChatter s c ad) g c 0x01 addr ex).send
      (.jobData g c (List.replicate 1024 0) (mkTag tMem 0))) a c (mkTag tMem 0) := if_pos (outsideJob_of_ge outside)

variable {c : Ctx} {w : Option Arr} (open_ : s.fencedAt c (uMgtu g) = false) (free : w.any s.isolated = false)
include open_ free

theorem jobFullWrite_closed (d : List (BitVec 32)) (tag : BitVec 64) (le v ad : Bool) (fl : Noise) (ex : Option ExecName) :
    jobFullWrite s g c addr d tag le v w ad fl ex = jobRegion (countChatter s c ad) g c 0x02 addr ex :=
  (if_neg (by simp [open_, free])).trans (if_pos (outsideJob_of_ge outside))

theorem jobPartialWrite_closed (ws : WordWrites) (pfp : BitVec 61) (k : BitVec 3) (n : Noise) (e le v ad : Bool) (fl : Noise) (se : Bool)
    (ex : Option ExecName) : jobPartialWrite s g c addr ws pfp k n e le v w ad fl se ex = jobRegion (countChatter s c ad) g c 0x03 addr ex :=
  (if_neg (by simp [open_, free])).trans (if_pos (outsideJob_of_ge outside))

end Closed

/-! ## The probe (R133, R229) -/

/-- A tag unit's registers after a probe has read a tag. -/
def Mgtu.probed (tag : BitVec 64) (m : Mgtu) : Mgtu := { m with probing := false, done := true, notServed := false, probeTag := tag }

theorem execMgtuProbeRun_served {s : State} {g : Gtu} (probing : (s.mgtu.at g).probing = true)
    (served : servedBy g (s.mgtu.at g).probe.toNat = true) (le : Bool) :
    let place := (s.mgtu.at g).place (s.mgtu.at g).probe.toNat
    let u := fetchLine s g none place le
    execMgtuProbeRun g le s = .next (u.onMgtu g (Mgtu.probed (u.tagOf (stackOf g) place))) := by
  unfold execMgtuProbeRun
  simp only [probing, served, Bool.not_true, Bool.false_eq_true, if_false]
  rfl

/-- The tags that a probe finds, where a line that may be lost is in a sound state. -/
theorem probe_tagOf {s : State} (le : Bool) (sound : le = true → s.Sound) (g : Gtu) (c : Option Ctx) (b : Nat) :
    (fetchLine s g c b le).tagOf = s.fetchedTag g b le := by
  cases le with
  | true => exact fetchLine_tagOf g c b true (sound rfl).2.1
  | false =>
    have kept : s.lineLost g b false = false := rfl
    rw [fetchLine_of_kept kept, State.fetchedTag, kept]
    rfl

theorem probeCmd_mgtu_same (g : Gtu) (v : Reg) (s : State) : (probeCmd g v s).mgtu.at g =
    if flag v 25 then { s.mgtu.at g with probe := field v 0 25, probing := true, done := false, notServed := false }
    else { s.mgtu.at g with probe := field v 0 25 } := Tab.at_upd_same ..

/-- Settles O18: the region is one test before every access, which raises its event and no more; a probe is a fetch and one register update. -/
theorem tagRegionAccessesAndProbes : Obligations.TagRegionAccessesAndProbes := by
  unfold Obligations.TagRegionAccessesAndProbes
  refine ⟨fun s g addr outside inside port => ?closed, fun s src g v carry => ?go, fun s g le sound probing served => ?run,
    fun s g e probing other => ?other, fun s g e idle => if_pos (by simp [idle])⟩
  case closed =>
    intro shut
    have shut_of {t : State} {c : Option Ctx} (h : Shut s t g c) : shut t c := ⟨mem_of_kept h.kept, tags_of_kept h.kept, h.raised⟩
    have host {c : Option Ctx} {acc : BitVec 8} {o : Out} : shut ((hostRegion s g c acc addr).send o) c ∧
        ((hostRegion s g c acc addr).send o).out = s.out ++ [o] :=
      ⟨shut_of ((hostRegion_shut ..).later (State.send_kept ..) (.send _ _)), by rw [State.send_out, hostRegion_out]⟩
    have reached {t : State} := memAccess_of_outside (s := s) (g := g) outside inside port t
    refine ⟨fun c n e le => ?_, fun c d ep le => ?_, fun c ws ep e le n => ?_, fun c n e le v ad a ex clock => ?_,
      fun c w e le v ad se n fl ex clock open_ free => ⟨fun d tag => ?_, fun ws pfp k => ?_⟩⟩
    · exact ⟨_, reached.trans (congrArg Host.Outcome.next (hostRead_closed outside ..)), host⟩
    · exact ⟨_, reached.trans (congrArg Host.Outcome.next (hostFullWrite_closed outside ..)), host⟩
    · exact ⟨_, reached.trans (congrArg Host.Outcome.next (hostPartialWrite_closed outside ..)), host⟩
    · exact ⟨_, reached.trans (congrArg Host.Outcome.next (jobRead_closed outside ..)), shut_of ((jobRegion_shut clock ..).later
        ((sendOperandTag_kept ..).trans (State.send_kept ..)) ((Appends.send _ _).trans (.sendOperandTag ..)))⟩
    · exact ⟨_, reached.trans (congrArg Host.Outcome.next (jobFullWrite_closed outside open_ free ..)), shut_of (jobRegion_shut clock ..)⟩
    · exact ⟨_, reached.trans (congrArg Host.Outcome.next (jobPartialWrite_closed outside open_ free ..)), shut_of (jobRegion_shut clock ..)⟩
  case go =>
    refine ⟨_, congrArg Host.Outcome.next (gatedWrite_of_carry carry src v _), ?_, fun h other => ?_, ?_⟩
    · rw [State.complete_mgtu, probeCmd_mgtu_same]
    · rw [State.complete_mgtu]
      exact Tab.at_upd_other _ _ other
    · exact (State.complete_kept ..).trans (probeCmd_kept ..)
  case run =>
    intro place
    have found := probe_tagOf le sound g none place
    refine ⟨_, execMgtuProbeRun_served probing served le, ?_⟩
    rw [State.onMgtu_mgtu, Tab.at_upd_same, found]
    refine ⟨rfl, rfl, rfl, rfl, (fetchLine_stores s g none place le).1, fetchLine_mem .., fun kept => ?_, fun lost st b => ?_⟩
    · rw [State.onMgtu_tags, fetchLine_of_kept kept]
    · exact congrFun (congrFun found st) b
  case other =>
    refine ⟨_, (if_neg (by simp [probing])).trans (if_pos (by simp [other])), ?_⟩
    rw [State.onMgtu_mgtu, Tab.at_upd_same]
    exact ⟨rfl, rfl, rfl, rfl, rfl⟩

end Sys2Proof.Machine


namespace Sys2Proof.Machine

/-! ## Copy-back (R230) -/

theorem lineLost_of_tables {s t : State} {g : Gtu} (tables : t.tables g = s.tables g) (b : Nat) (le : Bool) : t.lineLost g b le = s.lineLost g b le :=
  congrArg (fun x : _ × List Visit => le && !x.2.any (fun v => v.stave = b / 8)) tables

theorem State.stored_tables (s : State) (st b : Nat) (ws : List (Nat × BitVec 32)) (v : BitVec 64) (h : Gtu) :
    ((s.store st b ws).setTag st b v).tables h = s.tables h := rfl

theorem State.tagOf_stored {s : State} (wf : Tags.wf s.tags = true) (st b : Nat) (ws : List (Nat × BitVec 32)) (v : BitVec 64) :
    ((s.store st b ws).setTag st b v).tagOf st b = v := alGet_alPut_same wf

/-- A line's fetch leaves what stands outside it. -/
theorem afterLine_congr {lost : Bool} {g : Gtu} {b st x : Nat} {p q : Nat → Nat → BitVec 64} (same : p st x = q st x) :
    afterLine lost g b p st x = afterLine lost g b q st x := by
  unfold afterLine
  rw [same]

/-- The slot of a copy-back read, its tag line and the original's fetched. -/
def copybackRead (s : State) (g : Gtu) (c : Ctx) (b : Nat) (n : Noise) (ecc le oe : Bool) (r : Retention) : State :=
  fetchLine (gtuRead (fetchLine s g (some c) r.copy le) g (some c) r.rho r.copy n ecc 0x06).1 g (some c) b oe

section Copyback

variable {s : State} (g : Gtu) (c : Ctx) (b : Nat) (n : Noise) (ecc le oe : Bool) (r : Retention)

theorem copybackRead_mem : (copybackRead s g c b n ecc le oe r).mem = s.mem :=
  (fetchLine_mem ..).trans ((State.mem_eq_of_butTags (gtuRead_butTags ..)).trans (fetchLine_mem ..))

theorem copybackRead_tables (h : Gtu) : (copybackRead s g c b n ecc le oe r).tables h = s.tables h :=
  (fetchLine_tables ..).trans ((gtuRead_tables ..).trans (fetchLine_tables ..))

/-- What the copy-back finds: the slot's tag by the read rows, every other tag as the two fetches leave it. -/
theorem copybackRead_tagOf (sound : s.Sound) : ∃ fp, (∀ rho, r.rho = some rho → fp = fpOf rho (s.deliveredBlank (stackOf g) r.copy n)) ∧
    (gtuRead (fetchLine s g (some c) r.copy le) g (some c) r.rho r.copy n ecc 0x06).2.2 =
      (readRow r.rho.isSome ecc (s.fetchedTag g r.copy le (stackOf g) r.copy) fp).delivered ∧
    ∀ st x, tagKey st x ≠ tagKey (stackOf g) r.copy →
      (copybackRead s g c b n ecc le oe r).tagOf st x = afterLine (s.lineLost g b oe) g b (s.fetchedTag g r.copy le) st x := by
  have fetched : Fetched s (fetchLine s g (some c) r.copy le) g r.copy le := fetchLine_fetched sound (some c)
  obtain ⟨fp, keyed, row⟩ := fetched.rowRead r.rho n ecc
  have read := fetched.read r.rho n ecc (some c) 0x06
  have read_sound := (gtuRead_stores (fetchLine s g (some c) r.copy le) g (some c) r.rho r.copy n ecc 0x06).2 ((fetchLine_stores ..).2 sound)
  refine ⟨fp, keyed, by rw [gtuRead_tag, row], fun st x other => ?_⟩
  rw [copybackRead, fetchLine_tagOf _ _ _ _ read_sound.2.1, State.fetchedTag,
    lineLost_of_tables ((gtuRead_tables ..).trans (fetchLine_tables s g (some c) r.copy le g))]
  exact afterLine_congr (read.others st x other)

theorem copybackRead_wf (sound : s.Sound) : Tags.wf (copybackRead s g c b n ecc le oe r).tags = true :=
  fetchLine_wf _ _ _ _ ((gtuRead_stores ..).2 ((fetchLine_stores ..).2 sound))

/-- The tag that the original takes: of a full write that carries the slot's tag as read. -/
def copybackRow (s : State) : BitVec 64 × Bool :=
  fullRow r.rho ((copybackRead s g c b n ecc le oe r).tagOf (stackOf g) b)
    (gtuRead (fetchLine s g (some c) r.copy le) g (some c) r.rho r.copy n ecc 0x06).2.2 (s.deliveredBlank (stackOf g) r.copy n)

/-- The original written. -/
def copybackStore (s : State) : State :=
  let u := ((copybackRead s g c b n ecc le oe r).store (stackOf g) b (fullWords (s.deliveredBlank (stackOf g) r.copy n))).setTag (stackOf g) b
    (copybackRow g c b n ecc le oe r s).1
  if (copybackRow g c b n ecc le oe r s).2 then
    mgtuEvent u g (some c) 0x4002 .c b (tagState (copybackRow g c b n ecc le oe r s).1) 0 b 0x06 (b * 4096) else u

theorem execCopyback_eq (held : (s.mgtu.at g).retained.find? (fun r => r.committed && r.ctx = c && r.orig = b) = some r) :
    execCopyback g c b n ecc le s oe =
      .next ((copybackStore g c b n ecc le oe r s).onMgtu g (fun m => { m with retained := m.retained.erase r })) := by
  unfold execCopyback copybackStore copybackRow
  rw [held]
  dsimp only
  rw [gtuRead_data, State.deliveredBlank_of_mem (fetchLine_mem ..)]
  rfl

theorem copybackStore_kept : (copybackStore g c b n ecc le oe r s).kept =
    (((copybackRead s g c b n ecc le oe r).store (stackOf g) b (fullWords (s.deliveredBlank (stackOf g) r.copy n))).setTag (stackOf g) b
      (copybackRow g c b n ecc le oe r s).1).kept := by
  unfold copybackStore
  dsimp only
  split
  · exact mgtuEvent_kept ..
  · rfl

theorem copybackStore_tables (h : Gtu) : (copybackStore g c b n ecc le oe r s).tables h = s.tables h := by
  refine Eq.trans ?_ (copybackRead_tables g c b n ecc le oe r h)
  unfold copybackStore
  dsimp only
  split
  · rw [mgtuEvent_tables, State.stored_tables]
  · rw [State.stored_tables]

end Copyback

/-! ## Full-hash reads (R299, R300) -/

theorem Appends.feedCores (s : State) : Appends s (feedCores s) := by
  refine .each fun t k => ?_
  unfold feedCore
  split
  · exact .refl t
  · split
    · exact .refl t
    · exact .of_same rfl rfl rfl rfl

theorem Appends.onPrvEng (s : State) (f : Prv → Prv) : Appends s (s.onPrvEng f) := .of_same rfl rfl rfl rfl

theorem Appends.withIrq (s : State) (irq : Irq) : Appends s { s with irq } := .of_same rfl rfl rfl rfl

theorem Appends.writeRecord (s : State) (sp : Span) : Appends s (writeRecord s sp) := by
  unfold Machine.writeRecord
  exact (Appends.engineWrite s _ _).trans ((Appends.onPrvEng _ _).trans ((Appends.onCtx _ _ _).trans
    ((Appends.emit _ _).trans ((Appends.withIrq _ _).trans (.irqSet _ _)))))

theorem Appends.writeRecords (k : Nat) (s : State) : Appends s (writeRecords k s) := by
  induction k generalizing s with
  | zero => exact .refl s
  | succ k ih =>
    unfold Machine.writeRecords
    split
    · exact (Appends.writeRecord s _).trans (ih _)
    · exact .refl s

theorem Appends.unstall (s : State) (c : Ctx) : Appends s (unstall s c) := by
  unfold Machine.unstall
  exact .ite (fun _ => .endStall s c) fun _ => .ite (fun _ => .onCtx s c _) fun _ => .refl s

theorem Appends.provAdvance (s : State) : Appends s (provAdvance s) := by
  unfold Machine.provAdvance
  exact (Appends.feedCores s).trans ((Appends.writeRecords _ _).trans (.each .unstall))

theorem execFullHashRead_elsewhere {s : State} {g : Gtu} {c : Ctx} {tensor b : Nat} {n : Noise} {ecc le : Bool}
    (elsewhere : servedBy g b = false ∨ s.ports ≤ g.val) : execFullHashRead g c tensor b n ecc le s = .next s := by
  refine if_pos ?_
  rcases elsewhere with other | none_such
  · simp [other]
  · simp [none_such]

/-- A full-hash read that a span waits for, after its line has been fetched: the state and the tag as read. -/
def fullHashStage (s : State) (g : Gtu) (c : Ctx) (b : Nat) (n : Noise) (ecc le : Bool) : State :=
  (gtuRead (fetchLine s g (some c) ((s.mgtu.at g).readPlace c b) le) g (some c) (s.keyOf c) ((s.mgtu.at g).readPlace c b) n ecc 0x06).1

/-- The tag of a full-hash read. -/
def fullHashTag (s : State) (g : Gtu) (c : Ctx) (b : Nat) (n : Noise) (ecc le : Bool) : BitVec 64 :=
  (gtuRead (fetchLine s g (some c) ((s.mgtu.at g).readPlace c b) le) g (some c) (s.keyOf c) ((s.mgtu.at g).readPlace c b) n ecc 0x06).2.2

/-- What a span takes of a full-hash read. -/
def fullHashTake (s : State) (g : Gtu) (c : Ctx) (tensor b : Nat) (n : Noise) (ecc le : Bool) : Span → Span :=
  addFull tensor (g.val * 2 ^ 25 + b) (s.deliveredBlank (stackOf g) ((s.mgtu.at g).readPlace c b) n) (isPoison (tagState (fullHashTag s g c b n ecc le)))

theorem fullHashStage_ctxs (s : State) (g : Gtu) (c : Ctx) (b : Nat) (n : Noise) (ecc le : Bool) : (fullHashStage s g c b n ecc le).ctxs = s.ctxs :=
  State.ctxs_eq_of_butTags ((gtuRead_butTags ..).trans (fetchLine_butTags ..))

section FullHash

variable {s : State} {g : Gtu} {c : Ctx} {tensor b : Nat} {sp : Span} (served : servedBy g b = true) (port : g.val < s.ports)
include served port

theorem execFullHashRead_closed (closed : s.prv.spans.find? (fun x => x.ctx = c && x.wants tensor g b && x.outputs g b) = some sp) (n : Noise)
    (ecc le : Bool) : execFullHashRead g c tensor b n ecc le s =
      .next (provAdvance (((fullHashStage s g c b n ecc le).send (.fullHashData g b (fullHashTag s g c b n ecc le))).onPrvEng
        (fun e => { e with spans := e.spans.map (fun y => if y.id = sp.id then fullHashTake s g c tensor b n ecc le y else y) }))) := by
  unfold execFullHashRead fullHashTake fullHashTag fullHashStage
  dsimp only
  rw [closed, if_neg (by simp [served, port])]
  rw [State.keyOf_eq_of_ctxs (fetchLine_ctxs ..), gtuRead_data, State.deliveredBlank_of_mem (fetchLine_mem ..)]

theorem execFullHashRead_open (span : (s.ctx c).prv.span = some sp) (wanted : sp.wants tensor g b = true) (input : sp.outputs g b = false)
    (none_closed : s.prv.spans.find? (fun x => x.ctx = c && x.wants tensor g b && x.outputs g b) = none) (n : Noise) (ecc le : Bool) :
    execFullHashRead g c tensor b n ecc le s =
      .next (((fullHashStage s g c b n ecc le).send (.fullHashData g b (fullHashTag s g c b n ecc le))).onPrv c
        (fun p => { p with span := p.span.map (fullHashTake s g c tensor b n ecc le) })) := by
  unfold execFullHashRead fullHashTake fullHashTag fullHashStage
  dsimp only
  rw [none_closed, span, if_neg (by simp [served, port, wanted, input])]
  rw [State.keyOf_eq_of_ctxs (fetchLine_ctxs ..), gtuRead_data, State.deliveredBlank_of_mem (fetchLine_mem ..)]

end FullHash

/-- A full-hash read writes and delivers by the row of its read. -/
theorem fullHashStage_read {s : State} (sound : s.Sound) (g : Gtu) (c : Ctx) (b : Nat) (n : Noise) (ecc le : Bool) :
    let place := (s.mgtu.at g).readPlace c b
    ∃ fp, (∀ rho, s.keyOf c = some rho → fp = fpOf rho (s.deliveredBlank (stackOf g) place n)) ∧
      fullHashTag s g c b n ecc le = (readRow (s.keyOf c).isSome ecc (s.fetchedTag g place le (stackOf g) place) fp).delivered ∧
      (fullHashStage s g c b n ecc le).mem = s.mem ∧ ∃ v, TagWritten s (fullHashStage s g c b n ecc le) g place le v := by
  intro place
  have fetched : Fetched s (fetchLine s g (some c) place le) g place le := fetchLine_fetched sound (some c)
  obtain ⟨fp, keyed, row⟩ := fetched.rowRead (s.keyOf c) n ecc
  exact ⟨fp, keyed, by rw [fullHashTag, gtuRead_tag, row], (State.mem_eq_of_butTags (gtuRead_butTags ..)).trans fetched.mem, _,
    fetched.read (s.keyOf c) n ecc (some c) 0x06⟩

/-- Settles O19: a copy-back is two fetches, a read and a write; a full-hash read is a fetch, a read and what it sends. -/
theorem copyBackAndFullHashRead : Obligations.CopyBackAndFullHashRead := by
  unfold Obligations.CopyBackAndFullHashRead
  refine ⟨fun s g c blank n ecc le oe r sound held apart => ?copyback, fun s g c tensor blank n ecc le elsewhere => execFullHashRead_elsewhere elsewhere,
    fun s g c tensor blank n ecc le sp sound served port => ?hash⟩
  case copyback =>
    intro found after
    obtain ⟨fp, keyed, carried, others⟩ := copybackRead_tagOf g c blank n ecc le oe r sound
    have tagOf : ∀ f, ((copybackStore g c blank n ecc le oe r s).onMgtu g f).tagOf = State.tagOf _ :=
      fun _ => State.tagOf_of_tags (tags_of_kept (copybackStore_kept (s := s) g c blank n ecc le oe r))
    have wf := copybackRead_wf g c blank n ecc le oe r sound
    refine ⟨_, fp, execCopyback_eq g c blank n ecc le oe r held, ?_, keyed, ?_, ?_, fun st b not_original not_slot => ?_⟩
    · rw [State.onMgtu_mem, mem_of_kept (copybackStore_kept ..), State.setTag_mem, State.store_mem, copybackRead_mem]
    · rw [tagOf, State.tagOf_stored wf, copybackRow, carried, others _ _ apart.symm]
    · rw [State.onMgtu_mgtu, Tab.at_upd_same]
      exact congrArg (fun x => List.erase x.1 r) (copybackStore_tables g c blank n ecc le oe r g)
    · rw [tagOf, State.tagOf_setTag_other not_original, store_tagOf, others st b not_slot]
  case hash =>
    intro place stored
    obtain ⟨fp, keyed, tag, mem, v, written⟩ := fullHashStage_read sound g c blank n ecc le
    refine ⟨fun span wanted input none_closed => ?open_, fun closed => ?closed⟩
    case open_ =>
      have ctx : (fullHashStage s g c blank n ecc le).ctx c = s.ctx c := State.ctx_eq_of_ctxs (fullHashStage_ctxs ..) c
      have out : (fullHashStage s g c blank n ecc le).out = s.out := State.out_eq_of_butTags ((gtuRead_butTags ..).trans (fetchLine_butTags ..))
      refine ⟨_, _, fp, execFullHashRead_open served port span wanted input none_closed n ecc le, mem,
        TagWritten.onlyFetched_of_mem (written.later rfl ((Appends.send _ _).trans (.onCtx _ c _))) mem, ?_, keyed, tag, ?_⟩
      · rw [State.onPrv_out, State.send_out, out]
      · rw [State.onPrv_ctx_same, State.send_ctx, ctx]
        dsimp only
        rw [span, Option.map_some, fullHashTake]
    case closed =>
      refine ⟨_, _, fp, execFullHashRead_closed served port closed n ecc le, ?_, keyed, tag⟩
      exact (Appends.provAdvance _).out (List.mem_append_right _ (List.mem_singleton_self _))

end Sys2Proof.Machine


namespace Sys2Proof.Machine

/-! ## What a catch changes (R240 to R242) -/

/-- A state but for what a catch changes. -/
def State.butCatch (s : State) : State :=
  { s with out := [], ctxs := Vector.replicate 32 {}, fst := { s.fst with faultQ := [], histQ := [] }, rcd := {}, irq := {} }

/-- A context but for what a catch on it changes. -/
def CtxSt.butCatch (x : CtxSt) : CtxSt :=
  { x with exec := { x.exec with catches := [] }, pass := { x.pass with st := .noPlan, holdSub := false, repeats := 0 },
           cov := { x.cov with exposures := 0 } }

/-- From `s` to `t` a catch of a context is noted: nothing is sent but MSI-X messages, the other contexts stay, and so does this one but for
its catches. -/
structure Noted (c : Ctx) (s t : State) : Prop where
  stops : Stops s t
  rest : t.butCatch = s.butCatch
  sends : ∀ o ∈ t.out, o ∈ s.out ∨ ∃ n, o = Out.msix n
  others : ∀ d, d ≠ c → t.ctx d = s.ctx d
  own : (t.ctx c).butCatch = (s.ctx c).butCatch

variable {c : Ctx} {s t u : State}

theorem Noted.refl (c : Ctx) (s : State) : Noted c s s := ⟨.refl s, rfl, fun _ => .inl, fun _ _ => rfl, rfl⟩

theorem Noted.trans (h : Noted c s t) (k : Noted c t u) : Noted c s u where
  stops := h.stops.trans k.stops
  rest := k.rest.trans h.rest
  sends o mem := (k.sends o mem).elim (h.sends o) .inr
  others d other := (k.others d other).trans (h.others d other)
  own := k.own.trans h.own

theorem Noted.each {α : Type} {f : State → α → State} {xs : List α} (step : ∀ t x, Noted c t (f t x)) : Noted c s (s.each xs f) :=
  State.each_induction (P := Noted c s) (.refl c s) fun t x _ before => before.trans (step t x)

theorem Noted.ite {p : Prop} [Decidable p] (yes : p → Noted c s t) (no : ¬p → Noted c s u) : Noted c s (if p then t else u) := by
  split
  · next h => exact yes h
  · next h => exact no h

theorem Noted.cause (h : Noted c s t) : (t.ctx c).exec.cause = (s.ctx c).exec.cause :=
  (congrArg (fun x : CtxSt => x.exec.cause) h.own :)

theorem Noted.stopAfter (h : Noted c s t) : (t.ctx c).exec.stopAfter = (s.ctx c).exec.stopAfter :=
  (congrArg (fun x : CtxSt => x.exec.stopAfter) h.own :)

theorem Noted.kept (h : Noted c s t) : t.kept = s.kept := (congrArg State.kept h.rest :)
theorem Noted.wce (h : Noted c s t) : t.wce = s.wce := (congrArg State.wce h.rest :)

section
variable (c s)

theorem Noted.onCtx {f : CtxSt → CtxSt} (same : (f (s.ctx c)).butCatch = (s.ctx c).butCatch) : Noted c s (s.onCtx c f) where
  stops := .onCtx s c f
  rest := rfl
  sends _ := .inl
  others d other := State.onCtx_ctx_other s f other
  own := by rw [State.onCtx_ctx_same]; exact same

theorem Noted.emit (e : Ev) : Noted c s (s.emit e) where
  stops := .emit s e
  rest := by unfold State.emit; split <;> rfl
  sends o mem := .inl (by rwa [State.emit_out] at mem)
  others d _ := by rw [State.emit_ctx]
  own := by rw [State.emit_ctx]

theorem Noted.histPut (e : HistEntry) : Noted c s (s.histPut e) := ⟨.histPut s e, rfl, fun _ => .inl, fun _ _ => rfl, rfl⟩

theorem Noted.notifyPass (d : Ctx) : Noted c s (s.notifyPass d) where
  stops := .notifyPass s d
  rest := rfl
  sends o mem := (List.mem_append.1 mem).imp_right fun new => by
    obtain ⟨n, -, is⟩ := List.mem_map.1 new
    exact ⟨n, is.symm⟩
  others _ _ := rfl
  own := rfl

theorem Noted.histCatch (d : Ctx) (k : OpenCatch) (act : HistAct) (event : BitVec 16) (sliceAct : HistAct) :
    Noted c s (histCatch s d k act event sliceAct) := by
  unfold Machine.histCatch
  dsimp only
  split
  · exact (Noted.histPut c s _).trans (.histPut c _ _)
  · exact .histPut c s _

theorem Noted.exposure (unit : UnitId) (r : Nat × BitVec 3 × BitVec 48 × BitVec 32) : Noted c s (exposure s c unit r) :=
  (Noted.emit c s _).trans ((Noted.emit c _ _).trans (.onCtx c _ rfl))

theorem Noted.settle : Noted c s (settle s c) := by
  unfold Machine.settle
  have held (st : CtxState) (sub : Bool) : Noted c s (s.onPass c (fun p => { p with st, holdSub := sub })) := .onCtx c s rfl
  exact .ite (fun _ => .ite (fun _ => (held _ _).trans (.notifyPass c _ c)) fun _ => held _ _) fun _ => .refl c s

/-- A catch is noted (R242). -/
theorem Noted.noteCatch (unit : UnitId) (slice : Option (BitVec 8 × BitVec 8)) (shadow : Option Compare) :
    Noted c s (noteCatch s c unit slice shadow) := by
  unfold Machine.noteCatch
  dsimp only
  split
  · exact .onCtx c s rfl
  · refine .ite (fun _ => .trans (.onCtx c s rfl) (.each fun t x => .exposure c t unit _)) fun _ => .ite (fun _ => .onCtx c s rfl) fun _ => ?_
    refine .trans (.trans (.trans (.trans (.trans (.onCtx c s ?_) (.onCtx c _ ?_)) (.onCtx c _ ?_)) (.emit c _ _))
      (.trans (.histCatch c _ ..) (.settle c _))) (.each fun t x => .exposure c t unit _)
    all_goals rfl

end

/-- The first abort cause of an execution is kept. -/
theorem noteCause_cause (s : State) (c : Ctx) (reason : BitVec 4) (unit : UnitId) :
    ((noteCause s c reason unit).ctx c).exec.cause = some ((s.ctx c).exec.cause.getD { reason, unit }) := by
  unfold noteCause State.onExec
  rw [State.onCtx_ctx_same]
  cases known : (s.ctx c).exec.cause <;> simp [known]

/-- The report of an abort cause on the execution in progress (R226): the cause and the catch. -/
def causeAndCatch (s : State) (c : Ctx) (reason : BitVec 4) (unit : UnitId) : State := noteCatch (noteCause s c reason unit) c unit none none

theorem reportCause_current (s : State) (c : Ctx) (reason : BitVec 4) (unit : UnitId) (ex : Option ExecName)
    (unnamed : ex = none → s.deciding c = true) (current : ∀ x, ex = some x → s.named c x.1 x.2 = .current) :
    reportCause s c reason unit ex = causeAndCatch s c reason unit := by
  unfold reportCause
  cases ex with
  | none => exact if_pos (unnamed rfl)
  | some x =>
    dsimp only
    rw [current x rfl]
    rfl

theorem causeAndCatch_stops (s : State) (c : Ctx) (reason : BitVec 4) (unit : UnitId) : Stops s (causeAndCatch s c reason unit) :=
  (Stops.noteCause s c reason unit).trans (.noteCatch ..)

theorem causeAndCatch_cause (s : State) (c : Ctx) (reason : BitVec 4) (unit : UnitId) :
    ((causeAndCatch s c reason unit).ctx c).exec.cause = some ((s.ctx c).exec.cause.getD { reason, unit }) :=
  (Noted.noteCatch c _ unit none none).cause.trans (noteCause_cause s c reason unit)

theorem causeAndCatch_sends (s : State) (c : Ctx) (reason : BitVec 4) (unit : UnitId) :
    ∀ o ∈ (causeAndCatch s c reason unit).out, o ∈ s.out ∨ ∃ n, o = Out.msix n := (Noted.noteCatch c (noteCause s c reason unit) unit none none).sends

theorem causeAndCatch_kept (s : State) (c : Ctx) (reason : BitVec 4) (unit : UnitId) : (causeAndCatch s c reason unit).kept = s.kept :=
  (Noted.noteCatch c (noteCause s c reason unit) unit none none).kept

end Sys2Proof.Machine


namespace Sys2Proof.Machine

/-! # The links' units (chapter 03, R120 to R125; R65, R256, R264 to R267) -/

/-- What an answer that keeps memory and tags leaves. -/
theorem Keeps.of_next {s t : State} {r : Res} (keeps : Keeps s r) (is : r = .next t) : t.kept = s.kept := by
  rw [is, keeps_next] at keeps
  exact keeps

theorem State.emit_raises (s : State) (e : Ev) (fault : e.cls ≠ .record) : s.stamp e ∈ (s.emit e).fst.faultQ := by
  rw [State.emit_fault _ fault]
  exact List.mem_append_right _ (List.mem_singleton.2 rfl)

theorem State.emit_records (s : State) (e : Ev) (record : e.cls = .record) : s.stamp e ∈ (s.emit e).rcd.intake := by
  rw [State.emit_record _ record]
  exact List.mem_append_right _ (List.mem_singleton.2 rfl)

theorem Tab.upd_upd {n : Nat} {α : Type} (t : Tab n α) (i : Fin n) (f g : α → α) : (t.upd i f).upd i g = t.upd i (g ∘ f) := by
  refine Vector.ext fun j hj => ?_
  simp only [Tab.upd, Vector.getElem_set]
  split <;> simp_all

section

variable {s : State} {l : Lnk} {f : Frame} {c : Ctx}

theorem link_open (has : s.hasLink l = true) (unfenced : (s.lgtu.at l).fenced = false) : ¬ ((!s.hasLink l) = true ∨ (s.lgtu.at l).fenced = true) := by
  simp [has, unfenced]

/-! ## Frames sent (R120, R121) -/

/-- A frame as it leaves: with the key check of the context it comes from. -/
def framed (s : State) (c : Ctx) (f : Frame) : Frame := { f with keyCheck := (s.ctx c).plan.keyCheck }

/-- The link GTU after a frame has gone out: a poisoned blank is counted, and the frame is held for a retry. -/
def Lgtu.sends (c : Ctx) (f : Frame) (x : Lgtu) : Lgtu :=
  { x.hold c f with poison := if isPoison (tagState f.tag) then bumpCtx x.poison c else x.poison }

/-- A frame goes out: held, counted where it is poisoned, and counted for a RELAXED context off its static route. -/
def frameOut (s : State) (l : Lnk) (c : Ctx) (f : Frame) : State :=
  { s with lgtu := s.lgtu.upd l (Lgtu.sends c (framed s c f)), ctxs := (countChatter s c f.adaptive).ctxs, out := s.out ++ [.frame l (framed s c f)] }

theorem countChatter_own (s : State) (c : Ctx) (adaptive : Bool) : (countChatter s c adaptive).ctx c =
    if (adaptive && s.relaxed c) = true then { s.ctx c with bar := { (s.ctx c).bar with chatter := (s.ctx c).bar.chatter.add 1 } } else s.ctx c := by
  unfold countChatter
  split
  · exact State.onCtx_ctx_same s c _
  · rfl

theorem countChatter_others (s : State) (c : Ctx) (adaptive : Bool) (d : Ctx) (other : d ≠ c) : (countChatter s c adaptive).ctx d = s.ctx d := by
  unfold countChatter
  split
  · exact State.onCtx_ctx_other s _ other
  · rfl

theorem send_of_holds (has : s.hasLink l = true) (unfenced : (s.lgtu.at l).fenced = false)
    (free : s.fencedAt c (uLgtu l) = false) (holds : tagHolds (s.keyOf c) f.data f.tag = true) (blank : Nat) (ex : Option ExecName) :
    exec (.linkFrameSend l f c blank false ex) s = .next (frameOut s l c f) := by
  refine (if_neg (link_open has unfenced)).trans ((if_neg (by simp)).trans ((if_neg (by simp [free])).trans ((if_pos holds).trans ?_)))
  refine congrArg Host.Outcome.next ?_
  have relaxed {u : State} (same : u.ctxs = s.ctxs) : (countChatter u c f.adaptive) = { u with ctxs := (countChatter s c f.adaptive).ctxs } := by
    have plan : u.relaxed c = s.relaxed c := by unfold State.relaxed State.planOf; rw [State.ctx_eq_of_ctxs same]
    unfold countChatter
    rw [plan]
    split
    · unfold State.onBar State.onCtx
      rw [same]
    · rw [← same]
  have stored (t : Tab 24 Lgtu) (is : t = s.lgtu.upd l (Lgtu.sends c (framed s c f))) :
      { s with lgtu := t, ctxs := (countChatter s c f.adaptive).ctxs, out := s.out ++ [.frame l (framed s c f)] } = frameOut s l c f := by
    rw [is, frameOut]
  by_cases poisoned : isPoison (tagState f.tag) = true
  · rw [if_pos poisoned]
    refine (relaxed ?_).trans (stored _ ?_)
    · rfl
    · refine (Tab.upd_upd s.lgtu l (fun x => { x with poison := bumpCtx x.poison c }) (fun x => x.hold c (framed s c f))).trans
        (congrArg (s.lgtu.upd l) (funext fun x => ?_))
      exact congrArg (fun p => { x.hold c (framed s c f) with poison := p }) (if_pos poisoned).symm
  · rw [if_neg poisoned]
    refine (relaxed ?_).trans (stored _ ?_)
    · rfl
    · refine show s.lgtu.upd l (fun x => x.hold c (framed s c f)) = _ from congrArg (s.lgtu.upd l) (funext fun x => ?_)
      exact congrArg (fun p => { x.hold c (framed s c f) with poison := p }) (if_neg poisoned).symm

theorem Lgtu.hold_find (x : Lgtu) (c : Ctx) (f : Frame) : (x.hold c f).sent.find? (fun e => Frame.is e.2 f.ctx f.seq) = some (c, f) := by
  unfold Lgtu.hold
  rw [List.find?_append, List.find?_eq_none.2 fun e mem => by simpa using (List.mem_filter.1 mem).2]
  simp [Frame.is]

theorem send_of_mismatch (has : s.hasLink l = true) (unfenced : (s.lgtu.at l).fenced = false)
    (free : s.fencedAt c (uLgtu l) = false) (differs : tagHolds (s.keyOf c) f.data f.tag = false) (blank : Nat) (ex : Option ExecName) :
    ∃ e : Ev, e.code = 0x4009 ∧ e.cls = .c ∧ e.unit = uLgtu l ∧ e.ctx = some c ∧
    exec (.linkFrameSend l f c blank false ex) s = .next (reportCause (s.emit e) c 4 (uLgtu l) ex) := by
  refine ⟨_, ?_, ?_, ?_, ?_, (if_neg (link_open has unfenced)).trans ((if_neg (by simp)).trans ((if_neg (by simp [free])).trans
    (if_neg (by simp [differs]))))⟩ <;> rfl

theorem msix_of_mem_append {o : Out} {os : List Out} (mem : o ∈ os ∨ ∃ n, o = .msix n) (not_msix : ∀ n, o ≠ .msix n) : o ∈ os :=
  mem.elim id fun ⟨n, is⟩ => absurd is (not_msix n)

end

/-- Settles O20: a frame that agrees goes out, is held and counted; one that does not is reported, and the report of the execution in progress
keeps its cause; the frame held goes again. -/
theorem linkFramesAreCheckedAndSent : Obligations.LinkFramesAreCheckedAndSent := by
  unfold Obligations.LinkFramesAreCheckedAndSent
  intro s l f c blank ex has unfenced
  refine ⟨fun free holds => ⟨_, send_of_holds has unfenced free holds blank ex, rfl, countChatter_others s c f.adaptive, countChatter_own s c f.adaptive,
      fun m other => Tab.at_upd_other _ _ other, ?_, ?_⟩, fun free differs unnamed named => ?_, fun e held => ?_, fun fenced => ?_⟩
  · exact (Tab.at_upd_same s.lgtu l _).trans (by rw [show (frameOut s l c f).lgtu.at l = _ from Tab.at_upd_same s.lgtu l _]; rfl)
  · rw [show (frameOut s l c f).lgtu.at l = _ from Tab.at_upd_same s.lgtu l _]
    exact Lgtu.hold_find _ c (framed s c f)
  · obtain ⟨e, code, cls, unit, ctx, step⟩ := send_of_mismatch has unfenced free differs blank ex
    rw [reportCause_current _ c 4 _ ex (by simpa [State.deciding] using unnamed) (by simpa [State.named, State.deciding] using named)] at step
    have stops := causeAndCatch_stops (s.emit e) c 4 (uLgtu l)
    refine ⟨_, s.stamp e, step, stops.faultQ (s.emit_raises e (by rw [cls]; decide)), code, cls, unit, ctx, fun m g mem => ?_, ?_, ?_, ?_⟩
    · have sent := msix_of_mem_append (causeAndCatch_sends _ c 4 _ _ mem) (by simp)
      rwa [State.emit_out] at sent
    · rw [stops.lgtu, State.emit_lgtu]
    · rw [stops.mem, State.emit_mem]
    · rw [causeAndCatch_cause, State.emit_ctx]
  · refine (if_neg (link_open has unfenced)).trans ((if_pos rfl).trans (congrArg Host.Outcome.next ?_))
    unfold resendFrame
    rw [held]
    rfl
  · exact (if_neg (link_open has unfenced)).trans ((if_neg (by simp)).trans (if_pos fenced))

/-! ## Frames received (R122 to R125) -/

section

variable (s : State) (l : Lnk) (f : Frame)

theorem linkPoisonTag_state : tagState (linkPoisonTag s f).1 = tLink := by
  unfold linkPoisonTag
  split <;> exact tagState_mkTag _ _

theorem linkPoisonTag_aon : (linkPoisonTag s f).2.aon = s.aon := by
  unfold linkPoisonTag
  split <;> rfl

/-- A blank delivered as POISON_LINK: its tag made, its counter changed, the blank delivered (R123, R125). -/
def deliverPoisoned (count : Lgtu → Lgtu) (made : Nat) : State :=
  deliverFrame ((linkPoisonTag s f).2.onLgtu l count) l f made (linkPoisonTag s f).1

/-- A poisoned frame: delivered, with its fault and its report. -/
def poisonFrame (count : Lgtu → Lgtu) (made : Nat) (code p16 : BitVec 16) (p32 : BitVec 32) (ex : Option ExecName) : State :=
  linkPoisoned (frameEvent (deliverPoisoned s l f count made) l f code p16 p32) l f.ctx ex

variable (count : Lgtu → Lgtu) (made : Nat) (code p16 : BitVec 16) (p32 : BitVec 32) (ex : Option ExecName)

theorem Appends.linkPoisoned (c : Ctx) (clock : s.aon.refOk = true) : Appends s (linkPoisoned s l c ex) := by
  unfold Machine.linkPoisoned
  exact .ite (fun _ => .reportCause s c 5 _ ex clock) fun _ => .refl s

theorem poisonFrame_reported (clock : s.aon.refOk = true) :
    Appends (frameEvent (deliverPoisoned s l f count made) l f code p16 p32) (poisonFrame s l f count made code p16 p32 ex) := by
  refine .linkPoisoned _ l ex f.ctx ?_
  rw [frameEvent, State.emit_aon]
  exact (congrArg Aon.refOk (linkPoisonTag_aon s f)).trans clock

theorem poisonFrame_delivers (clock : s.aon.refOk = true) :
    Out.deliver l f.ctx f.data (linkPoisonTag s f).1 ∈ (poisonFrame s l f count made code p16 p32 ex).out := by
  refine (poisonFrame_reported s l f count made code p16 p32 ex clock).out ?_
  rw [frameEvent, State.emit_out]
  exact List.mem_append_right _ (List.mem_singleton.2 rfl)

theorem poisonFrame_raises (clock : s.aon.refOk = true) : ∃ e ∈ (poisonFrame s l f count made code p16 p32 ex).fst.faultQ,
    e.code = code ∧ e.cls = .u ∧ e.unit = uLgtu l ∧ e.p16 = p16 ∧ e.p32 = p32 :=
  ⟨_, (poisonFrame_reported s l f count made code p16 p32 ex clock).faultQ (State.emit_raises _ _ nofun), rfl, rfl, rfl, rfl, rfl⟩

end

section

variable {s : State} {l : Lnk} {f : Frame}

theorem receive_mismatched (has : s.hasLink l = true) (unfenced : (s.lgtu.at l).fenced = false)
    (wrong : (s.ctx f.ctx).plan.loaded = false ∨ f.keyCheck ≠ (s.ctx f.ctx).plan.keyCheck) (ex : Option ExecName) :
    ∃ made p32, exec (.linkFrameReceive l f ex) s = .next (poisonFrame s l f (fun x => { x with keyMis := bump x.keyMis }) made 0x4007 f.keyCheck p32 ex) :=
  ⟨_, _, (if_neg (link_open has unfenced)).trans ((if_pos (by simpa using wrong)).trans rfl)⟩

theorem receive_matched (has : s.hasLink l = true) (unfenced : (s.lgtu.at l).fenced = false) (loaded : (s.ctx f.ctx).plan.loaded = true)
    (right : f.keyCheck = (s.ctx f.ctx).plan.keyCheck) (ex : Option ExecName) :
    exec (.linkFrameReceive l f ex) s =
      if tagMatches (s.ctx f.ctx).plan.rho f.data f.tag then
        .next (deliverFrame s l f ((s.lgtu.at l).retryOf f.ctx f.seq s.retryLimit.toNat).made f.tag)
      else if ((s.lgtu.at l).retryOf f.ctx f.seq s.retryLimit.toNat).made < ((s.lgtu.at l).retryOf f.ctx f.seq s.retryLimit.toNat).limit then
        .next ((s.onLgtu l (fun x => { (x.setRetry { (s.lgtu.at l).retryOf f.ctx f.seq s.retryLimit.toNat with
          made := ((s.lgtu.at l).retryOf f.ctx f.seq s.retryLimit.toNat).made + 1 }) with retries := bump x.retries })).send (.tagRetry l f.ctx f.seq))
      else .next (poisonFrame s l f (fun x => { x with poisoned := bump x.poisoned }) ((s.lgtu.at l).retryOf f.ctx f.seq s.retryLimit.toNat).made
        0x4006 (BitVec.ofNat 16 ((s.lgtu.at l).retryOf f.ctx f.seq s.retryLimit.toNat).made) f.seq ex) :=
  (if_neg (link_open has unfenced)).trans ((if_neg (by simp [loaded, right])).trans rfl)

end

theorem Lgtu.retryOf_is (x : Lgtu) (c : Ctx) (seq : BitVec 32) (limit : Nat) : (x.retryOf c seq limit).ctx = c ∧ (x.retryOf c seq limit).seq = seq := by
  unfold Lgtu.retryOf
  cases found : x.open_.find? (fun r => r.ctx = c && r.seq = seq) with
  | none => exact ⟨rfl, rfl⟩
  | some r => simpa using List.find?_some found

theorem Lgtu.retryOf_setRetry (x : Lgtu) {r : Retry} {c : Ctx} {seq : BitVec 32} (ctx : r.ctx = c) (number : r.seq = seq) (limit : Nat) :
    (x.setRetry r).retryOf c seq limit = r := by
  subst ctx number
  unfold Lgtu.retryOf Lgtu.setRetry Lgtu.endRetry
  rw [List.find?_append, List.find?_eq_none.2 fun e mem => by simpa [Classical.or_iff_not_imp_left] using (List.mem_filter.1 mem).2]
  simp

/-- Settles O21: by the key check, the tag and the retries made. -/
theorem receivedFramesAreDeliveredOrRetried : Obligations.ReceivedFramesAreDeliveredOrRetried := by
  unfold Obligations.ReceivedFramesAreDeliveredOrRetried
  intro s l f ex has unfenced key r
  have kept {t : State} (step : exec (.linkFrameReceive l f ex) s = .next t) : t.kept = s.kept := (execLinkFrameReceive_kept l f s ex).of_next step
  refine ⟨fun loaded right good => ?_, fun loaded right bad room => ?_, fun loaded right bad spent clock => ?_, fun wrong clock => ?_⟩
  · have step := (receive_matched has unfenced loaded right ex).trans (if_pos good)
    exact ⟨_, step, rfl, rfl, kept step⟩
  · have step := (receive_matched has unfenced loaded right ex).trans ((if_neg (Bool.eq_false_iff.1 bad)).trans (if_pos room))
    obtain ⟨ctx, seq⟩ := (s.lgtu.at l).retryOf_is f.ctx f.seq s.retryLimit.toNat
    have entry : ∀ t : State, t.lgtu = s.lgtu.upd l (fun x => { (x.setRetry { r with made := r.made + 1 }) with retries := bump x.retries }) →
        t.lgtu.at l = { ((s.lgtu.at l).setRetry { r with made := r.made + 1 }) with retries := bump (s.lgtu.at l).retries } :=
      fun t is => is ▸ Tab.at_upd_same ..
    refine ⟨_, step, rfl, congrArg Lgtu.retries (entry _ rfl), ?_, rfl, rfl, kept step⟩
    rw [entry _ rfl]
    exact (s.lgtu.at l).retryOf_setRetry (r := { r with made := r.made + 1 }) ctx seq s.retryLimit.toNat
  · have step := (receive_matched has unfenced loaded right ex).trans ((if_neg (Bool.eq_false_iff.1 bad)).trans (if_neg (Nat.not_lt.2 spent)))
    obtain ⟨e, raised, code, cls, unit, -, p32⟩ := poisonFrame_raises s l f (fun x => { x with poisoned := bump x.poisoned }) r.made 0x4006
      (BitVec.ofNat 16 r.made) f.seq ex clock
    exact ⟨_, e, _, step, poisonFrame_delivers s l f _ _ _ _ _ ex clock, linkPoisonTag_state s f, raised, code, cls, unit, p32, kept step⟩
  · obtain ⟨made, p32, step⟩ := receive_mismatched has unfenced wrong ex
    obtain ⟨e, raised, code, cls, unit, p16, -⟩ := poisonFrame_raises s l f (fun x => { x with keyMis := bump x.keyMis }) made 0x4007 f.keyCheck p32 ex clock
    exact ⟨_, e, _, step, poisonFrame_delivers s l f _ _ _ _ _ ex clock, linkPoisonTag_state s f, raised, code, cls, unit, p16, kept step⟩

/-! ## Links that train (R65, R256, R264 to R267) -/

section

variable (s : State) (l : Lnk)

theorem Stops.withCtxs (ctxs : Tab 32 CtxSt) : Stops s { s with ctxs } := .of_same rfl rfl rfl rfl

theorem Stops.onAllCtx (f : Ctx → CtxSt → CtxSt) : Stops s (s.onAllCtx f) := .withCtxs s _

theorem Stops.noteLinks : Stops s (noteLinks s) := by
  unfold Machine.noteLinks
  exact .onAllCtx s _

/-- What the training of a link in use does first: LINK_RETRAIN, and its unit's patterns end (R336, R370). -/
def trainingSeen (width retries : Nat) : State :=
  if s.linkInUse l then cutPatterns (retrainFault s l width retries) (fun p => p.unit = uLgtu l) 5 else s

theorem Stops.trainingSeen (width retries : Nat) : Stops s (trainingSeen s l width retries) := by
  unfold Machine.trainingSeen
  exact .ite (fun _ => ((Serves.emit s _).trans (.cutPatterns _ _ _)).stops) fun _ => .refl s

theorem trainingSeen_raises (width retries : Nat) (used : s.linkInUse l = true) : ∃ e ∈ (trainingSeen s l width retries).fst.faultQ,
    e.code = 0x3004 ∧ e.cls = .c ∧ e.unit = uLgtu l ∧ e.p16 = BitVec.ofNat 16 width ∧ e.p32 = satBits 32 retries := by
  unfold trainingSeen
  rw [if_pos used]
  exact ⟨_, (Serves.cutPatterns _ _ _).faultQ (State.emit_raises s _ nofun), rfl, rfl, rfl, rfl, rfl⟩

/-- The link runs at the width reached. -/
def linkUp (x : Trained) : State :=
  noteLinks (s.onLgtu l (fun y => { y with width := BitVec.ofNat 4 x.width, fenced := false, delay := x.delay }))

/-- LINK_WIDTH. -/
def widthEvent (l : Lnk) (x : Trained) : Ev := { code := 0x6003, unit := uLgtu l, p16 := BitVec.ofNat 16 x.width, p32 := x.failed.setWidth 32 }

/-- A link that has trained: it runs, and LINK_WIDTH is recorded where something is to be told. -/
def trained (x : Trained) (n : Nat) : State :=
  if s.linkInUse l || (s.lgtu.at l).fenced || decide (x.width < 8) then (linkUp (trainingSeen s l x.width n) l x).emit (widthEvent l x)
  else linkUp (trainingSeen s l x.width n) l x

end

section

variable {s : State} {l : Lnk}

theorem link_trains (has : s.hasLink l = true) (serves : (s.lgtu.at l).retired = false) : ¬ ((!s.hasLink l) = true ∨ (s.lgtu.at l).retired = true) := by
  simp [has, serves]

theorem linkTrained_up {x : Trained} (has : s.hasLink l = true) (serves : (s.lgtu.at l).retired = false) (width : 0 < x.width) (n : Nat)
    (lost : List LostFrame) : exec (.linkTrained l x n lost) s = .next (trained s l x n) :=
  (if_neg (link_trains has serves)).trans ((if_neg (Nat.ne_of_gt width)).trans rfl)

theorem linkTrained_down {x : Trained} (has : s.hasLink l = true) (serves : (s.lgtu.at l).retired = false) (width : x.width = 0) (n : Nat)
    (lost : List LostFrame) : exec (.linkTrained l x n lost) s = .next (resendLost (if (s.lgtu.at l).fenced then trainingSeen s l x.width n
      else fenceLink (trainingSeen s l x.width n) l (if (trainingSeen s l x.width n).pwr.step.toNat ≤ 5 then 0 else 1)) l lost) := by
  show execLinkTrained l x n s lost = _
  unfold execLinkTrained
  dsimp only
  rw [if_neg (link_trains has serves), if_pos width]
  rfl

theorem linkUp_lgtu (s : State) (l : Lnk) (x : Trained) : (linkUp s l x).lgtu =
    s.lgtu.upd l (fun y => { y with width := BitVec.ofNat 4 x.width, fenced := false, delay := x.delay }) :=
  (Stops.noteLinks _).lgtu

theorem trained_lgtu (s : State) (l : Lnk) (x : Trained) (n : Nat) : (trained s l x n).lgtu =
    s.lgtu.upd l (fun y => { y with width := BitVec.ofNat 4 x.width, fenced := false, delay := x.delay }) := by
  unfold trained
  rw [← (Stops.trainingSeen s l x.width n).lgtu, ← linkUp_lgtu]
  split
  · exact State.emit_lgtu ..
  · rfl

theorem trained_appends (s : State) (l : Lnk) (x : Trained) (n : Nat) : Appends (trainingSeen s l x.width n) (trained s l x n) := by
  have up : Appends (trainingSeen s l x.width n) (linkUp (trainingSeen s l x.width n) l x) :=
    Appends.trans (t := (trainingSeen s l x.width n).onLgtu l _) (.of_same rfl rfl rfl rfl) (Stops.noteLinks _).toAppends
  unfold trained
  exact .ite (fun _ => up.trans (.emit _ _)) fun _ => up

theorem trained_records (s : State) (l : Lnk) (x : Trained) (n : Nat) (told : x.width < 8 ∨ (s.lgtu.at l).fenced = true ∨ s.linkInUse l = true) :
    ∃ e ∈ (trained s l x n).rcd.intake, e.code = 0x6003 ∧ e.unit = uLgtu l ∧ e.p16 = BitVec.ofNat 16 x.width ∧ e.p32 = x.failed.setWidth 32 := by
  unfold trained
  rw [if_pos (by simpa [or_comm, or_assoc, or_left_comm] using told)]
  exact ⟨_, State.emit_records _ _ rfl, rfl, rfl, rfl, rfl⟩

/-! ### Links fenced -/

/-- LINK_FENCED: the link is out, and every context whose plan uses it is named (R264). -/
def linkOut (s : State) (l : Lnk) : State :=
  noteLinks ((cutPatterns s (fun p => p.unit = uLgtu l) 5).onLgtu l (fun x => { x with width := 0, fenced := true, open_ := [] }))

theorem linkOut_appends (s : State) (l : Lnk) : Appends s (linkOut s l) :=
  (Serves.cutPatterns s _ 5).toAppends.trans (Appends.trans (t := (cutPatterns s (fun p => p.unit = uLgtu l) 5).onLgtu l _) (.of_same rfl rfl rfl rfl)
    (Stops.noteLinks _).toAppends)

theorem linkOut_lgtu (s : State) (l : Lnk) : (linkOut s l).lgtu = s.lgtu.upd l (fun x => { x with width := 0, fenced := true, open_ := [] }) := by
  rw [← (Serves.cutPatterns s (fun p => p.unit = uLgtu l) 5).lgtu]
  exact (Stops.noteLinks _).lgtu

/-- A link is fenced, with what is told of it and the contexts stopped (R264 to R266). -/
theorem fenceLink_tells (s : State) (l : Lnk) (why : BitVec 16) (clock : s.aon.refOk = true) :
    ∃ e : Ev, Stops ((linkOut s l).emit e) (fenceLink s l why) ∧ e.code = 0x6004 ∧ e.cls = .c ∧ e.unit = uLgtu l := by
  unfold fenceLink
  extract_lets users strict t u v
  obtain ⟨e, same, is⟩ : ∃ e : Ev, v = (linkOut s l).emit e ∧ e.code = 0x6004 ∧ e.cls = .c ∧ e.unit = uLgtu l := ⟨_, rfl, rfl, rfl, rfl⟩
  refine ⟨e, ?_, is⟩
  rw [← same]
  have on : v.aon.refOk = true := by
    rw [same, State.emit_aon]
    exact (linkOut_appends s l).refOk.trans clock
  exact .ite (fun _ => .refl _) fun _ => .then_each (.emit _ _) on fun t c on => .abortStopCtx t c _ on

theorem fenceLink_lgtu (s : State) (l : Lnk) (why : BitVec 16) (clock : s.aon.refOk = true) :
    (fenceLink s l why).lgtu = s.lgtu.upd l (fun x => { x with width := 0, fenced := true, open_ := [] }) := by
  obtain ⟨e, told, -⟩ := fenceLink_tells s l why clock
  rw [told.lgtu, State.emit_lgtu, linkOut_lgtu]

theorem fenceLink_raises (s : State) (l : Lnk) (why : BitVec 16) (clock : s.aon.refOk = true) :
    ∃ e ∈ (fenceLink s l why).fst.faultQ, e.code = 0x6004 ∧ e.cls = .c ∧ e.unit = uLgtu l := by
  obtain ⟨e, told, code, cls, unit⟩ := fenceLink_tells s l why clock
  exact ⟨_, told.faultQ (State.emit_raises _ e (by rw [cls]; exact nofun)), code, cls, unit⟩

/-! ### A blank frame lost on the link (R266) -/

/-- A blank frame sent again over another link: no longer held for the old one, held for the new one, and counted. -/
def resent (s : State) (l via : Lnk) (c : Ctx) (f g : Frame) : State :=
  (countChatter ((s.onLgtu l (fun x => { x with sent := x.sent.filter (fun e => !Frame.is e.2 f.ctx f.seq) })).onLgtu via (fun x => x.hold c g)) c true).send
    (.frame via g)

theorem resendBlank_of_held {s : State} {l via : Lnk} {c : Ctx} {f : Frame} (relaxed : s.relaxed c = true) (has : s.hasLink via = true)
    (unfenced : (s.lgtu.at via).fenced = false) (held : (s.lgtu.at l).sent.find? (fun e => Frame.is e.2 f.ctx f.seq) = some (c, f)) :
    resendBlank s l f.ctx f.seq via = resent s l via c f { f with adaptive := true } := by
  unfold resendBlank
  rw [held]
  exact if_neg (by simp [relaxed, has, unfenced])

theorem countChatter_lgtu (s : State) (c : Ctx) (adaptive : Bool) : (countChatter s c adaptive).lgtu = s.lgtu := by
  unfold countChatter
  split <;> rfl

theorem countChatter_out (s : State) (c : Ctx) (adaptive : Bool) : (countChatter s c adaptive).out = s.out := by
  unfold countChatter
  split <;> rfl

theorem resent_lgtu (s : State) (l via : Lnk) (c : Ctx) (f g : Frame) : (resent s l via c f g).lgtu =
    (s.lgtu.upd l (fun x => { x with sent := x.sent.filter (fun e => !Frame.is e.2 f.ctx f.seq) })).upd via (fun x => x.hold c g) :=
  countChatter_lgtu ..

/-! ### RETRAIN (R267) -/

/-- A loaded context's static routes use a link. -/
def State.routesUse (s : State) (n : Nat) : Bool := s.loadedCtxs.any (fun c => match s.planOf c with | some p => p.usesLink n | none => false)

theorem routesUse_of_uses {s : State} {n : Nat} {c : Ctx} {p : Plan} (loaded : c ∈ s.loadedCtxs) (plan : s.planOf c = some p) (uses : p.usesLink n = true) :
    s.routesUse n = true := by
  unfold State.routesUse
  exact List.any_eq_true.2 ⟨c, loaded, by rw [plan]; exact uses⟩

theorem routesUse_of_free {s : State} {n : Nat} (free : ∀ c ∈ s.loadedCtxs, ∀ p, s.planOf c = some p → p.usesLink n = false) : s.routesUse n = false := by
  unfold State.routesUse
  refine List.any_eq_false.2 fun c loaded => ?_
  split
  · next p plan => rw [free c loaded p plan]; decide
  · decide

/-- The link of an index below the number of links. -/
theorem finOf_link (l : Lnk) : finOf 24 (BitVec.ofNat 5 l.val).toNat = some l := by
  revert l
  decide

theorem linkCtrl_retrain (src : Src) (i : BitVec 5) (s : State) :
    linkCtrl src (i.setWidth 64 ||| 32) s = retrainCmd src i (s.onSpn (fun x => { x with linkSel := i })) := by
  have go : flag (i.setWidth 64 ||| 32) 5 = true := by revert i; decide
  have sel : (field (i.setWidth 64 ||| 32) 0 5 : BitVec 5) = i := by revert i; decide
  unfold linkCtrl
  rw [go, sel]
  rfl

theorem exec_retrain {s : State} (carried : s.gate 0x600018 = .carry) (src : Src) (i : BitVec 5) :
    exec (.retrain src i) s = .next ((retrainCmd src i (s.onSpn (fun x => { x with linkSel := i }))).complete src 0x600018 false 0 0) := by
  refine congrArg Host.Outcome.next ((gatedWrite_of_carry carried src _ _).trans ?_)
  rw [linkCtrl_retrain]

theorem ofNat_link_toNat (l : Lnk) : (BitVec.ofNat 5 l.val).toNat = l.val := by
  revert l
  decide

theorem retrainCmd_eq {s : State} {l : Lnk} (has : s.hasLink l = true) (serves : (s.lgtu.at l).retired = false) (src : Src) :
    retrainCmd src (BitVec.ofNat 5 l.val) s = if s.routesUse l.val = true then (s.onSpn (fun x => { x with refused := true })).logRefusal mc none src 0x600018
      else (cutPatterns (s.onSpn (fun x => { x with refused := false })) (fun p => p.unit = uLgtu l) 5).send (.retrain l) := by
  unfold retrainCmd
  rw [finOf_link, ofNat_link_toNat]
  by_cases used : s.routesUse l.val = true
  · exact (if_pos (.inl used)).trans (if_pos used).symm
  · refine (if_neg fun hinders => hinders.elim used ?_).trans (if_neg used).symm
    simp [has, serves]
end

/-- Settles O22: a link that trains runs, one that does not is fenced, what a RELAXED context had on it goes again, and RETRAIN is judged by the
routes. -/
theorem linksTrainAndRetrain : Obligations.LinksTrainAndRetrain := by
  unfold Obligations.LinksTrainAndRetrain
  refine ⟨fun s l x n lost has serves wide narrow => ?_, fun s l x n has serves none clock => ?_,
    fun s l via x n f c has serves none fenced relaxed hasVia unfenced held => ?_, fun s src l carried has serves => ?_⟩
  · have step := linkTrained_up has serves wide n lost
    have runs : (trained s l x n).lgtu.at l = { s.lgtu.at l with width := BitVec.ofNat 4 x.width, fenced := false, delay := x.delay } := by
      rw [trained_lgtu]
      exact Tab.at_upd_same ..
    refine ⟨_, step, congrArg Lgtu.width runs, congrArg Lgtu.fenced runs, congrArg Lgtu.delay runs, fun m other => ?_,
      (execLinkTrained_kept l x n lost s).of_next step, trained_records s l x n, fun used => ?_⟩
    · rw [trained_lgtu]
      exact Tab.at_upd_other _ _ other
    · obtain ⟨e, raised, is⟩ := trainingSeen_raises s l x.width n used
      exact ⟨e, (trained_appends s l x n).faultQ raised, is⟩
  · have step := linkTrained_down has serves none n []
    have kept := (execLinkTrained_kept l x n [] s).of_next step
    have seen := Stops.trainingSeen s l x.width n
    rw [show ∀ t, resendLost t l [] = t from fun t => rfl] at step kept
    by_cases fenced : (s.lgtu.at l).fenced = true
    · rw [if_pos fenced] at step kept
      exact ⟨_, step, by rw [seen.lgtu, fenced], kept, fun open_ => by simp [fenced] at open_⟩
    · rw [if_neg fenced] at step kept
      have on : (trainingSeen s l x.width n).aon.refOk = true := seen.refOk.trans clock
      have out (why : BitVec 16) : (fenceLink (trainingSeen s l x.width n) l why).lgtu.at l =
          { (trainingSeen s l x.width n).lgtu.at l with width := 0, fenced := true, open_ := [] } := by
        rw [fenceLink_lgtu _ l why on]
        exact Tab.at_upd_same ..
      exact ⟨_, step, congrArg Lgtu.fenced (out _), kept, fun _ => ⟨congrArg Lgtu.width (out _), fenceLink_raises _ l _ on⟩⟩
  · have step := linkTrained_down has serves none n [.blank f.ctx f.seq via]
    have unseen : trainingSeen s l x.width n = s := if_neg (by simp [State.linkInUse, fenced])
    rw [if_pos fenced, unseen, show resendLost s l [.blank f.ctx f.seq via] = resendBlank s l f.ctx f.seq via from rfl,
      resendBlank_of_held relaxed hasVia unfenced held] at step
    have apart : via ≠ l := fun same => by rw [same, fenced] at unfenced; cases unfenced
    refine ⟨_, step, congrArg (· ++ [Out.frame via _]) (countChatter_out _ c true), ?_, ?_, ?_, (execLinkTrained_kept l x n _ s).of_next step⟩
    · rw [resent_lgtu, Tab.at_upd_other _ _ apart.symm, Tab.at_upd_same]
      exact List.find?_eq_none.2 fun e mem => by simpa using (List.mem_filter.1 mem).2
    · rw [resent_lgtu, Tab.at_upd_same, Tab.at_upd_other _ _ apart]
      exact Lgtu.hold_find _ c { f with adaptive := true }
    · refine (congrArg (fun y : CtxSt => y.bar.chatter) (countChatter_own _ c true)).trans ?_
      exact congrArg (fun y : CtxSt => y.bar.chatter) (if_pos relaxed)
  · extract_lets i
    have has' : (s.onSpn (fun x => { x with linkSel := i })).hasLink l = true := has
    have step := exec_retrain carried src i
    rw [retrainCmd_eq has' serves] at step
    refine ⟨fun free => ?_, fun c loaded p plan uses => ?_⟩
    · rw [if_neg (by rw [show (s.onSpn _).routesUse l.val = s.routesUse l.val from rfl, routesUse_of_free free]; decide)] at step
      have cut := Serves.cutPatterns ((s.onSpn (fun x => { x with linkSel := i })).onSpn (fun x => { x with refused := false })) (fun p => p.unit = uLgtu l) 5
      refine ⟨_, step, ?_, ?_, ?_, ?_, (execRetrain_kept src _ s).of_next step⟩
      · rw [State.complete_out]
        exact List.mem_append_left _ (List.mem_append_right _ (List.mem_singleton.2 rfl))
      · rw [State.complete_spn]
        exact congrArg Spn.refused (congrArg State.spn cut.rest :)
      · rw [State.complete_spn]
        exact congrArg Spn.linkSel (congrArg State.spn cut.rest :)
      · rw [State.complete_lgtu]
        exact cut.lgtu
    · rw [if_pos (routesUse_of_uses (s := s.onSpn (fun x => { x with linkSel := i })) loaded plan uses)] at step
      refine ⟨_, step, ?_, ?_, ?_, (execRetrain_kept src _ s).of_next step⟩
      · rw [State.complete_spn]
        rfl
      · rw [State.complete_lgtu]
        rfl
      · intro sent
        cases src <;> simpa [completion] using sent

end Sys2Proof.Machine


namespace Sys2Proof.Machine

/-! # The always-on domain: the clock, the power-good inputs, the straps (R77 to R82, R458, R477) -/

/-! ## Moving to VS3 or VS4 (R476) -/

section

variable (s : State)

/-- What an engine about to enter VS3 or VS4 has ended: a drain whose contexts have stopped, the tests and the patterns. -/
def lowReady : State := cutPatterns (cutTestOf (if s.fst.state = .draining then endDrain s else s) (List.finRange 25)) (fun _ => true) 4

/-- POWER_STATE recorded, with the open record closed. -/
def lowRecorded (dest : Vs) (cause : BitVec 32) : State := recordMove (closeRecord (lowReady s)) dest cause

theorem lowReady_of_drained (t : State) (drained : t = if s.fst.state = .draining then endDrain s else s) : Serves t (lowReady s) := by
  unfold lowReady
  rw [← drained]
  exact (Serves.each .cutSelftest).trans (.cutPatterns _ _ _)

theorem Stops.lowReady : Stops s (lowReady s) := by
  refine .trans (.ite (fun _ => Stops.endDrain s) fun _ => .refl s) (lowReady_of_drained s _ rfl).stops

theorem endDrain_vs : (endDrain s).pwr.vs = s.pwr.vs := by
  unfold endDrain
  dsimp only
  rw [show ∀ t : State, ∀ f, (t.onFst f).pwr = t.pwr from fun _ _ => rfl, (Serves.each .leaveService).pwr, State.emit_pwr]
  rfl

theorem lowReady_vs : (lowReady s).pwr.vs = s.pwr.vs := by
  rw [(lowReady_of_drained s _ rfl).pwr]
  split
  · exact endDrain_vs s
  · rfl

theorem Appends.lowRecorded (dest : Vs) (cause : BitVec 32) : Appends s (lowRecorded s dest cause) :=
  (Stops.lowReady s).toAppends.trans ((Serves.closeRecord _).trans (.recordMove _ dest cause)).toAppends

theorem lowRecorded_moves (dest : Vs) (cause : BitVec 32) (moves : s.pwr.vs ≠ dest) :
    ∃ e ∈ (lowRecorded s dest cause).rcd.intake, e.code = 0xE006 ∧ e.p32 = cause := by
  unfold lowRecorded recordMove
  rw [if_neg (by rw [(Serves.closeRecord _).pwr, lowReady_vs]; exact moves)]
  exact ⟨_, State.emit_records _ _ rfl, rfl, rfl⟩

/-- The engine's values in VS3 or VS4, but for VX_ALIVE. -/
def lowRest (dest : Vs) : State :=
  (((clearEngine s (dest = .vs3)).onFst (fun f => { f with state := s.fst.state, cause := s.fst.cause })).onThm
    (fun x => { x with stopped := s.thm.stopped, m := if s.thm.stopped then 40 else 100 })).onPwr
    (fun w => { w with vs := dest, step := 7, path := s.pwr.path, bringUs := s.pwr.bringUs, early := s.pwr.early })

theorem lowRest_intake (dest : Vs) : (lowRest s dest).rcd.intake = s.rcd.intake ++ s.fst.faultQ := by
  dsimp only [lowRest, State.onPwr, State.onThm, State.onFst, clearEngine]

theorem lowRest_vs (dest : Vs) : (lowRest s dest).pwr.vs = dest := rfl

theorem lowRest_aon (dest : Vs) : (lowRest s dest).aon = s.aon := by
  dsimp only [lowRest, State.onPwr, State.onThm, State.onFst, clearEngine]

theorem lowRest_noPlan (dest : Vs) (c : Ctx) : ((lowRest s dest).ctx c).pass.st = .noPlan := by
  dsimp only [lowRest, State.onPwr, State.onThm, State.onFst, clearEngine, State.ctx, Tab.at]
  rw [Fin.getElem_fin, Vector.getElem_replicate]

variable (dest : Vs) (cause : BitVec 32)

theorem enterLow_eq : enterLow s dest cause = (lowRest (lowRecorded s dest cause) dest).setAon (fun a => { a with alive := a.sentinel && a.checks }) := by
  unfold enterLow lowRest lowRecorded lowReady
  dsimp only

theorem enterLow_intake : (enterLow s dest cause).rcd.intake = (lowRecorded s dest cause).rcd.intake ++ (lowRecorded s dest cause).fst.faultQ := by
  rw [enterLow_eq, State.setAon_rcd, lowRest_intake]

theorem enterLow_vs : (enterLow s dest cause).pwr.vs = dest := by
  rw [enterLow_eq, State.setAon_pwr, lowRest_vs]

theorem enterLow_aon : (enterLow s dest cause).aon = { s.aon with alive := s.aon.sentinel && s.aon.checks } := by
  have kept : (lowRecorded s dest cause).aon = s.aon :=
    ((Serves.closeRecord _).trans (.recordMove _ dest cause)).aon.trans (Stops.lowReady s).aon
  rw [enterLow_eq, State.setAon_aon, lowRest_aon, kept]

theorem enterLow_refOk : (enterLow s dest cause).aon.refOk = s.aon.refOk := by
  rw [enterLow_aon]

theorem enterLow_noPlan (c : Ctx) : ((enterLow s dest cause).ctx c).pass.st = .noPlan := by
  rw [enterLow_eq, State.setAon_ctx, lowRest_noPlan]

end

end Sys2Proof.Machine


namespace Sys2Proof.Machine

/-! # What a stop of one context changes -/

/-- A state but for the contexts and what is reported of them. -/
def State.butReports (s : State) : State :=
  { s with out := [], ctxs := Vector.replicate 32 {}, fst := { s.fst with faultQ := [], histQ := [] }, rcd := { s.rcd with intake := [] }
           irq := {}, pln := {} }

/-- From `s` to `t` one context has changed, and something has been reported. -/
structure Within (c : Ctx) (s t : State) : Prop where
  appends : Appends s t
  rest : t.butReports = s.butReports
  others : ∀ d, d ≠ c → t.ctx d = s.ctx d

variable {c : Ctx} {s t u : State}

theorem Within.refl (c : Ctx) (s : State) : Within c s s := ⟨.refl s, rfl, fun _ _ => rfl⟩

theorem Within.trans (h : Within c s t) (k : Within c t u) : Within c s u :=
  ⟨h.appends.trans k.appends, k.rest.trans h.rest, fun d other => (k.others d other).trans (h.others d other)⟩

theorem Within.each {α : Type} {f : State → α → State} {xs : List α} (step : ∀ t x, Within c t (f t x)) : Within c s (s.each xs f) :=
  State.each_induction (P := Within c s) (.refl c s) fun t x _ before => before.trans (step t x)

theorem Within.ite {p : Prop} [Decidable p] (yes : p → Within c s t) (no : ¬p → Within c s u) : Within c s (if p then t else u) := by
  split
  · next h => exact yes h
  · next h => exact no h

theorem Within.pwr (h : Within c s t) : t.pwr = s.pwr := (congrArg State.pwr h.rest :)
theorem Within.aon (h : Within c s t) : t.aon = s.aon := (congrArg State.aon h.rest :)
theorem Within.time (h : Within c s t) : t.time = s.time := (congrArg State.time h.rest :)

section

variable (c s)

theorem Within.onCtx (f : CtxSt → CtxSt) : Within c s (s.onCtx c f) := ⟨.onCtx s c f, rfl, fun _ other => State.onCtx_ctx_other s f other⟩

theorem Within.emit (e : Ev) : Within c s (s.emit e) where
  appends := .emit s e
  rest := by unfold State.emit; split <;> rfl
  others d _ := State.emit_ctx s e d

theorem Within.histPut (e : HistEntry) : Within c s (s.histPut e) := ⟨.histPut s e, rfl, fun _ _ => rfl⟩
theorem Within.notifyPass (d : Ctx) : Within c s (s.notifyPass d) := ⟨.notifyPass s d, rfl, fun _ _ => rfl⟩
theorem Within.irqSet (m : BitVec 8) : Within c s (s.irqSet m) := ⟨.irqSet s m, rfl, fun _ _ => rfl⟩
theorem Within.sendCtl (d : Dest) (x : Ctl) : Within c s (s.sendCtl d x) := ⟨.sendCtl s d x, rfl, fun _ _ => rfl⟩
theorem Within.onPln (f : Pln → Pln) : Within c s (s.onPln f) := ⟨.of_same rfl rfl rfl rfl, rfl, fun _ _ => rfl⟩

theorem Within.histCatch (d : Ctx) (k : OpenCatch) (act : HistAct) (event : BitVec 16) (sliceAct : HistAct) :
    Within c s (histCatch s d k act event sliceAct) := by
  unfold Machine.histCatch
  dsimp only
  split
  · exact (Within.histPut c s _).trans (.histPut c _ _)
  · exact .histPut c s _

/-! ## A context enters STOPPED (R248) -/

theorem Within.leaveUndecided : Within c s (leaveUndecided s c) := by
  unfold Machine.leaveUndecided
  exact .each fun t k => .ite (fun _ => .refl c t) fun _ => (Within.emit c _ _).trans (.histCatch c ..)

theorem Within.stopRegisters (event : BitVec 16) : Within c s (stopRegisters s c event) :=
  ((Within.onCtx c s _).trans (.onCtx c _ _)).trans ((Within.onCtx c _ _).trans (.onCtx c _ _))

theorem Within.endStall : Within c s (endStall s c) := by
  unfold Machine.endStall
  exact .ite (fun _ => (Within.onCtx c _ _).trans (.emit c _ _)) fun _ => .refl c s

theorem Within.tellPartner : Within c s (tellPartner s c) := by
  unfold Machine.tellPartner
  split
  · exact .sendCtl c ..
  · exact .refl c s

theorem Within.stopEffects (event : BitVec 16) : Within c s (stopEffects s c event) :=
  (Within.leaveUndecided c s).trans ((Within.stopRegisters c _ event).trans
    ((Within.endStall c _).trans ((Within.notifyPass c _ c).trans (.tellPartner c _))))

/-! ## A load ends (R79, R322) -/

theorem Within.loadOutcome (outcome : BitVec 2) (event : BitVec 16) (atApp : Bool) (cause : BitVec 8) (cls : BitVec 4)
    (index : BitVec 16) (conflict : BitVec 8) : Within c s (loadOutcome s c outcome event atApp cause cls index conflict) :=
  (Within.onCtx c s _).trans (.irqSet c _ _)

theorem Within.discardLoad : Within c s (discardLoad s c) := by
  unfold Machine.discardLoad
  exact (Within.onCtx c s _).trans ((Within.onPln c _ _).trans ((Within.loadOutcome c _ ..).trans (.emit c _ _)))

theorem Within.planApplied : Within c s (planApplied s c) := by
  unfold Machine.planApplied
  exact (Within.onCtx c s _).trans ((Within.loadOutcome c _ ..).trans (.emit c _ _))

theorem Within.endLoad : Within c s (endLoad s c) := by
  unfold Machine.endLoad
  split
  case h_5 => exact .ite (fun _ => .planApplied c s) fun _ => .discardLoad c s
  case h_6 | h_7 => exact .refl c s
  all_goals exact .discardLoad c s

end

@[simp] theorem State.irqSet_ctx (s : State) (m : BitVec 8) (d : Ctx) : (s.irqSet m).ctx d = s.ctx d := rfl

/-- A context but for the load of a plan. -/
def CtxSt.butLoad (x : CtxSt) : CtxSt := { x with plan := { active := x.plan.active } }

theorem discardLoad_butLoad (s : State) (c : Ctx) : ((discardLoad s c).ctx c).butLoad = (s.ctx c).butLoad := by
  simp [discardLoad, loadOutcome, CtxSt.butLoad]

theorem planApplied_butLoad (s : State) (c : Ctx) : ((planApplied s c).ctx c).butLoad = (s.ctx c).butLoad := by
  simp [planApplied, loadOutcome, CtxSt.butLoad]

theorem endLoad_butLoad (s : State) (c d : Ctx) : ((endLoad s c).ctx d).butLoad = (s.ctx d).butLoad := by
  by_cases same : d = c
  · subst same
    unfold endLoad
    split
    case h_5 =>
      split
      · exact planApplied_butLoad s d
      · exact discardLoad_butLoad s d
    case h_6 | h_7 => rfl
    all_goals exact discardLoad_butLoad s d
  · rw [(Within.endLoad c s).others d same]

/-! ## ABORT_STOP to every context, while one of them decides (R79, R249) -/

/-- A context with a plan decides an execution. -/
def State.AtWork (s : State) (c : Ctx) : Prop := s.deciding c = true ∧ (s.ctx c).pass.st ≠ .noPlan ∧ (s.ctx c).pass.st ≠ .stopped

/-- A context whose execution an ABORT_STOP aborts: it decides still, with an abort cause and a stop to come. -/
structure AbortStopped (ev : BitVec 16) (unit : UnitId) (x y : CtxSt) : Prop where
  cause : y.exec.cause = some (x.exec.cause.getD { reason := 7, unit })
  stopAfter : y.exec.stopAfter = some (x.exec.stopAfter.getD ev)
  state : y.pass.st = x.pass.st

theorem State.AtWork.of_ctx {s t : State} {c : Ctx} (h : s.AtWork c) (same : t.ctx c = s.ctx c) : t.AtWork c := by
  unfold State.AtWork State.deciding at *
  rwa [same]

theorem State.AtWork.unstopped {s : State} {c : Ctx} (h : s.AtWork c) : s.allStopped = false := by
  obtain ⟨-, noPlan, stopped⟩ := h
  exact List.all_eq_false.2 ⟨c, List.mem_finRange c, by simp [noPlan, stopped]⟩

theorem afterStop_of_unstopped {s : State} (unstopped : s.allStopped = false) : afterStop s = s := if_pos (by simp [unstopped])

theorem abortStopCtx_of_atWork {s : State} {c : Ctx} (h : s.AtWork c) (ev : BitVec 16) : abortStopCtx s c ev =
    noteCause (s.onExec c (fun e => { e with stopAfter := e.stopAfter <|> some ev })) c 7 (s.commitUnit c) := if_pos h

theorem Within.abortStopCtx {s : State} {d : Ctx} (busy : s.AtWork d) (c : Ctx) (ev : BitVec 16) : Within c s (abortStopCtx s c ev) := by
  by_cases works : s.AtWork c
  · rw [abortStopCtx_of_atWork works]
    exact (Within.onCtx c s _).trans (.onCtx c _ _)
  · have apart : d ≠ c := fun same => works (same ▸ busy)
    have entered : Within c s (enterStopped s c ev) := by
      have effects := Within.stopEffects c s ev
      rw [enterStopped_eq, afterStop_of_unstopped (busy.of_ctx (effects.others d apart)).unstopped]
      exact effects
    rw [show Machine.abortStopCtx s c ev = Machine.stopCtx s c ev from if_neg works]
    unfold Machine.stopCtx
    split
    case h_1 | h_2 => exact .refl c s
    case h_3 => exact .onCtx c s _
    all_goals exact .ite (fun _ => .onCtx c s _) fun _ => entered

theorem abortStopCtx_aborts {s : State} {c : Ctx} (h : s.AtWork c) (ev : BitVec 16) :
    (abortStopCtx s c ev).AtWork c ∧ AbortStopped ev (s.commitUnit c) (s.ctx c) ((abortStopCtx s c ev).ctx c) := by
  have step : ∀ x, ((abortStopCtx s c ev).ctx c) = x → x.pass = (s.ctx c).pass ∧ x.exec.injected = (s.ctx c).exec.injected ∧
      x.exec.cause = some ((s.ctx c).exec.cause.getD { reason := 7, unit := s.commitUnit c }) ∧
      x.exec.stopAfter = some ((s.ctx c).exec.stopAfter.getD ev) := by
    rintro x rfl
    rw [abortStopCtx_of_atWork h]
    cases known : (s.ctx c).exec.cause <;> cases due : (s.ctx c).exec.stopAfter <;> simp [noteCause, known, due]
  obtain ⟨pass, injected, cause, stopAfter⟩ := step _ rfl
  refine ⟨?_, cause, stopAfter, by rw [pass]⟩
  unfold State.AtWork State.deciding at *
  rwa [pass, injected]

/-- ABORT_STOP to a list of contexts while one decides: no stop of the engine follows, and those that decide are aborted. -/
theorem each_abortStopCtx (ev : BitVec 16) (d : Ctx) (xs : List Ctx) (once : xs.Nodup) (s : State) (busy : s.AtWork d) :
    let t := s.each xs (fun s c => abortStopCtx s c ev)
    Appends s t ∧ t.butReports = s.butReports ∧ t.AtWork d ∧
    ∀ c, s.AtWork c → (c ∉ xs → t.ctx c = s.ctx c) ∧ (c ∈ xs → AbortStopped ev (s.commitUnit c) (s.ctx c) (t.ctx c)) := by
  induction xs generalizing s with
  | nil => exact ⟨.refl s, rfl, busy, fun c _ => ⟨fun _ => rfl, fun mem => nomatch mem⟩⟩
  | cons x xs ih =>
    obtain ⟨fresh, once⟩ := List.nodup_cons.1 once
    have step := Within.abortStopCtx busy x ev
    have still (c : Ctx) (h : s.AtWork c) : (abortStopCtx s x ev).AtWork c := by
      by_cases same : c = x
      · subst same
        exact (abortStopCtx_aborts h ev).1
      · exact h.of_ctx (step.others c same)
    obtain ⟨appends, rest, works, each⟩ := ih once (abortStopCtx s x ev) (still d busy)
    rw [State.each_cons]
    refine ⟨step.appends.trans appends, rest.trans step.rest, works, fun c h => ?_⟩
    obtain ⟨out, done⟩ := each c (still c h)
    by_cases same : c = x
    · subst same
      refine ⟨fun absent => absurd (List.mem_cons_self ..) absent, fun _ => ?_⟩
      rw [out fresh]
      exact (abortStopCtx_aborts h ev).2
    · have before := step.others c same
      have unit : (abortStopCtx s x ev).commitUnit c = s.commitUnit c := by
        unfold State.commitUnit State.home State.planOf
        rw [before]
      rw [before, unit] at done
      rw [before] at out
      exact ⟨fun absent => out fun mem => absent (List.mem_cons_of_mem _ mem), fun mem => done ((List.mem_cons.1 mem).resolve_left same)⟩

end Sys2Proof.Machine


namespace Sys2Proof.Machine

/-! # Straps, Sentinel start, I3C bus, reference clock and power-good inputs (R73, R77, R79, R81, R82, R458, R477) -/

/-! ## What stops leave of the reference clock -/

theorem afterStop_refOk (s : State) : (afterStop s).aon.refOk = s.aon.refOk := by
  unfold afterStop
  split
  · rfl
  · have drained : Stops s (if s.fst.state = .draining then endDrain s else s) := .ite (fun _ => .endDrain s) fun _ => .refl s
    extract_lets t u
    have moved : Stops s u := .ite (fun _ => drained.trans ((Stops.moveWithin _ _ _).trans (.send _ _))) fun _ => drained
    split
    · rw [enterLow_refOk]
      exact congrArg Aon.refOk moved.aon
    · exact congrArg Aon.refOk moved.aon

theorem enterStopped_refOk (s : State) (c : Ctx) (ev : BitVec 16) : (enterStopped s c ev).aon.refOk = s.aon.refOk := by
  rw [enterStopped_eq, afterStop_refOk]
  exact (Within.stopEffects c s ev).appends.refOk

theorem stopCtx_refOk (s : State) (c : Ctx) (ev : BitVec 16) : (stopCtx s c ev).aon.refOk = s.aon.refOk := by
  unfold stopCtx
  split
  case h_1 | h_2 | h_3 => rfl
  all_goals
    split
    · rfl
    · exact enterStopped_refOk s c ev

theorem abortStopCtx_refOk (s : State) (c : Ctx) (ev : BitVec 16) : (abortStopCtx s c ev).aon.refOk = s.aon.refOk := by
  unfold abortStopCtx
  split
  · rfl
  · exact stopCtx_refOk s c ev

theorem State.each_same {α : Type} {s : State} {f : State → α → State} {xs : List α} (same : ∀ x ∈ xs, f s x = s) : s.each xs f = s := by
  induction xs with
  | nil => rfl
  | cons x xs ih =>
    rw [State.each_cons, same x (List.mem_cons_self ..)]
    exact ih fun y mem => same y (List.mem_cons_of_mem _ mem)

/-! ## The loss of the reference clock in VS0 to VS2 (R79) -/

/-- Every load ends (R322): the contexts are as they were but for their loads. -/
theorem each_endLoad (s : State) (xs : List Ctx) : Appends s (s.each xs endLoad) ∧ (s.each xs endLoad).butReports = s.butReports ∧
    ∀ d, ((s.each xs endLoad).ctx d).butLoad = (s.ctx d).butLoad :=
  State.each_induction (P := fun t => Appends s t ∧ t.butReports = s.butReports ∧ ∀ d, (t.ctx d).butLoad = (s.ctx d).butLoad)
    ⟨.refl s, rfl, fun _ => rfl⟩ fun t x _ ⟨appends, rest, loads⟩ =>
      ⟨appends.trans (Within.endLoad x t).appends, (Within.endLoad x t).rest.trans rest, fun d => (endLoad_butLoad t x d).trans (loads d)⟩

/-- The fault of the clock qualifier. -/
def clockLossEvent (cls : Cls) : Ev := { code := 0x0004, cls, unit := uClock }

/-- The clock gone: REFCLK_OK reads 0, and the fault waits. -/
def clockGone (s : State) (cls : Cls) : State := (s.setAon (fun a => { a with refOk := false })).emitOpen (clockLossEvent cls)

theorem clockGone_fault (s : State) {cls : Cls} (fault : cls ≠ .record) :
    clockGone s cls = { s.setAon (fun a => { a with refOk := false }) with
      free := s.free + 1
      fst := { s.fst with faultQ := s.fst.faultQ ++ [(s.setAon (fun a => { a with refOk := false })).openEvent (clockLossEvent cls)] } } := by
  unfold clockGone
  rw [State.emitOpen_fault _ (by exact fault), State.setAon_free, State.setAon_fst]

/-- The loads ended and every context stopped (R79). -/
def clockStops (s : State) : State :=
  ((clockGone s .u).each allCtx endLoad).each ((clockGone s .u).each allCtx endLoad).loadedCtxs (fun s c => abortStopCtx s c 0x0004)

theorem refclkFallback_main {s : State} (valid : s.aon.valid = true) (on : s.aon.refOk = true) (high : s.pwr.vs.code ≤ 2) (step : 3 ≤ s.pwr.step.toNat) :
    exec .refclkFallback s = .next (if (clockStops s).pwr.vs.code ≤ 2 ∧ (clockStops s).allStopped then enterLow (clockStops s) .vs4 5 else clockStops s) := by
  show execRefclkFallback s = _
  unfold execRefclkFallback
  rw [if_neg (by simp [valid, on]), show (decide (s.pwr.vs.code ≤ 2) && decide (3 ≤ s.pwr.step.toNat)) = true by simp [high, step]]
  unfold clockStops clockGone clockLossEvent
  dsimp only
  rw [if_pos rfl, if_pos rfl]

theorem refclkFallback_low {s : State} (valid : s.aon.valid = true) (on : s.aon.refOk = true) (low : ¬ (s.pwr.vs.code ≤ 2 ∧ 3 ≤ s.pwr.step.toNat)) :
    exec .refclkFallback s = .next (clockGone s .c) := by
  show execRefclkFallback s = _
  unfold execRefclkFallback
  rw [if_neg (by simp [valid, on]), show (decide (s.pwr.vs.code ≤ 2) && decide (3 ≤ s.pwr.step.toNat)) = false by simpa using low]
  unfold clockGone clockLossEvent
  exact if_neg Bool.false_ne_true

theorem clockStops_refOk (s : State) : (clockStops s).aon.refOk = false := by
  have gone : (clockGone s .u).aon.refOk = false := by
    rw [clockGone, State.emitOpen_aon, State.setAon_aon]
  unfold clockStops
  rw [State.each_field (f := fun s c => abortStopCtx s c 0x0004) (fun t => t.aon.refOk) (fun t c => abortStopCtx_refOk t c _), (each_endLoad _ _).1.refOk, gone]

theorem State.deciding_of_butLoad {s t : State} {c : Ctx} (same : (t.ctx c).butLoad = (s.ctx c).butLoad) : t.deciding c = s.deciding c := by
  have pass := congrArg CtxSt.pass same
  have exec := congrArg CtxSt.exec same
  unfold State.deciding
  rw [show (t.ctx c).pass = (s.ctx c).pass from pass, show (t.ctx c).exec = (s.ctx c).exec from exec]

theorem CtxSt.pass_of_butLoad {x y : CtxSt} (h : x.butLoad = y.butLoad) : x.pass = y.pass := (congrArg CtxSt.pass h :)

theorem CtxSt.exec_of_butLoad {x y : CtxSt} (h : x.butLoad = y.butLoad) : x.exec = y.exec := (congrArg CtxSt.exec h :)

theorem CtxSt.active_of_butLoad {x y : CtxSt} (h : x.butLoad = y.butLoad) : x.plan.active = y.plan.active :=
  (congrArg (fun z : CtxSt => z.plan.active) h :)

theorem mem_allCtx (c : Ctx) : c ∈ allCtx := List.mem_finRange c

theorem State.pwr_of_butReports {s t : State} (h : t.butReports = s.butReports) : t.pwr = s.pwr := (congrArg State.pwr h :)

theorem loadedCtxs_nodup (s : State) : s.loadedCtxs.Nodup := List.Pairwise.filter _ (List.nodup_finRange 32)

/-- The fault as it waits. -/
def clockFault (s : State) (cls : Cls) : Ev := (s.setAon (fun a => { a with refOk := false })).openEvent (clockLossEvent cls)

theorem clockFault_waits (s : State) : clockFault s .u ∈ (clockGone s .u).fst.faultQ := by
  rw [clockGone_fault s (cls := .u) (by decide)]
  exact List.mem_append_right _ (List.mem_singleton.2 rfl)

theorem clockGone_ctx (s : State) (cls : Cls) (c : Ctx) : (clockGone s cls).ctx c = s.ctx c := by
  rw [clockGone, State.emitOpen_ctx, State.setAon_ctx]

/-- With a context that decides: the engine goes on, the fault waits, and every such context is aborted with a stop to come. -/
theorem clockStops_deciding {s : State} {d : Ctx} (busy : s.AtWork d) :
    (clockStops s).allStopped = false ∧ (clockStops s).pwr = s.pwr ∧ clockFault s .u ∈ (clockStops s).fst.faultQ ∧
    ∀ c, s.AtWork c → AbortStopped 0x0004 (s.commitUnit c) (s.ctx c) ((clockStops s).ctx c) := by
  obtain ⟨appends, rest, loads⟩ := each_endLoad (clockGone s .u) allCtx
  simp only [clockGone_ctx] at loads
  unfold clockStops
  generalize (clockGone s .u).each allCtx endLoad = t at appends rest loads ⊢
  have works {c : Ctx} (h : s.AtWork c) : t.AtWork c := by
    unfold State.AtWork at *
    rwa [State.deciding_of_butLoad (loads c), CtxSt.pass_of_butLoad (loads c)]
  obtain ⟨stops, rest', still, each⟩ := each_abortStopCtx 0x0004 d _ (loadedCtxs_nodup t) t (works busy)
  refine ⟨still.unstopped, ?_, stops.faultQ (appends.faultQ (clockFault_waits s)), fun c h => ?_⟩
  · rw [State.pwr_of_butReports (rest'.trans rest), clockGone, State.emitOpen_pwr, State.setAon_pwr]
  · obtain ⟨-, noPlan, -⟩ := works h
    obtain ⟨cause, stopAfter, state⟩ := (each c (works h)).2 (List.mem_filter.2 ⟨mem_allCtx c, by simpa [State.hasPlan] using noPlan⟩)
    have unit : t.commitUnit c = s.commitUnit c := by
      unfold State.commitUnit State.home State.planOf
      rw [CtxSt.active_of_butLoad (loads c)]
    rw [CtxSt.exec_of_butLoad (loads c), unit] at cause
    rw [CtxSt.exec_of_butLoad (loads c)] at stopAfter
    rw [CtxSt.pass_of_butLoad (loads c)] at state
    exact ⟨cause, stopAfter, state⟩

/-- With every context stopped nothing more stops. -/
theorem clockStops_stopped {s : State} (stopped : s.allStopped = true) :
    (clockStops s).allStopped = true ∧ (clockStops s).pwr = s.pwr ∧ clockFault s .u ∈ (clockStops s).fst.faultQ := by
  obtain ⟨appends, rest, loads⟩ := each_endLoad (clockGone s .u) allCtx
  simp only [clockGone_ctx] at loads
  unfold clockStops
  generalize (clockGone s .u).each allCtx endLoad = t at appends rest loads ⊢
  have ends (c : Ctx) : (s.ctx c).pass.st = .stopped ∨ (s.ctx c).pass.st = .noPlan := by
    simpa using List.all_eq_true.1 stopped c (mem_allCtx c)
  have same : t.each t.loadedCtxs (fun s c => abortStopCtx s c 0x0004) = t := by
    refine State.each_same fun c _ => ?_
    unfold abortStopCtx
    rw [CtxSt.pass_of_butLoad (loads c), if_neg (by rcases ends c with h | h <;> simp [h])]
    unfold stopCtx
    rw [CtxSt.pass_of_butLoad (loads c)]
    rcases ends c with h | h <;> rw [h]
  rw [same]
  refine ⟨?_, ?_, appends.faultQ (clockFault_waits s)⟩
  · unfold State.allStopped
    simp only [CtxSt.pass_of_butLoad (loads _)]
    exact stopped
  · rw [State.pwr_of_butReports rest, clockGone, State.emitOpen_pwr, State.setAon_pwr]

/-! ## The obligations -/

theorem setAon_refOk_irq (s : State) (v : Bool) (changes : s.aon.refOk ≠ v) : s.setAon (fun a => { a with refOk := v }) =
    { s with aon := { s.aon with refOk := v }, irq := { s.irq with status := s.irq.status ||| 0x80 }
             out := s.out ++ msixFor (0x80 &&& ~~~s.irq.status &&& s.irq.enable) } :=
  State.setAon_of_changed s (by simp [Aon.watched, Ne.symm changes])

/-- SENTINEL_READY for the first time (R77, R458): the supervisor's check known, VX_ALIVE following it, the flash tried. -/
def sentinelUp (s : State) (checks : Bool) : State :=
  flashAnswers ((s.setAon (fun a => { a with checks })).setAon (fun a => { a with sentinel := true, alive := checks }))

/-- The record of a trip that ended with VDD_AON: source 3. -/
def tripEnded : Ev := { code := 0x8008, unit := uThm, p16 := 3, p32 := 0x8000 }

/-- The trip that ended with VDD_AON is recorded as released (R80). -/
def tripReleased (s : State) : State := (s.onPwr (fun w => { w with tripLost := false })).emit tripEnded

theorem sentinelReady_first {s : State} (valid : s.aon.valid = true) (starts : s.aon.sentinel = false) (checks : Bool) :
    exec (.sentinelReady checks) s = .next (if s.pwr.tripLost = true then tripReleased (sentinelUp s checks) else sentinelUp s checks) := by
  show execSentinelReady s checks = _
  unfold execSentinelReady
  dsimp only
  rw [State.setAon_aon, if_neg (by simp [valid]), if_neg (by simp [starts])]
  have lost : (sentinelUp s checks).pwr = s.pwr := by
    unfold sentinelUp flashAnswers
    rw [State.onRec_pwr, State.setAon_pwr, State.setAon_pwr]
  unfold sentinelUp at lost ⊢
  rw [lost]
  split <;> rfl

theorem sentinelReady_again {s : State} (valid : s.aon.valid = true) (works : s.aon.sentinel = true) (checks : Bool) :
    exec (.sentinelReady checks) s = .next (if s.pwr.vs = .vs3 ∨ s.pwr.vs = .vs4 then (s.setAon (fun a => { a with checks })).setAon (fun a => { a with alive := checks })
      else s.setAon (fun a => { a with checks })) := by
  show execSentinelReady s checks = _
  unfold execSentinelReady
  dsimp only
  rw [State.setAon_aon, if_neg (by simp [valid]), if_pos works, State.setAon_pwr]
  cases s.pwr.vs <;> rfl

theorem setAon_checks (s : State) (checks : Bool) : s.setAon (fun a => { a with checks }) = { s with aon := { s.aon with checks } } :=
  State.setAon_of_same s rfl

theorem sentinelUp_fields (s : State) (checks : Bool) : (sentinelUp s checks).aon = { s.aon with sentinel := true, alive := checks, checks } ∧
    (sentinelUp s checks).fst = s.fst ∧ (sentinelUp s checks).ctxs = s.ctxs ∧ (sentinelUp s checks).rcd.intake = s.rcd.intake ∧
    (sentinelUp s checks).irq.status = (if s.aon.alive = checks then s.irq.status else s.irq.status ||| 0x80) ∧ (sentinelUp s checks).rcd.flashOk = true := by
  unfold sentinelUp flashAnswers
  rw [setAon_checks]
  refine ⟨by simp, by simp, by simp, by simp, ?_, rfl⟩
  rw [State.onRec_irq, State.setAon_irqStatus]
  simp [Aon.watched, eq_comm]

theorem refclkRestored {s : State} (valid : s.aon.valid = true) : exec .refclkRestored s = .next (s.setAon (fun a => { a with refOk := true })) :=
  congrArg Host.Outcome.next (if_pos valid)

/-- Settles O7: each input of the always-on domain by its own rule; the loss of the reference clock by what the contexts decide. -/
theorem strapsSentinelBusAndReferenceClock : Obligations.StrapsSentinelBusAndReferenceClock := by
  unfold Obligations.StrapsSentinelBusAndReferenceClock
  refine ⟨fun s pins valid fresh => ?_, fun s pins sampled => ?_, fun s checks valid starts => ?_, fun s checks valid works => ?_, fun s valid => ?_,
    fun s => rfl, fun s addr up => ?_, fun s static addr up => ?_, fun s how down => ?_, fun s valid on low => ?_, fun s valid off => ?_,
    fun s valid on high step => ?_⟩
  · exact congrArg Host.Outcome.next (if_pos (by simp [valid, fresh]))
  · exact congrArg Host.Outcome.next (if_neg (by simp [sampled]))
  · have run := sentinelReady_first valid starts checks
    obtain ⟨aon, fst, ctxs, intake, irq, flash⟩ := sentinelUp_fields s checks
    have kept := (execSentinelReady_kept s checks).of_next run
    by_cases lost : s.pwr.tripLost = true
    · rw [if_pos lost] at run kept
      refine ⟨_, run, ?_, ?_, ?_, kept, ?_, ?_, ?_, fun held => ?_, fun _ => ⟨(sentinelUp s checks).stamp tripEnded, ?_, rfl, rfl⟩⟩
      · exact (State.emit_aon ..).trans aon
      · rw [tripReleased, State.emit_record _ rfl]
        exact flash
      · rw [tripReleased, State.emit_pwr]
        rfl
      · rw [tripReleased, State.emit_record _ rfl]
        exact fst
      · exact (State.emit_ctxs ..).trans ctxs
      · rw [tripReleased, State.emit_irq]
        exact irq
      · rw [lost] at held
        cases held
      · rw [tripReleased, State.emit_record _ rfl, ← intake]
        rfl
    · rw [if_neg lost] at run kept
      have off : (sentinelUp s checks).pwr = s.pwr := by simp [sentinelUp, flashAnswers]
      exact ⟨_, run, aon, flash, by rw [off]; simpa using lost, kept, fst, ctxs, irq, fun _ => intake, fun held => absurd held lost⟩
  · have run := sentinelReady_again valid works checks
    have kept := (execSentinelReady_kept s checks).of_next run
    have irq (t : State) : (t.setAon (fun a => { a with alive := checks })).irq.status = if checks = t.aon.alive then t.irq.status else t.irq.status ||| 0x80 := by
      rw [State.setAon_irqStatus]
      simp [Aon.watched]
    by_cases low : s.pwr.vs = .vs3 ∨ s.pwr.vs = .vs4
    · rw [if_pos low, setAon_checks] at run kept
      exact ⟨_, run, by simp [low], by rw [irq]; simp, by simp, by simp, by simp, kept⟩
    · rw [if_neg low, setAon_checks] at run kept
      exact ⟨_, run, by simp [low], by simp, rfl, rfl, rfl, kept⟩
  · exact congrArg Host.Outcome.next (if_pos valid)
  · exact if_neg (by simp [up])
  · refine (if_neg (by simp [up])).trans (congrArg Host.Outcome.next ?_)
    split <;> rfl
  · exact if_pos (by simp [down])
  · have lower : ¬ (s.pwr.vs.code ≤ 2 ∧ 3 ≤ s.pwr.step.toNat) := by
      rcases low with low | low | low
      · simp [low, Vs.code]
      · simp [low, Vs.code]
      · omega
    refine ⟨_, clockFault s .c, (refclkFallback_low valid on lower).trans (congrArg Host.Outcome.next (clockGone_fault s (cls := .c) (by decide))), rfl, rfl, rfl, ?_⟩
    unfold clockFault
    rw [setAon_refOk_irq s false (by simp [on])]
  · exact (refclkRestored valid).trans (congrArg Host.Outcome.next (setAon_refOk_irq s true (by simp [off])))
  · have run := refclkFallback_main valid on high step
    have kept := (execRefclkFallback_kept s).of_next run
    refine ⟨_, clockFault s .u, run, ?_, ?_, ?_, rfl, rfl, rfl, fun ⟨d, decides, plan, runs⟩ => ?_, fun stopped => ?_⟩
    · split
      · rw [enterLow_refOk, clockStops_refOk]
      · exact clockStops_refOk s
    · exact mem_of_kept kept
    · exact tags_of_kept kept
    · obtain ⟨unstopped, pwr, waits, each⟩ := clockStops_deciding (s := s) (d := d) ⟨decides, by simpa [State.hasPlan] using plan, runs⟩
      rw [if_neg (by simp [unstopped])]
      refine ⟨by rw [pwr], waits, fun c decides plan runs => ?_⟩
      obtain ⟨cause, stopAfter, -⟩ := each c ⟨decides, by simpa [State.hasPlan] using plan, runs⟩
      exact ⟨cause, stopAfter⟩
    · obtain ⟨still, pwr, waits⟩ := clockStops_stopped stopped
      rw [if_pos ⟨by rw [pwr]; exact high, still⟩]
      refine ⟨enterLow_vs .., ?_, ?_⟩
      · rw [enterLow_intake]
        exact List.mem_append_right _ ((Appends.lowRecorded _ _ _).faultQ waits)
      · obtain ⟨r, recorded, is⟩ := lowRecorded_moves (clockStops s) .vs4 5 (by rw [pwr]; intro low; rw [low] at high; simp [Vs.code] at high)
        exact ⟨r, by rw [enterLow_intake]; exact List.mem_append_left _ recorded, is⟩

/-! ## The power-good inputs (R82, R477) -/

/-- POWER_LOSS, with the inputs that fell. -/
def lossEvent (main mem io : Bool) : Ev := { code := 0xE007, unit := uPwr, p16 := BitVec.ofNat 16 (b2n main + 2 * b2n mem + 4 * b2n io) }

/-- The inputs have fallen and the loss is recorded. -/
def lossSeen (s : State) (main mem io : Bool) : State := (s.setAon (fun x => x.fall main mem io)).emit (lossEvent main mem io)

/-- The engine in VS4 after the loss. -/
def lossLow (s : State) (main mem io : Bool) : State :=
  if (lossSeen s main mem io).pwr.vs = .vs4 then lossSeen s main mem io else enterLow (lossSeen s main mem io) .vs4 3

/-- What the loss ends besides: the row controllers' substitutions, the bring-up and a reset of the whole engine. -/
def lossEnds (s : State) : State :=
  (s.onShd (fun x => { x with rows := x.rows.mapAll (fun _ _ => {}) })).onPwr (fun w => { w with step := 7, lossVs4 := true, cleanDown := false, whole := none })

theorem lossEnds_fields (s : State) : (lossEnds s).pwr.vs = s.pwr.vs ∧ (lossEnds s).pwr.lossVs4 = true ∧ (lossEnds s).aon = s.aon ∧
    (lossEnds s).ctxs = s.ctxs ∧ (lossEnds s).rcd = s.rcd := by
  dsimp only [lossEnds, State.onShd, State.onPwr]
  exact ⟨rfl, rfl, rfl, rfl, rfl⟩

theorem powerLoss_works {s : State} {main mem io : Bool} (valid : s.aon.valid = true) (works : s.aon.sentinel = true) (falls : (main || mem || io) = true) :
    exec (.powerLoss main mem io) s = .next (lossEnds (lossLow s main mem io)) := by
  show execPowerLoss main mem io s = _
  unfold execPowerLoss
  rw [if_neg (by simp [valid, falls]), if_neg (by simp [works])]
  rfl

theorem lossSeen_aon (s : State) (main mem io : Bool) : (lossSeen s main mem io).aon = s.aon.fall main mem io := by
  rw [lossSeen, State.emit_aon, State.setAon_aon]

theorem lossSeen_vs (s : State) (main mem io : Bool) : (lossSeen s main mem io).pwr.vs = s.pwr.vs := by
  rw [lossSeen, State.emit_pwr, State.setAon_pwr]

theorem lossLow_vs (s : State) (main mem io : Bool) : (lossLow s main mem io).pwr.vs = .vs4 := by
  unfold lossLow
  split
  · next low => exact low
  · exact enterLow_vs ..

theorem lossLow_levels (s : State) (main mem io : Bool) : (lossLow s main mem io).aon.pgMain = (s.aon.pgMain && !main) ∧
    (lossLow s main mem io).aon.pgMem = (s.aon.pgMem && !mem) ∧ (lossLow s main mem io).aon.pgIo = (s.aon.pgIo && !io) := by
  unfold lossLow
  split
  · rw [lossSeen_aon]
    exact ⟨rfl, rfl, rfl⟩
  · rw [enterLow_aon, lossSeen_aon]
    exact ⟨rfl, rfl, rfl⟩

theorem lossLow_records (s : State) (main mem io : Bool) : (s.setAon (fun x => x.fall main mem io)).stamp (lossEvent main mem io) ∈ (lossLow s main mem io).rcd.intake := by
  have recorded : (s.setAon (fun x => x.fall main mem io)).stamp (lossEvent main mem io) ∈ (lossSeen s main mem io).rcd.intake := State.emit_records _ _ rfl
  unfold lossLow
  split
  · exact recorded
  · rw [enterLow_intake]
    exact List.mem_append_left _ ((Appends.lowRecorded _ _ _).intake recorded)

theorem lossLow_noPlan {s : State} {main mem io : Bool} (high : s.pwr.vs ≠ .vs4) (c : Ctx) : ((lossLow s main mem io).ctx c).pass.st = .noPlan := by
  unfold lossLow
  rw [if_neg (by rw [lossSeen_vs]; exact high), enterLow_noPlan]

/-- The levels of the power-good inputs after some have risen. -/
def Aon.rise (a : Aon) (main mem io : Bool) : Aon := { a with pgMain := a.pgMain || main, pgMem := a.pgMem || mem, pgIo := a.pgIo || io }

theorem powerGoodReturn_valid {s : State} {main mem io : Bool} (valid : s.aon.valid = true) : exec (.powerGoodReturn main mem io) s =
    .next (if (main && mem && io) = true then returnFromLoss (s.setAon (fun a => a.rise main mem io)) else s.setAon (fun a => a.rise main mem io)) :=
  if_pos valid

theorem beginBringup_stays (s : State) (cause : BitVec 32) : (beginBringup s cause).aon = s.aon ∧ (beginBringup s cause).ctxs = s.ctxs := by
  dsimp only [beginBringup, State.onPwr, State.onThm]
  exact ⟨State.emit_aon .., State.emit_ctxs ..⟩

theorem returnFromLoss_of_held {s : State} (held : s.pwr.lossVs4 = false ∨ s.aon.trip = true) : returnFromLoss s = s :=
  if_neg fun ⟨loss, _, _, _, _, free⟩ => by rcases held with held | held <;> simp_all

/-- Settles O8: the loss records what fell and moves to VS4, the return begins bring-up where nothing holds it. -/
theorem powerGoodInputs : Obligations.PowerGoodInputs := by
  unfold Obligations.PowerGoodInputs
  refine ⟨fun s a b c valid works falls => ?_, fun s a b c valid starts falls => ?_, fun s loss low valid cool => ?_, fun s a b c valid held => ?_⟩
  · have run := powerLoss_works valid works falls
    have kept := (execPowerLoss_kept a b c s).of_next run
    obtain ⟨main, mem, io⟩ := lossLow_levels s a b c
    obtain ⟨vs, loss, aon, ctxs, rcd⟩ := lossEnds_fields (lossLow s a b c)
    refine ⟨_, run, vs.trans (lossLow_vs s a b c), loss, mem_of_kept kept, tags_of_kept kept, ?_, ?_, ?_, fun high k => ?_,
      (s.setAon (fun x => x.fall a b c)).stamp (lossEvent a b c), ?_, rfl, rfl⟩
    · rw [aon, main]
    · rw [aon, mem]
    · rw [aon, io]
    · rw [State.ctx_eq_of_ctxs ctxs, lossLow_noPlan high]
    · rw [rcd]
      exact lossLow_records s a b c
  · have run : exec (.powerLoss a b c) s = .next (s.setAon (fun x => x.fall a b c)) :=
      (if_neg (by simp [valid, falls])).trans (if_pos (by simp [starts]))
    exact ⟨_, run, State.setAon_aon .., State.setAon_pwr .., State.setAon_rcd .., State.setAon_ctxs .., (execPowerLoss_kept a b c s).of_next run⟩
  · have run := (powerGoodReturn_valid (main := true) (mem := true) (io := true) valid).trans (congrArg Host.Outcome.next (if_pos rfl))
    have kept := (execPowerGoodReturn_kept s true true true).of_next run
    have returns : returnFromLoss (s.setAon (fun a => a.rise true true true)) = beginBringup (s.setAon (fun a => a.rise true true true)) 3 := by
      refine if_pos ?_
      rw [State.setAon_pwr, State.setAon_aon]
      simp [loss, low, cool, Aon.rise]
    rw [returns] at run kept
    obtain ⟨aon, ctxs⟩ := beginBringup_stays (s.setAon (fun a => a.rise true true true)) 3
    rw [State.setAon_aon] at aon
    refine ⟨_, run, rfl, rfl, ?_, ?_, ?_, ctxs.trans (State.setAon_ctxs ..), kept⟩
    all_goals
      rw [aon]
      simp [Aon.rise]
  · have run := powerGoodReturn_valid (main := a) (mem := b) (io := c) valid
    have stays : (if (a && b && c) = true then returnFromLoss (s.setAon (fun x => x.rise a b c)) else s.setAon (fun x => x.rise a b c)) =
        s.setAon (fun x => x.rise a b c) := by
      rcases held with some | held
      · rw [if_neg (by simp [some])]
      · rw [returnFromLoss_of_held (by simpa [Aon.rise] using held), ite_self]
    rw [stays] at run
    exact ⟨_, run, State.setAon_aon .., State.setAon_pwr .., State.setAon_ctxs .., (execPowerGoodReturn_kept s a b c).of_next run⟩

end Sys2Proof.Machine


namespace Sys2Proof.Machine

/-! # The Calipers (chapters 04, 05): what detections and verdicts change -/

/-- A port but for the executions it has sent a catch for. -/
def Port.butCaught (p : Port) : Port := { p with caught := [] }

/-- A slice but for its counters, the executions it has parted and the column served last. -/
def SliceSt.butCounts (x : SliceSt) : SliceSt := { x with alone := 0, groups := 0, catches := 0, parted := [], served := 0 }

/-- A context but for its coverage and its spans. -/
def CtxSt.butCov (x : CtxSt) : CtxSt := { x with cov := {}, prv := {} }

/-- The Calipers but for slices and ports. -/
def Wce.plain (w : Wce) : BitVec 3 × Option Handover × List Row × List (Slice × BitVec 3) × Nat × BitVec 40 × Bool × BitVec 12 :=
  (w.reason, w.handover, w.orders, w.testing, w.nextTurn, w.lastTurn, w.turnDue, w.interval)

/-- A state but for what a detection or a verdict changes. -/
def State.butTold (s : State) : State :=
  { s with out := [], ctxs := Vector.replicate 32 {}, wce := {}, fst := { s.fst with faultQ := [] }, rcd := { s.rcd with intake := [] } }

/-- From `s` to `t` tiles have been counted and reported, and nothing else has changed. -/
structure Tells (s t : State) : Prop extends Appends s t where
  rest : t.butTold = s.butTold
  plain : t.wce.plain = s.wce.plain
  ports : ∀ b, (t.wce.ports.at b).butCaught = (s.wce.ports.at b).butCaught
  slices : ∀ n, (t.wce.slices.at n).butCounts = (s.wce.slices.at n).butCounts
  ctxs : ∀ d, (t.ctx d).butCov = (s.ctx d).butCov

section

variable {s t u : State}

theorem Tells.refl (s : State) : Tells s s := ⟨.refl s, rfl, rfl, fun _ => rfl, fun _ => rfl, fun _ => rfl⟩

theorem Tells.trans (h : Tells s t) (k : Tells t u) : Tells s u where
  toAppends := h.toAppends.trans k.toAppends
  rest := k.rest.trans h.rest
  plain := k.plain.trans h.plain
  ports b := (k.ports b).trans (h.ports b)
  slices n := (k.slices n).trans (h.slices n)
  ctxs d := (k.ctxs d).trans (h.ctxs d)

theorem Tells.ite {p : Prop} [Decidable p] (yes : p → Tells s t) (no : ¬p → Tells s u) : Tells s (if p then t else u) := by
  split
  · next h => exact yes h
  · next h => exact no h

theorem Tells.each {α : Type} {f : State → α → State} {xs : List α} (step : ∀ t x, Tells t (f t x)) : Tells s (s.each xs f) :=
  State.each_induction (P := Tells s) (.refl s) fun t x _ before => before.trans (step t x)

theorem Tells.cur (h : Tells s t) (b : Arr) : (t.wce.ports.at b).cur = (s.wce.ports.at b).cur := (congrArg Port.cur (h.ports b) :)
theorem Tells.park (h : Tells s t) (b : Arr) : (t.wce.ports.at b).park = (s.wce.ports.at b).park := (congrArg Port.park (h.ports b) :)
theorem Tells.group (h : Tells s t) (b : Arr) : (t.wce.ports.at b).group = (s.wce.ports.at b).group := (congrArg Port.group (h.ports b) :)
theorem Tells.blanks (h : Tells s t) (b : Arr) : (t.wce.ports.at b).blanks = (s.wce.ports.at b).blanks := (congrArg Port.blanks (h.ports b) :)
theorem Tells.tag (h : Tells s t) (d : Ctx) : (t.ctx d).tag = (s.ctx d).tag := (congrArg CtxSt.tag (h.ctxs d) :)

end

section

variable (s : State)

theorem Tells.emit (e : Ev) : Tells s (s.emit e) where
  toAppends := .emit s e
  rest := by unfold State.emit; split <;> rfl
  plain := by rw [State.emit_wce]
  ports b := by rw [State.emit_wce]
  slices n := by rw [State.emit_wce]
  ctxs d := by rw [State.emit_ctx]

theorem Tells.send (o : Out) : Tells s (s.send o) := ⟨.send s o, rfl, rfl, fun _ => rfl, fun _ => rfl, fun _ => rfl⟩

theorem Tells.onSlice (n : Slice) {f : SliceSt → SliceSt} (same : ∀ x, (f x).butCounts = x.butCounts) : Tells s (s.onSlice n f) where
  toAppends := .of_same rfl rfl rfl rfl
  rest := rfl
  plain := rfl
  ports _ := rfl
  slices m := by
    by_cases at_n : m = n
    · subst at_n
      exact (congrArg SliceSt.butCounts (Tab.at_upd_same ..)).trans (same _)
    · exact congrArg SliceSt.butCounts (Tab.at_upd_other _ _ at_n)
  ctxs _ := rfl

theorem Tells.onPort (a : Arr) {f : Port → Port} (same : ∀ p, (f p).butCaught = p.butCaught) : Tells s (s.onPort a f) where
  toAppends := .of_same rfl rfl rfl rfl
  rest := rfl
  plain := rfl
  ports b := by
    by_cases at_a : b = a
    · subst at_a
      exact (congrArg Port.butCaught (Tab.at_upd_same ..)).trans (same _)
    · exact congrArg Port.butCaught (Tab.at_upd_other _ _ at_a)
  slices _ := rfl
  ctxs _ := rfl

theorem Tells.onCtx (c : Ctx) {f : CtxSt → CtxSt} (same : ∀ x, (f x).butCov = x.butCov) : Tells s (s.onCtx c f) where
  toAppends := .of_same rfl rfl rfl rfl
  rest := rfl
  plain := rfl
  ports _ := rfl
  slices _ := rfl
  ctxs d := by
    by_cases at_c : d = c
    · subst at_c
      exact (congrArg CtxSt.butCov (State.onCtx_ctx_same ..)).trans (same _)
    · exact congrArg CtxSt.butCov (State.onCtx_ctx_other _ _ at_c)

theorem Tells.onCov (c : Ctx) (f : CovSt → CovSt) : Tells s (s.onCov c f) := .onCtx s c fun _ => rfl

theorem Tells.countSliceCatch (slice : Nat) : Tells s (countSliceCatch s slice) := by
  unfold Machine.countSliceCatch
  split
  · exact .onSlice s _ fun _ => rfl
  · exact .refl s

theorem Tells.partingSend (slice : Nat) (e : Ctx × BitVec 48 × BitVec 8) : Tells s (partingSend s slice e) := by
  unfold Machine.partingSend
  split
  · exact .refl s
  · refine .ite (fun _ => .refl s) fun _ => .trans ?_ (.send _ _)
    exact .onSlice s _ fun _ => rfl

theorem Tells.detect (a : Arr) (x : Tile) (code : BitVec 16) (p32 : BitVec 32) : Tells s (detect s a x code p32) :=
  (Tells.countSliceCatch s _).trans ((Tells.partingSend _ _ _).trans (.emit _ _))

theorem Tells.detectDescriptor (a : Arr) (x : Tile) (cause : BitVec 4) : Tells s (detectDescriptor s a x cause) :=
  (Tells.onCov s _ _).trans (.detect _ _ _ _ _)

theorem Tells.detectVerdict (a : Arr) (x : Tile) (reason : BitVec 4) (low special high : Bool) (diffs : List Nat) :
    Tells s (detectVerdict s a x reason low special high diffs) := by
  unfold Machine.detectVerdict
  exact .ite (fun _ => (Tells.onCov s _ _).trans (.detect ..)) fun _ => .ite (fun _ => (Tells.onCov s _ _).trans (.detect ..)) fun _ =>
    .ite (fun _ => (Tells.onCov s _ _).trans (.detect ..)) fun _ => .refl s

theorem Tells.countVoid (c : Ctx) : Tells s (countVoid s c) := (Tells.onCov s c _).trans (.onCtx _ c fun _ => rfl)

theorem Tells.noteServed (a : Arr) (slice : Nat) : Tells s (noteServed s a slice) := by
  unfold Machine.noteServed
  split
  · exact .onSlice s _ fun _ => rfl
  · exact .refl s

theorem Tells.sendVerdict (a : Arr) (slice : Nat) (e : Ctx × BitVec 48 × BitVec 8) (seq : BitVec 32) (v : Verdict) (covers voids : Nat)
    (reason : BitVec 4) : Tells s (sendVerdict s a slice e seq v covers voids reason) := by
  unfold Machine.sendVerdict
  have sent (f : VerdictFlit) : Tells s ((Machine.noteServed s a slice).send (.tileVerdict f)) := (Tells.noteServed s a slice).trans (.send _ _)
  exact .ite (fun _ => .refl s) fun _ => .ite (fun _ => (sent _).trans (.onPort _ a fun _ => rfl)) fun _ => sent _

end

/-! ## What a detection raises and a verdict sends -/

section

variable (s : State) (a : Arr) (x : Tile)

theorem detect_raises (code : BitVec 16) (p32 : BitVec 32) : ∃ e ∈ (detect s a x code p32).fst.faultQ,
    e.code = code ∧ e.cls = .c ∧ e.unit = uPort a ∧ e.ctx = some x.desc.ctx ∧ e.p32 = p32 :=
  ⟨_, State.emit_raises _ (tileEvent a x code p32) nofun, rfl, rfl, rfl, rfl, rfl⟩

/-- The flit of a verdict (R178). -/
def verdictFlit (e : Ctx × BitVec 48 × BitVec 8) (seq : BitVec 32) (v : Verdict) (covers voids : Nat) (reason : BitVec 4) : VerdictFlit :=
  { ctx := e.1, port := uPort a, seq, verdict := v, covers := BitVec.ofNat 8 covers, voids := BitVec.ofNat 8 voids, reason, replay := e.2.2
    passLow := e.2.1.setWidth 32 }

variable {s} in
theorem sendVerdict_sends {e : Ctx × BitVec 48 × BitVec 8} (first : (s.wce.ports.at a).caught.contains e = false) (slice : Nat) (seq : BitVec 32) (v : Verdict)
    (covers voids : Nat) (reason : BitVec 4) :
    Out.tileVerdict (verdictFlit a e seq v covers voids reason) ∈ (sendVerdict s a slice e seq v covers voids reason).out := by
  unfold sendVerdict
  rw [if_neg (Bool.eq_false_iff.1 first)]
  have sent : Out.tileVerdict (verdictFlit a e seq v covers voids reason) ∈
      ((noteServed s a slice).send (.tileVerdict (verdictFlit a e seq v covers voids reason))).out := List.mem_append_right _ (List.mem_singleton.2 rfl)
  dsimp only
  split <;> exact sent

theorem noteServed_fst (slice : Nat) : (noteServed s a slice).fst = s.fst := by
  unfold noteServed
  split <;> rfl

theorem noteServed_ctxs (slice : Nat) : (noteServed s a slice).ctxs = s.ctxs := by
  unfold noteServed
  split <;> rfl

theorem sendVerdict_fst (slice : Nat) (e : Ctx × BitVec 48 × BitVec 8) (seq : BitVec 32) (v : Verdict) (covers voids : Nat) (reason : BitVec 4) :
    (sendVerdict s a slice e seq v covers voids reason).fst = s.fst := by
  unfold sendVerdict
  split
  · rfl
  · dsimp only
    split <;> exact noteServed_fst s a slice

theorem sendVerdict_ctxs (slice : Nat) (e : Ctx × BitVec 48 × BitVec 8) (seq : BitVec 32) (v : Verdict) (covers voids : Nat) (reason : BitVec 4) :
    (sendVerdict s a slice e seq v covers voids reason).ctxs = s.ctxs := by
  unfold sendVerdict
  split
  · rfl
  · dsimp only
    split <;> exact noteServed_ctxs s a slice

end

end Sys2Proof.Machine


namespace Sys2Proof.Machine

/-! # A tile begins at its port (R144, R147, R155, R170) -/

section

variable (s : State) (a : Arr) (d : TileDesc)

/-- The group of the port as a tile that begins finds it. -/
def groupFound : Option Group := (s.wce.ports.at a).group.map (fun g => closeFor g d (s.ctx d.ctx).pass.index (s.ctx d.ctx).pass.replay)

/-- The place of a tile that begins. -/
def startPlace : Place := placeOf (groupFound s a d) (s.wce.ports.at a).debt d

/-- A tile that begins and is not under MONITOR. -/
def startTile : Tile :=
  { desc := d, pass := (s.ctx d.ctx).pass.index, replay := (s.ctx d.ctx).pass.replay
    rho := (drawTile (s.ctx d.ctx).exec.seed a d.seq).1, lambda := (drawTile (s.ctx d.ctx).exec.seed a d.seq).2
    member := startPlace s a d ≠ .alone, slice := s.sliceFor (rowOf a), monitor := false, side := { cause := descCause d } }

/-- The group after a tile has joined it. -/
def Group.join (d : TileDesc) (g : Group) : Group :=
  { g with members := g.members + 1, chained := g.chained || decide (1 < d.segs.length), closing := decide (g.members + 1 = 255) || d.lastOnPort }

/-- The group a tile opens. -/
def openGroup : Group :=
  { ctx := d.ctx, pass := (s.ctx d.ctx).pass.index, replay := (s.ctx d.ctx).pass.replay, seq := d.seq, rho := (startTile s a d).rho, members := 1
    chained := decide (1 < d.segs.length), closing := d.lastOnPort, slice := s.sliceFor (rowOf a) }

/-- The port's group after a tile has begun. -/
def startGroup : Option Group :=
  match startPlace s a d with
  | .alone => groupFound s a d
  | .joins => (groupFound s a d).map (Group.join d)
  | .opens => some (openGroup s a d)

/-- The tile in its place. -/
def tilePlaced : State := s.onPort a (fun p => { p with cur := some (startTile s a d), group := startGroup s a d })

/-- The tile begun: a descriptor that a port can refuse at once is a catch (R155). -/
def tileStarted : State :=
  if descCause d = 0 then tilePlaced s a d else detectDescriptor (tilePlaced s a d) a (startTile s a d) (descCause d)

end

section

variable {s : State} {a : Arr} {d : TileDesc}

theorem exec_tileStart (free : (s.wce.ports.at a).cur = none) (works : s.isolated a = false)
    (watched : ∀ p, s.planOf d.ctx = some p → p.isMonitor = false) : exec (.tileStart a d) s = .next (tileStarted s a d) := by
  show execTileStart a d s = _
  unfold execTileStart
  rw [if_neg (by simp [free, works])]
  cases plan : s.planOf d.ctx with
  | none => rfl
  | some p =>
    simp only [watched p plan, Bool.false_eq_true, if_false]
    rfl

theorem closeFor_eq (g : Group) (d : TileDesc) (pass : BitVec 48) (replay : BitVec 8) : closeFor g d pass replay =
    if tileLength d < 256 ∧ d.ctx = g.ctx ∧ pass = g.pass ∧ replay = g.replay then g else { g with closing := true } := by
  unfold closeFor
  by_cases joins : tileLength d < 256 ∧ d.ctx = g.ctx ∧ pass = g.pass ∧ replay = g.replay
  · rw [if_pos joins]
    exact if_neg fun differs => by
      obtain ⟨short, ctx, pass, replay⟩ := joins
      simp only [ctx, pass, replay, ne_eq, not_true, or_false] at differs
      omega
  · rw [if_neg joins]
    refine if_pos (Classical.byContradiction fun none => joins ?_)
    simp only [not_or, Nat.not_le, ne_eq, Classical.not_not] at none
    exact none

theorem startPlace_none (none : (s.wce.ports.at a).group = none) :
    startPlace s a d = if tileLength d < 256 ∧ 8 < (s.wce.ports.at a).debt then .opens else .alone := by
  unfold startPlace groupFound
  rw [none]
  rfl

theorem startPlace_some {g : Group} (found : groupFound s a d = some g) : startPlace s a d = if g.closing = true then .alone else .joins := by
  unfold startPlace
  rw [found]
  rfl

theorem startTile_alone (alone : startPlace s a d = .alone) : (startTile s a d).member = false ∧ startGroup s a d = groupFound s a d := by
  unfold startTile startGroup
  rw [alone]
  exact ⟨rfl, rfl⟩

theorem startTile_opens (opens : startPlace s a d = .opens) : (startTile s a d).member = true ∧ startGroup s a d = some (openGroup s a d) := by
  unfold startTile startGroup
  rw [opens]
  exact ⟨rfl, rfl⟩

theorem startTile_joins (joins : startPlace s a d = .joins) : (startTile s a d).member = true ∧ startGroup s a d = (groupFound s a d).map (Group.join d) := by
  unfold startTile startGroup
  rw [joins]
  exact ⟨rfl, rfl⟩

theorem groupFound_some {g : Group} (group : (s.wce.ports.at a).group = some g) :
    groupFound s a d = some (closeFor g d (s.ctx d.ctx).pass.index (s.ctx d.ctx).pass.replay) := by
  unfold groupFound
  rw [group]
  rfl

end

theorem tilePlaced_port (s : State) (a : Arr) (d : TileDesc) :
    (tilePlaced s a d).wce.ports.at a = { s.wce.ports.at a with cur := some (startTile s a d), group := startGroup s a d } := Tab.at_upd_same ..

theorem Tells.tileStarted (s : State) (a : Arr) (d : TileDesc) : Tells (tilePlaced s a d) (tileStarted s a d) := by
  unfold Machine.tileStarted
  exact .ite (fun _ => .refl _) fun _ => .detectDescriptor ..

/-- Settles O26: the tile's place follows from the group it finds, its length and the debt. -/
theorem tileStartPlacesTheTile : Obligations.TileStartPlacesTheTile := by
  unfold Obligations.TileStartPlacesTheTile
  refine ⟨fun s a d isolated => if_pos (.inr isolated), fun s a d free works watched => ?_⟩
  intro p x short same
  have run := exec_tileStart free works watched
  have tells := Tells.tileStarted s a d
  have port := tilePlaced_port s a d
  have group : ((tileStarted s a d).wce.ports.at a).group = startGroup s a d := (tells.group a).trans (by rw [port])
  refine ⟨_, startTile s a d, run, (tells.cur a).trans (by rw [port]), rfl, rfl, rfl, rfl, rfl, rfl, rfl, rfl, (tells.park a).trans (by rw [port]),
    (execTileStart_kept a d s).of_next run, fun none long => ?_, fun none isShort debt => ?_, fun g found closed => ?_, fun g found open_ apart => ?_,
    fun g found open_ isShort isSame => ?_, fun good => ?_, fun bad => ?_⟩
  · obtain ⟨member, after⟩ := startTile_alone ((startPlace_none none).trans (if_neg long))
    refine ⟨member, group.trans (after.trans ?_)⟩
    unfold groupFound
    rw [show (s.wce.ports.at a).group = Option.none from none]
    rfl
  · obtain ⟨member, after⟩ := startTile_opens ((startPlace_none none).trans (if_pos ⟨isShort, debt⟩))
    exact ⟨member, _, group.trans after, rfl, rfl, rfl, rfl, rfl, rfl⟩
  · have closes : (closeFor g d x.pass.index x.pass.replay).closing = true := by
      rw [closeFor_eq]
      split
      · exact closed
      · rfl
    exact (startTile_alone ((startPlace_some (groupFound_some found)).trans (if_pos closes))).1
  · have closes : closeFor g d x.pass.index x.pass.replay = { g with closing := true } := by
      rw [closeFor_eq, if_neg apart]
    have seen := groupFound_some (d := d) found
    rw [closes] at seen
    obtain ⟨member, after⟩ := startTile_alone ((startPlace_some seen).trans (if_pos rfl))
    exact ⟨member, group.trans (after.trans seen)⟩
  · have stays : closeFor g d x.pass.index x.pass.replay = g := by
      rw [closeFor_eq, if_pos ⟨isShort, isSame⟩]
    have seen := groupFound_some (d := d) found
    rw [stays] at seen
    obtain ⟨member, after⟩ := startTile_joins ((startPlace_some seen).trans (if_neg (by simp [open_])))
    rw [seen] at after
    exact ⟨member, _, group.trans after, rfl, rfl, rfl, rfl, rfl⟩
  · rw [tileStarted, if_pos good]
    exact ⟨rfl, rfl, rfl, rfl⟩
  · rw [tileStarted, if_neg bad]
    exact detect_raises _ a (startTile s a d) 0x2004 _

end Sys2Proof.Machine


namespace Sys2Proof.Machine

/-! # A tile parks (R112, R149, R153, R157, R167 to R169, R174) -/

/-! ## The port's own operations -/

section

variable (p : Port)

@[simp] theorem Port.closeAtZero_cur : p.closeAtZero.cur = p.cur := by unfold Port.closeAtZero; split <;> rfl
@[simp] theorem Port.closeAtZero_park : p.closeAtZero.park = p.park := by unfold Port.closeAtZero; split <;> rfl
@[simp] theorem Port.closeAtZero_blanks : p.closeAtZero.blanks = p.blanks := by unfold Port.closeAtZero; split <;> rfl
@[simp] theorem Port.closeAtZero_watched : p.closeAtZero.watched = p.watched := by unfold Port.closeAtZero; split <;> rfl
@[simp] theorem Port.closeAtZero_caught : p.closeAtZero.caught = p.caught := by unfold Port.closeAtZero; split <;> rfl
@[simp] theorem Port.closeAtZero_maxDebt : p.closeAtZero.maxDebt = p.maxDebt := by unfold Port.closeAtZero; split <;> rfl
@[simp] theorem Port.closeAtZero_alone : p.closeAtZero.alone = p.alone := by unfold Port.closeAtZero; split <;> rfl
@[simp] theorem Port.closeAtZero_overruns : p.closeAtZero.overruns = p.overruns := by unfold Port.closeAtZero; split <;> rfl
@[simp] theorem Port.closeAtZero_resets : p.closeAtZero.resets = p.resets := by unfold Port.closeAtZero; split <;> rfl

theorem Port.debt_of_park {p q : Port} (h : p.park = q.park) : p.debt = q.debt := by
  have due : p.dueSingle = q.dueSingle := by
    unfold Port.dueSingle
    rw [h]
  have begun : p.begun = q.begun := by
    funext x
    unfold Port.begun
    rw [due]
  unfold Port.debt
  rw [h, begun]

@[simp] theorem Port.closeAtZero_debt : p.closeAtZero.debt = p.debt := Port.debt_of_park p.closeAtZero_park

theorem Port.closeAtZero_group : p.closeAtZero.group = if p.debt = 0 then p.group.map (fun g => { g with closing := true }) else p.group := by
  unfold Port.closeAtZero
  split <;> rfl

theorem Port.closeAtZero_twice : p.closeAtZero.closeAtZero = p.closeAtZero := by
  by_cases zero : p.debt = 0
  · rw [Port.closeAtZero, Port.closeAtZero_debt, if_pos zero, Port.closeAtZero_group, if_pos zero]
    simp only [Option.map_map]
    unfold Port.closeAtZero
    rw [if_pos zero]
    rfl
  · rw [Port.closeAtZero, Port.closeAtZero_debt, if_neg zero]

end

/-! ## Words that pass the port (R112) -/

/-- A port but for its operand blanks. -/
def Port.butBlanks (p : Port) : Port := { p with blanks := [] }

/-- A context but for its poison latches. -/
def CtxSt.butTag (x : CtxSt) : CtxSt := { x with tag := {} }

/-- A state but for the Calipers and the contexts. -/
def State.butSnooped (s : State) : State := { s with wce := {}, ctxs := Vector.replicate 32 {} }

/-- From `s` to `t` operand words have passed a port. -/
structure Snoops (a : Arr) (s t : State) : Prop where
  rest : t.butSnooped = s.butSnooped
  plain : t.wce.plain = s.wce.plain
  slices : t.wce.slices = s.wce.slices
  others : ∀ b, b ≠ a → t.wce.ports.at b = s.wce.ports.at b
  port : (t.wce.ports.at a).butBlanks = (s.wce.ports.at a).butBlanks
  ctxs : ∀ d, (t.ctx d).butTag = (s.ctx d).butTag

section

variable {a : Arr} {s t u : State}

theorem Snoops.refl (a : Arr) (s : State) : Snoops a s s := ⟨rfl, rfl, rfl, fun _ _ => rfl, rfl, fun _ => rfl⟩

theorem Snoops.trans (h : Snoops a s t) (k : Snoops a t u) : Snoops a s u :=
  ⟨k.rest.trans h.rest, k.plain.trans h.plain, k.slices.trans h.slices, fun b other => (k.others b other).trans (h.others b other), k.port.trans h.port,
    fun d => (k.ctxs d).trans (h.ctxs d)⟩

theorem Snoops.ite {p : Prop} [Decidable p] (yes : p → Snoops a s t) (no : ¬p → Snoops a s u) : Snoops a s (if p then t else u) := by
  split
  · next h => exact yes h
  · next h => exact no h

theorem Snoops.each {α : Type} {f : State → α → State} {xs : List α} (step : ∀ t x, Snoops a t (f t x)) : Snoops a s (s.each xs f) :=
  State.each_induction (P := Snoops a s) (.refl a s) fun t x _ before => before.trans (step t x)

theorem Snoops.out (h : Snoops a s t) : t.out = s.out := (congrArg State.out h.rest :)
theorem Snoops.fst (h : Snoops a s t) : t.fst = s.fst := (congrArg State.fst h.rest :)
theorem Snoops.cur (h : Snoops a s t) : (t.wce.ports.at a).cur = (s.wce.ports.at a).cur := (congrArg Port.cur h.port :)
theorem Snoops.park (h : Snoops a s t) : (t.wce.ports.at a).park = (s.wce.ports.at a).park := (congrArg Port.park h.port :)
theorem Snoops.group (h : Snoops a s t) : (t.wce.ports.at a).group = (s.wce.ports.at a).group := (congrArg Port.group h.port :)
theorem Snoops.caught (h : Snoops a s t) : (t.wce.ports.at a).caught = (s.wce.ports.at a).caught := (congrArg Port.caught h.port :)
theorem Snoops.watched (h : Snoops a s t) : (t.wce.ports.at a).watched = (s.wce.ports.at a).watched := (congrArg Port.watched h.port :)
theorem Snoops.maxDebt (h : Snoops a s t) : (t.wce.ports.at a).maxDebt = (s.wce.ports.at a).maxDebt := (congrArg Port.maxDebt h.port :)

theorem Snoops.onPort (a : Arr) (s : State) {f : Port → Port} (same : ∀ p, (f p).butBlanks = p.butBlanks) : Snoops a s (s.onPort a f) where
  rest := rfl
  plain := rfl
  slices := rfl
  others _ other := Tab.at_upd_other _ _ other
  port := (congrArg Port.butBlanks (Tab.at_upd_same ..)).trans (same _)
  ctxs _ := rfl

theorem Snoops.onTag (a : Arr) (s : State) (c : Ctx) (f : TagSt → TagSt) : Snoops a s (s.onTag c f) where
  rest := rfl
  plain := rfl
  slices := rfl
  others _ _ := rfl
  port := rfl
  ctxs d := by
    by_cases at_c : d = c
    · subst at_c
      rw [State.onTag_ctx_same]
      rfl
    · rw [State.onTag_ctx_other _ _ at_c]

theorem Snoops.setLatch (a : Arr) (s : State) (c : Ctx) : Snoops a s (setLatch s a c) := .onTag a s c _

/-- A port that keeps no blank of the context's earlier executions. -/
def passOver (s : State) (a : Arr) (e : Ctx × BitVec 48 × BitVec 8) : State :=
  s.onPort a (fun p => { p with blanks := p.blanks.filter (fun k => k.exec.1 ≠ e.1 || k.exec = e) })

theorem Snoops.passOver (a : Arr) (s : State) (e : Ctx × BitVec 48 × BitVec 8) : Snoops a s (passOver s a e) := .onPort a s fun _ => rfl

/-- The first words of a blank consume it (R117). -/
def consumed (s : State) (a : Arr) (c : Ctx) (tag : BitVec 64) : State := if isPoison (tagState tag) then setLatch s a c else s

theorem Snoops.consumed (a : Arr) (s : State) (c : Ctx) (tag : BitVec 64) : Snoops a s (consumed s a c tag) :=
  .ite (fun _ => .setLatch a s c) fun _ => .refl a s

theorem passWords_again {s : State} {a : Arr} {e : Ctx × BitVec 48 × BitVec 8} {blank source : Nat} {k : Tracker}
    (known : ((passOver s a e).wce.ports.at a).tracked e blank source = some k) (tag : BitVec 64) (words : WordWrites) :
    passWords s a e blank source tag words = (passOver s a e).onPort a (fun p => p.onBlank e blank source
      (fun k => if k.done then k else words.foldl (Tracker.take (s.keyOf e.1)) k)) := by
  unfold passOver at known
  unfold passWords
  dsimp only
  rw [known]
  rfl

theorem passWords_first {s : State} {a : Arr} {e : Ctx × BitVec 48 × BitVec 8} {blank source : Nat}
    (new : ((passOver s a e).wce.ports.at a).tracked e blank source = none) (tag : BitVec 64) (words : WordWrites) :
    passWords s a e blank source tag words =
      if 16 ≤ ((consumed (passOver s a e) a e.1 tag).wce.ports.at a).openBlanks then consumed (passOver s a e) a e.1 tag
      else (consumed (passOver s a e) a e.1 tag).onPort a (fun p =>
        { p with blanks := p.blanks ++ [words.foldl (Tracker.take (s.keyOf e.1)) { exec := e, blank, source }] }) := by
  unfold passOver at new
  unfold passWords
  dsimp only
  rw [new]
  rfl

theorem Snoops.passWords (a : Arr) (s : State) (e : Ctx × BitVec 48 × BitVec 8) (blank source : Nat) (tag : BitVec 64) (words : WordWrites) :
    Snoops a s (passWords s a e blank source tag words) := by
  have past := Snoops.passOver a s e
  have latched := past.trans (.consumed a _ e.1 tag)
  cases known : ((Machine.passOver s a e).wce.ports.at a).tracked e blank source with
  | some k =>
    rw [passWords_again known]
    refine past.trans ?_
    exact .onPort a _ fun _ => rfl
  | none =>
    rw [passWords_first known]
    refine .ite (fun _ => latched) fun _ => latched.trans ?_
    exact .onPort a _ fun _ => rfl

theorem Snoops.snoopAll (a : Arr) (s : State) (x : Tile) (snoop : List Snoop) : Snoops a s (snoopAll s a x snoop) :=
  .each fun t _ => .passWords a t _ _ _ _ _

end

/-! ## A member's read begins (R168) -/

section

variable (s : State) (a : Arr)

theorem detect_ports (x : Tile) (code : BitVec 16) (p32 : BitVec 32) : (detect s a x code p32).wce.ports = s.wce.ports := by
  have parted (t : State) (slice : Nat) (e : Ctx × BitVec 48 × BitVec 8) : (partingSend t slice e).wce.ports = t.wce.ports := by
    unfold partingSend
    split
    · rfl
    · split <;> rfl
  have counted : (countSliceCatch s x.slice).wce.ports = s.wce.ports := by
    unfold countSliceCatch
    split <;> rfl
  rw [detect, State.emit_wce, parted, counted]

theorem detectDescriptor_ports (x : Tile) (cause : BitVec 4) : (detectDescriptor s a x cause).wce.ports = s.wce.ports := detect_ports _ a x _ _

theorem drainCheck_ports (x : Tile) : (drainCheck s a x).1.wce.ports = s.wce.ports := by
  unfold drainCheck
  split
  · dsimp only
    split
    · rfl
    · exact detectDescriptor_ports ..
  · rfl

theorem drainCheck_of_good {x : Tile} (good : x.side.cause = 0 → sideCause x.desc x.side = 0) : drainCheck s a x = (s, x) :=
  if_neg fun ⟨clean, bad⟩ => bad (good clean)

theorem beginRead_eq (x : Tile) : beginRead s a x = (drainCheck s a x).1.onPort a
    (fun p => ({ p with park := p.park.map (fun y => if y = x then { (drainCheck s a x).2 with reading := true } else y) } : Port).closeAtZero) := rfl

theorem beginRead_of_good {x : Tile} (good : x.side.cause = 0 → sideCause x.desc x.side = 0) : beginRead s a x =
    s.onPort a (fun p => ({ p with park := p.park.map (fun y => if y = x then { x with reading := true } else y) } : Port).closeAtZero) := by
  rw [beginRead_eq, drainCheck_of_good s a good]

/-- A member's read that begins changes the port's park and may close its group; without a member to read nothing changes. -/
theorem memberStart_ports : (∀ b, b ≠ a → (memberStart s a).wce.ports.at b = s.wce.ports.at b) ∧
    ∃ park, ((memberStart s a).wce.ports.at a).closeAtZero = ({ s.wce.ports.at a with park } : Port).closeAtZero := by
  unfold memberStart
  dsimp only
  split
  · exact ⟨fun _ _ => rfl, _, rfl⟩
  · split
    · next x _ =>
      have ports := drainCheck_ports s a x
      refine ⟨fun b other => ?_, (s.wce.ports.at a).park.map (fun y => if y = x then { (drainCheck s a x).2 with reading := true } else y), ?_⟩
      · rw [beginRead_eq, State.onPort_wce, Tab.at_upd_other _ _ other, ports]
      · rw [beginRead_eq, State.onPort_wce, Tab.at_upd_same, ports]
        exact Port.closeAtZero_twice _
    · exact ⟨fun _ _ => rfl, _, rfl⟩

theorem memberStart_idle (idle : (s.wce.ports.at a).park.any (fun x => x.member) = false ∨ (s.wce.ports.at a).park.any (fun x => x.reading && x.member) = true) :
    memberStart s a = s := by
  unfold memberStart
  dsimp only
  split
  · rfl
  · next none =>
    rw [List.find?_eq_none.2 fun x mem => by
      have alone := List.any_eq_false.1 (idle.resolve_right none) x mem
      simpa using alone]

theorem memberStart_of_member {x : Tile} (none : (s.wce.ports.at a).park.any (fun x => x.reading && x.member) = false)
    (found : (s.wce.ports.at a).park.find? (fun x => x.member) = some x) : memberStart s a = beginRead s a x := by
  unfold memberStart
  dsimp only
  rw [if_neg (Bool.eq_false_iff.1 none), found]

end

end Sys2Proof.Machine


namespace Sys2Proof.Machine

/-! ## The end of a tile -/

section

variable (s : State) (a : Arr)

/-- The set a tile leaves in the park: what its operand cycles gave (R149). -/
def parkedTile (x : Tile) (ops : List OpCycle) : Tile :=
  { x with side := ops.foldl (takeCycle x.desc (sideVector (s.wce.ports.at a) x) (if x.member then x.lambda.toNat else 1)) x.side }

/-- The park with a set more, the port free for the next tile. -/
def parkSet (y : Tile) : State := s.onPort a (fun p => { p with cur := none, park := p.park ++ [y] })

/-- The end of the cycle: a member's read begins, the debt is noted (R168 to R170). -/
def parkEnd : State := (memberStart s a).onPort a (fun p => p.closeAtZero.noteDebt)

end

section

variable {s : State} {a : Arr} {x : Tile}

theorem exec_tilePark (running : (s.wce.ports.at a).cur = some x) (works : s.isolated a = false) (checked : x.monitor = false) (ops : List OpCycle)
    (snoop : List Snoop) : exec (.tilePark a ops snoop) s = .next (parkEnd (parkSet
      (if 12 ≤ ((snoopAll s a x snoop).wce.ports.at a).park.length then overrun (snoopAll s a x snoop) a else snoopAll s a x snoop) a
      (parkedTile (snoopAll s a x snoop) a x ops)) a) := by
  show execTilePark a ops s snoop = _
  unfold execTilePark
  rw [running]
  dsimp only
  rw [if_neg (Bool.eq_false_iff.1 works), if_neg (Bool.eq_false_iff.1 checked)]
  rfl

theorem exec_tilePark_monitor (running : (s.wce.ports.at a).cur = some x) (works : s.isolated a = false) (watched : x.monitor = true)
    (good : x.tagBad = false) (ops : List OpCycle) (snoop : List Snoop) :
    exec (.tilePark a ops snoop) s = .next ((snoopAll s a x snoop).onPort a (fun p => { p with cur := none, watched := some x })) := by
  show execTilePark a ops s snoop = _
  unfold execTilePark
  rw [running]
  dsimp only
  rw [if_neg (Bool.eq_false_iff.1 works), if_pos watched, if_neg (Bool.eq_false_iff.1 good)]

theorem parkSet_port (s : State) (a : Arr) (y : Tile) : (parkSet s a y).wce.ports.at a =
    { s.wce.ports.at a with cur := none, park := (s.wce.ports.at a).park ++ [y] } := Tab.at_upd_same ..

/-- The port at the end of the cycle in which a tile has parked. -/
theorem parkEnd_port (s : State) (a : Arr) : ((parkEnd s a).wce.ports.at a).cur = (s.wce.ports.at a).cur ∧
    ((parkEnd s a).wce.ports.at a).maxDebt = satBits 4 (max (s.wce.ports.at a).maxDebt.toNat ((parkEnd s a).wce.ports.at a).debt) ∧
    ((parkEnd s a).wce.ports.at a).group = (if ((parkEnd s a).wce.ports.at a).debt = 0 then
      (s.wce.ports.at a).group.map (fun g => { g with closing := true }) else (s.wce.ports.at a).group) := by
  obtain ⟨-, park, ends⟩ := memberStart_ports s a
  have port : (parkEnd s a).wce.ports.at a = ({ s.wce.ports.at a with park } : Port).closeAtZero.noteDebt :=
    (Tab.at_upd_same ..).trans (by rw [ends])
  have debt : ((parkEnd s a).wce.ports.at a).debt = ({ s.wce.ports.at a with park } : Port).debt := by
    rw [port]
    exact Port.debt_of_park (Port.closeAtZero_park _)
  rw [debt, port]
  refine ⟨Port.closeAtZero_cur _, ?_, Port.closeAtZero_group _⟩
  unfold Port.noteDebt
  rw [Port.closeAtZero_maxDebt, Port.closeAtZero_debt]

theorem parkEnd_others (s : State) (a b : Arr) (other : b ≠ a) : (parkEnd s a).wce.ports.at b = s.wce.ports.at b :=
  (Tab.at_upd_other _ _ other).trans ((memberStart_ports s a).1 b other)

theorem parkEnd_idle (idle : (s.wce.ports.at a).park.any (fun x => x.member) = false ∨ (s.wce.ports.at a).park.any (fun x => x.reading && x.member) = true) :
    parkEnd s a = s.onPort a (fun p => p.closeAtZero.noteDebt) := by
  unfold parkEnd
  rw [memberStart_idle s a idle]

theorem snoopAll_nil (s : State) (a : Arr) (x : Tile) : snoopAll s a x [] = s := rfl

theorem parkedTile_snooped {u : State} (snoops : Snoops a s u) (x : Tile) (ops : List OpCycle) : parkedTile u a x ops = parkedTile s a x ops := by
  unfold parkedTile sideVector
  rw [snoops.group]

/-! ### A parked set lost (R174) -/

/-- DRAIN_OVERRUN. -/
def overrunEvent (a : Arr) (x : Tile) (debt : Nat) : Ev :=
  { code := 0x2017, cls := .c, unit := uPort a, ctx := some x.desc.ctx, p16 := x.desc.seq.setWidth 16, p32 := BitVec.ofNat 32 debt, acc := 0x10
    addr := (tileEvent a x 0 0).addr }

/-- The set overwritten, and its fault. -/
def overrunLost (s : State) (a : Arr) (x : Tile) : State :=
  (s.onPort a (fun p => { p with park := p.park.erase x, overruns := bump p.overruns
                                 group := if x.member then p.group.map (fun g => { g with members := g.members - 1 }) else p.group })).emit
    (overrunEvent a x (s.wce.ports.at a).debt)

theorem overrun_eq (lost : (s.wce.ports.at a).park.find? (fun y => !(s.wce.ports.at a).begun y) = some x) :
    overrun s a = sendVerdict (overrunLost s a x) a x.slice x.exec x.desc.seq .notProduced 1 0 6 := by
  unfold overrun
  dsimp only
  rw [lost]
  rfl

theorem sendVerdict_other {e : Ctx × BitVec 48 × BitVec 8} {v : Verdict} (first : (s.wce.ports.at a).caught.contains e = false) (goes : v ≠ .catch)
    (slice : Nat) (seq : BitVec 32) (covers voids : Nat) (reason : BitVec 4) :
    sendVerdict s a slice e seq v covers voids reason = (noteServed s a slice).send (.tileVerdict (verdictFlit a e seq v covers voids reason)) := by
  unfold sendVerdict
  rw [if_neg (Bool.eq_false_iff.1 first)]
  exact if_neg goes

theorem noteServed_out (s : State) (a : Arr) (slice : Nat) : (noteServed s a slice).out = s.out := by
  unfold noteServed
  split <;> rfl

theorem overrunLost_port (s : State) (a : Arr) (x : Tile) : (overrunLost s a x).wce.ports.at a =
    { s.wce.ports.at a with park := (s.wce.ports.at a).park.erase x, overruns := bump (s.wce.ports.at a).overruns
                            group := if x.member then (s.wce.ports.at a).group.map (fun g => { g with members := g.members - 1 }) else (s.wce.ports.at a).group } := by
  rw [overrunLost, State.emit_wce]
  exact Tab.at_upd_same ..

end

theorem any_append_one {α : Type} (f : α → Bool) (xs : List α) (y : α) (none : xs.any f = false) (last : f y = false) : (xs ++ [y]).any f = false := by
  rw [List.any_append, none]
  simp [last]

theorem any_erase {f : Tile → Bool} {xs : List Tile} (none : xs.any f = false) (x : Tile) : (xs.erase x).any f = false :=
  List.any_eq_false.2 fun y mem => List.any_eq_false.1 none y (List.mem_of_mem_erase mem)

theorem map_replace_self {α : Type} [DecidableEq α] (x : α) (xs : List α) : xs.map (fun y => if y = x then x else y) = xs := by
  refine List.map_id'' (fun y => ?_) xs
  split
  · next same => exact same.symm
  · rfl

/-- The only member of the park is read from the end of the cycle on, unless its read runs already. -/
theorem parkEnd_begins {u : State} {a : Arr} {q : List Tile} {x : Tile} (park : (u.wce.ports.at a).park = q ++ [x])
    (none : q.any (fun y => y.member) = false) (member : x.member = true) (good : sideCause x.desc x.side = 0) :
    ((parkEnd u a).wce.ports.at a).park = q.map (fun y => if y = x then { x with reading := true } else y) ++ [{ x with reading := true }] ∧
      (parkEnd u a).out = u.out ∧ (parkEnd u a).fst = u.fst ∧ (parkEnd u a).wce.slices = u.wce.slices ∧ (parkEnd u a).ctxs = u.ctxs := by
  by_cases reads : x.reading = true
  · have same : { x with reading := true } = x := by rw [← reads]
    rw [parkEnd_idle (s := u) (a := a) (.inr (by rw [park, List.any_append]; simp [reads, member])), same]
    refine ⟨?_, rfl, rfl, rfl, rfl⟩
    rw [State.onPort_wce, Tab.at_upd_same]
    refine (Port.closeAtZero_park _).trans (park.trans ?_)
    rw [map_replace_self]
  · have begins : memberStart u a = beginRead u a x := by
      refine memberStart_of_member u a ?_ ?_
      · rw [park]
        refine any_append_one _ _ _ ?_ (by simp [reads])
        exact List.any_eq_false.2 fun y mem => by simpa using fun _ => by simpa using List.any_eq_false.1 none y mem
      · rw [park, List.find?_append, List.find?_eq_none.2 (List.any_eq_false.1 none)]
        simp [member]
    unfold parkEnd
    rw [begins, beginRead_of_good u a fun _ => good]
    refine ⟨?_, rfl, rfl, rfl, rfl⟩
    rw [State.onPort_wce, Tab.at_upd_same, State.onPort_wce, Tab.at_upd_same]
    refine (Port.closeAtZero_park _).trans ((Port.closeAtZero_park _).trans ?_)
    dsimp only
    rw [park, List.map_append, List.map_singleton, if_pos rfl]

/-- Settles O27: the park takes the tile's set, and the end of the cycle follows from who may read. -/
theorem tileParksWithItsOperandSide : Obligations.TileParksWithItsOperandSide := by
  unfold Obligations.TileParksWithItsOperandSide
  refine ⟨fun s a ops snoop tile running checked works => ?_, fun s a ops tile running watched good works => ?_⟩
  · intro p v parked
    have is : parkedTile s a tile ops = parked := rfl
    refine ⟨fun room => ?_, fun lost full found first alone none => ?_⟩
    · have snoops := Snoops.snoopAll a s tile snoop
      have run := exec_tilePark running works checked ops snoop
      rw [if_neg (by rw [snoops.park]; exact Nat.not_le.2 room), parkedTile_snooped snoops, is] at run
      obtain ⟨cur, maxDebt, group⟩ := parkEnd_port (parkSet (snoopAll s a tile snoop) a parked) a
      rw [parkSet_port] at cur maxDebt group
      rw [snoops.maxDebt] at maxDebt
      rw [snoops.group] at group
      have park : ((parkSet (snoopAll s a tile snoop) a parked).wce.ports.at a).park = p.park ++ [parked] := by
        rw [parkSet_port, snoops.park]
      refine ⟨_, run, cur, fun b other => ?_, (execTilePark_kept a ops snoop s).of_next run, maxDebt, group, fun idle => ?_, fun member none clean good => ?_⟩
      · rw [parkEnd_others _ a b other]
        exact (Tab.at_upd_other _ _ other).trans (snoops.others b other)
      · have still := parkEnd_idle (s := parkSet (snoopAll s a tile snoop) a parked) (a := a) (by
          rw [park]
          refine idle.imp (fun ⟨alone, free⟩ => any_append_one _ _ _ free alone) fun reads => ?_
          rw [List.any_append, reads, Bool.true_or])
        rw [still]
        refine ⟨?_, snoops.out, snoops.fst, snoops.slices, fun silent => by rw [silent]; rfl⟩
        rw [State.onPort_wce, Tab.at_upd_same]
        exact (Port.closeAtZero_park _).trans park
      · obtain ⟨read, out, fst, slices, ctxs⟩ := parkEnd_begins (show ((parkSet (snoopAll s a tile snoop) a parked).wce.ports.at a).park = _ from park) none member good
        exact ⟨read, out.trans snoops.out, fst.trans snoops.fst, slices.trans snoops.slices, fun silent => ctxs.trans (by rw [silent]; rfl)⟩
    · have run := exec_tilePark running works checked ops []
      rw [snoopAll_nil, if_pos full, overrun_eq found] at run
      have portLost := overrunLost_port s a lost
      have caught : ((overrunLost s a lost).wce.ports.at a).caught.contains lost.exec = false := by rw [portLost]; exact first
      rw [sendVerdict_other caught (by decide)] at run
      generalize told : (noteServed (overrunLost s a lost) a lost.slice).send (.tileVerdict (verdictFlit a lost.exec lost.desc.seq .notProduced 1 0 6)) = t at run
      have tells : Tells (overrunLost s a lost) t := told ▸ (Tells.noteServed _ a _).trans (.send _ _)
      have member : lost.member = false := by simpa using List.any_eq_false.1 none lost (List.mem_of_find?_eq_some found)
      rw [is] at run
      have park : (t.wce.ports.at a).park = p.park.erase lost := by rw [tells.park, portLost]
      have still := parkEnd_idle (s := parkSet t a parked) (a := a) (.inl (by
        rw [parkSet_port, park]
        exact any_append_one _ _ _ (any_erase none lost) alone))
      rw [still] at run
      have port : (parkSet t a parked).wce.ports.at a = { t.wce.ports.at a with cur := Option.none, park := p.park.erase lost ++ [parked] } := by
        rw [parkSet_port, park]
      have ended : ((parkSet t a parked).onPort a (fun p => p.closeAtZero.noteDebt)).wce.ports.at a = ((parkSet t a parked).wce.ports.at a).closeAtZero.noteDebt :=
        Tab.at_upd_same ..
      have fst : t.fst = (overrunLost s a lost).fst := by
        rw [← told, State.send_fst, noteServed_fst]
      have out : t.out = s.out ++ [.tileVerdict (verdictFlit a lost.exec lost.desc.seq .notProduced 1 0 6)] := by
        rw [← told, State.send_out, noteServed_out, overrunLost, State.emit_out, State.onPort_out]
      refine ⟨_, s.stamp (overrunEvent a lost p.debt), verdictFlit a lost.exec lost.desc.seq .notProduced 1 0 6, run, ?_, ?_, ?_, ?_, rfl, rfl, rfl, rfl,
        out, rfl, rfl, rfl, rfl, (execTilePark_kept a ops [] s).of_next run⟩
      · rw [ended, port]
        exact Port.closeAtZero_cur _
      · rw [ended, port]
        exact Port.closeAtZero_park _
      · rw [ended, port]
        refine (Port.closeAtZero_overruns _).trans ?_
        rw [show (t.wce.ports.at a).overruns = ((overrunLost s a lost).wce.ports.at a).overruns from (congrArg Port.overruns (tells.ports a) :), portLost]
        rfl
      · refine (congrArg Fst.faultQ fst).trans ?_
        rw [overrunLost, State.emit_fault (e := overrunEvent a lost _) _ (by exact nofun)]
        rfl
  · have run := exec_tilePark_monitor running works watched good ops []
    exact ⟨_, run, Tab.at_upd_same .., rfl, rfl, rfl, (execTilePark_kept a ops [] s).of_next run⟩

end Sys2Proof.Machine


namespace Sys2Proof.Machine

/-! # The drain of a port (R154, R168, R178) -/

section

variable (s : State) (a : Arr) (x : Tile)

/-- The events of a verdict (R161). -/
theorem detectVerdict_raises {reason : BitVec 4} {code : BitVec 16}
    (which : reason = 1 ∧ code = 0x2001 ∨ reason = 2 ∧ code = 0x2002 ∨ reason = 3 ∧ code = 0x2003) (low special high : Bool) (diffs : List Nat) :
    ∃ e ∈ (detectVerdict s a x reason low special high diffs).fst.faultQ, e.code = code ∧ e.cls = .c ∧ e.unit = uPort a := by
  have raised (u : State) (p32 : BitVec 32) : ∃ e ∈ (detect u a x code p32).fst.faultQ, e.code = code ∧ e.cls = .c ∧ e.unit = uPort a := by
    obtain ⟨e, mem, has, cls, unit, -⟩ := detect_raises u a x code p32
    exact ⟨e, mem, has, cls, unit⟩
  obtain ⟨rfl, rfl⟩ | ⟨rfl, rfl⟩ | ⟨rfl, rfl⟩ := which
  · exact raised _ _
  · exact raised _ _
  · exact raised _ _

/-- The port after the read of a tile checked alone. -/
def readAlone : State := s.onPort a (fun p => ({ p with park := p.park.erase x, alone := bump p.alone } : Port).closeAtZero)

/-- A tile checked alone, counted in its slice. -/
def countAlone (slice : Nat) : State := match finOf 25 slice with | some n => s.onSlice n (fun y => { y with alone := bump y.alone }) | none => s

theorem Tells.countAlone (slice : Nat) : Tells s (countAlone s slice) := by
  unfold Machine.countAlone
  split
  · exact .onSlice s _ fun _ => rfl
  · exact .refl s

theorem countAlone_keeps (slice : Nat) : (countAlone s slice).fst = s.fst ∧ (countAlone s slice).ctxs = s.ctxs := by
  unfold countAlone
  split <;> exact ⟨rfl, rfl⟩

/-- What is counted and raised before the verdict goes. -/
def beforeVerdict (high : Bool) (diffs : List Nat) : Judged → State
  | .clean => s
  | .void => countVoid s x.desc.ctx
  | .catch r => detectVerdict s a x r x.side.low x.side.special high diffs

theorem Tells.beforeVerdict (high : Bool) (diffs : List Nat) (j : Judged) : Tells s (beforeVerdict s a x high diffs j) := by
  match j with
  | .clean => exact .refl s
  | .void => exact .countVoid s _
  | .catch r => exact .detectVerdict s a x r _ _ _ _

end

/-- The verdict and reason code of R178. -/
def Judged.verdict : Judged → Verdict × BitVec 4
  | .clean => (.clean, 0)
  | .void => (.void, 0)
  | .catch r => (.catch, r)

/-- The rows in which a tile checked alone differs (R151). -/
def aloneDiffs (x : Tile) (acc : Accs) : List Nat := rowDiffs x.side.y (tapRows acc (tileAnchor x.desc) (vector64 x.rho.toNat))

/-- The judgement of a tile checked alone (R154). -/
def judgeAlone (x : Tile) (inexact : Bool) (acc : Accs) : Judged :=
  judge x.side.cause x.tagBad inexact x.side.low x.side.special (highP x.desc x.side) (aloneDiffs x acc ≠ [])

section

variable {s : State} {a : Arr} {x : Tile}

theorem exec_singleReadEnd (reads : (s.wce.ports.at a).park.find? (fun y => y.reading && !y.member) = some x) (inexact : Bool) (acc : Accs) :
    exec (.singleReadEnd a inexact acc) s = .next (sendVerdict
      (beforeVerdict (countAlone (readAlone s a x) x.slice) a x (highP x.desc x.side) (aloneDiffs x acc) (judgeAlone x inexact acc))
      a x.slice x.exec x.desc.seq (judgeAlone x inexact acc).verdict.1 1 0 (judgeAlone x inexact acc).verdict.2) := by
  show execSingleReadEnd a inexact acc s = _
  unfold execSingleReadEnd
  rw [reads]
  show Host.Outcome.next (match judgeAlone x inexact acc with | .clean => _ | .void => _ | .catch r => _) = _
  cases judgeAlone x inexact acc <;> rfl

theorem exec_singleReadStart (works : s.isolated a = false) (due : (s.wce.ports.at a).dueSingle = some x)
    (parked : x ∈ (s.wce.ports.at a).park) : exec (.singleReadStart a x.desc.seq) s = .next (beginRead s a x) := by
  show execSingleReadStart a x.desc.seq s = _
  unfold execSingleReadStart
  dsimp only
  rw [if_neg (Bool.eq_false_iff.1 works), if_pos, due]
  · dsimp only
    rw [if_pos rfl]
  · exact List.any_eq_true.2 ⟨x, List.mem_append_right _ parked, decide_eq_true rfl⟩

theorem readAlone_port : (readAlone s a x).wce.ports.at a =
    ({ s.wce.ports.at a with park := (s.wce.ports.at a).park.erase x, alone := bump (s.wce.ports.at a).alone } : Port).closeAtZero := Tab.at_upd_same ..

theorem sideCause_of_good {d : TileDesc} {y : Side} (full : y.cycles = tileK d) (good : descCause d = 0) : sideCause d y = 0 := by
  unfold sideCause
  rw [good, if_neg (fun h => h rfl), if_neg (fun h => h full)]

end

/-- The table of R154 with its precedence. -/
theorem judgeAlone_table (x : Tile) (inexact : Bool) (acc : Accs) :
    (x.side.cause ≠ 0 → judgeAlone x inexact acc = .catch 4) ∧
    (x.side.cause = 0 → x.tagBad = true → judgeAlone x inexact acc = .catch 5) ∧
    (x.side.cause = 0 → x.tagBad = false → inexact = true → ((x.side.low = true ∨ x.side.special = true) ∨ highP x.desc x.side = true) →
      judgeAlone x inexact acc = .void) ∧
    (x.side.cause = 0 → x.tagBad = false → inexact = true → ¬(x.side.low = true ∨ x.side.special = true) → highP x.desc x.side = false →
      judgeAlone x inexact acc = .catch 3) ∧
    (x.side.cause = 0 → x.tagBad = false → inexact = false → (x.side.low = true ∨ x.side.special = true) → judgeAlone x inexact acc = .catch 2) ∧
    (x.side.cause = 0 → x.tagBad = false → inexact = false → ¬(x.side.low = true ∨ x.side.special = true) → aloneDiffs x acc ≠ [] →
      judgeAlone x inexact acc = .catch 1) ∧
    (x.side.cause = 0 → x.tagBad = false → inexact = false → ¬(x.side.low = true ∨ x.side.special = true) → aloneDiffs x acc = [] →
      judgeAlone x inexact acc = .clean) := by
  unfold judgeAlone judge
  refine ⟨fun bad => if_pos bad, fun c bad => ?_, fun c g i why => ?_, fun c g i none calm => ?_, fun c g i why => ?_, fun c g i none why => ?_,
    fun c g i none same => ?_⟩
  · simp [c, bad]
  · obtain (low | special) | high := why
    · simp [c, g, i, low]
    · simp [c, g, i, special]
    · simp [c, g, i, high]
  · simp [c, g, i, calm, none]
  · simp [c, g, i, why]
  · simp [c, g, i, none, why]
  · simp [c, g, i, none, same]

theorem beforeVerdict_raises (s : State) (a : Arr) (x : Tile) {reason : BitVec 4} {code : BitVec 16}
    (which : reason = 1 ∧ code = 0x2001 ∨ reason = 2 ∧ code = 0x2002 ∨ reason = 3 ∧ code = 0x2003) (high : Bool) (diffs : List Nat) :
    ∃ e ∈ (beforeVerdict s a x high diffs (.catch reason)).fst.faultQ, e.code = code ∧ e.cls = .c ∧ e.unit = uPort a :=
  detectVerdict_raises s a x which ..

theorem beforeVerdict_clean (s : State) (a : Arr) (x : Tile) (high : Bool) (diffs : List Nat) : beforeVerdict s a x high diffs .clean = s := rfl

theorem detectVerdict_ports (s : State) (a : Arr) (x : Tile) (reason : BitVec 4) (low special high : Bool) (diffs : List Nat) :
    (detectVerdict s a x reason low special high diffs).wce.ports = s.wce.ports := by
  unfold detectVerdict
  split
  · exact detect_ports ..
  · split
    · exact detect_ports ..
    · split
      · exact detect_ports ..
      · rfl

theorem beforeVerdict_ports (s : State) (a : Arr) (x : Tile) (high : Bool) (diffs : List Nat) (j : Judged) :
    (beforeVerdict s a x high diffs j).wce.ports = s.wce.ports := by
  match j with
  | .clean => rfl
  | .void => rfl
  | .catch r => exact detectVerdict_ports ..

theorem countAlone_ports (s : State) (slice : Nat) : (countAlone s slice).wce.ports = s.wce.ports := by
  unfold countAlone
  split <;> rfl

/-- Settles O28: the tile leaves the park, and its verdict is that of the table of R154. -/
theorem singleReadGivesTheVerdict : Obligations.SingleReadGivesTheVerdict := by
  unfold Obligations.SingleReadGivesTheVerdict
  refine ⟨fun s a seq here notDue => ?_, fun s a seq isolated => ?_, fun s a tile works none oldest clean full good => ?_,
    fun s a inexact acc x reads first => ?_⟩
  · show execSingleReadStart a seq s = _
    unfold execSingleReadStart
    dsimp only
    rw [if_pos here]
    split
    · rfl
    · cases due : (s.wce.ports.at a).dueSingle with
      | none => rfl
      | some y => exact congrArg Host.Outcome.next (if_neg (notDue y due))
  · show execSingleReadStart a seq s = _
    unfold execSingleReadStart
    exact if_pos isolated
  · have due : (s.wce.ports.at a).dueSingle = some tile := by
      unfold Port.dueSingle
      rw [if_neg (Bool.eq_false_iff.1 none), oldest]
    have run := exec_singleReadStart works due (List.mem_of_find?_eq_some oldest)
    rw [beginRead_of_good s a fun _ => sideCause_of_good full good] at run
    refine ⟨_, run, ?_, rfl, rfl, rfl, (execSingleReadStart_kept ..).of_next run⟩
    rw [State.onPort_wce, Tab.at_upd_same]
    exact Port.closeAtZero_park _
  · intro differ own
    have run := exec_singleReadEnd reads inexact acc
    have table := judgeAlone_table x inexact acc
    have raises := fun reason code which => beforeVerdict_raises (countAlone (readAlone s a x) x.slice) a x (reason := reason) (code := code) which
      (highP x.desc x.side) (aloneDiffs x acc)
    have ports := (beforeVerdict_ports (countAlone (readAlone s a x) x.slice) a x (highP x.desc x.side) (aloneDiffs x acc) (judgeAlone x inexact acc)).trans
      (countAlone_ports (readAlone s a x) x.slice)
    have clean := beforeVerdict_clean (countAlone (readAlone s a x) x.slice) a x (highP x.desc x.side) (aloneDiffs x acc)
    generalize judgeAlone x inexact acc = j at run table ports
    have caught : ((beforeVerdict (countAlone (readAlone s a x) x.slice) a x (highP x.desc x.side) (aloneDiffs x acc) j).wce.ports.at a).caught.contains
        x.exec = false := by
      rw [ports, readAlone_port, Port.closeAtZero_caught]
      exact first
    have sent := sendVerdict_sends a caught x.slice x.desc.seq j.verdict.1 1 0 j.verdict.2
    have port := (Tells.sendVerdict (beforeVerdict (countAlone (readAlone s a x) x.slice) a x (highP x.desc x.side) (aloneDiffs x acc) j) a x.slice x.exec x.desc.seq
      j.verdict.1 1 0 j.verdict.2).ports a
    rw [ports, readAlone_port] at port
    have fst := sendVerdict_fst (beforeVerdict (countAlone (readAlone s a x) x.slice) a x (highP x.desc x.side) (aloneDiffs x acc) j) a x.slice x.exec x.desc.seq
      j.verdict.1 1 0 j.verdict.2
    have ctxs := sendVerdict_ctxs (beforeVerdict (countAlone (readAlone s a x) x.slice) a x (highP x.desc x.side) (aloneDiffs x acc) j) a x.slice x.exec x.desc.seq
      j.verdict.1 1 0 j.verdict.2
    obtain ⟨descr, operand, void, inexactCatch, low, differs, agrees⟩ := table
    refine ⟨_, _, run, sent, (congrArg Port.park port :).trans (Port.closeAtZero_park _), (congrArg Port.alone port :).trans (Port.closeAtZero_alone _),
      (execSingleReadEnd_kept ..).of_next run, rfl, rfl, rfl, rfl, rfl, rfl, fun bad => ?_, fun c bad => ?_, fun c g i why => ?_, fun c g i none calm => ?_,
      fun c g i why => ?_, fun c g i none why => ?_, fun c g i none same => ?_⟩
    · rw [descr bad]
      exact ⟨rfl, rfl⟩
    · rw [operand c bad]
      exact ⟨rfl, rfl⟩
    · rw [void c g i why]
      exact ⟨rfl, rfl⟩
    · rw [fst, inexactCatch c g i none calm]
      exact ⟨rfl, rfl, raises 3 _ (by decide)⟩
    · rw [fst, low c g i why]
      exact ⟨rfl, rfl, raises 2 _ (by decide)⟩
    · rw [fst, differs c g i none why]
      exact ⟨rfl, rfl, raises 1 _ (by decide)⟩
    · rw [fst, ctxs, agrees c g i none (Classical.not_not.1 same), clean]
      exact ⟨rfl, rfl, countAlone_keeps _ _⟩

end Sys2Proof.Machine


namespace Sys2Proof.Machine

/-! # Groups (R157, R158, R171) -/

/-- The judgement of a member's read (R158): its rows are compared with the group's. -/
def judgeMember (x : Tile) (inexact : Bool) : Judged := judge x.side.cause x.tagBad inexact x.side.low x.side.special (highP x.desc x.side) false

/-- A group after a member's read, but for the count of reads. -/
def groupWith (g : Group) (x : Tile) (acc : Accs) : Judged → Group
  | .clean => { g with y := (List.range 64).map (fun i => res61 ((g.y.getD i 0).toNat + (x.side.y.getD i 0).toNat))
                       bsum := addRows g.bsum (memberRows acc (tileAnchor x.desc) x.lambda.toNat) }
  | .void => { g with voids := g.voids + 1 }
  | .catch _ => { g with left := g.left + 1 }

/-- What a member's read tells of its own verdict. -/
def memberTold (s : State) (a : Arr) (x : Tile) : Judged → State
  | .clean => s
  | .void => countVoid s x.desc.ctx
  | .catch r => sendVerdict (detectVerdict s a x r x.side.low x.side.special (highP x.desc x.side) []) a x.slice x.exec x.desc.seq .catch 1 0 r

/-- A group put back with a read more. -/
def putGroup (s : State) (a : Arr) (g : Group) : State := s.onPort a (fun p => { p with group := some { g with read := g.read + 1 } })

section

variable (s : State) (a : Arr) (x : Tile)

theorem Tells.memberTold (j : Judged) : Tells s (memberTold s a x j) := by
  match j with
  | .clean => exact .refl s
  | .void => exact .countVoid s _
  | .catch r => exact (Tells.detectVerdict s a x r _ _ _ _).trans (.sendVerdict ..)

theorem readMember_eq (g : Group) (inexact : Bool) (acc : Accs) : readMember s a x g inexact acc =
    putGroup (memberTold s a x (judgeMember x inexact)) a (groupWith g x acc (judgeMember x inexact)) := by
  unfold readMember
  show (match judgeMember x inexact with | .clean => _ | .void => _ | .catch r => _) = _
  cases judgeMember x inexact <;> rfl

theorem countVoid_voids (c : Ctx) : ((countVoid s c).ctx c).cov.voids = (s.ctx c).cov.voids + 1 := by
  unfold countVoid
  rw [State.onPrv_ctx_same, State.onCov_ctx_same]

/-- A port with a tile less in its park. -/
def unpark : State := s.onPort a (fun p => { p with park := p.park.erase x })

theorem unpark_port : (unpark s a x).wce.ports.at a = { s.wce.ports.at a with park := (s.wce.ports.at a).park.erase x } := Tab.at_upd_same ..

variable {s a x}

/-- The last member parked is read: no other read starts. -/
theorem exec_memberRead {g : Group} (reads : (s.wce.ports.at a).park.find? (fun y => y.reading && y.member) = some x)
    (group : (s.wce.ports.at a).group = some g) (last : ((s.wce.ports.at a).park.erase x).any (fun y => y.member) = false) (inexact : Bool) (acc : Accs) :
    exec (.memberRead a inexact acc) s = .next
      (putGroup (memberTold (unpark s a x) a x (judgeMember x inexact)) a (groupWith g x acc (judgeMember x inexact))) := by
  show execMemberRead a inexact acc s = _
  unfold execMemberRead
  rw [reads]
  show Host.Outcome.next (memberStart (match ((unpark s a x).wce.ports.at a).group with
    | some g => readMember (unpark s a x) a x g inexact acc | none => unpark s a x) a) = _
  rw [unpark_port]
  dsimp only
  rw [group]
  dsimp only
  rw [readMember_eq]
  refine congrArg Host.Outcome.next (memberStart_idle _ a (.inl ?_))
  have park := (Tells.memberTold (unpark s a x) a x (judgeMember x inexact)).park a
  unfold putGroup
  rw [State.onPort_wce, Tab.at_upd_same]
  dsimp only
  rw [park, unpark_port]
  exact last

/-! ## The close of a group -/

/-- A group leaves its port, counted there and in its slice. -/
def countGroup (s : State) (a : Arr) (g : Group) : State :=
  match finOf 25 g.slice with
  | some n => (s.onPort a (fun p => { p with group := none, combined := p.combined + BitVec.ofNat 16 (g.members - g.voids - g.left) })).onSlice n
      (fun y => { y with groups := bump y.groups })
  | none => s.onPort a (fun p => { p with group := none, combined := p.combined + BitVec.ofNat 16 (g.members - g.voids - g.left) })

/-- A group that leaves, counted in its context. -/
def groupLeft (s : State) (a : Arr) (g : Group) : State :=
  (countGroup s a g).onCov g.ctx (fun x => { x with combined := x.combined + BitVec.ofNat 64 (g.members - g.voids - g.left) })

/-- CATCH_WITNESS of a group (R161). -/
def groupEvent (a : Arr) (g : Group) (diffs : List Nat) : Ev :=
  { code := 0x2001, cls := .c, unit := uPort a, ctx := some g.ctx, p16 := g.seq.setWidth 16,
    p32 := BitVec.ofNat 32 (diffs.headD 0 + 64 + (if g.chained then 128 else 0) + 256 * (g.members - g.voids - g.left) + 65536 * diffs.length),
    acc := 0x10, addr := g.seq.setWidth 64 ||| (((g.pass.setWidth 32 : BitVec 32).setWidth 64) <<< 32) }

/-- A residue catch of a group, before its verdict. -/
def groupCaught (s : State) (a : Arr) (g : Group) (diffs : List Nat) : State :=
  (partingSend (countSliceCatch (s.onCov g.ctx (fun x => { x with residue := bump x.residue })) g.slice) g.slice (g.ctx, g.pass, g.replay)).emit
    (groupEvent a g diffs)

theorem exec_groupClose {g : Group} (group : (s.wce.ports.at a).group = some g) (closing : g.closing = true) (all : g.read = g.members) :
    exec (.groupClose a) s = .next (if rowDiffs g.y (groupZ g) = [] then
        sendVerdict (groupLeft s a g) a g.slice (g.ctx, g.pass, g.replay) g.seq .clean (g.members - g.left) g.voids 0
      else sendVerdict (groupCaught (groupLeft s a g) a g (rowDiffs g.y (groupZ g))) a g.slice (g.ctx, g.pass, g.replay) g.seq .catch
        (g.members - g.left) g.voids 1) := by
  show execGroupClose a s = _
  unfold execGroupClose
  dsimp only
  rw [group]
  dsimp only
  rw [if_neg (by simp [closing, all])]
  split
  · rfl
  · rfl

theorem countGroup_port (s : State) (a : Arr) (g : Group) : (countGroup s a g).wce.ports.at a =
    { s.wce.ports.at a with group := none, combined := (s.wce.ports.at a).combined + BitVec.ofNat 16 (g.members - g.voids - g.left) } := by
  unfold countGroup
  split <;> exact Tab.at_upd_same ..

theorem countGroup_keeps (s : State) (a : Arr) (g : Group) : (countGroup s a g).fst = s.fst ∧ (countGroup s a g).ctxs = s.ctxs := by
  unfold countGroup
  split <;> exact ⟨rfl, rfl⟩

theorem groupLeft_combined (s : State) (a : Arr) (g : Group) :
    ((groupLeft s a g).ctx g.ctx).cov.combined = (s.ctx g.ctx).cov.combined + BitVec.ofNat 64 (g.members - g.voids - g.left) := by
  unfold groupLeft
  rw [State.onCov_ctx_same, State.ctx_eq_of_ctxs (countGroup_keeps s a g).2]

theorem groupCaught_keeps (s : State) (a : Arr) (g : Group) (diffs : List Nat) :
    (groupCaught s a g diffs).wce.ports = s.wce.ports ∧ ((groupCaught s a g diffs).ctx g.ctx).cov.combined = (s.ctx g.ctx).cov.combined := by
  have counted (u : State) : (countSliceCatch u g.slice).wce.ports = u.wce.ports ∧ (countSliceCatch u g.slice).ctxs = u.ctxs := by
    unfold countSliceCatch
    split <;> exact ⟨rfl, rfl⟩
  have parted (u : State) (e : Ctx × BitVec 48 × BitVec 8) : (partingSend u g.slice e).wce.ports = u.wce.ports ∧ (partingSend u g.slice e).ctxs = u.ctxs := by
    unfold partingSend
    split
    · exact ⟨rfl, rfl⟩
    · split <;> exact ⟨rfl, rfl⟩
  unfold groupCaught
  rw [State.emit_wce, State.emit_ctx, (parted _ _).1, (counted _).1, State.ctx_eq_of_ctxs (parted _ _).2, State.ctx_eq_of_ctxs (counted _).2,
    State.onCov_ctx_same]
  exact ⟨rfl, rfl⟩

end

/-- The table of R158 for a member without a catch of its operands or its descriptor. -/
theorem judgeMember_table {x : Tile} (clean : x.side.cause = 0) (good : x.tagBad = false) (inexact : Bool) :
    (inexact = false → x.side.low = false → x.side.special = false → judgeMember x inexact = .clean) ∧
    (inexact = true → (x.side.low || x.side.special || highP x.desc x.side) = true → judgeMember x inexact = .void) ∧
    (inexact = true → (x.side.low || x.side.special || highP x.desc x.side) = false → judgeMember x inexact = .catch 3) := by
  unfold judgeMember judge
  rw [clean, good, if_neg (fun h => h rfl), if_neg nofun]
  refine ⟨fun exact low special => ?_, fun i why => ?_, fun i calm => ?_⟩
  · rw [exact, low, special, if_neg nofun, if_neg nofun, if_neg nofun]
  · rw [i, if_pos rfl, if_pos why]
  · rw [i, if_pos rfl, if_neg (Bool.eq_false_iff.1 calm)]

theorem groupWith_counts (g : Group) (x : Tile) (acc : Accs) (j : Judged) : (groupWith g x acc j).read = g.read ∧ (groupWith g x acc j).members = g.members := by
  cases j <;> exact ⟨rfl, rfl⟩

/-- Settles O29: a member's read enters the group or leaves it; the close compares what the group holds. -/
theorem groupsAreCheckedAtTheirClose : Obligations.GroupsAreCheckedAtTheirClose := by
  unfold Obligations.GroupsAreCheckedAtTheirClose
  refine ⟨fun s a acc inexact x g reads group clean good last => ?_, fun s a g group closing all first => ?_⟩
  · have run := exec_memberRead reads group last inexact acc
    obtain ⟨whole, void, caught⟩ := judgeMember_table clean good inexact
    generalize judgeMember x inexact = j at run whole void caught
    have port : (putGroup (memberTold (unpark s a x) a x j) a (groupWith g x acc j)).wce.ports.at a =
        { (memberTold (unpark s a x) a x j).wce.ports.at a with group := some { groupWith g x acc j with read := (groupWith g x acc j).read + 1 } } :=
      Tab.at_upd_same ..
    obtain ⟨read, members⟩ := groupWith_counts g x acc j
    have park := ((Tells.memberTold (unpark s a x) a x j).park a).trans (congrArg Port.park (unpark_port s a x))
    refine ⟨_, _, run, congrArg Port.group port, congrArg (· + 1) read, members, (execMemberRead_kept ..).of_next run, (congrArg Port.park port).trans park,
      fun exact low special => ?_, fun i why => ?_, fun i calm first => ?_⟩
    · rw [whole exact low special]
      exact ⟨rfl, rfl, rfl, rfl, rfl, rfl⟩
    · rw [void i why]
      exact ⟨rfl, rfl, rfl, rfl, countVoid_voids _ _⟩
    · rw [caught i calm]
      refine ⟨rfl, rfl, rfl, rfl, _, sendVerdict_sends (s := detectVerdict (unpark s a x) a x 3 _ _ _ []) a ?_ _ _ _ _ _ _, rfl, rfl, rfl⟩
      rw [detectVerdict_ports, unpark_port]
      exact first
  · have run := exec_groupClose group closing all
    have left : (groupLeft s a g).wce.ports.at a = _ := countGroup_port s a g
    by_cases same : rowDiffs g.y (groupZ g) = []
    · rw [if_pos same] at run
      have told := Tells.sendVerdict (groupLeft s a g) a g.slice (g.ctx, g.pass, g.replay) g.seq .clean (g.members - g.left) g.voids 0
      refine ⟨_, verdictFlit a (g.ctx, g.pass, g.replay) g.seq .clean (g.members - g.left) g.voids 0, run, ?_, ?_, (execGroupClose_kept ..).of_next run,
        sendVerdict_sends a ?_ .., rfl, rfl, rfl, rfl, rfl, ?_, fun _ => ⟨rfl, ?_⟩, fun differ => absurd same differ⟩
      · rw [told.group, left]
      · rw [told.park, left]
      · rw [left]
        exact first
      · rw [State.ctx_eq_of_ctxs (sendVerdict_ctxs ..), groupLeft_combined]
      · rw [sendVerdict_fst]
        exact (countGroup_keeps s a g).1
    · rw [if_neg same] at run
      obtain ⟨ports, combined⟩ := groupCaught_keeps (groupLeft s a g) a g (rowDiffs g.y (groupZ g))
      have told := Tells.sendVerdict (groupCaught (groupLeft s a g) a g (rowDiffs g.y (groupZ g))) a g.slice (g.ctx, g.pass, g.replay) g.seq .catch
        (g.members - g.left) g.voids 1
      refine ⟨_, verdictFlit a (g.ctx, g.pass, g.replay) g.seq .catch (g.members - g.left) g.voids 1, run, ?_, ?_, (execGroupClose_kept ..).of_next run,
        sendVerdict_sends a ?_ .., rfl, rfl, rfl, rfl, rfl, ?_, fun agree => absurd agree same, fun _ => ⟨rfl, rfl, ?_⟩⟩
      · rw [told.group, ports, left]
      · rw [told.park, ports, left]
      · rw [ports, left]
        exact first
      · rw [State.ctx_eq_of_ctxs (sendVerdict_ctxs ..), combined, groupLeft_combined]
      · rw [sendVerdict_fst]
        exact ⟨_, State.emit_raises _ (groupEvent a g _) nofun, rfl, rfl, rfl, rfl⟩

end Sys2Proof.Machine


namespace Sys2Proof.Machine

/-! # Operand blanks (R94, R112, R117) -/

/-! ## The sum over a blank's words -/

/-- Σ dᵢ·ρ^(k+i+1), not reduced: what R94 sums, from word `k` on. -/
def wordSum (rho : Nat) : Nat → List (BitVec 32) → Nat
  | _, [] => 0
  | k, d :: ds => d.toNat * rho ^ (k + 1) + wordSum rho (k + 1) ds

/-- Two numbers with the same remainder in R94's field. -/
def Same61 (a b : Nat) : Prop := a % p61 = b % p61

theorem Same61.trans {a b c : Nat} (h : Same61 a b) (k : Same61 b c) : Same61 a c := Eq.trans h k

theorem Same61.symm {a b : Nat} (h : Same61 a b) : Same61 b a := Eq.symm h

theorem Same61.reduced (n : Nat) : Same61 (n % p61) n := Nat.mod_mod ..

theorem Same61.mul_right {a b : Nat} (h : Same61 a b) (n : Nat) : Same61 (a * n) (b * n) := by
  unfold Same61 at *
  rw [Nat.mul_mod, h, ← Nat.mul_mod]

theorem Same61.mul_left {a b : Nat} (n : Nat) (h : Same61 a b) : Same61 (n * a) (n * b) := by
  rw [Nat.mul_comm n a, Nat.mul_comm n b]
  exact h.mul_right n

theorem Same61.add_right {a b : Nat} (n : Nat) (h : Same61 a b) : Same61 (a + n) (b + n) := by
  unfold Same61 at *
  rw [Nat.add_mod, h, ← Nat.add_mod]

theorem Same61.add_left {a b : Nat} (n : Nat) (h : Same61 a b) : Same61 (n + a) (n + b) := by
  rw [Nat.add_comm n a, Nat.add_comm n b]
  exact h.add_right n

theorem fingerprint_eq_wordSum (rho : Nat) (ws : List (BitVec 32)) : ∀ k, Same61 (fingerprint rho ws * rho ^ k) (wordSum rho k ws) := by
  induction ws with
  | nil => intro k; rw [wordSum, fingerprint, List.foldr_nil, Nat.zero_mul]; rfl
  | cons d ds ih =>
    intro k
    have reduces : Same61 (fingerprint rho (d :: ds) * rho ^ k) ((fingerprint rho ds + d.toNat) * rho * rho ^ k) :=
      ((Same61.reduced _).trans ((Same61.reduced _).mul_right _)).mul_right _
    have expands : (fingerprint rho ds + d.toNat) * rho * rho ^ k = d.toNat * rho ^ (k + 1) + fingerprint rho ds * rho ^ (k + 1) := by
      rw [Nat.mul_assoc, ← Nat.pow_succ', Nat.add_mul, Nat.add_comm]
    rw [expands] at reduces
    exact reduces.trans ((ih (k + 1)).add_left _)

theorem res61_toNat (n : Nat) : (res61 n).toNat = n % p61 := by
  unfold res61
  rw [BitVec.toNat_ofNat]
  exact Nat.mod_eq_of_lt (Nat.lt_trans (Nat.mod_lt n (show 0 < p61 by decide)) (by decide))

theorem partialFp_single (rho i : Nat) (d : BitVec 32) : Same61 (partialFp rho [(i, d)]) (d.toNat * rho ^ (i + 1)) := by
  show Same61 ((0 + d.toNat * (rho ^ (i + 1) % p61) % p61) % p61) _
  rw [Nat.zero_add]
  exact (Same61.reduced _).trans ((Same61.reduced _).trans ((Same61.reduced _).mul_left _))

/-- A tracker that has seen the words of a blank below `n`. -/
def Tracker.SeenBelow (k : Tracker) (n : Nat) : Prop := ∀ j < 1024, k.seen.getLsbD j = decide (j < n)

theorem Tracker.take_next {k : Tracker} {n : Nat} (below : k.SeenBelow n) (room : n < 1024) (rho : BitVec 61) (d : BitVec 32) :
    (k.take (some rho) (n, d)).SeenBelow (n + 1) ∧ Same61 (k.take (some rho) (n, d)).sum.toNat (k.sum.toNat + d.toNat * rho.toNat ^ (n + 1)) ∧
      (k.take (some rho) (n, d)).sum.toNat < p61 ∧
      ((k.take (some rho) (n, d)).exec, (k.take (some rho) (n, d)).blank, (k.take (some rho) (n, d)).source, (k.take (some rho) (n, d)).done) =
        (k.exec, k.blank, k.source, k.done) := by
  have new : ¬(1024 ≤ n ∨ k.seen.getLsbD n = true) := by
    rw [below n room]
    simp [room]
  unfold Tracker.take
  rw [if_neg new]
  refine ⟨fun j small => ?_, ?_, ?_, rfl⟩
  · show (k.seen ||| (1#1024 <<< n)).getLsbD j = _
    rw [BitVec.getLsbD_or, below j small, BitVec.getLsbD_shiftLeft, BitVec.getLsbD_one]
    by_cases lt : j < n
    · simp [lt, Nat.lt_succ_of_lt lt]
    · by_cases same : j = n
      · simp [same, room]
      · have : ¬j < n + 1 := by omega
        have : ¬j - n = 0 := by omega
        simp [*]
  · show Same61 (res61 _).toNat _
    rw [res61_toNat]
    exact (Same61.reduced _).trans ((partialFp_single _ _ _).add_left _)
  · show (res61 _).toNat < _
    rw [res61_toNat]
    exact Nat.mod_lt _ (by decide)

theorem Tracker.take_all (rho : BitVec 61) (f : Nat → BitVec 32) : ∀ (m n : Nat) (k : Tracker), n + m ≤ 1024 → k.SeenBelow n → k.sum.toNat < p61 →
    let r := ((List.range' n m).map (fun i => (i, f i))).foldl (Tracker.take (some rho)) k
    r.SeenBelow (n + m) ∧ Same61 r.sum.toNat (k.sum.toNat + wordSum rho.toNat n ((List.range' n m).map f)) ∧ r.sum.toNat < p61 ∧
      (r.exec, r.blank, r.source, r.done) = (k.exec, k.blank, k.source, k.done) := by
  intro m
  induction m with
  | zero => exact fun n k _ below small => ⟨below, rfl, small, rfl⟩
  | succ m ih =>
    intro n k room below small
    obtain ⟨seen, sum, lt, same⟩ := Tracker.take_next below (by omega) rho (f n)
    obtain ⟨seen', sum', lt', same'⟩ := ih (n + 1) _ (by omega) seen lt
    refine ⟨?_, ?_, lt', same'.trans same⟩
    · rw [show n + (m + 1) = n + 1 + m by omega]
      exact seen'
    · refine sum'.trans ((sum.add_right _).trans ?_)
      rw [Nat.add_assoc]
      rfl

/-- A blank whose words have all passed: its sum is that of R94. -/
theorem Tracker.take_fullWords (rho : BitVec 61) (data : List (BitVec 32)) {k : Tracker} (seen : k.seen = 0) (sum : k.sum = 0) :
    let r := (fullWords data).foldl (Tracker.take (some rho)) k
    r.seen = BitVec.allOnes 1024 ∧ r.sum = fpOf rho ((List.range 1024).map (fun i => data.getD i 0)) ∧
      (r.exec, r.blank, r.source, r.done) = (k.exec, k.blank, k.source, k.done) := by
  have below : k.SeenBelow 0 := fun j _ => by rw [seen]; simp
  obtain ⟨all, total, lt, same⟩ := Tracker.take_all rho (fun i => data.getD i 0) 1024 0 k (by decide) below (by rw [sum]; decide)
  rw [← List.range_eq_range'] at all total lt same
  refine ⟨?_, ?_, same⟩
  · refine BitVec.eq_of_getLsbD_eq fun j small => ?_
    rw [BitVec.getLsbD_allOnes]
    exact (all j small).trans (by simp [small])
  · refine BitVec.eq_of_toNat_eq ?_
    have fp := fingerprint_eq_wordSum rho.toNat ((List.range 1024).map (fun i => data.getD i 0)) 0
    rw [Nat.pow_zero, Nat.mul_one] at fp
    rw [fpOf, res61_toNat]
    rw [sum, show (0 : BitVec 61).toNat = 0 from rfl, Nat.zero_add] at total
    have eq := total.trans fp.symm
    exact (Nat.mod_eq_of_lt lt).symm.trans eq

/-! ## Blanks at a port -/

section

variable {p : Port} {e : Ctx × BitVec 48 × BitVec 8} {blank source : Nat}

theorem Port.tracked_filter {f : Tracker → Bool} (none : p.tracked e blank source = none) :
    ({ p with blanks := p.blanks.filter f } : Port).tracked e blank source = Option.none :=
  List.find?_eq_none.2 fun k mem => List.find?_eq_none.1 none k (List.mem_filter.1 mem).1

theorem Port.tracked_append {q : Port} {k : Tracker} (none : p.tracked e blank source = none) (added : q.blanks = p.blanks ++ [k])
    (named : (k.exec, k.blank, k.source) = (e, blank, source)) : q.tracked e blank source = some k := by
  obtain ⟨rfl, rfl, rfl⟩ : k.exec = e ∧ k.blank = blank ∧ k.source = source := by simpa using named
  unfold Port.tracked at none ⊢
  rw [added, List.find?_append, none]
  simp

theorem Port.tracked_onBlank {k : Tracker} (known : p.tracked e blank source = some k) {f : Tracker → Tracker}
    (same : ∀ k, ((f k).exec, (f k).blank, (f k).source) = (k.exec, k.blank, k.source)) :
    (p.onBlank e blank source f).tracked e blank source = some (f k) := by
  have parts (k : Tracker) : (f k).exec = k.exec ∧ (f k).blank = k.blank ∧ (f k).source = k.source := by simpa using same k
  unfold Port.tracked at known ⊢
  have named := List.find?_some known
  rw [Port.onBlank]
  dsimp only
  rw [List.find?_map]
  have test : ((fun k : Tracker => decide (k.exec = e) && decide (k.blank = blank) && decide (k.source = source)) ∘
      fun k => if k.exec = e ∧ k.blank = blank ∧ k.source = source then f k else k) =
      fun k => decide (k.exec = e) && decide (k.blank = blank) && decide (k.source = source) := by
    funext k
    dsimp only [Function.comp_apply]
    split
    · rw [(parts k).1, (parts k).2.1, (parts k).2.2]
    · rfl
  rw [test, known, Option.map_some, if_pos]
  simpa [and_assoc] using named

end

section

variable {s : State} {a : Arr} {x : Tile}

theorem passOver_port (s : State) (a : Arr) (e : Ctx × BitVec 48 × BitVec 8) : (passOver s a e).wce.ports.at a =
    { s.wce.ports.at a with blanks := (s.wce.ports.at a).blanks.filter (fun k => k.exec.1 ≠ e.1 || k.exec = e) } := Tab.at_upd_same ..

theorem consumed_wce (s : State) (a : Arr) (c : Ctx) (tag : BitVec 64) : (consumed s a c tag).wce = s.wce := by
  unfold consumed
  split <;> rfl

/-- The first words of a blank with a place for it: its tracker follows the others. -/
theorem passWords_new {e : Ctx × BitVec 48 × BitVec 8} {blank source : Nat} (new : (s.wce.ports.at a).tracked e blank source = none)
    (room : ((s.wce.ports.at a).blanks.filter (fun k => (k.exec.1 ≠ e.1 || k.exec = e) && !k.done)).length < 16) (tag : BitVec 64) (words : WordWrites) :
    passWords s a e blank source tag words = (consumed (passOver s a e) a e.1 tag).onPort a (fun p =>
      { p with blanks := p.blanks ++ [words.foldl (Tracker.take (s.keyOf e.1)) { exec := e, blank, source }] }) := by
  rw [passWords_first, if_neg]
  · rw [consumed_wce, passOver_port, Port.openBlanks, List.filter_filter, Nat.not_le]
    refine Nat.lt_of_le_of_lt (Nat.le_of_eq (congrArg List.length (List.filter_congr fun k _ => Bool.and_comm _ _))) room
  · rw [passOver_port]
    exact Port.tracked_filter new

theorem passWords_tracked {e : Ctx × BitVec 48 × BitVec 8} {blank source : Nat} (new : (s.wce.ports.at a).tracked e blank source = none)
    (room : ((s.wce.ports.at a).blanks.filter (fun k => (k.exec.1 ≠ e.1 || k.exec = e) && !k.done)).length < 16) (tag : BitVec 64) {words : WordWrites} {r : Tracker}
    (is : words.foldl (Tracker.take (s.keyOf e.1)) { exec := e, blank, source } = r) (named : (r.exec, r.blank, r.source) = (e, blank, source)) :
    ((passWords s a e blank source tag words).wce.ports.at a).tracked e blank source = some r := by
  rw [passWords_new new room, is, State.onPort_wce, Tab.at_upd_same, consumed_wce, passOver_port]
  exact Port.tracked_append (Port.tracked_filter new) rfl named

theorem Tracker.take_named (key : Option (BitVec 61)) (words : WordWrites) (k : Tracker) :
    ((words.foldl (Tracker.take key) k).exec, (words.foldl (Tracker.take key) k).blank, (words.foldl (Tracker.take key) k).source) =
      (k.exec, k.blank, k.source) := by
  induction words generalizing k with
  | nil => rfl
  | cons w ws ih =>
    refine (ih _).trans ?_
    unfold Tracker.take
    split <;> rfl

/-! ## A mismatch (R112, R176, R181) -/

/-- The tile marked wherever the port holds it. -/
def markTile (s : State) (a : Arr) (x : Tile) : State := s.onPort a (fun p =>
  { p with cur := p.cur.map (markTag x.desc.ctx x.desc.seq), park := p.park.map (markTag x.desc.ctx x.desc.seq)
           watched := p.watched.map (markTag x.desc.ctx x.desc.seq) })

/-- TAG_MISMATCH_OPERAND. -/
def operandRaised (s : State) (a : Arr) (x : Tile) (blank : Nat) : State :=
  detect ((markTile s a x).onCov x.desc.ctx (fun y => { y with operand := bump y.operand })) a x 0x2040 (BitVec.ofNat 32 blank)

theorem operandCatch_again (raised : x.side.cause ≠ 0 ∨ x.tagBad = true) (blank : Nat) : operandCatch s a x blank = markTile s a x := by
  unfold operandCatch
  refine if_pos ?_
  obtain caused | marked := raised
  · simp [show ¬x.side.cause = 0#4 from caused]
  · simp [marked]

theorem operandCatch_first (clean : x.side.cause = 0) (good : x.tagBad = false) (blank : Nat) : operandCatch s a x blank =
    if (s.wce.ports.at a).watched = some x then sendVerdict (operandRaised s a x blank) a x.slice x.exec x.desc.seq .catch 1 0 5
    else operandRaised s a x blank := by
  unfold operandCatch
  exact if_neg (by simp [clean, good])

theorem sendVerdict_others (s : State) {a b : Arr} (other : b ≠ a) (slice : Nat) (e : Ctx × BitVec 48 × BitVec 8) (seq : BitVec 32) (v : Verdict)
    (covers voids : Nat) (reason : BitVec 4) : (sendVerdict s a slice e seq v covers voids reason).wce.ports.at b = s.wce.ports.at b := by
  have served : (noteServed s a slice).wce.ports = s.wce.ports := by
    unfold noteServed
    split <;> rfl
  unfold sendVerdict
  split
  · rfl
  · dsimp only
    split
    · exact (Tab.at_upd_other _ _ other).trans (congrArg (·.at b) served)
    · exact congrArg (·.at b) served

theorem detect_cov (s : State) (a : Arr) (x : Tile) (code : BitVec 16) (p32 : BitVec 32) : (detect s a x code p32).ctxs = s.ctxs := by
  have counted (u : State) : (countSliceCatch u x.slice).ctxs = u.ctxs := by
    unfold countSliceCatch
    split <;> rfl
  have parted (u : State) (e : Ctx × BitVec 48 × BitVec 8) : (partingSend u x.slice e).ctxs = u.ctxs := by
    unfold partingSend
    split
    · rfl
    · split <;> rfl
  unfold detect
  rw [State.emit_ctxs, parted, counted]

/-- What holds of a port after a mismatch was found there. -/
structure Marked (a : Arr) (x : Tile) (s t : State) : Prop where
  others : ∀ b, b ≠ a → t.wce.ports.at b = s.wce.ports.at b
  blanks : (t.wce.ports.at a).blanks = (s.wce.ports.at a).blanks
  cur : (t.wce.ports.at a).cur = (s.wce.ports.at a).cur.map (markTag x.desc.ctx x.desc.seq)
  park : (t.wce.ports.at a).park = (s.wce.ports.at a).park.map (markTag x.desc.ctx x.desc.seq)
  tag : ∀ d, (t.ctx d).tag = (s.ctx d).tag

theorem Marked.markTile (s : State) (a : Arr) (x : Tile) : Marked a x s (markTile s a x) where
  others _ other := Tab.at_upd_other _ _ other
  blanks := (congrArg Port.blanks (Tab.at_upd_same ..)).trans rfl
  cur := (congrArg Port.cur (Tab.at_upd_same ..)).trans rfl
  park := (congrArg Port.park (Tab.at_upd_same ..)).trans rfl
  tag _ := rfl

theorem Marked.tells {t u : State} (h : Marked a x s t) (k : Tells t u) (others : ∀ b, b ≠ a → u.wce.ports.at b = t.wce.ports.at b) : Marked a x s u where
  others b other := (others b other).trans (h.others b other)
  blanks := (k.blanks a).trans h.blanks
  cur := (k.cur a).trans h.cur
  park := (k.park a).trans h.park
  tag d := (k.tag d).trans (h.tag d)

theorem Marked.operandRaised (s : State) (a : Arr) (x : Tile) (blank : Nat) : Marked a x s (operandRaised s a x blank) :=
  (Marked.markTile s a x).tells ((Tells.onCov _ _ _).trans (.detect _ a x _ _)) fun b _ => congrArg (·.at b) (detect_ports _ a x _ _)

theorem Marked.operandCatch (s : State) (a : Arr) (x : Tile) (blank : Nat) : Marked a x s (operandCatch s a x blank) := by
  by_cases first : x.side.cause = 0 ∧ x.tagBad = false
  · rw [operandCatch_first first.1 first.2]
    split
    · exact (Marked.operandRaised s a x blank).tells (.sendVerdict ..) fun b other => sendVerdict_others _ other ..
    · exact .operandRaised s a x blank
  · rw [operandCatch_again (by rw [Classical.not_and_iff_not_or_not, Bool.not_eq_false] at first; exact first)]
    exact .markTile s a x

theorem operandRaised_counts (s : State) (a : Arr) (x : Tile) (blank : Nat) :
    ((operandRaised s a x blank).ctx x.desc.ctx).cov.operand = bump (s.ctx x.desc.ctx).cov.operand := by
  unfold operandRaised
  rw [State.ctx_eq_of_ctxs (detect_cov ..), State.onCov_ctx_same]
  rfl

/-- The blank compared: it is not compared again. -/
def compared (s : State) (a : Arr) (e : Ctx × BitVec 48 × BitVec 8) (blank source : Nat) : State :=
  s.onPort a (fun p => p.onBlank e blank source (fun k => { k with done := true }))

theorem exec_operandBlankComplete {c : Ctx} {seq : BitVec 32} {blank source : Nat} {tag : BitVec 64} {words : WordWrites} {k : Tracker}
    (of : (s.wce.ports.at a).tileOf c seq = some x)
    (known : ((passWords s a x.exec blank source tag words).wce.ports.at a).tracked x.exec blank source = some k) :
    exec (.operandBlankComplete a c seq blank tag words source) s = .next
      (if k.done ∨ k.seen ≠ BitVec.allOnes 1024 then passWords s a x.exec blank source tag words
      else if k.agrees ((passWords s a x.exec blank source tag words).keyOf c) tag then compared (passWords s a x.exec blank source tag words) a x.exec blank source
      else operandCatch (compared (passWords s a x.exec blank source tag words) a x.exec blank source) a x blank) := by
  show execOperandBlankComplete a c seq blank tag words s source = _
  unfold execOperandBlankComplete
  rw [of]
  dsimp only
  rw [known]
  dsimp only
  split
  · rfl
  · rfl

end

/-- The latch and the count of a blank consumed (R117). -/
theorem consumed_tag (s : State) (a : Arr) (c : Ctx) (tag : BitVec 64) :
    (isPoison (tagState tag) = true → a ∈ ((consumed s a c tag).ctx c).tag.latches ∧ ((consumed s a c tag).ctx c).tag.consumed = bump (s.ctx c).tag.consumed) ∧
    (isPoison (tagState tag) = false → ((consumed s a c tag).ctx c).tag = (s.ctx c).tag) := by
  unfold consumed
  refine ⟨fun poison => ?_, fun calm => ?_⟩
  · rw [if_pos poison, setLatch, State.onTag_ctx_same]
    refine ⟨?_, rfl⟩
    dsimp only
    split
    · next held => exact List.contains_iff_mem.1 held
    · exact List.mem_append_right _ (List.mem_singleton.2 rfl)
  · rw [if_neg (Bool.eq_false_iff.1 calm)]

theorem Tracker.agrees_iff {k : Tracker} {rho : BitVec 61} {ws : List (BitVec 32)} (sum : k.sum = fpOf rho ws) (tag : BitVec 64) :
    k.agrees (some rho) tag = tagMatches rho ws tag := by
  unfold Tracker.agrees tagMatches
  rw [sum, Option.isNone_some, Bool.false_or, Bool.and_comm]

theorem passWords_tag {s : State} {a : Arr} {e : Ctx × BitVec 48 × BitVec 8} {blank source : Nat} (new : (s.wce.ports.at a).tracked e blank source = none)
    (room : ((s.wce.ports.at a).blanks.filter (fun k => (k.exec.1 ≠ e.1 || k.exec = e) && !k.done)).length < 16) (tag : BitVec 64) (words : WordWrites) :
    (isPoison (tagState tag) = true → a ∈ ((passWords s a e blank source tag words).ctx e.1).tag.latches ∧
      ((passWords s a e blank source tag words).ctx e.1).tag.consumed = bump (s.ctx e.1).tag.consumed) ∧
    (isPoison (tagState tag) = false → ((passWords s a e blank source tag words).ctx e.1).tag = (s.ctx e.1).tag) := by
  rw [passWords_new new room]
  exact consumed_tag (passOver s a e) a e.1 tag

theorem markTag_map {c : Ctx} {seq : BitVec 32} {P : Tile → Prop} {y : Tile} (of : ∃ z, P z ∧ markTag c seq z = y) (ctx : y.desc.ctx = c)
    (same : y.desc.seq = seq) : y.tagBad = true := by
  obtain ⟨z, -, rfl⟩ := of
  unfold markTag at ctx same ⊢
  split
  · rfl
  · next other =>
    rw [if_neg other] at ctx same
    exact absurd ⟨ctx, same⟩ other

theorem Port.tracked_over {p : Port} {e : Ctx × BitVec 48 × BitVec 8} {blank source : Nat} {k : Tracker} (known : p.tracked e blank source = some k) :
    ({ p with blanks := p.blanks.filter (fun k => k.exec.1 ≠ e.1 || k.exec = e) } : Port).tracked e blank source = some k := by
  unfold Port.tracked at known ⊢
  rw [List.find?_filter]
  rw [← known]
  congr 1
  funext k
  by_cases own : k.exec = e
  · simp [own]
  · simp [own]

theorem exec_tilePark_watched {s : State} {a : Arr} {x : Tile} (running : (s.wce.ports.at a).cur = some x) (works : s.isolated a = false)
    (watched : x.monitor = true) (ops : List OpCycle) (snoop : List Snoop) : exec (.tilePark a ops snoop) s = .next
      (if x.tagBad then sendVerdict ((snoopAll s a x snoop).onPort a (fun p => { p with cur := none, watched := some x })) a x.slice x.exec x.desc.seq .catch 1 0 5
      else (snoopAll s a x snoop).onPort a (fun p => { p with cur := none, watched := some x })) := by
  show execTilePark a ops s snoop = _
  unfold execTilePark
  rw [running]
  dsimp only
  rw [if_neg (Bool.eq_false_iff.1 works), if_pos watched]

theorem overrun_blanks (s : State) (a : Arr) : ((overrun s a).wce.ports.at a).blanks = (s.wce.ports.at a).blanks := by
  unfold overrun
  dsimp only
  split
  · rfl
  · refine ((Tells.sendVerdict ..).blanks a).trans (((Tells.emit _ _).blanks a).trans ?_)
    exact (congrArg Port.blanks (Tab.at_upd_same ..)).trans rfl

theorem parkEnd_blanks (s : State) (a : Arr) : ((parkEnd s a).wce.ports.at a).blanks = (s.wce.ports.at a).blanks := by
  obtain ⟨-, park, ends⟩ := memberStart_ports s a
  have port : (parkEnd s a).wce.ports.at a = ({ s.wce.ports.at a with park } : Port).closeAtZero.noteDebt :=
    (Tab.at_upd_same ..).trans (by rw [ends])
  rw [port]
  exact Port.closeAtZero_blanks _

/-- The end of a tile leaves the blanks in progress (R112): words that pass in one tile count for the blank's end in a later one. -/
theorem tilePark_blanks {s : State} {a : Arr} {x : Tile} (running : (s.wce.ports.at a).cur = some x) (works : s.isolated a = false) (ops : List OpCycle)
    (snoop : List Snoop) : ∃ t, exec (.tilePark a ops snoop) s = .next t ∧ (t.wce.ports.at a).blanks = ((snoopAll s a x snoop).wce.ports.at a).blanks := by
  have left (f : Port → Port) (same : ∀ p, (f p).blanks = p.blanks) (u : State) : ((u.onPort a f).wce.ports.at a).blanks = (u.wce.ports.at a).blanks :=
    (congrArg Port.blanks (Tab.at_upd_same ..)).trans (same _)
  cases watched : x.monitor with
  | true =>
    refine ⟨_, exec_tilePark_watched running works watched ops snoop, ?_⟩
    split
    · exact ((Tells.sendVerdict ..).blanks a).trans (left (fun p => { p with cur := none, watched := some x }) (fun _ => rfl) _)
    · exact left (fun p => { p with cur := none, watched := some x }) (fun _ => rfl) _
  | false =>
    refine ⟨_, exec_tilePark running works watched ops snoop, ?_⟩
    rw [parkEnd_blanks, parkSet_port]
    dsimp only
    split
    · exact overrun_blanks _ a
    · rfl

/-- Settles O30: the last word of a blank passes, and its sum is compared with its tag. -/
theorem operandBlanksAreChecked : Obligations.OperandBlanksAreChecked := by
  unfold Obligations.OperandBlanksAreChecked
  refine ⟨fun s a c seq blank source tag data rho x key of new room => ?_, fun s a c seq blank source tag words x k of known done => ?_,
    fun s a ops w x running works new room => ?_⟩
  · intro holds
    have named := List.find?_some of
    obtain ⟨rfl, rfl⟩ : x.desc.ctx = c ∧ x.desc.seq = seq := by simpa using named
    obtain ⟨seen, sum, same⟩ := Tracker.take_fullWords rho data (k := { exec := x.exec, blank, source }) rfl rfl
    generalize is : (fullWords data).foldl (Tracker.take (some rho)) { exec := x.exec, blank, source } = r at seen sum same
    obtain ⟨rx, rb, rs, rd⟩ : r.exec = x.exec ∧ r.blank = blank ∧ r.source = source ∧ r.done = false := by simpa using same
    have known : ((passWords s a x.exec blank source tag (fullWords data)).wce.ports.at a).tracked x.exec blank source = some r :=
      passWords_tracked new room tag (by rw [show s.keyOf x.exec.1 = some rho from key]; exact is) (by rw [rx, rb, rs])
    have run := exec_operandBlankComplete of known
    have passed := Snoops.passWords a s x.exec blank source tag (fullWords data)
    have keeps : (passWords s a x.exec blank source tag (fullWords data)).keyOf x.desc.ctx = some rho := by
      have plan : ((passWords s a x.exec blank source tag (fullWords data)).ctx x.desc.ctx).plan = (s.ctx x.desc.ctx).plan :=
        (congrArg CtxSt.plan (passed.ctxs x.desc.ctx) :)
      rw [← key]
      unfold State.keyOf
      rw [plan]
    rw [if_neg (by rw [rd, seen]; simp), keeps, Tracker.agrees_iff sum] at run
    obtain ⟨latched, calm⟩ := passWords_tag new room tag (fullWords data)
    generalize passWords s a x.exec blank source tag (fullWords data) = u at known run passed keeps latched calm
    have atV := passed.trans (.onPort (f := fun p => p.onBlank x.exec blank source (fun k => { k with done := true })) a u fun _ => rfl)
    have done : ((compared u a x.exec blank source).wce.ports.at a).tracked x.exec blank source = some { r with done := true } := by
      rw [compared, State.onPort_wce, Tab.at_upd_same]
      exact Port.tracked_onBlank known fun _ => rfl
    change Snoops a s (compared u a x.exec blank source) at atV
    have tagV : ((compared u a x.exec blank source).ctx x.desc.ctx).tag = (u.ctx x.desc.ctx).tag := rfl
    rw [show x.exec.1 = x.desc.ctx from rfl, ← tagV] at latched calm
    generalize compared u a x.exec blank source = v at run atV done latched calm
    by_cases agree : tagMatches rho ((List.range 1024).map (fun i => data.getD i 0)) tag = true
    · rw [if_pos agree] at run
      exact ⟨v, run, (execOperandBlankComplete_kept ..).of_next run, ⟨_, done, rfl⟩, atV.others, latched, calm,
        fun _ => ⟨atV.fst, atV.out, atV.cur, atV.park⟩, fun differ => absurd agree (Bool.eq_false_iff.1 differ)⟩
    · rw [if_neg agree] at run
      have marked := Marked.operandCatch v a x blank
      refine ⟨_, run, (execOperandBlankComplete_kept ..).of_next run, ⟨{ r with done := true }, ?_, rfl⟩, fun b other => (marked.others b other).trans (atV.others b other),
        ?_, ?_, fun match_ => absurd match_ agree, fun _ => ⟨fun y cur ctx seq => ?_, fun y mem ctx seq => ?_, fun clean good => ?_, fun clean good watched first => ?_,
        fun raised => ?_⟩⟩
      · unfold Port.tracked at done ⊢
        rw [marked.blanks]
        exact done
      · rw [marked.tag]
        exact latched
      · rw [marked.tag]
        exact calm
      · rw [marked.cur] at cur
        exact markTag_map (Option.map_eq_some_iff.1 cur) ctx seq
      · rw [marked.park] at mem
        exact markTag_map (List.mem_map.1 mem) ctx seq
      · have cov : (v.ctx x.desc.ctx).cov = (s.ctx x.desc.ctx).cov := (congrArg CtxSt.cov (atV.ctxs x.desc.ctx) :)
        rw [operandCatch_first clean good, ← cov]
        have raises := detect_raises ((markTile v a x).onCov x.desc.ctx (fun y => { y with operand := bump y.operand })) a x 0x2040 (BitVec.ofNat 32 blank)
        split
        · rw [State.ctx_eq_of_ctxs (sendVerdict_ctxs ..), sendVerdict_fst]
          exact ⟨operandRaised_counts v a x blank, raises⟩
        · exact ⟨operandRaised_counts v a x blank, raises⟩
      · rw [operandCatch_first clean good, if_pos (atV.watched.trans watched)]
        refine ⟨_, sendVerdict_sends a ?_ .., rfl, rfl, rfl, rfl⟩
        rw [operandRaised, detect_ports]
        show ((markTile v a x).wce.ports.at a).caught.contains x.exec = false
        rw [markTile, State.onPort_wce, Tab.at_upd_same]
        dsimp only
        rw [atV.caught]
        exact first
      · rw [operandCatch_again raised]
        exact ⟨atV.fst, atV.out⟩
  · have again : ((passOver s a x.exec).wce.ports.at a).tracked x.exec blank source = some k := by
      rw [passOver_port]
      exact Port.tracked_over known
    have same : ((passWords s a x.exec blank source tag words).wce.ports.at a).tracked x.exec blank source = some k := by
      rw [passWords_again again, State.onPort_wce, Tab.at_upd_same, Port.tracked_onBlank again, if_pos done]
      intro y
      split
      · rfl
      · exact Tracker.take_named ..
    have run := exec_operandBlankComplete of same
    rw [if_pos (.inl done)] at run
    have passed := Snoops.passWords a s x.exec blank source tag words
    refine ⟨_, run, passed.fst, passed.out, ?_, (execOperandBlankComplete_kept ..).of_next run⟩
    rw [passWords_again again]
    rfl
  · obtain ⟨t, run, blanks⟩ := tilePark_blanks running works ops [w]
    refine ⟨t, run, ?_⟩
    have known := passWords_tracked new room w.tag (words := w.words) rfl (Tracker.take_named ..)
    unfold Port.tracked at known ⊢
    rw [blanks]
    exact known

end Sys2Proof.Machine


namespace Sys2Proof.Machine

/-! # Slices: takeovers and releases (R182, R183, R190) -/

theorem rowSlice_ne_standby (r : Row) : rowSlice r ≠ standby := fun same => absurd (congrArg Fin.val same) (Nat.ne_of_lt r.isLt)

theorem finOf_rowSlice (r : Row) : finOf 24 (rowSlice r).val = some r := dif_pos r.isLt

theorem finOf_standby : finOf 24 standby.val = none := rfl

theorem eq_standby_or_rowSlice (n : Slice) : n = standby ∨ ∃ r, n = rowSlice r := by
  by_cases row : n.val < 24
  · exact .inr ⟨⟨n.val, row⟩, rfl⟩
  · exact .inl (Fin.ext (by have := n.isLt; show n.val = 24; omega))

section

variable (s : State) (r : Row)

theorem closeGroups_wce : (closeGroups s r).wce = { s.wce with ports := (closeGroups s r).wce.ports } :=
  State.each_induction (P := fun t => t.wce = { s.wce with ports := t.wce.ports }) rfl fun t a _ before => by
    rw [State.onPort_wce, before]

/-- Both slices of a handover in it; one in reset goes on with its reset (R188). -/
def inHandover (x : SliceSt) : SliceSt := { x with state := x.unless_ .handover }

/-- The Calipers' slices during a handover of a row. -/
def handingOver (w : Wce) : Tab 25 SliceSt := (w.slices.upd (rowSlice r) inHandover).upd standby inHandover

theorem handingOver_row (w : Wce) : (handingOver r w).at (rowSlice r) = inHandover (w.slices.at (rowSlice r)) :=
  (Tab.at_upd_other _ _ (rowSlice_ne_standby r)).trans (Tab.at_upd_same ..)

theorem handingOver_standby (w : Wce) : (handingOver r w).at standby = inHandover (w.slices.at standby) :=
  (Tab.at_upd_same ..).trans (congrArg inHandover (Tab.at_upd_other _ _ (rowSlice_ne_standby r).symm))

theorem startTakeover_wce (why : BitVec 3) : (startTakeover s r why).wce = { s.wce with
    ports := (startTakeover s r why).wce.ports, slices := handingOver r s.wce
    handover := some { row := r, away := true, reason := why }, reason := why } := by
  unfold startTakeover
  rw [State.emit_wce, closeGroups_wce]
  rfl

theorem startTakeover_records (why : BitVec 3) : ∃ e ∈ (startTakeover s r why).rcd.intake, e.code = 0x2010 ∧ e.unit = uSlice (rowSlice r) ∧
    e.p32 = why.setWidth 32 :=
  ⟨_, State.emit_records _ { code := 0x2010, unit := uSlice (rowSlice r), p16 := BitVec.ofNat 16 r.val, p32 := why.setWidth 32 } rfl, rfl, rfl, rfl⟩

theorem startRelease_wce : (startRelease s r).wce = { s.wce with
    ports := (startRelease s r).wce.ports, slices := handingOver r s.wce
    handover := some { row := r, away := false, reason := s.wce.reason } } := by
  unfold startRelease
  rw [State.emit_wce, closeGroups_wce]
  rfl

theorem startRelease_records : ∃ e ∈ (startRelease s r).rcd.intake, e.code = 0x2011 ∧ e.unit = uSlice (rowSlice r) :=
  ⟨_, State.emit_records _ { code := 0x2011, unit := uSlice (rowSlice r), p16 := BitVec.ofNat 16 r.val, p32 := s.wce.reason.setWidth 32 } rfl, rfl, rfl⟩

end

theorem inHandover_of_other {x : SliceSt} (runs : x.state ≠ .reset) : (inHandover x).state = .handover := if_neg runs

theorem standbyFree_idle {s : State} (free : s.standbyFree = true) : (s.wce.slices.at standby).state = .idle := by
  unfold State.standbyFree at free
  simp only [Bool.and_eq_true, decide_eq_true_eq] at free
  exact free.1.2

/-- A row on its way to a slice is checked by that slice (R182). -/
theorem sliceFor_of_handover {s : State} {r : Row} {away : Bool} {why : BitVec 3} (moves : s.wce.handover = some { row := r, away, reason := why }) :
    s.sliceFor r = if away then 24 else r.val := by
  unfold State.sliceFor
  rw [moves]
  exact if_pos rfl

theorem nextOrder_of_none {s : State} (none : s.wce.orders = []) : nextOrder s = s := by
  unfold nextOrder
  rw [none]

/-- A slice that is left idle is not under test, also where a reset of it goes on. -/
theorem SliceSt.unless_idle (x : SliceSt) : (x.unless_ .idle = .selftest) = False := by
  unfold SliceSt.unless_
  split <;> exact eq_false (by decide)

section

variable {s : State} {r : Row}

theorem exec_sliceTakeover (carried : s.gate (sliceCtrlOff (rowSlice r)) = .carry) (serves : (s.wce.slices.at (rowSlice r)).state = .serving)
    (free : s.standbyFree = true) (src : Src) : exec (.sliceTakeover src (rowSlice r)) s = .next
      ((startTakeover (sliceAccept s (rowSlice r)) r 4).complete src (sliceCtrlOff (rowSlice r)) false 0 0) := by
  show execSliceTakeover src (rowSlice r) s = _
  unfold execSliceTakeover
  rw [gatedWrite_of_carry carried]
  unfold takeoverCmd
  rw [finOf_rowSlice]
  dsimp only
  rw [if_pos ⟨serves, free⟩]

theorem exec_sliceRelease (carried : s.gate (sliceCtrlOff (rowSlice r)) = .carry) (idle : (s.wce.slices.at (rowSlice r)).state = .idle)
    (held : (s.wce.slices.at (rowSlice r)).heldBy = 24) (none : s.wce.handover = none) (src : Src) : exec (.sliceRelease src (rowSlice r)) s = .next
      ((startRelease (sliceAccept s (rowSlice r)) r).complete src (sliceCtrlOff (rowSlice r)) false 0 0) := by
  show execSliceRelease src (rowSlice r) s = _
  unfold execSliceRelease
  rw [gatedWrite_of_carry carried]
  unfold releaseCmd
  rw [finOf_rowSlice]
  dsimp only
  rw [if_pos ⟨idle, held, by rw [none]; rfl⟩]

/-- The row with the standby: its slice is idle, or in its reset. -/
def rowGone (s : State) (r : Row) (state : SliceState) : State :=
  ((s.onWce (fun w => { w with handover := none })).onSlice (rowSlice r) (fun x => countHandover { x with state, row := 31, heldBy := 24 })).onSlice standby
    (fun x => countHandover { x with state := x.unless_ .serving, row := BitVec.ofNat 5 r.val })

theorem exec_handoverComplete_away (moves : s.wce.handover = some { row := r, away := true, reason := 4 }) (none : s.wce.orders = []) :
    exec (.handoverComplete r) s = .next ((rowGone s r ((s.wce.slices.at (rowSlice r)).unless_ .idle)).onWce (fun w => { w with reason := 4 })) := by
  show execHandoverComplete r s = _
  unfold execHandoverComplete
  rw [moves]
  dsimp only
  have lost : ¬(4 : BitVec 3) = 1 := by decide
  have reset : ¬(4 : BitVec 3) = 2 := by decide
  have turn : ¬(4 : BitVec 3) = 3 := by decide
  rw [if_neg (fun h => h rfl), if_pos rfl]
  simp only [lost, reset, turn, if_false, false_and, SliceSt.unless_idle]
  rw [nextOrder_of_none]
  · rfl
  · exact none

/-- The row back with its own slice. -/
def rowBack (s : State) (r : Row) : State :=
  (((s.onWce (fun w => { w with handover := none })).onSlice (rowSlice r) (fun x => countHandover (x.serveOwn r))).onSlice standby
    (fun x => countHandover { x with state := x.unless_ .idle, row := 31 })).onWce (fun w => { w with reason := 0 })

theorem exec_handoverComplete_back {why : BitVec 3} (moves : s.wce.handover = some { row := r, away := false, reason := why }) (none : s.wce.orders = []) :
    exec (.handoverComplete r) s = .next (rowBack s r) := by
  show execHandoverComplete r s = _
  unfold execHandoverComplete
  rw [moves]
  dsimp only
  rw [if_neg (fun h => h rfl), if_neg nofun, nextOrder_of_none]
  · rfl
  · exact none

end

/-- A slice's command refused leaves REFUSED and MC's log. -/
theorem gatedWrite_refused {s : State} {src : Src} {n : Slice} {v : Reg} {eff : State → State} (carried : s.gate (sliceCtrlOff n) = .carry)
    (refused : eff s = sliceRefuse s src n) : gatedWrite s src (sliceCtrlOff n) v eff =
      ((s.onSlice n (fun y => { y with refused := true })).logRefusal mc none src (sliceCtrlOff n)).complete src (sliceCtrlOff n) false 0 0 := by
  rw [gatedWrite_of_carry carried, refused]
  rfl

/-- Settles O31: a handover names its row and its way from its start on, and its end moves the row. -/
theorem sliceHandovers : Obligations.SliceHandovers := by
  unfold Obligations.SliceHandovers
  refine ⟨fun s src r carried serves free => ?_, fun s src r carried idle held none => ?_, fun s r moves none => ?_, fun s r why moves none => ?_,
    fun s src n carried => ?_⟩
  · have run := exec_sliceTakeover carried serves free src
    have wce := startTakeover_wce (sliceAccept s (rowSlice r)) r 4
    have accepted : (sliceAccept s (rowSlice r)).wce.slices.at (rowSlice r) = { s.wce.slices.at (rowSlice r) with refused := false } := Tab.at_upd_same ..
    have row : (startTakeover (sliceAccept s (rowSlice r)) r 4).wce.slices.at (rowSlice r) = inHandover { s.wce.slices.at (rowSlice r) with refused := false } := by
      rw [wce, ← accepted]
      exact handingOver_row r _
    have sb : (startTakeover (sliceAccept s (rowSlice r)) r 4).wce.slices.at standby = inHandover (s.wce.slices.at standby) := by
      rw [wce]
      refine (handingOver_standby r _).trans (congrArg inHandover ?_)
      exact Tab.at_upd_other _ _ (rowSlice_ne_standby r).symm
    have moves : (startTakeover (sliceAccept s (rowSlice r)) r 4).wce.handover = some { row := r, away := true, reason := 4 } := by rw [wce]
    refine ⟨_, run, ?_, ?_, ?_, ?_, ?_, (execSliceTakeover_kept ..).of_next run, ?_, ?_⟩
    · rw [State.complete_wce, moves]
    · rw [State.complete_wce, wce]
    · rw [State.complete_wce, row]
      exact inHandover_of_other (by dsimp only; rw [serves]; decide)
    · rw [State.complete_wce, sb]
      exact inHandover_of_other (by rw [standbyFree_idle free]; decide)
    · refine sliceFor_of_handover (away := true) (why := 4) ?_
      rw [State.complete_wce, moves]
    · rw [State.complete_wce, row]
      rfl
    · rw [State.complete_rcd]
      exact startTakeover_records _ r 4
  · have run := exec_sliceRelease carried idle held none src
    have moves : (startRelease (sliceAccept s (rowSlice r)) r).wce.handover = some { row := r, away := false, reason := s.wce.reason } := by
      rw [startRelease_wce]
      rfl
    refine ⟨_, run, ?_, ?_, (execSliceRelease_kept ..).of_next run, ?_⟩
    · rw [State.complete_wce, moves]
    · refine sliceFor_of_handover (away := false) (why := s.wce.reason) ?_
      rw [State.complete_wce, moves]
    · rw [State.complete_rcd]
      exact startRelease_records _ r
  · have run := exec_handoverComplete_away moves none
    have row : (rowGone s r ((s.wce.slices.at (rowSlice r)).unless_ .idle)).wce.slices.at (rowSlice r) =
        countHandover { s.wce.slices.at (rowSlice r) with state := (s.wce.slices.at (rowSlice r)).unless_ .idle, row := 31, heldBy := 24 } :=
      (Tab.at_upd_other _ _ (rowSlice_ne_standby r)).trans (Tab.at_upd_same ..)
    have sb : (rowGone s r ((s.wce.slices.at (rowSlice r)).unless_ .idle)).wce.slices.at standby =
        countHandover { s.wce.slices.at standby with state := (s.wce.slices.at standby).unless_ .serving, row := BitVec.ofNat 5 r.val } :=
      (Tab.at_upd_same ..).trans (by rw [State.onSlice_wce, Tab.at_upd_other _ _ (rowSlice_ne_standby r).symm]; rfl)
    refine ⟨_, run, rfl, ?_, ?_, ?_, ?_, ?_, (execHandoverComplete_kept ..).of_next run⟩
    · exact congrArg SliceSt.heldBy row
    · exact congrArg SliceSt.row row
    · exact congrArg SliceSt.state row
    · exact congrArg SliceSt.row sb
    · exact congrArg SliceSt.state sb
  · have run := exec_handoverComplete_back moves none
    have row : (rowBack s r).wce.slices.at (rowSlice r) = countHandover ((s.wce.slices.at (rowSlice r)).serveOwn r) :=
      (Tab.at_upd_other _ _ (rowSlice_ne_standby r)).trans (Tab.at_upd_same ..)
    have sb : (rowBack s r).wce.slices.at standby = countHandover { s.wce.slices.at standby with state := (s.wce.slices.at standby).unless_ .idle, row := 31 } :=
      (Tab.at_upd_same ..).trans (by rw [State.onSlice_wce, Tab.at_upd_other _ _ (rowSlice_ne_standby r).symm]; rfl)
    refine ⟨_, run, rfl, rfl, ?_, ?_, ?_, ?_, (execHandoverComplete_kept ..).of_next run⟩
    · exact congrArg SliceSt.heldBy row
    · exact congrArg SliceSt.state row
    · exact congrArg SliceSt.state sb
    · exact congrArg SliceSt.row sb
  · intro x refused
    refine ⟨fun illegal => ?_, fun illegal => ?_, fun illegal => ?_, fun illegal => ?_⟩
    · refine congrArg Host.Outcome.next (gatedWrite_refused carried ?_)
      unfold takeoverCmd
      obtain rfl | ⟨r, rfl⟩ := eq_standby_or_rowSlice n
      · rfl
      · rw [finOf_rowSlice]
        refine if_neg fun ⟨serves, free⟩ => ?_
        obtain sb | other | busy := illegal
        · exact rowSlice_ne_standby r sb
        · exact other serves
        · exact absurd free (Bool.eq_false_iff.1 busy)
    · refine congrArg Host.Outcome.next (gatedWrite_refused carried ?_)
      unfold releaseCmd
      obtain rfl | ⟨r, rfl⟩ := eq_standby_or_rowSlice n
      · rfl
      · rw [finOf_rowSlice]
        refine if_neg fun ⟨idle, held, empty⟩ => ?_
        obtain sb | other | own | busy := illegal
        · exact rowSlice_ne_standby r sb
        · exact other idle
        · exact own held
        · exact busy (Option.isNone_iff_eq_none.1 empty)
    · refine congrArg Host.Outcome.next (gatedWrite_refused carried ?_)
      unfold sliceResetCmd
      refine if_neg fun may => ?_
      unfold State.mayResetSlice at may
      simp only [Bool.and_eq_true, decide_eq_true_eq, Bool.not_eq_true'] at may
      obtain gone | held := illegal
      · exact may.1.1 gone
      · exact absurd held (Bool.eq_false_iff.1 may.2)
    · refine congrArg Host.Outcome.next (gatedWrite_refused carried ?_)
      unfold selftestCmd
      refine if_neg fun ⟨vs0, legal⟩ => ?_
      obtain other | ⟨busy, unready⟩ := illegal
      · exact other vs0
      · obtain ⟨serves, row, free⟩ | idle := legal
        · obtain not | sb | held := unready
          · exact not serves
          · exact row sb
          · exact absurd free (Bool.eq_false_iff.1 held)
        · exact busy idle

end Sys2Proof.Machine


namespace Sys2Proof.Machine

/-! # Resets of slices and ports (R188, R474) -/

/-! ## Ports reset together -/

/-- A port without tiles or a group. -/
def Port.Empty (p : Port) : Prop := p.cur = none ∧ p.park = [] ∧ p.group = none

theorem Port.lose_empty (p : Port) : (Port.lose none p).Empty := by
  refine ⟨?_, ?_, ?_⟩
  · unfold Port.lose
    cases p.cur <;> rfl
  · exact List.filter_eq_nil_iff.2 fun x _ => nofun
  · unfold Port.lose
    cases p.group <;> rfl

/-- What a change makes of every port holds of each that it reached. -/
theorem each_onPort {P : Port → Prop} {f : Port → Port} (makes : ∀ p, P (f p)) {a : Arr} {ps : List Arr} (mem : a ∈ ps) (s : State) :
    P ((s.each ps (fun s b => s.onPort b f)).wce.ports.at a) := by
  have keeps (t : State) (qs : List Arr) (holds : P (t.wce.ports.at a)) : P ((t.each qs (fun s b => s.onPort b f)).wce.ports.at a) :=
    State.each_induction (P := fun t => P (t.wce.ports.at a)) holds fun t b _ before => by
      by_cases same : a = b
      · subst same
        rw [State.onPort_wce, Tab.at_upd_same]
        exact makes _
      · rw [State.onPort_wce, Tab.at_upd_other _ _ same]
        exact before
  induction ps generalizing s with
  | nil => exact absurd mem (List.not_mem_nil)
  | cons b bs ih =>
    obtain rfl | mem := List.mem_cons.1 mem
    · refine keeps _ bs ?_
      rw [State.onPort_wce, Tab.at_upd_same]
      exact makes _
    · exact ih mem _

section

variable (s : State)

/-- The verdicts owed for tiles that are lost (R177). -/
theorem Tells.loseVerdicts {owed : List (Arr × List (Nat × (Ctx × BitVec 48 × BitVec 8) × BitVec 32 × Nat))} (rounds : List Nat) (reason : BitVec 4) :
    Tells s (s.each rounds (fun s i => s.each owed (fun s o => match o.2[i]? with
      | some (n, e, seq, k) => Machine.sendVerdict s o.1 n e seq .notProduced k 0 reason
      | none => s))) :=
  .each fun t i => .each fun u o => by
    split
    · exact .sendVerdict ..
    · exact .refl u

theorem Tells.empty {s t : State} (h : Tells s t) {a : Arr} (holds : (s.wce.ports.at a).Empty) : (t.wce.ports.at a).Empty := by
  obtain ⟨cur, park, group⟩ := holds
  exact ⟨(h.cur a).trans cur, (h.park a).trans park, (h.group a).trans group⟩

theorem loseTiles_empty {ps : List Arr} {a : Arr} (mem : a ∈ ps) (reason : BitVec 4) : ((loseTiles s ps none reason).wce.ports.at a).Empty :=
  (Tells.loseVerdicts _ _ reason).empty (each_onPort Port.lose_empty mem s)

theorem Appends.loseTiles (ps : List Arr) (only : Option Nat) (reason : BitVec 4) : Appends s (loseTiles s ps only reason) := by
  have lost : Appends s (s.each ps (fun s a => s.onPort a (Port.lose only))) := .each fun _ _ => .of_same rfl rfl rfl rfl
  exact lost.trans (Tells.loseVerdicts _ _ reason).toAppends

/-- Executions that count a port's reset as not produced. -/
def countReset (s : State) (a : Arr) (cs : List Ctx) : State := s.each cs (fun s c => s.onExec c (fun e => { e with badPorts := e.badPorts ++ [a] }))

theorem countReset_wce (a : Arr) (cs : List Ctx) : (countReset s a cs).wce = s.wce :=
  State.each_induction (P := fun t => t.wce = s.wce) rfl fun _ _ _ before => before

/-- A port's registers after its reset. -/
def portAfterReset (s : State) (a : Arr) : State :=
  (countReset s a (monitorsAt s a)).onPort a
    (fun p => ({ p with maxDebt := 0, resets := bump p.resets } : Port).closeAtZero.noteDebt)

theorem portAfterReset_wce (a : Arr) : (portAfterReset s a).wce =
    { s.wce with ports := s.wce.ports.upd a (fun p => ({ p with maxDebt := 0, resets := bump p.resets } : Port).closeAtZero.noteDebt) } := by
  unfold portAfterReset
  rw [State.onPort_wce, countReset_wce]

/-- PORT_RESET. -/
def portResetEvent (a : Arr) (tiles : List Tile) : Ev :=
  { code := 0x2015, unit := uPort a, p16 := BitVec.ofNat 16 ((tiles.map (·.desc.ctx)).eraseDups).length, p32 := BitVec.ofNat 32 tiles.length }

theorem portResetDone_eq (a : Arr) (tiles : List Tile) : portResetDone s a tiles = (portAfterReset s a).emit (portResetEvent a tiles) := rfl

theorem Appends.portResetDone (a : Arr) (tiles : List Tile) : Appends s (portResetDone s a tiles) := by
  have counted : Appends s (countReset s a (monitorsAt s a)) := .each fun t c => .onCtx t c _
  have after : Appends s (portAfterReset s a) := counted.trans (.of_same rfl rfl rfl rfl)
  rw [portResetDone_eq]
  exact after.trans (.emit _ _)

theorem portResetDone_empty {a b : Arr} (holds : (s.wce.ports.at b).Empty) (tiles : List Tile) : ((portResetDone s a tiles).wce.ports.at b).Empty := by
  rw [portResetDone_eq, State.emit_wce, portAfterReset_wce]
  by_cases same : b = a
  · subst same
    obtain ⟨cur, park, group⟩ := holds
    rw [Tab.at_upd_same]
    refine ⟨(Port.closeAtZero_cur _).trans cur, (Port.closeAtZero_park _).trans park, (Port.closeAtZero_group _).trans ?_⟩
    dsimp only
    rw [group]
    exact ite_self _
  · rw [Tab.at_upd_other _ _ same]
    exact holds

theorem Appends.resetPorts (ps : List Arr) (only : Option Nat) : Appends s (resetPorts s ps only) :=
  (Appends.loseTiles s ps only 7).trans (.each fun t l => .portResetDone t l.1 l.2)

theorem resetPorts_empty {ps : List Arr} {a : Arr} (mem : a ∈ ps) : ((resetPorts s ps none).wce.ports.at a).Empty :=
  State.each_induction (P := fun t => (t.wce.ports.at a).Empty) (loseTiles_empty s mem 7) fun t _ _ before => portResetDone_empty t before _

theorem portResetDone_records (a : Arr) (tiles : List Tile) :
    (portAfterReset s a).stamp (portResetEvent a tiles) ∈ (portResetDone s a tiles).rcd.intake := State.emit_records _ _ rfl

theorem mem_rotation {a : Arr} {r : Row} (mem : a ∈ portsOf r) (n : Slice) : a ∈ s.rotation n r := by
  obtain ⟨j, small, rfl⟩ := List.mem_map.1 mem
  have lt := List.mem_range.1 small
  refine List.mem_map.2 ⟨(j + 26 - ((s.wce.slices.at n).served + 1) % 26) % 26, List.mem_range.2 (Nat.mod_lt _ (by decide)), ?_⟩
  congr 1
  omega

theorem Appends.resetRow (r : Row) : Appends s (resetRow s r) := .resetPorts s _ _

theorem resetRow_empty {a : Arr} {r : Row} (mem : a ∈ portsOf r) : ((resetRow s r).wce.ports.at a).Empty := resetPorts_empty s (mem_rotation s mem _)

end

/-! ## Slices reset -/

/-- SLICE_RESET. -/
def sliceResetEvent (n : Slice) (how : BitVec 16) : Ev := { code := 0x2016, unit := uSlice n, p16 := how }

section

variable {s : State} {r : Row} {n : Slice}

theorem recordSliceReset_records (s : State) (n : Slice) (how : BitVec 16) : s.stamp (sliceResetEvent n how) ∈ (recordSliceReset s n how).rcd.intake :=
  State.emit_records s _ rfl

theorem cutTestOf_untested (untested : s.testOf n = none) : cutTestOf s [n] = s := by
  show cutSelftest s n = s
  unfold cutSelftest
  rw [untested]

theorem resetSlice_absorbs (serves : (s.wce.slices.at (rowSlice r)).state = .serving) (busy : s.standbyFree = false) (untested : s.testOf (rowSlice r) = none) :
    resetSlice s (rowSlice r) = enterReset (resetRow (recordSliceReset s (rowSlice r) 1) r) (rowSlice r) := by
  unfold resetSlice
  dsimp only
  rw [cutTestOf_untested untested, finOf_rowSlice]
  cases s.wce.handover with
  | some h =>
    dsimp only
    rw [if_neg (by rw [serves]; decide), if_pos serves]
  | none =>
    dsimp only
    rw [if_neg (fun ⟨_, free⟩ => absurd free (Bool.eq_false_iff.1 busy)), if_pos serves]

theorem resetSlice_drains (serves : (s.wce.slices.at (rowSlice r)).state = .serving) (free : s.standbyFree = true) (untested : s.testOf (rowSlice r) = none) :
    resetSlice s (rowSlice r) = startTakeover (recordSliceReset s (rowSlice r) 0) r 2 := by
  have none : s.wce.handover = none := by
    unfold State.standbyFree at free
    simp only [Bool.and_eq_true] at free
    exact Option.isNone_iff_eq_none.1 free.2
  unfold resetSlice
  dsimp only
  rw [cutTestOf_untested untested, finOf_rowSlice, none]
  dsimp only
  rw [if_pos ⟨serves, free⟩]

theorem resetSlice_idle (idle : (s.wce.slices.at n).state = .idle) (untested : s.testOf n = none) (holds : n = standby → s.heldRow = none) :
    resetSlice s n = enterReset (recordSliceReset s n (if n ≠ standby ∧ s.wce.handover = none ∧ s.standbyFree = false then 1 else 0)) n := by
  unfold resetSlice
  dsimp only
  rw [cutTestOf_untested untested]
  obtain rfl | ⟨r, rfl⟩ := eq_standby_or_rowSlice n
  · rw [finOf_standby, if_neg (c := standby ≠ standby ∧ _) (fun h => h.1 rfl)]
    cases s.wce.handover with
    | some h =>
      dsimp only
      rw [if_neg (by rw [idle]; decide)]
    | none =>
      dsimp only
      rw [holds rfl]
  · rw [finOf_rowSlice]
    cases handover : s.wce.handover with
    | some h =>
      dsimp only
      rw [if_neg (by rw [idle]; decide), if_neg (by rw [idle]; decide), if_neg (fun h => nomatch h.2.1)]
    | none =>
      dsimp only
      rw [if_neg (fun h => absurd (idle.symm.trans h.1) (by decide)), if_neg (by rw [idle]; decide)]
      cases free : s.standbyFree with
      | true => rw [if_pos rfl, if_neg (fun h => nomatch h.2.2)]
      | false => rw [if_neg nofun, if_pos ⟨rowSlice_ne_standby r, rfl, rfl⟩]

theorem exec_sliceReset (carried : s.gate (sliceCtrlOff n) = .carry) (may : s.mayResetSlice n = true) (src : Src) :
    exec (.sliceReset src n) s = .next ((resetSlice (sliceAccept s n) n).complete src (sliceCtrlOff n) false 0 0) := by
  show execSliceReset src n s = _
  unfold execSliceReset
  rw [gatedWrite_of_carry carried, sliceResetCmd, if_pos may]

theorem beginTest_testOf (s : State) (n : Slice) (why : BitVec 3) : (beginTest s n why).testOf n = some why := by
  show ((s.wce.testing.filter (fun t => t.1 ≠ n) ++ [(n, why)]).find? (fun t => t.1 = n)).map (·.2) = some why
  rw [List.find?_append, List.find?_eq_none.2]
  · simp
  · intro t mem
    simpa using (List.mem_filter.1 mem).2

theorem beginTest_testOf_other (s : State) {n m : Slice} (other : m ≠ n) (why : BitVec 3) : (beginTest s n why).testOf m = s.testOf m := by
  show ((s.wce.testing.filter (fun t => t.1 ≠ n) ++ [(n, why)]).find? (fun t => t.1 = m)).map (·.2) = _
  rw [List.find?_append, List.find?_filter]
  have test : (fun t : Slice × BitVec 3 => decide (decide (t.1 ≠ n) = true ∧ decide (t.1 = m) = true)) = fun t => decide (t.1 = m) := by
    funext t
    by_cases same : t.1 = m
    · simp [same, other]
    · simp [same]
  rw [test]
  have last : [(n, why)].find? (fun t => decide (t.1 = m)) = none := by simp [other.symm]
  rw [last, Option.or_none]
  rfl

theorem beginTest_state (s : State) (n : Slice) (why : BitVec 3) : ((beginTest s n why).wce.slices.at n).state = .selftest :=
  (congrArg SliceSt.state (Tab.at_upd_same ..)).trans rfl

/-! ## The end of a slice's reset -/

theorem takeWaits_of_none {s : State} (none : s.xing.waits = []) (accepted : Bool) (taken : XingWait → Bool) : takeWaits s accepted taken = s := by
  unfold takeWaits
  rw [none]
  show ({ s with xing := { s.xing with waits := [] } } : State) = s
  rw [← none]

/-- A slice in another state. -/
def becomes (s : State) (n : Slice) (st : SliceState) : State := s.onSlice n (fun x => { x with state := st })

theorem exec_sliceResetEnd (resets : (s.wce.slices.at n).state = .reset) : exec (.sliceResetEnd n) s = .next
    (takeWaits (afterReset s n) false (fun w => (w.domain, w.row) = (RegAt.wceSliceStatus n).domain &&
      !(afterReset s n).clockStopped (RegAt.wceSliceStatus n).domain && !w.timedOut && !(afterReset s n).waitsForSlice w)) := by
  show execSliceResetEnd n s = _
  unfold execSliceResetEnd
  rw [if_neg (fun h => h resets)]

/-- A slice that holds its row goes on with it, or with its handover. -/
theorem afterReset_serves (holds : (s.wce.slices.at (rowSlice r)).heldBy ≠ 24) (none : s.wce.orders = []) :
    afterReset s (rowSlice r) = becomes s (rowSlice r) (if s.wce.handover.any (fun h => h.row = r) then .handover else .serving) := by
  unfold afterReset
  dsimp only
  rw [finOf_rowSlice]
  dsimp only
  rw [if_pos holds, nextOrder_of_none (by exact none)]
  cases s.wce.handover with
  | none => rfl
  | some h =>
    have same : (decide (rowSlice r = standby) || decide (rowSlice h.row = rowSlice r)) = decide (h.row = r) := by
      rw [decide_eq_false (rowSlice_ne_standby r), Bool.false_or]
      exact decide_eq_decide.2 ⟨fun e => Fin.ext (congrArg Fin.val e :), fun e => by rw [e]⟩
    dsimp only [Option.any_some]
    by_cases own : h.row = r
    · subst own
      simp [becomes]
    · have apart : rowSlice h.row ≠ rowSlice r := fun e => own (Fin.ext (congrArg Fin.val e :))
      simp [becomes, own, apart, rowSlice_ne_standby]

theorem afterReset_away (held : (s.wce.slices.at (rowSlice r)).heldBy = 24) (none : s.wce.orders = []) (still : s.wce.handover = Option.none) :
    (s.wce.reason = 2 → afterReset s (rowSlice r) = beginTest s (rowSlice r) 2) ∧
    (s.wce.reason = 3 → afterReset s (rowSlice r) = startRelease (becomes s (rowSlice r) .idle) r) ∧
    (s.wce.reason ≠ 2 → s.wce.reason ≠ 3 → afterReset s (rowSlice r) = becomes s (rowSlice r) (if s.wce.reason = 1 then .retired else .idle)) := by
  unfold afterReset
  dsimp only
  rw [finOf_rowSlice, still]
  dsimp only
  rw [if_neg nofun, if_neg (fun h => h held)]
  refine ⟨fun why => ?_, fun why => ?_, fun drained turn => ?_⟩
  · rw [if_pos why, nextOrder_of_none (by exact none)]
  · rw [why, if_neg (by decide), if_pos ⟨rfl, rfl⟩]
    rfl
  · rw [if_neg drained, if_neg (fun h => turn h.1), nextOrder_of_none (by exact none)]
    rfl

theorem closeGroups_xing (s : State) (r : Row) : (closeGroups s r).xing = s.xing :=
  State.each_induction (P := fun t => t.xing = s.xing) rfl fun _ _ _ before => before

theorem startRelease_xing (s : State) (r : Row) : (startRelease s r).xing = s.xing := by
  unfold startRelease
  rw [State.emit_xing, closeGroups_xing]
  rfl

theorem afterReset_away_xing (held : (s.wce.slices.at (rowSlice r)).heldBy = 24) (none : s.wce.orders = []) (still : s.wce.handover = Option.none) :
    (afterReset s (rowSlice r)).xing = s.xing := by
  obtain ⟨drained, turn, other⟩ := afterReset_away held none still
  by_cases two : s.wce.reason = 2
  · rw [drained two]
    rfl
  · by_cases three : s.wce.reason = 3
    · rw [turn three, startRelease_xing]
      rfl
    · rw [other two three]
      rfl

/-! ## Port resets -/

theorem resetPort_eq (s : State) (a : Arr) : resetPort s a =
    portResetDone (loseTiles s [a] none 7) a ((s.wce.ports.at a).open_.filter (Tile.checkedBy none)) := by
  unfold resetPort resetPorts
  rw [List.map_singleton, State.each_cons, State.each_nil]

theorem exec_portReset {a : Arr} (carried : s.gate (portCtrlOff a) = .carry) (free : s.portInReset a = false) (src : Src) :
    exec (.portReset src a) s = .next ((portResetDone (loseTiles s [a] none 7) a
      ((s.wce.ports.at a).open_.filter (Tile.checkedBy none))).complete src (portCtrlOff a) false 0 0) := by
  show execPortReset src a s = _
  unfold execPortReset
  rw [gatedWrite_of_carry carried, portResetCmd, if_neg (Bool.eq_false_iff.1 free), resetPort_eq]

theorem portResetDone_port (s : State) (a : Arr) (tiles : List Tile) : (portResetDone s a tiles).wce.ports.at a =
    ({ s.wce.ports.at a with maxDebt := 0, resets := bump (s.wce.ports.at a).resets } : Port).closeAtZero.noteDebt := by
  rw [portResetDone_eq, State.emit_wce, portAfterReset_wce]
  exact Tab.at_upd_same ..

theorem Port.debt_of_empty {p : Port} (empty : p.park = []) : p.debt = 0 := by
  unfold Port.debt
  rw [empty]
  rfl

theorem Port.maxDebt_of_empty {p : Port} (empty : p.park = []) (cleared : p.maxDebt = 0) : p.closeAtZero.noteDebt.maxDebt = 0 := by
  unfold Port.noteDebt
  rw [Port.closeAtZero_maxDebt, Port.closeAtZero_debt, Port.debt_of_empty empty, cleared]
  rfl

theorem portResetDone_maxDebt {s : State} (a : Arr) (tiles : List Tile) (empty : (s.wce.ports.at a).Empty) :
    ((portResetDone s a tiles).wce.ports.at a).maxDebt = 0 := by
  rw [portResetDone_port]
  exact Port.maxDebt_of_empty empty.2.1 rfl

theorem portResetDone_resets (s : State) (a : Arr) (tiles : List Tile) :
    ((portResetDone s a tiles).wce.ports.at a).resets = bump (s.wce.ports.at a).resets := by
  rw [portResetDone_port]
  exact Port.closeAtZero_resets _

theorem loseTiles_resets (s : State) (a : Arr) (reason : BitVec 4) : ((loseTiles s [a] none reason).wce.ports.at a).resets = (s.wce.ports.at a).resets := by
  refine (congrArg Port.resets ((Tells.loseVerdicts _ _ reason).ports a) :).trans ?_
  exact (congrArg Port.resets (Tab.at_upd_same ..)).trans rfl

end

/-- An access to a register of a slice waits no longer than the slice's reset (R188). -/
theorem taken_of_runs {s : State} {n : Slice} {w : XingWait} {y : RegAt} (same : (w.domain, w.row) = (RegAt.wceSliceStatus n).domain)
    (clock : s.clockStopped (w.domain, w.row) = false) (reg : regAt w.off = some y) (which : y = .wceSliceStatus n ∨ y = .wceSliceCounts n)
    (waits : w.timedOut = false) (runs : (s.wce.slices.at n).state ≠ .reset) :
    (decide ((w.domain, w.row) = (RegAt.wceSliceStatus n).domain) && !s.clockStopped (RegAt.wceSliceStatus n).domain && !w.timedOut &&
      !s.waitsForSlice w) = true := by
  have serves : s.waitsForSlice w = false := by
    unfold State.waitsForSlice
    rw [reg]
    obtain rfl | rfl := which
    · exact decide_eq_false runs
    · exact decide_eq_false runs
  rw [← same, clock, waits, serves, decide_eq_true rfl]
  rfl

/-- One access waits and is taken: it is a read, and gives its register's value. -/
theorem takeWaits_read {s : State} {w : XingWait} {y : RegAt} {taken : XingWait → Bool} (one : s.xing.waits = [w]) (takes : taken w = true)
    (reg : regAt w.off = some y) (waits : w.timedOut = false) (read : w.acc = .read) :
    takeWaits s false taken = ({ s with xing := { s.xing with waits := [] } } : State).complete w.src w.off false 0
      (readReg { s with xing := { s.xing with waits := [] } } y) := by
  unfold takeWaits
  rw [one]
  have split : splitWaits taken [w] [] = ([w], []) := by
    unfold splitWaits
    rw [takes]
    rfl
  rw [split]
  have carries (u : State) : carryAccess u w.src w.off w.acc = (u, readReg u y) := by
    unfold carryAccess
    rw [reg, read]
  rw [State.each_cons, State.each_nil]
  unfold takeWait
  rw [if_neg (Bool.eq_false_iff.1 waits), carries]

theorem sliceAccept_slice (s : State) (n m : Slice) : (sliceAccept s n).wce.slices.at m =
    if m = n then { s.wce.slices.at m with refused := false } else s.wce.slices.at m := by
  by_cases same : m = n
  · subst same
    rw [if_pos rfl]
    exact Tab.at_upd_same ..
  · rw [if_neg same]
    exact Tab.at_upd_other _ _ same

theorem sliceAccept_state (s : State) (n : Slice) {m : Slice} : ((sliceAccept s n).wce.slices.at m).state = (s.wce.slices.at m).state := by
  rw [sliceAccept_slice]
  split <;> rfl

theorem sliceAccept_standbyFree (s : State) (n : Slice) : (sliceAccept s n).standbyFree = s.standbyFree := by
  unfold State.standbyFree
  rw [sliceAccept_state]
  rfl

theorem sliceAccept_heldRow (s : State) (n : Slice) : (sliceAccept s n).heldRow = s.heldRow := by
  have row : ((sliceAccept s n).wce.slices.at standby).row = (s.wce.slices.at standby).row := by
    rw [sliceAccept_slice]
    split <;> rfl
  unfold State.heldRow
  rw [sliceAccept_state, row]

theorem Appends.startTakeover (s : State) (r : Row) (why : BitVec 3) : Appends s (startTakeover s r why) := by
  unfold Machine.startTakeover
  dsimp only
  refine Appends.trans (Appends.trans ?_ (Serves.closeGroups _ r).toAppends) (.emit _ _)
  exact .of_same rfl rfl rfl rfl

theorem becomes_state (s : State) (n : Slice) (st : SliceState) : ((becomes s n st).wce.slices.at n).state = st :=
  (congrArg SliceSt.state (Tab.at_upd_same ..)).trans rfl

theorem enterReset_state (s : State) (n : Slice) : ((enterReset s n).wce.slices.at n).state = .reset :=
  (congrArg SliceSt.state (Tab.at_upd_same ..)).trans rfl

theorem enterReset_rcd (s : State) (n : Slice) : (enterReset s n).rcd = s.rcd := rfl

theorem enterReset_ports (s : State) (n : Slice) : (enterReset s n).wce.ports = s.wce.ports := rfl

/-- Settles O32: a reset absorbs the row's tiles or hands the row over first; its end lets the slice go on, and with it the accesses that waited. -/
theorem sliceAndPortResets : Obligations.SliceAndPortResets := by
  unfold Obligations.SliceAndPortResets
  refine ⟨fun s src r carried may serves busy untested => ?_, fun s src r carried may serves free untested => ?_,
    fun s src n carried may idle untested holds => ?_, fun s r resets held none still calm => ?_, fun s r resets holds calm none => ?_,
    fun s r w y resets holds one domain clock reg which waits read none => ?_, fun s src a carried free => ?_⟩
  · have run := exec_sliceReset carried may src
    rw [resetSlice_absorbs ((sliceAccept_state s _).trans serves) ((sliceAccept_standbyFree s _).trans busy) untested] at run
    refine ⟨_, run, ?_, fun a mem => ?_, (execSliceReset_kept ..).of_next run,
      (sliceAccept s (rowSlice r)).stamp (sliceResetEvent (rowSlice r) 1), ?_, rfl, rfl, rfl⟩
    · rw [State.complete_wce]
      exact enterReset_state _ _
    · rw [State.complete_wce, enterReset_ports]
      obtain ⟨cur, park, -⟩ := resetRow_empty (recordSliceReset (sliceAccept s (rowSlice r)) (rowSlice r) 1) mem
      exact ⟨park, cur⟩
    · rw [State.complete_rcd, enterReset_rcd]
      exact (Appends.resetRow _ r).intake (recordSliceReset_records (sliceAccept s (rowSlice r)) (rowSlice r) 1)
  · have run := exec_sliceReset carried may src
    rw [resetSlice_drains ((sliceAccept_state s _).trans serves) ((sliceAccept_standbyFree s _).trans free) untested] at run
    refine ⟨_, run, ?_, (execSliceReset_kept ..).of_next run, (sliceAccept s (rowSlice r)).stamp (sliceResetEvent (rowSlice r) 0), ?_, rfl, rfl, rfl⟩
    · rw [State.complete_wce, startTakeover_wce]
    · rw [State.complete_rcd]
      exact (Appends.startTakeover _ r 2).intake (recordSliceReset_records (sliceAccept s (rowSlice r)) (rowSlice r) 0)
  · have run := exec_sliceReset carried may src
    rw [resetSlice_idle ((sliceAccept_state s n).trans idle) untested (fun sb => (sliceAccept_heldRow s n).trans (holds sb)), sliceAccept_standbyFree,
      show (sliceAccept s n).wce.handover = s.wce.handover from rfl] at run
    generalize (if n ≠ standby ∧ s.wce.handover = none ∧ s.standbyFree = false then (1 : BitVec 16) else 0) = how at run ⊢
    refine ⟨_, run, ?_, ?_, (execSliceReset_kept ..).of_next run, (sliceAccept s n).stamp (sliceResetEvent n how), ?_, rfl, rfl, rfl⟩
    · rw [State.complete_wce]
      exact enterReset_state _ _
    · rw [State.complete_wce]
      show (recordSliceReset (sliceAccept s n) n how).wce.ports = _
      rw [recordSliceReset, State.emit_wce]
      rfl
    · rw [State.complete_rcd, enterReset_rcd]
      exact recordSliceReset_records (sliceAccept s n) n how
  · have run := exec_sliceResetEnd resets
    obtain ⟨drained, turn, other⟩ := afterReset_away held none still
    rw [takeWaits_of_none (by rw [afterReset_away_xing held none still]; exact calm)] at run
    refine ⟨_, run, afterReset_kept s _, fun why => ?_, fun why => ?_, fun why => ?_⟩
    · rw [drained why]
      exact ⟨beginTest_state .., beginTest_testOf ..⟩
    · rw [turn why, startRelease_wce]
      dsimp only
      rw [show (becomes s (rowSlice r) .idle).wce.reason = s.wce.reason from rfl, why]
    · rw [other (by rw [why]; decide) (by rw [why]; decide), if_neg (by rw [why]; decide)]
      exact ⟨becomes_state .., rfl⟩
  · rw [exec_sliceResetEnd resets, afterReset_serves holds none, takeWaits_of_none (by exact calm)]
    rfl
  · have run := exec_sliceResetEnd resets
    have goes : (if s.wce.handover.any (fun h => h.row = r) then SliceState.handover else .serving) ≠ .reset := by split <;> decide
    rw [afterReset_serves holds none] at run
    generalize (if s.wce.handover.any (fun h => h.row = r) then SliceState.handover else .serving) = st at run goes
    have runs : ((becomes s (rowSlice r) st).wce.slices.at (rowSlice r)).state ≠ .reset := by
      rw [becomes_state]
      exact goes
    rw [takeWaits_read (by exact one) (taken_of_runs (s := becomes s (rowSlice r) st) domain clock reg which waits runs) reg waits read] at run
    refine ⟨_, run, by rw [State.complete_xing], fun host => ?_⟩
    rw [State.complete_out, host]
    have same : readReg { becomes s (rowSlice r) st with xing := { (becomes s (rowSlice r) st).xing with waits := [] } } y =
        readReg (({ becomes s (rowSlice r) st with xing := { (becomes s (rowSlice r) st).xing with waits := [] } } : State).complete .host w.off false 0
          (readReg { becomes s (rowSlice r) st with xing := { (becomes s (rowSlice r) st).xing with waits := [] } } y)) y := by
      obtain rfl | rfl := which
      · rw [readReg, readReg, State.complete_wce]
      · rw [readReg, readReg, State.complete_wce]
    rw [← same]
    rfl
  · have run := exec_portReset carried free src
    have lost := loseTiles_empty s (List.mem_singleton.2 (rfl : a = a)) 7
    obtain ⟨cur, park, group⟩ := portResetDone_empty (loseTiles s [a] Option.none 7) lost ((s.wce.ports.at a).open_.filter (Tile.checkedBy Option.none))
    refine ⟨_, (portAfterReset (loseTiles s [a] Option.none 7) a).stamp (portResetEvent a ((s.wce.ports.at a).open_.filter (Tile.checkedBy Option.none))), run,
      ?_, ?_, ?_, ?_, ?_, ?_, rfl, rfl, ?_, (execPortReset_kept ..).of_next run⟩
    · rw [State.complete_wce, cur]
    · rw [State.complete_wce, park]
    · rw [State.complete_wce, group]
    · rw [State.complete_wce, portResetDone_maxDebt _ _ lost]
    · rw [State.complete_wce, portResetDone_resets, loseTiles_resets]
      rfl
    · rw [State.complete_rcd]
      exact portResetDone_records _ a _
    · show BitVec.ofNat 32 ((s.wce.ports.at a).open_.filter (Tile.checkedBy Option.none)).length = _
      rw [show (s.wce.ports.at a).open_.filter (Tile.checkedBy Option.none) = (s.wce.ports.at a).open_ from List.filter_eq_self.2 fun _ _ => rfl]

end Sys2Proof.Machine


namespace Sys2Proof.Machine

/-! # Slice self-tests (R185 to R187, R190) -/

section

variable {s : State} {r : Row} {n : Slice}

theorem testOf_drop {l : List (Slice × BitVec 3)} (n : Slice) : ((l.filter (fun t => t.1 ≠ n)).find? (fun t => t.1 = n)).map (·.2) = none := by
  rw [List.find?_eq_none.2]
  · rfl
  · intro t mem
    simpa using (List.mem_filter.1 mem).2

theorem testOf_drop_other {l : List (Slice × BitVec 3)} {n m : Slice} (other : m ≠ n) :
    ((l.filter (fun t => t.1 ≠ n)).find? (fun t => t.1 = m)).map (·.2) = (l.find? (fun t => t.1 = m)).map (·.2) := by
  rw [List.find?_filter]
  congr 2
  funext t
  by_cases same : t.1 = m
  · simp [same, other]
  · simp [same]

/-! ## Beginnings -/

theorem startTest_idle (idle : (s.wce.slices.at n).state = .idle) : startTest s n = beginTest s n 4 := by
  unfold startTest
  obtain rfl | ⟨r, rfl⟩ := eq_standby_or_rowSlice n
  · rfl
  · rw [finOf_rowSlice]
    exact if_neg (by rw [idle]; decide)

theorem startTest_serving (serves : (s.wce.slices.at (rowSlice r)).state = .serving) : startTest s (rowSlice r) = startTakeover s r 3 := by
  unfold startTest
  rw [finOf_rowSlice]
  exact if_pos serves

theorem exec_selftestNow (carried : s.gate (sliceCtrlOff n) = .carry) (vs0 : s.pwr.vs = .vs0)
    (legal : ((s.wce.slices.at n).state = .serving ∧ n ≠ standby ∧ s.standbyFree = true) ∨ (s.wce.slices.at n).state = .idle) (src : Src) :
    exec (.selftestNow src n) s = .next ((startTest (sliceAccept s n) n).complete src (sliceCtrlOff n) false 0 0) := by
  show execSelftestNow src n s = _
  unfold execSelftestNow
  rw [gatedWrite_of_carry carried]
  unfold selftestCmd
  dsimp only
  rw [if_pos ⟨vs0, legal⟩]

/-- A turn taken at its time (R185). -/
def turnTaken (s : State) : State := s.onWce (fun w => { w with lastTurn := s.time.opsec, turnDue := false })

theorem exec_selftestTurnDue (on : s.wce.interval ≠ 0) (tc : (s.fwp.procs.at 5).state = .run) (vs0 : s.pwr.vs = .vs0) :
    exec .selftestTurnDue s = .next (turnNow s) := by
  show execSelftestTurnDue s = _
  unfold execSelftestTurnDue
  rw [tc, if_neg (fun h => h.elim on nofun), if_neg (fun h => h vs0)]

theorem turnNow_of_row (present : r.val < s.rows) (turn : s.wce.nextTurn = r.val) : turnNow s =
    if (turnTaken s).standbyFree then
      if ((advanceTurn (turnTaken s)).wce.slices.at (rowSlice r)).state = .serving ∨ rowSlice r = standby then startTest (advanceTurn (turnTaken s)) (rowSlice r)
      else advanceTurn (turnTaken s)
    else if ((turnTaken s).wce.slices.at (rowSlice r)).state = .serving ∧ (turnTaken s).rowDeclaredIdle r 3200000 then
      testInPlace (advanceTurn (turnTaken s)) (rowSlice r)
    else turnTaken s := by
  have turns : s.wce.nextTurn % s.turns = r.val := by
    rw [turn]
    exact Nat.mod_eq_of_lt (by unfold State.turns; omega)
  unfold turnNow
  dsimp only
  rw [turns, show (s.onWce (fun w => { w with lastTurn := s.time.opsec, turnDue := false })).rows = s.rows from rfl, if_pos present,
    show finOf 25 r.val = some (rowSlice r) from dif_pos (by omega)]
  dsimp only
  rw [finOf_rowSlice]
  rfl

/-! ## Ends -/

/-- A slice whose test has ended with a result (R190). -/
def testEnded (s : State) (n : Slice) (result : BitVec 2) : State := (dropTest s n).onSlice n (fun x => x.tested result s.time.tick)

/-- SLICE_SELFTEST_FAIL. -/
def testFailEvent (n : Slice) (k : Fin 26) (misr : BitVec 128) : Ev :=
  { code := 0x2012, cls := .c, unit := uSlice n, p16 := BitVec.ofNat 16 k.val, p32 := misr.setWidth 32 }

/-- A failed test reported and declared. -/
def testFailed (s : State) (n : Slice) (k : Fin 26) (misr : BitVec 128) : State :=
  ((testEnded s n 2).fresh.2.emit (testFailEvent n k misr)).histPut { unit := uSlice n, act := .declare 4, event := 0x2012 }

theorem exec_sliceSelftestEnd_pass {why : BitVec 3} (tests : s.testOf n = some why) {misr : BitVec 128} (signed : misr = Config.sliceSignature s.fuses.stepping) :
    exec (.sliceSelftestEnd n none misr) s = .next (match finOf 24 n.val with
      | some r => if why = 4 ∨ why = 5 then nextOrder (becomes (testEnded s n 1) n (if why = 5 then .serving else .idle))
        else startRelease (becomes (testEnded s n 1) n (if why = 5 then .serving else .idle)) r
      | none => nextOrder (becomes (testEnded s n 1) n (if why = 5 then .serving else .idle))) := by
  show execSliceSelftestEnd n none misr s = _
  unfold execSliceSelftestEnd
  rw [tests]
  dsimp only
  rw [signed, decide_eq_true rfl]
  rfl

theorem exec_sliceSelftestEnd_fail {why : BitVec 3} (tests : s.testOf n = some why) (k : Fin 26) (misr : BitVec 128) :
    exec (.sliceSelftestEnd n (some k) misr) s = .next (match finOf 24 n.val with
      | some r => if ((testFailed s n k misr).wce.slices.at n).heldBy = 24 then
          (becomes (testFailed s n k misr) n .retired).onWce (fun w => { w with reason := 1 })
        else orderSlice (becomes (testFailed s n k misr) n .serving) r
      | none => becomes (testFailed s n k misr) n .retired) := by
  show execSliceSelftestEnd n (some k) misr s = _
  unfold execSliceSelftestEnd
  rw [tests]
  rfl

theorem testEnded_slice (s : State) (n : Slice) (result : BitVec 2) :
    (testEnded s n result).wce.slices.at n = (s.wce.slices.at n).tested result s.time.tick := Tab.at_upd_same ..

theorem becomes_slice (s : State) (n : Slice) (st : SliceState) : (becomes s n st).wce.slices.at n = { s.wce.slices.at n with state := st } := Tab.at_upd_same ..

theorem testFailed_wce (s : State) (n : Slice) (k : Fin 26) (misr : BitVec 128) : (testFailed s n k misr).wce = (testEnded s n 2).wce := by
  show ((testEnded s n 2).fresh.2.emit (testFailEvent n k misr)).wce = _
  rw [State.emit_wce]
  rfl

theorem testFailed_keeps (s : State) (n : Slice) (k : Fin 26) (misr : BitVec 128) :
    (testFailed s n k misr).fuses = s.fuses ∧ (testFailed s n k misr).pwr = s.pwr := by
  show ((testEnded s n 2).fresh.2.emit (testFailEvent n k misr)).fuses = _ ∧ ((testEnded s n 2).fresh.2.emit (testFailEvent n k misr)).pwr = _
  rw [State.emit_fuses, State.emit_pwr]
  exact ⟨rfl, rfl⟩

theorem testFailed_raises (s : State) (n : Slice) (k : Fin 26) (misr : BitVec 128) :
    (testEnded s n 2).fresh.2.stamp (testFailEvent n k misr) ∈ (testFailed s n k misr).fst.faultQ := by
  show _ ∈ ((testEnded s n 2).fresh.2.emit (testFailEvent n k misr)).fst.faultQ
  exact State.emit_raises _ _ nofun

theorem testEnded_testOf (s : State) (n : Slice) (result : BitVec 2) : (testEnded s n result).testOf n = none := testOf_drop n

theorem testEnded_testOf_other (s : State) {n m : Slice} (other : m ≠ n) (result : BitVec 2) : (testEnded s n result).testOf m = s.testOf m :=
  testOf_drop_other other

/-! ## The fault steward's order of a row with the standby free (R183) -/

/-- The standby's own test, where one runs, is cut; the row's slice has none. -/
theorem cutTestOf_standby (untested : s.testOf (rowSlice r) = none) : cutTestOf s [standby, rowSlice r] = cutSelftest s standby := by
  show cutSelftest (cutSelftest s standby) (rowSlice r) = _
  have still : (cutSelftest s standby).testOf (rowSlice r) = none := by
    unfold cutSelftest
    split
    · exact untested
    · unfold State.testOf
      rw [State.emit_wce]
      exact (testOf_drop_other (rowSlice_ne_standby r)).trans untested
  generalize cutSelftest s standby = t at still
  unfold cutSelftest
  rw [still]

theorem cutSelftest_slice_other {m : Slice} (other : m ≠ n) : (cutSelftest s n).wce.slices.at m = s.wce.slices.at m := by
  unfold cutSelftest
  split
  · rfl
  · rw [State.emit_wce]
    exact Tab.at_upd_other _ _ other

theorem orderSlice_free (serves : (s.wce.slices.at (rowSlice r)).state = .serving) (holds : (s.wce.slices.at (rowSlice r)).heldBy ≠ 31)
    (free : s.standbyFree = true) (row : s.heldRow = none) (none : s.wce.orders = []) (still : s.rowInReset r = false) :
    orderSlice s r = startTakeover (cutTestOf s [standby, rowSlice r]) r 1 := by
  unfold State.standbyFree at free
  simp only [Bool.and_eq_true, decide_eq_true_eq] at free
  obtain ⟨⟨present, idle⟩, calm⟩ := free
  have waits : s.orderWaits r = false := by
    unfold State.orderWaits
    rw [still, serves, idle]
    simp
  unfold orderSlice
  dsimp only
  rw [if_neg (by rw [serves]; decide), if_neg (by rw [none]; simpa using holds), if_neg (by rw [present, idle]; simp), if_neg (Bool.eq_false_iff.1 waits),
    Option.isNone_iff_eq_none.1 calm, row]

end

/-- Settles O33: a test begins where its slice stands free or has handed its row over, and its end gives the slice back or takes it out of service. -/
theorem sliceSelfTests : Obligations.SliceSelfTests := by
  unfold Obligations.SliceSelfTests
  refine ⟨fun s src n carried vs0 idle => ?_, fun s src r carried vs0 serves free => ?_, fun s r on tc vs0 free present turn serves => ?_,
    fun s r on tc vs0 busy present turn serves idle => ?_, fun s r misr tests signed none => ?_, fun s r misr why tests which signed => ?_,
    fun s r k misr why tests away gone free row none still => ?_, fun s misr why tests own signed none => ?_, fun s k misr why tests => ?_⟩
  · have run := exec_selftestNow carried vs0 (.inr idle) src
    rw [startTest_idle ((sliceAccept_state s n).trans idle)] at run
    refine ⟨_, run, ?_, ?_, fun m other => ?_, ?_, (execSelftestNow_kept ..).of_next run⟩
    · rw [State.complete_wce]
      exact beginTest_state ..
    · unfold State.testOf
      rw [State.complete_wce]
      exact beginTest_testOf ..
    · unfold State.testOf
      rw [State.complete_wce]
      exact beginTest_testOf_other (sliceAccept s n) other 4
    · rw [State.complete_wce]
      rfl
  · have run := exec_selftestNow carried vs0 (.inl ⟨serves, rowSlice_ne_standby r, free⟩) src
    rw [startTest_serving ((sliceAccept_state s _).trans serves)] at run
    refine ⟨_, run, ?_, (execSelftestNow_kept ..).of_next run⟩
    rw [State.complete_wce, startTakeover_wce]
  · have run := exec_selftestTurnDue on tc vs0
    rw [turnNow_of_row present turn, if_pos (show (turnTaken s).standbyFree = true from free),
      if_pos (.inl (show ((advanceTurn (turnTaken s)).wce.slices.at (rowSlice r)).state = .serving from serves)),
      startTest_serving (show ((advanceTurn (turnTaken s)).wce.slices.at (rowSlice r)).state = .serving from serves)] at run
    have has : s.hasStandby = true := by
      unfold State.standbyFree at free
      simp only [Bool.and_eq_true] at free
      exact free.1.1
    refine ⟨_, run, ?_, ?_, ?_, (execSelftestTurnDue_kept s).of_next run⟩
    · rw [startTakeover_wce]
    · rw [startTakeover_wce]
      show (s.wce.nextTurn % s.turns + 1) % s.turns = r.val + 1
      have turns : s.turns = s.rows + 1 := by
        unfold State.turns
        rw [has]
        rfl
      rw [turn, turns, Nat.mod_eq_of_lt (show r.val < s.rows + 1 by omega), Nat.mod_eq_of_lt (show r.val + 1 < s.rows + 1 by omega)]
    · rw [startTakeover_wce]
      rfl
  · have run := exec_selftestTurnDue on tc vs0
    rw [turnNow_of_row present turn, if_neg (show ¬(turnTaken s).standbyFree = true from Bool.eq_false_iff.1 busy),
      if_pos ⟨show ((turnTaken s).wce.slices.at (rowSlice r)).state = .serving from serves, show (turnTaken s).rowDeclaredIdle r 3200000 = true from idle⟩] at run
    exact ⟨_, run, beginTest_state .., beginTest_testOf .., rfl, rfl, (execSelftestTurnDue_kept s).of_next run⟩
  · have run := exec_sliceSelftestEnd_pass tests signed
    rw [finOf_rowSlice] at run
    dsimp only at run
    rw [if_pos (.inr rfl), nextOrder_of_none (by exact none), if_pos rfl] at run
    refine ⟨_, run, ?_, becomes_state .., testEnded_testOf s (rowSlice r) 1, fun m other => testEnded_testOf_other s other 1, (execSliceSelftestEnd_kept ..).of_next run⟩
    rw [becomes_slice, testEnded_slice]
    rfl
  · have run := exec_sliceSelftestEnd_pass tests signed
    have not : ¬(why = 4 ∨ why = 5) := by obtain rfl | rfl := which <;> decide
    rw [finOf_rowSlice] at run
    dsimp only at run
    rw [if_neg not, if_neg (fun h => not (.inr h))] at run
    refine ⟨_, run, ?_, ?_, ?_, (execSliceSelftestEnd_kept ..).of_next run⟩
    · rw [startRelease_wce]
      dsimp only
      rw [handingOver_row, becomes_slice, testEnded_slice]
      rfl
    · rw [startRelease_wce]
      rfl
    · unfold State.testOf
      rw [startRelease_wce]
      exact testEnded_testOf s (rowSlice r) 1
  · have run := exec_sliceSelftestEnd_fail tests k misr
    rw [finOf_rowSlice] at run
    dsimp only at run
    have slice : (testFailed s (rowSlice r) k misr).wce.slices.at (rowSlice r) = (s.wce.slices.at (rowSlice r)).tested 2 s.time.tick := by
      rw [testFailed_wce, testEnded_slice]
    have serving : (becomes (testFailed s (rowSlice r) k misr) (rowSlice r) .serving).wce.slices.at (rowSlice r) =
        { (s.wce.slices.at (rowSlice r)).tested 2 s.time.tick with state := .serving } := by rw [becomes_slice, slice]
    have sb : (becomes (testFailed s (rowSlice r) k misr) (rowSlice r) .serving).wce.slices.at standby = s.wce.slices.at standby := by
      rw [becomes, State.onSlice_wce, Tab.at_upd_other _ _ (rowSlice_ne_standby r).symm, testFailed_wce]
      exact Tab.at_upd_other _ _ (rowSlice_ne_standby r).symm
    have untested : (becomes (testFailed s (rowSlice r) k misr) (rowSlice r) .serving).testOf (rowSlice r) = Option.none := by
      unfold State.testOf becomes
      rw [State.onSlice_wce, testFailed_wce]
      exact testEnded_testOf s (rowSlice r) 2
    have raised : (testEnded s (rowSlice r) 2).fresh.2.stamp (testFailEvent (rowSlice r) k misr) ∈
        (becomes (testFailed s (rowSlice r) k misr) (rowSlice r) .serving).fst.faultQ := testFailed_raises s (rowSlice r) k misr
    obtain ⟨fuses, pwr⟩ := testFailed_keeps s (rowSlice r) k misr
    have ordered : orderSlice (becomes (testFailed s (rowSlice r) k misr) (rowSlice r) .serving) r =
        startTakeover (cutTestOf (becomes (testFailed s (rowSlice r) k misr) (rowSlice r) .serving) [standby, rowSlice r]) r 1 := by
      refine orderSlice_free (by rw [serving]) (by rw [serving]; exact gone) ?_ ?_ ?_ ?_
      · unfold State.standbyFree State.hasStandby at free ⊢
        rw [sb, show (becomes (testFailed s (rowSlice r) k misr) (rowSlice r) .serving).fuses = s.fuses from fuses,
          show (becomes (testFailed s (rowSlice r) k misr) (rowSlice r) .serving).wce.handover = (testFailed s (rowSlice r) k misr).wce.handover from rfl, testFailed_wce]
        exact free
      · unfold State.heldRow at row ⊢
        rw [sb]
        exact row
      · show (testFailed s (rowSlice r) k misr).wce.orders = []
        rw [testFailed_wce]
        exact none
      · unfold State.rowInReset State.rows at still ⊢
        rw [show (becomes (testFailed s (rowSlice r) k misr) (rowSlice r) .serving).fuses = s.fuses from fuses,
          show (becomes (testFailed s (rowSlice r) k misr) (rowSlice r) .serving).pwr = s.pwr from pwr]
        exact still
    rw [if_neg (by rw [slice]; exact away), ordered, cutTestOf_standby untested] at run
    generalize becomes (testFailed s (rowSlice r) k misr) (rowSlice r) .serving = u at run serving raised
    refine ⟨_, _, run, ?_, ?_, (Appends.startTakeover _ r 1).faultQ ((Serves.cutSelftest u standby).faultQ raised), rfl, rfl, rfl, (execSliceSelftestEnd_kept ..).of_next run⟩
    · rw [startTakeover_wce]
      dsimp only
      rw [handingOver_row, cutSelftest_slice_other (rowSlice_ne_standby r), serving]
      rfl
    · rw [startTakeover_wce]
  · have run := exec_sliceSelftestEnd_pass tests signed
    rw [finOf_standby] at run
    dsimp only at run
    rw [nextOrder_of_none (by exact none), if_neg own] at run
    refine ⟨_, run, ?_, becomes_state .., ?_, testEnded_testOf s standby 1, (execSliceSelftestEnd_kept ..).of_next run⟩
    · rw [becomes_slice, testEnded_slice]
      rfl
    · rw [becomes_slice, testEnded_slice]
      rfl
  · have run := exec_sliceSelftestEnd_fail tests k misr
    rw [finOf_standby] at run
    dsimp only at run
    refine ⟨_, (testEnded s standby 2).fresh.2.stamp (testFailEvent standby k misr), run, ?_, becomes_state .., ?_, testFailed_raises s standby k misr,
      rfl, rfl, rfl, rfl, rfl, (execSliceSelftestEnd_kept ..).of_next run⟩
    · rw [becomes_slice, testFailed_wce, testEnded_slice]
      rfl
    · unfold State.testOf becomes
      rw [State.onSlice_wce, testFailed_wce]
      exact testEnded_testOf s standby 2

end Sys2Proof.Machine


namespace Sys2Proof.Machine

/-! ## Late reports that end in VS4 (R79, R226)

A report that names a committed execution drains the chip. Where the reference clock is lost and every context has stopped by then, the
engine moves to VS4 at once, and the faults of the report are recorded there and wait no longer (log 24). -/

/-- A comparison of the committed execution of `clockLost` whose fingerprints differ. -/
def lateCompare : Compare :=
  { pass := 0, replay := 0, logical := 0, cls := 0, kind := .sample, shadow := 0, primaryFp := 1, shadowFp := 0, referee := none }

/-- A catch of the committed execution of `clockLost`. -/
def lateCatch : VerdictFlit :=
  { ctx := 0, port := uPort 0, seq := 0, verdict := .catch, covers := 1, voids := 0, reason := 1, replay := 0, passLow := 0 }

/-- The faults that wait after a command. -/
def faultsAfter (i : Instr) (s : State) : Option (List Ev) :=
  match exec i s with
  | .next t => some t.fst.faultQ
  | _ => none

theorem faultsAfter_of_next {i : Instr} {s t : State} (done : exec i s = .next t) : faultsAfter i s = some t.fst.faultQ := by
  unfold faultsAfter
  rw [done]

theorem clockLost_named : (clockLost 0 none).named 0 0 0 = .committed 0 := by decide +kernel

theorem clockLost_named_low : (clockLost 0 none).named 0 ((clockLost 0 none).passOf 0 0) 0 = .committed 0 := by decide +kernel

theorem lateCompare_faults : faultsAfter (.shadowCompare 0 lateCompare) (clockLost 0 none) = some [] := by decide +kernel

theorem lateCatch_faults : faultsAfter (.tileVerdict lateCatch) (clockLost 0 none) = some [] := by decide +kernel

/-- Refutes O34: the report of a late comparison leaves no waiting fault where it takes the engine to VS4. -/
theorem not_shadowComparisonsAreDecided : ¬ Obligations.ShadowComparisonsAreDecided := by
  unfold Obligations.ShadowComparisonsAreDecided
  intro claim
  obtain ⟨-, -, -, -, late, -⟩ := claim (clockLost 0 none) 0 lateCompare
  obtain ⟨t, done, -, -, -, -, raised⟩ := late 0 clockLost_named (by decide)
  obtain ⟨e, waits, -⟩ := raised 0x500A (by decide)
  have empty : t.fst.faultQ = [] := Option.some.inj ((faultsAfter_of_next done).symm.trans lateCompare_faults)
  rw [empty] at waits
  exact absurd waits List.not_mem_nil

/-- Refutes O38: so does a late catch. -/
theorem not_reportsDrainsAndReplays : ¬ Obligations.ReportsDrainsAndReplays := by
  unfold Obligations.ReportsDrainsAndReplays
  rintro ⟨-, -, -, verdicts, -⟩
  obtain ⟨-, -, committed⟩ := verdicts (clockLost 0 none) 0 lateCatch rfl
  obtain ⟨-, late⟩ := committed 0 clockLost_named_low
  obtain ⟨t, done, -, -, -, ⟨e, waits, -⟩, -⟩ := late (.inl rfl)
  have empty : t.fst.faultQ = [] := Option.some.inj ((faultsAfter_of_next done).symm.trans lateCatch_faults)
  rw [empty] at waits
  exact absurd waits List.not_mem_nil

end Sys2Proof.Machine


namespace Sys2Proof.Machine

/-! # Void tiles and chases (R204 to R206, R220, R259) -/

section

variable {s : State} {c : Ctx} {r : Row} {p : Plan}

/-- What the next chase slot takes was offered for the row, is eligible, and has not been chased. -/
theorem chaseNext_mem {position : Nat} {x : CovSt} {last : Nat} {o : Row × Nat × BitVec 32} (next : chaseNext p position x r last = some o) :
    o ∈ x.offers ∧ o.1 = r ∧ o ∉ x.chases ∧ p.chaseable position o.2.1 o.2.2 = true := by
  unfold chaseNext at next
  obtain ⟨l, -, found⟩ := List.mem_filterMap.1 (List.mem_of_mem_head? next)
  obtain ⟨offered, free⟩ := List.mem_filter.1 (List.mem_of_find?_eq_some found)
  simp only [Bool.and_eq_true, decide_eq_true_eq, Bool.not_eq_true', List.contains_eq_mem, decide_eq_false_iff_not] at free
  exact ⟨offered, free.1.1, free.2, free.1.2⟩

/-- The count of a running context moved to an offset of its plan (R259). -/
def reached (s : State) (c : Ctx) (n : Nat) : CtxSt :=
  if (s.ctx c).pos.offset.toNat < n then
    { s.ctx c with pos := { (s.ctx c).pos with offset := BitVec.ofNat 32 (min n ((s.endOf c).getD n)), frac := 0 } }
  else s.ctx c

theorem reachOffset_ctx (runs : (s.ctx c).pass.st = .running) (n : Nat) : (reachOffset s c n).ctx c = reached s c n := by
  unfold reachOffset reached
  rw [if_pos runs, State.onPos_ctx_same]
  split <;> rfl

theorem reached_keeps (s : State) (c : Ctx) (n : Nat) : (reached s c n).cov = (s.ctx c).cov := by
  unfold reached
  split <;> rfl

theorem reached_offset {n e : Nat} (ends : s.endOf c = some e) (before : n ≤ e) (small : e < 2 ^ 32) : n ≤ (reached s c n).pos.offset.toNat := by
  unfold reached
  split
  · refine Nat.le_of_eq ?_
    dsimp only
    rw [ends, Option.getD_some, Nat.min_eq_left before, BitVec.toNat_ofNat, Nat.mod_eq_of_lt (Nat.lt_of_le_of_lt before small)]
  · next at_least => exact Nat.not_lt.1 at_least

/-- The begin of the row's chase window. -/
def Plan.chaseBegin (p : Plan) (r : Row) : Nat := ((p.cover.chase.find? (fun k => k.row = r.val)).map (·.begin_)).getD 0

/-- A tile chased: counted, and its column is the one chased last. -/
def chaseTaken (s : State) (c : Ctx) (r : Row) (n : Nat) (o : Row × Nat × BitVec 32) : State :=
  ((reachOffset s c n).onCov c (fun x => { x with chases := x.chases ++ [o], chased := bump x.chased })).onRow r (fun y => { y with chased := o.2.1 % 24 })

theorem exec_chaseSlotFill (plan : s.planOf c = some p) (runs : (s.ctx c).pass.st = .running) (rotates : p.rotates = true)
    (inside : p.chaseOver r (s.ctx c).pos.offset.toNat = false) (room : ((s.ctx c).cov.chases.filter (fun o => o.1 = r)).length < p.chaseSlots r) :
    exec (.chaseSlotFill c r) s = .next (match chaseNext p (s.ctx c).pos.position (s.ctx c).cov r (s.shd.rows.at r).chased with
      | none => s
      | some o => chaseTaken s c r (p.chaseBegin r) o) := by
  show execChaseSlotFill c r s = _
  unfold execChaseSlotFill
  rw [plan]
  dsimp only
  rw [if_neg]
  · cases chaseNext p (s.ctx c).pos.position (s.ctx c).cov r (s.shd.rows.at r).chased <;> rfl
  · rintro (stopped | still | behind | full)
    · exact stopped runs
    · exact absurd rotates (Bool.eq_false_iff.1 still)
    · exact absurd behind (Bool.eq_false_iff.1 inside)
    · exact Nat.not_le.2 room full

theorem reachOffset_keeps (s : State) (c : Ctx) (n : Nat) : (reachOffset s c n).fst = s.fst ∧ (reachOffset s c n).out = s.out ∧
    (reachOffset s c n).shd = s.shd ∧ (reachOffset s c n).rcd = s.rcd ∧ (reachOffset s c n).aon = s.aon := by
  unfold reachOffset
  split <;> exact ⟨rfl, rfl, rfl, rfl, rfl⟩

end

/-- Settles O35: an offer counts once, and a chase takes an offer not yet chased within the row's window. -/
theorem voidTilesAndChases : Obligations.VoidTilesAndChases := by
  unfold Obligations.VoidTilesAndChases
  refine ⟨fun s a c seq p l plan logical decides rotates owned => ⟨?_, fun pass other => ?_⟩, fun s c r p plan runs rotates => ⟨fun behind => ?_, fun inside room => ?_⟩,
    fun s src v carried => ?_, fun s => rfl⟩
  · show execVoidTileOffer a c (s.ctx c).pass.index seq s = _
    unfold execVoidTileOffer
    rw [plan, logical]
    dsimp only
    cases known : (s.ctx c).cov.offers.contains (rowOf a, l, seq) with
    | true => rw [if_neg (fun h => nomatch h.2.2.2.2), if_pos rfl]
    | false => rw [if_pos ⟨decides, rfl, rotates, owned, rfl⟩, if_neg nofun]
  · show execVoidTileOffer a c pass seq s = _
    unfold execVoidTileOffer
    rw [plan, logical]
    exact if_neg fun h => other h.2.1
  · show execChaseSlotFill c r s = _
    unfold execChaseSlotFill
    rw [plan]
    exact if_pos (.inr (.inr (.inl behind)))
  · have run := exec_chaseSlotFill plan runs rotates inside room
    refine ⟨fun o next => ?_, fun none => ?_⟩
    · rw [next] at run
      obtain ⟨offered, row, new, eligible⟩ := chaseNext_mem next
      have ctx : (chaseTaken s c r (p.chaseBegin r) o).ctx c = { reached s c (p.chaseBegin r) with
          cov := { (s.ctx c).cov with chases := (s.ctx c).cov.chases ++ [o], chased := bump (s.ctx c).cov.chased } } := by
        unfold chaseTaken
        rw [State.onRow_ctx, State.onCov_ctx_same, reachOffset_ctx runs, reached_keeps]
      obtain ⟨fst, out, -⟩ := reachOffset_keeps s c (p.chaseBegin r)
      refine ⟨_, run, congrArg (·.cov.chases) ctx, congrArg (·.cov.chased) ctx, ?_, offered, row, new, eligible, fun k e window ends before small => ?_,
        fst, out, (execChaseSlotFill_kept ..).of_next run⟩
      · exact (congrArg ShdRow.chased (Tab.at_upd_same ..)).trans rfl
      · rw [ctx]
        have begins : p.chaseBegin r = k.begin_ := by
          unfold Plan.chaseBegin
          rw [window]
          rfl
        rw [begins]
        exact reached_offset ends before small
    · rw [none] at run
      exact run
  · show execShdPairSelWrite src v s = _
    unfold execShdPairSelWrite
    rw [gatedWrite_of_carry carried]
    rfl

end Sys2Proof.Machine


namespace Sys2Proof.Machine

/-! ## A commit without its token whose controller fails (R448, R450, R451, R452)

When a commit has been held 5 ms for the readiness token, it is issued without one and the watchdog of a pass controller in RUN is forced
to expire. With two restarts counted in the last 60 s the controller is not restarted: it fails, and the contexts of its partition stop. -/

/-- Context 0 stands at its boundary and waits for its token; its controller runs and has restarted twice in this second. -/
def tokenHeld : State :=
  { State.reset with
    ctxs := State.reset.ctxs.upd 0 (fun _ =>
      { pass := { st := .boundary }, plan := { active := some {}, loaded := true }, exec := { ended := true, injected := false, tokenWait := true } })
    fwp := { State.reset.fwp with procs := State.reset.fwp.procs.upd 1 (fun x => { x with state := .run, recent := [0, 0] }) } }

theorem tokenHeld_ctx : tokenHeld.ctx 0 =
    { pass := { st := .boundary }, plan := { active := some {}, loaded := true }, exec := { ended := true, injected := false, tokenWait := true } } :=
  Tab.at_upd_same ..

/-- The state a context stands in after a command. -/
def standsAfter (i : Instr) (s : State) (c : Ctx) : Option CtxState :=
  match exec i s with
  | .next t => some (t.ctx c).pass.st
  | _ => none

theorem standsAfter_of_next {i : Instr} {s t : State} (done : exec i s = .next t) (c : Ctx) : standsAfter i s c = some (t.ctx c).pass.st := by
  unfold standsAfter
  rw [done]

theorem tokenHeld_missing : tokenHeld.tokenMissing 0 = true := by decide +kernel

theorem tokenHeld_met : tokenHeld.tileShort 0 {} = none ∧ (tokenHeld.ctx 0).compareOwing {} = none := by decide +kernel

theorem tokenHeld_stops : standsAfter (.commitHoldTimeout 0) tokenHeld 0 = some .stopped := by decide +kernel

/-- Refutes O37: where the controller fails with the expiry that is forced, the context that committed without its token is stopped, not held. -/
theorem not_theCommitDecision : ¬ Obligations.TheCommitDecision := by
  unfold Obligations.TheCommitDecision
  intro claim
  have plan : tokenHeld.planOf 0 = some {} := by rw [State.planOf, tokenHeld_ctx]
  obtain ⟨-, -, -, -, -, -, -, -, timeout⟩ := claim tokenHeld 0 {} plan (by rw [tokenHeld_ctx]) (by rw [tokenHeld_ctx])
  obtain ⟨held, -⟩ := timeout (by rw [tokenHeld_ctx]) tokenHeld_missing
  obtain ⟨t, done, -, stands⟩ := held ⟨by rw [tokenHeld_ctx], tokenHeld_met.1, tokenHeld_met.2, by rw [tokenHeld_ctx]⟩ rfl (by rw [tokenHeld_ctx])
    (.inl (by rw [tokenHeld_ctx]))
  have stopped : some (t.ctx 0).pass.st = some .stopped := (standsAfter_of_next done 0).symm.trans tokenHeld_stops
  rw [stands] at stopped
  cases stopped

end Sys2Proof.Machine


namespace Sys2Proof.Machine

/-! # Executions start and end (R146, R222 to R224, R259) -/

/-- A state but for the contexts, the patterns, and what is sent and reported. -/
def State.butRun (s : State) : State :=
  { s with out := [], ctxs := Vector.replicate 32 {}, fst := {}, rcd := {}, irq := {}, pln := {}, scr := {}, free := 0 }

/-- From `s` to `t` one context has begun an execution, patterns in its way have ended, and something has been reported. -/
structure Begins (c : Ctx) (s t : State) : Prop where
  rest : t.butRun = s.butRun
  others : ∀ d, d ≠ c → t.ctx d = s.ctx d

section

variable {c : Ctx} {s t u : State}

theorem Begins.refl (c : Ctx) (s : State) : Begins c s s := ⟨rfl, fun _ _ => rfl⟩

theorem Begins.trans (h : Begins c s t) (k : Begins c t u) : Begins c s u :=
  ⟨k.rest.trans h.rest, fun d other => (k.others d other).trans (h.others d other)⟩

theorem Begins.ite {p : Prop} [Decidable p] (yes : p → Begins c s t) (no : ¬p → Begins c s u) : Begins c s (if p then t else u) := by
  split
  · next h => exact yes h
  · next h => exact no h

theorem Begins.each {α : Type} {f : State → α → State} {xs : List α} (step : ∀ t x, Begins c t (f t x)) : Begins c s (s.each xs f) :=
  State.each_induction (P := Begins c s) (.refl c s) fun t x _ before => before.trans (step t x)

theorem Begins.wce (h : Begins c s t) : t.wce = s.wce := (congrArg State.wce h.rest :)
theorem Begins.shd (h : Begins c s t) : t.shd = s.shd := (congrArg State.shd h.rest :)

theorem Within.begins (h : Within c s t) : Begins c s t := ⟨(congrArg State.butRun h.rest :), h.others⟩

theorem Begins.onCtx (c : Ctx) (s : State) (f : CtxSt → CtxSt) : Begins c s (s.onCtx c f) := ⟨rfl, fun _ other => State.onCtx_ctx_other s f other⟩

theorem Begins.send (c : Ctx) (s : State) (o : Out) : Begins c s (s.send o) := ⟨rfl, fun _ _ => rfl⟩

theorem Begins.onScr (c : Ctx) (s : State) (f : Scr → Scr) : Begins c s (s.onScr f) := ⟨rfl, fun _ _ => rfl⟩

theorem Begins.noteUse (c : Ctx) (s : State) : Begins c s (noteUse s) := by
  unfold Machine.noteUse
  refine .each fun t d => ?_
  split
  · exact .onScr c t _
  · exact .refl c t

theorem Begins.cutOne (c : Ctx) (s : State) (cause : BitVec 4) (q : Pattern) : Begins c s (cutOne cause s q) := by
  have counted : Begins c s s.fresh.2.fresh.2.fresh.2 := ⟨rfl, fun _ _ => rfl⟩
  exact counted.trans ((Begins.onScr c _ _).trans ((Within.emit c _ _).begins.trans (.send c _ _)))

theorem Begins.cutPatterns (c : Ctx) (s : State) (which : Pattern → Bool) (cause : BitVec 4) : Begins c s (cutPatterns s which cause) :=
  .each fun t q => .cutOne c t cause q

end

/-! ## Cycle 0 -/

section

variable (s : State) (c : Ctx) (p : Plan)

/-- A context's fields at cycle 0, after those of its execution; `x` is the context before it. -/
def runningFrom (x : CtxSt) (replay : BitVec 8) (s : State) : State :=
  let s := s.onPass c (fun q => { q with st := .running, replay := replay, sinceStart := if x.exec.replayDue then q.sinceStart + 1 else 0 })
  let s := s.onPos c (fun q => { q with start := s.time.tick, offset := 0, frac := 0 })
  let s := s.onBar c (fun b => { b with released := false })
  let s := s.onCov c (fun v => { v with clean := [], dirty := [], offers := [], chases := [] })
  s.onLsc c (fun l => { l with own := none, equal := false, writes := [] })

/-- The replay number of the execution that begins. -/
def nextReplay (x : CtxSt) : BitVec 8 := match x.exec.used with | some u => u + 1 | none => 0

/-- The rows whose reserve runs in the execution that begins. -/
def refereeRowsOf (s : State) (x : CtxSt) : List Row := x.refereeRows.filter (fun r => (s.shd.rows.at r).reserve ≠ 31)

/-- The reports of an execution are empty, its seed and replay number set. -/
def executionBegun (x : CtxSt) (rows : List Row) (s : State) : State :=
  s.onExec c (fun e => { (e.begin_ (nextReplay x) (s.poisonCount c) (passSeed p.core.seed x.pass.index (nextReplay x))) with
    refRan := if x.exec.replayDue then rows else []
    runners := ((List.finRange 24).filter p.onSpare).map (fun r => (r, s.shadowRunner r)) })

/-- The slot of a hunt sent to the reserve of its row (R287). -/
def huntSent (x : CtxSt) (s : State) : State :=
  match x.lsc.locus, (logRow x.lsc.logical.toNat).filter (fun r => (s.shd.rows.at r).reserve ≠ 31) with
  | some _, some r => s.send (.huntRun c (arrOf r (s.shd.rows.at r).reserve.toNat) x.lsc.item)
  | _, _ => s

/-- A load that has switched is applied at the first execution of its plan (R320). -/
def switchDone (x : CtxSt) (s : State) : State := if x.plan.phase = .switching then planApplied s c else s

/-- The referees of a replay noted at their units. -/
def noteReferees (x : CtxSt) (rows : List Row) (s : State) : State := if x.exec.replayDue ∧ rows ≠ [] then noteUse s else s

theorem beginExecution_eq : beginExecution s c p =
    let rows := refereeRowsOf s (s.ctx c)
    switchDone c (s.ctx c) (openSpan (huntSent c (s.ctx c) (runningFrom c (s.ctx c) (nextReplay (s.ctx c))
      (noteReferees (s.ctx c) rows (executionBegun c p (s.ctx c) rows (cutOwned (beginBorrow s c p) c p))))) c p) := rfl

theorem executionBegun_ctx (x : CtxSt) (rows : List Row) : ∃ refRan runners, (executionBegun c p x rows s).ctx c = { s.ctx c with
    exec := { (s.ctx c).exec.begin_ (nextReplay x) (s.poisonCount c) (passSeed p.core.seed x.pass.index (nextReplay x)) with refRan, runners } } :=
  ⟨_, _, State.onExec_ctx_same s c _⟩

theorem huntSent_ctxs (x : CtxSt) : (huntSent c x s).ctxs = s.ctxs := by
  unfold huntSent
  split <;> rfl

theorem noteReferees_ctxs (x : CtxSt) (rows : List Row) : (noteReferees x rows s).ctxs = s.ctxs := by
  unfold noteReferees
  split
  · exact (Serves.noteUse s).ctxs
  · rfl

theorem openSpan_ctx : ∃ v, (openSpan s c p).ctx c = { s.ctx c with prv := v } := by
  unfold openSpan
  dsimp only
  split
  · split
    · exact ⟨_, State.onPrv_ctx_same ..⟩
    · exact ⟨_, rfl⟩
  · exact ⟨_, rfl⟩

theorem switchDone_butLoad (x : CtxSt) : ((switchDone c x s).ctx c).butLoad = (s.ctx c).butLoad := by
  unfold switchDone
  split
  · exact planApplied_butLoad s c
  · rfl

/-- The execution of a context at its cycle 0, and where the context stands. -/
structure CtxSt.StartsAt (x y : CtxSt) (replay : BitVec 8) (exec : ExecSt) (tick : BitVec 64) : Prop where
  st : y.pass.st = .running
  replay : y.pass.replay = replay
  index : y.pass.index = x.pass.index
  exec : y.exec = exec
  offers : y.cov.offers = []
  chases : y.cov.chases = []
  start : y.pos.start = tick
  offset : y.pos.offset = 0
  position : y.pos.position = x.pos.position

theorem runningFrom_ctx (x : CtxSt) (replay : BitVec 8) :
    (s.ctx c).StartsAt ((runningFrom c x replay s).ctx c) replay (s.ctx c).exec s.time.tick := by
  unfold runningFrom
  rw [State.onLsc_ctx_same, State.onCov_ctx_same, State.onBar_ctx_same, State.onPos_ctx_same, State.onPass_ctx_same]
  exact ⟨rfl, rfl, rfl, rfl, rfl, rfl, rfl, rfl, rfl⟩

theorem Begins.runningFrom (x : CtxSt) (replay : BitVec 8) : Begins c s (runningFrom c x replay s) :=
  ((Begins.onCtx c s _).trans (.onCtx c _ _)).trans ((Begins.onCtx c _ _).trans ((Begins.onCtx c _ _).trans (.onCtx c _ _)))

theorem Begins.noteReferees (x : CtxSt) (rows : List Row) : Begins c s (noteReferees x rows s) := .ite (fun _ => .noteUse c s) fun _ => .refl c s

theorem Begins.huntSent (x : CtxSt) : Begins c s (huntSent c x s) := by
  unfold Machine.huntSent
  split
  · exact .send c s _
  · exact .refl c s

theorem Begins.openSpan : Begins c s (openSpan s c p) := by
  unfold Machine.openSpan
  dsimp only
  split
  · split
    · exact .onCtx c s _
    · exact .refl c s
  · exact .refl c s

theorem Begins.switchDone (x : CtxSt) : Begins c s (switchDone c x s) := .ite (fun _ => (Within.planApplied c s).begins) fun _ => .refl c s

theorem Begins.beginBorrow : Begins c s (beginBorrow s c p) := .onCtx c s _

theorem Begins.cutOwned : Begins c s (cutOwned s c p) := .cutPatterns c s _ _

theorem Begins.beginExecution : Begins c s (beginExecution s c p) := by
  rw [beginExecution_eq]
  exact ((Begins.beginBorrow s c p).trans (.cutOwned _ c p)).trans ((Begins.onCtx c _ _).trans ((Begins.noteReferees _ c _ _).trans
    ((Begins.runningFrom _ c _ _).trans ((Begins.huntSent _ c _).trans ((Begins.openSpan _ c p).trans (.switchDone _ c _))))))

theorem poisonCount_of_begins {s t : State} {c : Ctx} (h : Begins c s t) (d : Ctx) : t.poisonCount d = s.poisonCount d := by
  unfold State.poisonCount
  rw [show t.mgtu = s.mgtu from (congrArg State.mgtu h.rest :), show t.lgtu = s.lgtu from (congrArg State.lgtu h.rest :)]

theorem beginExecution_ctx : ∃ refRan runners, (s.ctx c).StartsAt ((beginExecution s c p).ctx c) (nextReplay (s.ctx c))
    { (s.ctx c).exec.begin_ (nextReplay (s.ctx c)) (s.poisonCount c) (passSeed p.core.seed (s.ctx c).pass.index (nextReplay (s.ctx c))) with refRan, runners }
    s.time.tick := by
  rw [beginExecution_eq]
  dsimp only
  have cut := (Begins.beginBorrow s c p).trans (.cutOwned _ c p)
  have ctx : ((cutOwned (beginBorrow s c p) c p).ctx c) = (beginBorrow s c p).ctx c :=
    State.ctx_eq_of_ctxs (Serves.cutPatterns (beginBorrow s c p) _ _).ctxs c
  have poison := poisonCount_of_begins cut c
  have tick : (cutOwned (beginBorrow s c p) c p).time = s.time := (congrArg State.time cut.rest :)
  generalize refereeRowsOf s (s.ctx c) = rows
  generalize cutOwned (beginBorrow s c p) c p = u at ctx poison tick
  have noted : (noteReferees (s.ctx c) rows (executionBegun c p (s.ctx c) rows u)).time = u.time :=
    (congrArg State.time (Begins.noteReferees (executionBegun c p (s.ctx c) rows u) c (s.ctx c) rows).rest :)
  have begun : (noteReferees (s.ctx c) rows (executionBegun c p (s.ctx c) rows u)).ctx c = (executionBegun c p (s.ctx c) rows u).ctx c :=
    State.ctx_eq_of_ctxs (noteReferees_ctxs _ _ _) c
  generalize noteReferees (s.ctx c) rows (executionBegun c p (s.ctx c) rows u) = v at noted begun
  have runs := runningFrom_ctx v c (s.ctx c) (nextReplay (s.ctx c))
  generalize runningFrom c (s.ctx c) (nextReplay (s.ctx c)) v = w at runs
  obtain ⟨prv, span⟩ := openSpan_ctx (huntSent c (s.ctx c) w) c p
  rw [State.ctx_eq_of_ctxs (huntSent_ctxs w c (s.ctx c)) c] at span
  have loads := switchDone_butLoad (openSpan (huntSent c (s.ctx c) w) c p) c (s.ctx c)
  rw [span] at loads
  generalize (switchDone c (s.ctx c) (openSpan (huntSent c (s.ctx c) w) c p)).ctx c = y at loads
  have pass : y.pass = (w.ctx c).pass := (congrArg CtxSt.pass loads :)
  have exec : y.exec = (w.ctx c).exec := (congrArg CtxSt.exec loads :)
  have cov : y.cov = (w.ctx c).cov := (congrArg CtxSt.cov loads :)
  have pos : y.pos = (w.ctx c).pos := (congrArg CtxSt.pos loads :)
  have before : u.ctx c = { s.ctx c with pos := (u.ctx c).pos } ∧ (u.ctx c).pos.position = (s.ctx c).pos.position := by
    rw [ctx]
    unfold beginBorrow
    rw [State.onPos_ctx_same]
    exact ⟨rfl, rfl⟩
  obtain ⟨before, stays⟩ := before
  obtain ⟨refRan, runners, now⟩ := executionBegun_ctx u c p (s.ctx c) rows
  rw [← begun] at now
  refine ⟨refRan, runners, pass ▸ runs.st, pass ▸ runs.replay, ?_, ?_, cov ▸ runs.offers, cov ▸ runs.chases, ?_, pos ▸ runs.offset, ?_⟩
  · rw [pass, runs.index, now, before]
  · rw [exec, runs.exec, now, before, poison]
  · rw [pos, runs.start, noted]
    rw [tick]
  · rw [pos, runs.position, now]
    exact stays

end

/-! ## A context at its boundary (R248) -/

section

variable {s : State} {c : Ctx}

/-- A hold cause is in force (R248). -/
def State.holds (s : State) (c : Ctx) : Bool :=
  (s.ctx c).pass.holdFw || (s.ctx c).pass.holdDigest || (s.subWait c && !s.undecided c) || ((s.ctx c).pass.driverHold && !s.undecided c)

/-- A context at its boundary, as its hold causes say. -/
def formHold (s : State) (c : Ctx) : State :=
  s.onPass c (fun p => { p with st := if s.holds c then .held else .boundary, holdSub := s.subWait c && !s.undecided c })

theorem settle_eq (stands : (s.ctx c).pass.st = .boundary ∨ (s.ctx c).pass.st = .held) : settle s c =
    if s.holds c = true ∧ (s.ctx c).pass.st ≠ .held then (formHold s c).notifyPass c else formHold s c := by
  unfold settle
  dsimp only
  rw [if_pos stands]
  rfl

theorem settle_ctx (stands : (s.ctx c).pass.st = .boundary ∨ (s.ctx c).pass.st = .held) : (settle s c).ctx c = { s.ctx c with
    pass := { (s.ctx c).pass with st := if s.holds c then .held else .boundary, holdSub := s.subWait c && !s.undecided c } } := by
  rw [settle_eq stands]
  have formed := State.onPass_ctx_same s c (fun p =>
    { p with st := if s.holds c then .held else .boundary, holdSub := s.subWait c && !s.undecided c })
  split
  · exact formed
  · exact formed

theorem Within.settle (c : Ctx) (s : State) : Within c s (settle s c) := by
  by_cases stands : (s.ctx c).pass.st = .boundary ∨ (s.ctx c).pass.st = .held
  · rw [settle_eq stands]
    have formed : Within c s (formHold s c) := .onCtx c s _
    exact .ite (fun _ => formed.trans (.notifyPass c _ c)) fun _ => formed
  · unfold Machine.settle
    dsimp only
    rw [if_neg stands]
    exact .refl c s

theorem settle_fst (s : State) (c : Ctx) : (settle s c).fst = s.fst := by
  by_cases stands : (s.ctx c).pass.st = .boundary ∨ (s.ctx c).pass.st = .held
  · rw [settle_eq stands]
    split <;> rfl
  · unfold settle
    dsimp only
    rw [if_neg stands]

end

/-! ## The end marker (R222) -/

section

variable (s : State) (c : Ctx) (p : Plan)

/-- The cycle of the end marker. -/
def Plan.endCycle (p : Plan) (x : CtxSt) : Nat := ((p.pos x.pos.position).map (fun q => q.e)).getD x.pos.offset.toNat

/-- A context's operand visits are over at every memory port. -/
def visitsEnded (s : State) : State := { s with mgtu := s.mgtu.mapAll (fun _ m => { m with visits := m.visits.filter (fun v => v.owner ≠ some c) }) }

/-- The Calipers and the memory ports at an end marker. -/
def unitsEnded (s : State) : State := visitsEnded c (countUnchased (closeCtxGroups s c) c)

/-- The fields of a context at its end marker, before its holds are formed. -/
def markEnd (e : Nat) (s : State) : State :=
  let s := s.onPos c (fun q => { q with offset := BitVec.ofNat 32 e, frac := 0 })
  let s := s.onExec c (fun y => { y with ended := true, endTick := s.time.tick })
  let waits := p.core.lockstep && (s.ctx c).lsc.partner.isNone
  let s := s.onLsc c (fun l => { l with waiting := waits })
  s.onPass c (fun q => { q with st := .boundary, holdDigest := waits })

variable {s c p}

theorem exec_endMarker (plan : s.planOf c = some p) (runs : (s.ctx c).pass.st = .running) :
    exec (.endMarker c) s = .next (settle (markEnd c p (p.endCycle (s.ctx c)) (unitsEnded c s)) c) := by
  show execEndMarker c s = _
  unfold execEndMarker
  rw [plan]
  dsimp only
  rw [if_neg (fun h => h runs)]
  rfl

theorem visitsEnded_ctxs (s : State) (c : Ctx) : (visitsEnded c s).ctxs = s.ctxs := by
  unfold visitsEnded
  rfl

theorem closeCtxGroups_ctxs (s : State) (c : Ctx) : (closeCtxGroups s c).ctxs = s.ctxs := by
  unfold closeCtxGroups
  rw [State.onWce_ctxs]

theorem visitsEnded_ctx (s : State) (c d : Ctx) : (visitsEnded c s).ctx d = s.ctx d :=
  State.ctx_eq_of_ctxs (visitsEnded_ctxs s c) d

theorem closeCtxGroups_ctx (s : State) (c d : Ctx) : (closeCtxGroups s c).ctx d = s.ctx d :=
  State.ctx_eq_of_ctxs (closeCtxGroups_ctxs s c) d

theorem countUnchased_ctx (s : State) (c : Ctx) : ∃ prv, (countUnchased s c).ctx c = { s.ctx c with
    cov := { (s.ctx c).cov with unchased := (s.ctx c).cov.unchased + BitVec.ofNat 16 ((s.ctx c).cov.offers.length - (s.ctx c).cov.chases.length) }, prv } := by
  refine ⟨((countUnchased s c).ctx c).prv, ?_⟩
  unfold countUnchased
  dsimp only
  rw [State.onPrv_ctx_same, State.onCov_ctx_same]

theorem countUnchased_others (s : State) {c d : Ctx} (other : d ≠ c) : (countUnchased s c).ctx d = s.ctx d := by
  unfold countUnchased
  dsimp only
  rw [State.onPrv_ctx_other _ _ other, State.onCov_ctx_other _ _ other]

theorem unitsEnded_ctx (s : State) (c : Ctx) : ∃ prv, (unitsEnded c s).ctx c = { s.ctx c with
    cov := { (s.ctx c).cov with unchased := (s.ctx c).cov.unchased + BitVec.ofNat 16 ((s.ctx c).cov.offers.length - (s.ctx c).cov.chases.length) }, prv } := by
  rw [unitsEnded, visitsEnded_ctx, ← closeCtxGroups_ctx s c c]
  exact countUnchased_ctx (closeCtxGroups s c) c

theorem markEnd_ctx (s : State) (c : Ctx) (p : Plan) (e : Nat) : ∃ lsc, (markEnd c p e s).ctx c = { s.ctx c with
    pos := { (s.ctx c).pos with offset := BitVec.ofNat 32 e, frac := 0 }
    exec := { (s.ctx c).exec with ended := true, endTick := s.time.tick }, lsc
    pass := { (s.ctx c).pass with st := .boundary, holdDigest := p.core.lockstep && (s.ctx c).lsc.partner.isNone } } := by
  refine ⟨((markEnd c p e s).ctx c).lsc, ?_⟩
  unfold markEnd
  dsimp only
  rw [State.onPass_ctx_same, State.onLsc_ctx_same, State.onExec_ctx_same, State.onPos_ctx_same]
  rfl

theorem unitsEnded_others (s : State) {c d : Ctx} (other : d ≠ c) : (unitsEnded c s).ctx d = s.ctx d := by
  rw [unitsEnded, visitsEnded_ctx, countUnchased_others _ other, closeCtxGroups_ctx]

theorem Within.markEnd (c : Ctx) (p : Plan) (e : Nat) (s : State) : Within c s (markEnd c p e s) :=
  ((Within.onCtx c s _).trans (.onCtx c _ _)).trans ((Within.onCtx c _ _).trans (.onCtx c _ _))

theorem Within.wce (h : Within c s t) : t.wce = s.wce := (congrArg State.wce h.rest :)
theorem Within.mgtu (h : Within c s t) : t.mgtu = s.mgtu := (congrArg State.mgtu h.rest :)

theorem closeCtxGroups_port (s : State) (c : Ctx) (a : Arr) : (closeCtxGroups s c).wce.ports.at a = { s.wce.ports.at a with
    group := (s.wce.ports.at a).group.map (fun g => if g.ctx = c then { g with closing := true } else g) } := by
  unfold closeCtxGroups
  rw [State.onWce_wce, Tab.at_mapAll]

theorem visitsEnded_port (s : State) (c : Ctx) (g : Gtu) : (visitsEnded c s).mgtu.at g =
    { s.mgtu.at g with visits := (s.mgtu.at g).visits.filter (fun v => v.owner ≠ some c) } := by
  unfold visitsEnded
  dsimp only
  rw [Tab.at_mapAll]

theorem unitsEnded_wce (s : State) (c : Ctx) : (unitsEnded c s).wce = (closeCtxGroups s c).wce := rfl

theorem unitsEnded_group (s : State) (c : Ctx) {a : Arr} {g : Group} (open_ : ((unitsEnded c s).wce.ports.at a).group = some g) (own : g.ctx = c) :
    g.closing = true := by
  rw [unitsEnded_wce, closeCtxGroups_port] at open_
  obtain ⟨h, -, rfl⟩ := Option.map_eq_some_iff.1 open_
  split
  · rfl
  · next other =>
    rw [if_neg other] at own
    exact absurd own other

theorem unitsEnded_visits (s : State) (c : Ctx) {g : Gtu} {v : Visit} (mem : v ∈ ((unitsEnded c s).mgtu.at g).visits) : v.owner ≠ some c := by
  rw [unitsEnded, visitsEnded_port] at mem
  simpa using (List.mem_filter.1 mem).2

end

theorem markEnd_fst (s : State) (c : Ctx) (p : Plan) (e : Nat) : (markEnd c p e s).fst = s.fst := rfl

theorem unitsEnded_fst (s : State) (c : Ctx) : (unitsEnded c s).fst = s.fst := by
  have visits (t : State) : (visitsEnded c t).fst = t.fst := by
    unfold visitsEnded
    rfl
  have groups : (closeCtxGroups s c).fst = s.fst := by
    unfold closeCtxGroups
    rw [State.onWce_fst]
  have count (t : State) : (countUnchased t c).fst = t.fst := rfl
  rw [unitsEnded, visits, count, groups]

theorem unitsEnded_time (s : State) (c : Ctx) : (unitsEnded c s).time = s.time := by
  have visits (t : State) : (visitsEnded c t).time = t.time := by
    unfold visitsEnded
    rfl
  have groups : (closeCtxGroups s c).time = s.time := by
    unfold closeCtxGroups
    rw [State.onWce_time]
  have count (t : State) : (countUnchased t c).time = t.time := rfl
  rw [unitsEnded, visits, count, groups]

/-- The poison of an execution and its writes, collected (R224, R279). -/
def collected (s : State) (c : Ctx) (writes : List (BitVec 61)) : State :=
  (s.onExec c (fun e => { e with collected := true, poison := s.poisonCount c - e.poisonBase })).onLsc c
    (fun l => { l with writes := writes, area := if l.hunt then writes else l.area })

theorem collected_ctx (s : State) (c : Ctx) (writes : List (BitVec 61)) : ∃ lsc, (collected s c writes).ctx c = { s.ctx c with
    exec := { (s.ctx c).exec with collected := true, poison := s.poisonCount c - (s.ctx c).exec.poisonBase }, lsc } ∧ lsc.writes = writes := by
  unfold collected
  rw [State.onLsc_ctx_same, State.onExec_ctx_same]
  exact ⟨_, rfl, rfl⟩

/-- Settles O36: an execution begins with empty reports and ends at the cycle its plan gives it. -/
theorem executionsStartAndEnd : Obligations.ExecutionsStartAndEnd := by
  unfold Obligations.ExecutionsStartAndEnd
  refine ⟨fun s c p plan may rows => ?_, fun s c p plan mayNot => ?_, fun s c p plan runs => ?_, fun s c p writes plan ended new waits alone => ?_⟩
  · intro replay
    have still : s.each (s.rowList.filter p.usesRow) borrowCheck = s := State.each_same fun r mem => by
      obtain ⟨ready, spares⟩ := rows r (List.mem_filter.1 mem).2
      unfold borrowCheck
      dsimp only
      rw [if_pos (by simp [ready, spares])]
    have stands : (s.ctx c).pass.st = .boundary := by
      unfold State.mayStart at may
      simp only [Bool.and_eq_true, decide_eq_true_eq] at may
      exact may.1.1.1.1.1.1.1.1
    have run : exec (.executionStart c) s = .next (beginExecution s c p) := by
      show execExecutionStart c s = _
      unfold execExecutionStart
      rw [plan]
      dsimp only
      rw [if_neg (by rw [may]; nofun), still, if_pos stands]
    obtain ⟨refRan, runners, starts⟩ := beginExecution_ctx s c p
    have began := Begins.beginExecution s c p
    refine ⟨_, run, starts.st, starts.replay, ?_, starts.index, ?_, ?_, ?_, ?_, ?_, ?_, ?_, starts.offers, starts.chases, ?_, ?_, starts.start, starts.offset,
      starts.position, began.others, began.wce, began.shd, (execExecutionStart_kept ..).of_next run⟩
    all_goals
      rw [starts.exec]
      rfl
  · show execExecutionStart c s = _
    unfold execExecutionStart
    rw [plan]
    exact if_pos (by rw [mayNot]; rfl)
  · have run := exec_endMarker plan runs
    obtain ⟨prv, ended⟩ := unitsEnded_ctx s c
    obtain ⟨lsc, marked⟩ := markEnd_ctx (unitsEnded c s) c p (p.endCycle (s.ctx c))
    have stands : ((markEnd c p (p.endCycle (s.ctx c)) (unitsEnded c s)).ctx c).pass.st = .boundary := by rw [marked]
    have ctx := settle_ctx (.inl stands)
    have within := (Within.markEnd c p (p.endCycle (s.ctx c)) (unitsEnded c s)).trans (.settle c _)
    have fst : (settle (markEnd c p (p.endCycle (s.ctx c)) (unitsEnded c s)) c).fst = s.fst := by
      rw [settle_fst, markEnd_fst, unitsEnded_fst]
    have decides : (markEnd c p (p.endCycle (s.ctx c)) (unitsEnded c s)).undecided c = !(s.ctx c).exec.injected := by
      unfold State.undecided
      rw [marked, ended]
    have holds : (markEnd c p (p.endCycle (s.ctx c)) (unitsEnded c s)).holds c = ((s.ctx c).pass.holdFw || (p.core.lockstep && (s.ctx c).lsc.partner.isNone) ||
        ((markEnd c p (p.endCycle (s.ctx c)) (unitsEnded c s)).subWait c && (s.ctx c).exec.injected) || ((s.ctx c).pass.driverHold && (s.ctx c).exec.injected)) := by
      unfold State.holds
      rw [decides, marked, ended, Bool.not_not]
    generalize (markEnd c p (p.endCycle (s.ctx c)) (unitsEnded c s)).holds c = held at ctx holds
    generalize (markEnd c p (p.endCycle (s.ctx c)) (unitsEnded c s)).subWait c = waits at ctx holds
    rw [marked, ended, unitsEnded_time] at ctx
    have st : ((settle (markEnd c p (p.endCycle (s.ctx c)) (unitsEnded c s)) c).ctx c).pass.st = if held then .held else .boundary := by rw [ctx]
    have wce := within.wce
    have mgtu := within.mgtu
    have others (d : Ctx) (other : d ≠ c) := (within.others d other).trans (unitsEnded_others s other)
    generalize settle (markEnd c p (p.endCycle (s.ctx c)) (unitsEnded c s)) c = t at run ctx st wce mgtu others fst
    refine ⟨t, run, by rw [ctx], ?_, ?_, fun a g open_ own => ?_, fun g v mem => ?_, fun q here => ?_, by rw [ctx], fun lockstep none => ?_, fun alone early free => ?_,
      others, fst, (execEndMarker_kept ..).of_next run⟩
    · rw [ctx]
    · rw [st]
      cases held
      · exact .inl rfl
      · exact .inr rfl
    · rw [wce] at open_
      exact unitsEnded_group s c open_ own
    · rw [mgtu] at mem
      exact unitsEnded_visits s c mem
    · rw [ctx]
      unfold Plan.endCycle
      rw [here]
      rfl
    · have on : held = true := by rw [holds, lockstep, none]; simp
      rw [st, on, ctx]
      exact ⟨rfl, by rw [lockstep, none]; rfl⟩
    · have off : held = false := by rw [holds, alone, early, free]; simp
      rw [st, off]
      rfl
  · have run : exec (.poisonCollect c writes) s = .next (sendDigest (collected s c writes) c p) := by
      show execPoisonCollect c writes s = _
      unfold execPoisonCollect
      rw [plan]
      dsimp only
      rw [if_neg (by rw [ended, new, waits]; simp), alone]
      cases (s.ctx c).lsc.hunt <;> rfl
    have silent : sendDigest (collected s c writes) c p = collected s c writes := by
      unfold sendDigest
      dsimp only
      rw [alone]
    rw [silent] at run
    obtain ⟨lsc, ctx, lscWrites⟩ := collected_ctx s c writes
    refine ⟨_, run, ?_, ?_, ?_, ?_, ?_, fun d other => ?_, rfl, rfl, rfl⟩
    · rw [ctx]
    · rw [ctx]
    · rw [ctx]
      exact lscWrites
    · rw [ctx]
    · rw [ctx]
    · unfold collected
      rw [State.onLsc_ctx_other _ _ other, State.onExec_ctx_other _ _ other]

end Sys2Proof.Machine


namespace Sys2Proof.Machine

/-! # The driver's commands to a context (R249, R250) -/

section

variable {s t : State} {c : Ctx}

/-- A command of the driver was accepted: REFUSED reads 0 and PASS_COMMAND names the command. -/
structure Accepted (s : State) (c : Ctx) (n : BitVec 16) : Prop where
  refused : (s.ctx c).pass.refused = false
  records : ∃ e ∈ s.rcd.intake, e.code = 0x500C ∧ e.ctx = some c ∧ e.p16 = n

theorem accepted_passAccept (s : State) (c : Ctx) (n : BitVec 16) : Accepted (passAccept s c n) c n where
  refused := by simp [passAccept]
  records := ⟨_, State.emit_records _ _ rfl, rfl, rfl, rfl⟩

theorem Accepted.of_appends {n : BitVec 16} (h : Accepted s c n) (more : Appends s t) (refused : (t.ctx c).pass.refused = (s.ctx c).pass.refused) :
    Accepted t c n := by
  obtain ⟨e, mem, names⟩ := h.records
  exact ⟨refused.trans h.refused, e, more.intake mem, names⟩

theorem Accepted.complete {n : BitVec 16} (h : Accepted s c n) (src : Src) (off : Nat) : Accepted (s.complete src off false 0 0) c n := by
  obtain ⟨refused, records⟩ := h
  exact ⟨by rwa [State.complete_ctx], by rwa [State.complete_rcd]⟩

theorem passAccept_ctx (s : State) (c : Ctx) (n : BitVec 16) :
    (passAccept s c n).ctx c = { s.ctx c with pass := { (s.ctx c).pass with refused := false } } := by
  simp [passAccept]

theorem passAccept_fst (s : State) (c : Ctx) (n : BitVec 16) : (passAccept s c n).fst = s.fst := by
  unfold passAccept
  rw [State.emit_record _ rfl]
  rfl

theorem passAccept_aon (s : State) (c : Ctx) (n : BitVec 16) : (passAccept s c n).aon = s.aon := by simp [passAccept]

theorem passAccept_deciding (s : State) (c : Ctx) (n : BitVec 16) : (passAccept s c n).deciding c = s.deciding c := by
  unfold State.deciding
  rw [passAccept_ctx]

theorem passAccept_commitUnit (s : State) (c : Ctx) (n : BitVec 16) : (passAccept s c n).commitUnit c = s.commitUnit c := by
  unfold State.commitUnit State.home State.planOf
  rw [passAccept_ctx]

theorem State.idleCtx_iff : s.idleCtx c = true ↔ (s.ctx c).pass.st = .noPlan ∨ (s.ctx c).pass.st = .stopped := by
  simp [State.idleCtx]

theorem State.not_idleCtx_iff : s.idleCtx c = false ↔ (s.ctx c).pass.st ≠ .noPlan ∧ (s.ctx c).pass.st ≠ .stopped := by
  simp [State.idleCtx]

/-! ## A command that is refused -/

/-- REFUSED, and the entry in the home partition's log. -/
theorem passRefuse_turned (s : State) (src : Src) (c : Ctx) (off : Nat) : let t := (passRefuse s src c).complete src off false 0 0
    (t.ctx c).pass = { (s.ctx c).pass with refused := true } ∧ (t.ctx c).exec = (s.ctx c).exec ∧
      (∀ d, d ≠ c → t.ctx d = s.ctx d) ∧ t.wce = s.wce ∧ t.shd = s.shd ∧ t.fst = s.fst ∧ t.rcd = s.rcd := by
  refine ⟨by simp [passRefuse], by simp [passRefuse], fun d other => ?_, by simp [passRefuse], by simp [passRefuse], by simp [passRefuse],
    by simp [passRefuse]⟩
  simp only [passRefuse, State.complete_ctx, State.logRefusal_ctx]
  exact State.onCtx_ctx_other s _ other

/-! ## HOLD and RELEASE -/

theorem settle_of_elsewhere (elsewhere : ¬ ((s.ctx c).pass.st = .boundary ∨ (s.ctx c).pass.st = .held)) : settle s c = s := by
  unfold settle
  dsimp only
  rw [if_neg elsewhere]

theorem settle_refused (s : State) (c : Ctx) : ((settle s c).ctx c).pass.refused = (s.ctx c).pass.refused := by
  by_cases stands : (s.ctx c).pass.st = .boundary ∨ (s.ctx c).pass.st = .held
  · rw [settle_ctx stands]
  · rw [settle_of_elsewhere stands]

theorem settle_driverHold (s : State) (c : Ctx) : ((settle s c).ctx c).pass.driverHold = (s.ctx c).pass.driverHold := by
  by_cases stands : (s.ctx c).pass.st = .boundary ∨ (s.ctx c).pass.st = .held
  · rw [settle_ctx stands]
  · rw [settle_of_elsewhere stands]

/-- The driver's hold set or ended by its command, before the holds are formed again. -/
def driverHolds (s : State) (c : Ctx) (n : BitVec 16) (on : Bool) : State := (passAccept s c n).onPass c (fun p => { p with driverHold := on })

theorem driverHolds_ctx (s : State) (c : Ctx) (n : BitVec 16) (on : Bool) :
    (driverHolds s c n on).ctx c = { s.ctx c with pass := { (s.ctx c).pass with refused := false, driverHold := on } } := by
  unfold driverHolds
  rw [State.onPass_ctx_same, passAccept_ctx]

theorem accepted_driverHolds (s : State) (c : Ctx) (n : BitVec 16) (on : Bool) : Accepted (settle (driverHolds s c n on) c) c n :=
  ((accepted_passAccept s c n).of_appends (.onCtx _ c _) (by simp)).of_appends (Within.settle c _).appends (settle_refused _ c)

theorem holdCmd_eq (src : Src) (plan : s.idleCtx c = false) : holdCmd src c s = settle (driverHolds s c 1 true) c :=
  if_neg (Bool.eq_false_iff.1 plan)

theorem ctxReleaseCmd_eq (src : Src) (held : (s.ctx c).pass.st = .held) (driver : (s.ctx c).pass.driverHold = true) :
    ctxReleaseCmd src c s = settle (driverHolds s c 2 false) c := if_pos ⟨held, driver⟩

theorem settle_held (stands : (s.ctx c).pass.st = .boundary ∨ (s.ctx c).pass.st = .held) (driver : (s.ctx c).pass.driverHold = true)
    (injected : (s.ctx c).exec.injected = true) : ((settle s c).ctx c).pass.st = .held := by
  have holds : s.holds c = true := by simp [State.holds, State.undecided, driver, injected]
  rw [settle_ctx stands, holds]
  rfl

theorem settle_released (held : (s.ctx c).pass.st = .held) (driver : (s.ctx c).pass.driverHold = false) (fw : (s.ctx c).pass.holdFw = false)
    (digest : (s.ctx c).pass.holdDigest = false) (sub : s.subWait c = false) : ((settle s c).ctx c).pass.st = .boundary := by
  have free : s.holds c = false := by simp [State.holds, driver, fw, digest, sub]
  rw [settle_ctx (.inr held), free]
  rfl

theorem driverHolds_subWait (s : State) (c : Ctx) (n : BitVec 16) (on : Bool) : (driverHolds s c n on).subWait c = s.subWait c := by
  unfold State.subWait State.planOf
  rw [driverHolds_ctx, show (driverHolds s c n on).fst = s.fst from passAccept_fst s c n]

/-! ## STOP and ABORT_STOP -/

theorem Serves.ctx (h : Serves s t) (d : Ctx) : t.ctx d = s.ctx d := State.ctx_eq_of_ctxs h.ctxs d

theorem endDrain_ctxs (s : State) : (endDrain s).ctxs = s.ctxs := by
  have left (t : State) (xs : List UnitId) : (t.each xs leaveService).ctxs = t.ctxs :=
    (Serves.each (s := t) (f := leaveService) (xs := xs) fun t u => .leaveService t u).ctxs
  unfold endDrain
  dsimp only
  rw [State.onFst_ctxs, left, State.emit_ctxs]
  rfl

theorem moveWithin_ctxs (s : State) (dest : Vs) (cause : BitVec 32) : (moveWithin s dest cause).ctxs = s.ctxs := by
  have closed : (if s.pwr.vs = .vs0 ∧ dest ≠ .vs0 then closeRecord (cutPatterns (s.each (List.finRange 25) stopTest) (fun _ => true) 4) else s).ctxs
      = s.ctxs := (Serves.ite (fun _ => (Serves.each fun t n => .stopTest t n).trans ((Serves.cutPatterns _ _ _).trans (.closeRecord _)))
        fun _ => .refl s).ctxs
  unfold moveWithin
  dsimp only
  rw [State.onPwr_ctxs, (Serves.recordMove _ dest cause).ctxs, closed]

/-- While the reference clock runs, no context changes when all of them have stopped. -/
theorem afterStop_ctxs (clock : s.aon.refOk = true) : (afterStop s).ctxs = s.ctxs := by
  unfold afterStop
  dsimp only
  split
  · rfl
  have drained : (if s.fst.state = .draining then endDrain s else s).ctxs = s.ctxs ∧
      (if s.fst.state = .draining then endDrain s else s).aon = s.aon := by
    split
    · exact ⟨endDrain_ctxs s, (Stops.endDrain s).aon⟩
    · exact ⟨rfl, rfl⟩
  generalize (if s.fst.state = .draining then endDrain s else s) = t at drained ⊢
  obtain ⟨ctxs, aon⟩ := drained
  have moved : (if t.thm.stopped ∧ t.pwr.vs.code < 2 then (moveWithin t .vs2 2).send .stopArrayClock else t).ctxs = s.ctxs ∧
      (if t.thm.stopped ∧ t.pwr.vs.code < 2 then (moveWithin t .vs2 2).send .stopArrayClock else t).aon = s.aon := by
    split
    · exact ⟨(moveWithin_ctxs t _ _).trans ctxs, (Stops.moveWithin t _ _).aon.trans aon⟩
    · exact ⟨ctxs, aon⟩
  generalize (if t.thm.stopped ∧ t.pwr.vs.code < 2 then (moveWithin t .vs2 2).send .stopArrayClock else t) = u at moved ⊢
  obtain ⟨ctxs, aon⟩ := moved
  rw [if_neg (by simp [aon, clock])]
  exact ctxs

theorem leaveUndecided_ctxs (s : State) (c : Ctx) : (leaveUndecided s c).ctxs = s.ctxs := by
  unfold leaveUndecided
  refine State.each_field State.ctxs (fun t k => ?_) _ _
  split
  · rfl
  · unfold histCatch
    dsimp only
    split <;> exact State.emit_ctxs ..

theorem endStall_ctx (s : State) (c : Ctx) : ∃ prv, (endStall s c).ctx c = { s.ctx c with prv } := by
  unfold endStall
  dsimp only
  split
  · exact ⟨_, by rw [State.emit_ctx, State.onPrv_ctx_same]⟩
  · exact ⟨_, rfl⟩

theorem tellPartner_ctx (s : State) (c d : Ctx) : (tellPartner s c).ctx d = s.ctx d := by
  unfold tellPartner
  split <;> rfl

/-- The registers of a context that has entered STOPPED. -/
theorem stopEffects_pass (s : State) (c : Ctx) (event : BitVec 16) : ((stopEffects s c event).ctx c).pass = (s.ctx c).pass.stop event := by
  obtain ⟨prv, ended⟩ := endStall_ctx (stopRegisters (leaveUndecided s c) c event) c
  have told : (stopEffects s c event).ctx c = (endStall (stopRegisters (leaveUndecided s c) c event) c).ctx c := tellPartner_ctx _ c c
  rw [told, ended]
  simp [stopRegisters, State.ctx_eq_of_ctxs (leaveUndecided_ctxs s c) c]

theorem enterStopped_pass (clock : s.aon.refOk = true) (event : BitVec 16) : ((enterStopped s c event).ctx c).pass = (s.ctx c).pass.stop event := by
  rw [enterStopped_eq, State.ctx_eq_of_ctxs (afterStop_ctxs ?_) c, stopEffects_pass]
  rw [(Within.stopEffects c s event).aon, clock]

theorem stopCtx_at_once (plan : s.idleCtx c = false) (idle : s.deciding c = false) (drained : (s.ctx c).pass.st ≠ .aborting) (event : BitVec 16) :
    stopCtx s c event = enterStopped s c event := by
  obtain ⟨loaded, runs⟩ := State.not_idleCtx_iff.1 plan
  unfold stopCtx
  split
  case h_1 st | h_2 st | h_3 st => contradiction
  all_goals exact if_neg (Bool.eq_false_iff.1 idle)

/-- The stop a context has to come. -/
def noteStop (s : State) (c : Ctx) (event : BitVec 16) : State := s.onExec c (fun e => { e with stopAfter := e.stopAfter <|> some event })

theorem stopCtx_later (plan : s.idleCtx c = false) (works : s.deciding c = true ∨ (s.ctx c).pass.st = .aborting) (event : BitVec 16) :
    stopCtx s c event = noteStop s c event := by
  obtain ⟨loaded, runs⟩ := State.not_idleCtx_iff.1 plan
  unfold stopCtx
  split
  case h_1 st | h_2 st => contradiction
  case h_3 => rfl
  all_goals
    next st => exact if_pos (works.resolve_right (by simp [st]))

theorem noteStop_ctx (s : State) (c : Ctx) (event : BitVec 16) : (noteStop s c event).ctx c =
    { s.ctx c with exec := { (s.ctx c).exec with stopAfter := some ((s.ctx c).exec.stopAfter.getD event) } } := by
  unfold noteStop
  rw [State.onExec_ctx_same]
  cases (s.ctx c).exec.stopAfter <;> rfl

theorem abortStopCtx_of_idle (idle : s.deciding c = false) (event : BitVec 16) : abortStopCtx s c event = stopCtx s c event :=
  if_neg fun works => Bool.eq_false_iff.1 idle works.1

theorem passAccept_idleCtx (s : State) (c : Ctx) (n : BitVec 16) : (passAccept s c n).idleCtx c = s.idleCtx c := by
  unfold State.idleCtx
  rw [passAccept_ctx]

theorem stopCmd_eq (src : Src) (plan : s.idleCtx c = false) : stopCmd src c s = stopCtx (passAccept s c 3) c 0x500C :=
  if_neg (Bool.eq_false_iff.1 plan)

theorem abortStopCmd_eq (src : Src) (plan : s.idleCtx c = false) : abortStopCmd src c s = abortStopCtx (passAccept s c 4) c 0x500C :=
  if_neg (Bool.eq_false_iff.1 plan)

/-- A command that stops the context at once. -/
theorem accepted_stopsAtOnce (plan : s.idleCtx c = false) (idle : s.deciding c = false) (drained : (s.ctx c).pass.st ≠ .aborting)
    (clock : s.aon.refOk = true) (n : BitVec 16) : let t := stopCtx (passAccept s c n) c 0x500C
    Accepted t c n ∧ (t.ctx c).pass.st = .stopped ∧ (t.ctx c).pass.stopEvent = 0x500C ∧ (t.ctx c).pass.stopPass = (s.ctx c).pass.index := by
  have on : (passAccept s c n).aon.refOk = true := by rw [passAccept_aon, clock]
  have stop := stopCtx_at_once (s := passAccept s c n) (c := c) (by rw [passAccept_idleCtx, plan]) (by rw [passAccept_deciding, idle])
    (by rwa [passAccept_ctx]) 0x500C
  have pass := enterStopped_pass (c := c) on 0x500C
  rw [← stop, passAccept_ctx] at pass
  refine ⟨(accepted_passAccept s c n).of_appends (Stops.stopCtx _ c _ on).toAppends ?_, ?_, ?_, ?_⟩
  · rw [pass, passAccept_ctx]
    rfl
  all_goals rw [pass]; rfl

/-- A command whose stop is still to come. -/
theorem accepted_stopLater (plan : s.idleCtx c = false) (works : s.deciding c = true ∨ (s.ctx c).pass.st = .aborting) (n : BitVec 16) :
    let t := stopCtx (passAccept s c n) c 0x500C
    Accepted t c n ∧ (t.ctx c).pass.st = (s.ctx c).pass.st ∧
      (t.ctx c).exec.stopAfter = some ((s.ctx c).exec.stopAfter.getD 0x500C) ∧ (t.ctx c).exec.cause = (s.ctx c).exec.cause := by
  have later := stopCtx_later (s := passAccept s c n) (c := c) (by rw [passAccept_idleCtx, plan])
    (by rwa [passAccept_deciding, passAccept_ctx]) 0x500C
  have ctx := noteStop_ctx (passAccept s c n) c 0x500C
  rw [← later] at ctx
  refine ⟨(accepted_passAccept s c n).of_appends (later ▸ .onCtx _ c _) ?_, ?_, ?_, ?_⟩
  · rw [ctx]
  all_goals rw [ctx, passAccept_ctx]

/-- An ABORT_STOP to a context that decides an execution. -/
theorem accepted_abortStop (plan : s.idleCtx c = false) (works : s.deciding c = true) (n : BitVec 16) :
    let t := abortStopCtx (passAccept s c n) c 0x500C
    Accepted t c n ∧ (t.ctx c).pass.st = (s.ctx c).pass.st ∧ (t.ctx c).exec.stopAfter = some ((s.ctx c).exec.stopAfter.getD 0x500C) ∧
      (t.ctx c).exec.cause = some ((s.ctx c).exec.cause.getD { reason := 7, unit := s.commitUnit c }) := by
  have busy : (passAccept s c n).AtWork c := by
    unfold State.AtWork
    rw [passAccept_deciding, passAccept_ctx]
    exact ⟨works, State.not_idleCtx_iff.1 plan⟩
  obtain ⟨cause, stopAfter, state⟩ := (abortStopCtx_aborts busy 0x500C).2
  rw [passAccept_commitUnit, passAccept_ctx] at cause
  rw [passAccept_ctx] at stopAfter state
  refine ⟨(accepted_passAccept s c n).of_appends (Within.abortStopCtx busy c _).appends ?_, state, stopAfter, cause⟩
  rw [abortStopCtx_of_atWork busy]
  simp [noteCause]

/-! ## RESTART -/

/-- A context that starts again, before its holds are formed. -/
def restarts (s : State) (c : Ctx) (p : Plan) : State :=
  (claimArrays ((passAccept s c 5).onExec c (fun e => { e with
    injected := true, committed := false, replayDue := false, replaySent := false, cause := none, stopAfter := none })) p).onPass c
      (fun q => { q with st := .boundary, sinceStart := 0 })

theorem restartCmd_eq (src : Src) (may : s.mayRestart c = true) : ∃ p, restartCmd src c s = settle (stall (restarts s c p) c) c := by
  obtain ⟨p, plan⟩ : ∃ p, s.planOf c = some p := by
    cases plan : s.planOf c with
    | none => simp [State.mayRestart, plan] at may
    | some p => exact ⟨p, rfl⟩
  refine ⟨p, ?_⟩
  have kept : ((passAccept s c 5).onExec c (fun e => { e with
    injected := true, committed := false, replayDue := false, replaySent := false, cause := none, stopAfter := none })).planOf c = some p := by
    unfold State.planOf
    rw [State.onExec_ctx_same, passAccept_ctx]
    exact plan
  unfold restartCmd
  dsimp only
  rw [if_pos may, kept]
  rfl

theorem restarts_ctx (s : State) (c : Ctx) (p : Plan) : (restarts s c p).ctx c = { s.ctx c with
    pass := { (s.ctx c).pass with refused := false, st := .boundary, sinceStart := 0 }
    exec := { (s.ctx c).exec with injected := true, committed := false, replayDue := false, replaySent := false, cause := none, stopAfter := none } } := by
  simp [restarts, claimArrays, passAccept]

theorem stall_ctx (s : State) (c : Ctx) : ∃ prv, (stall s c).ctx c = { s.ctx c with prv } := by
  unfold stall
  dsimp only
  split
  · exact ⟨_, rfl⟩
  · exact ⟨_, State.onPrv_ctx_same ..⟩

theorem Appends.stall (s : State) (c : Ctx) : Appends s (stall s c) := by
  unfold Machine.stall
  exact .ite (fun _ => .refl s) fun _ => .onCtx s c _

theorem accepted_restarts (s : State) (c : Ctx) (p : Plan) : let t := settle (stall (restarts s c p) c) c
    Accepted t c 5 ∧ ((t.ctx c).pass.st = .boundary ∨ (t.ctx c).pass.st = .held) ∧
      (t.ctx c).pass.sinceStart = 0 ∧ (t.ctx c).exec.cause = none ∧ (t.ctx c).exec.stopAfter = none ∧ (t.ctx c).pass.index = (s.ctx c).pass.index := by
  obtain ⟨prv, stalled⟩ := stall_ctx (restarts s c p) c
  have again : Accepted (restarts s c p) c 5 := (accepted_passAccept s c 5).of_appends
    (.of_same rfl rfl rfl rfl) (by rw [restarts_ctx, passAccept_ctx])
  rw [restarts_ctx] at stalled
  have formed := settle_ctx (s := stall (restarts s c p) c) (c := c) (by rw [stalled]; exact .inl rfl)
  refine ⟨(again.of_appends (.stall _ c) ?_).of_appends (Within.settle c _).appends (settle_refused _ c), ?_⟩
  · rw [stalled, restarts_ctx]
  rw [formed, stalled]
  refine ⟨?_, rfl, rfl, rfl, rfl⟩
  cases (stall (restarts s c p) c).holds c
  · exact .inl rfl
  · exact .inr rfl

end

/-- Settles O39, each command by what its state of the context makes of it. -/
theorem driverCommandsToAContext : Obligations.DriverCommandsToAContext := by
  intro s src c carried
  have gated (v : Reg) (eff : State → State) : gatedWrite s src (passCtrlOff c) v eff = (eff s).complete src (passCtrlOff c) false 0 0 :=
    gatedWrite_of_carry carried src v eff
  have hold : exec (.hold src c) s = .next ((holdCmd src c s).complete src (passCtrlOff c) false 0 0) := congrArg Host.Outcome.next (gated _ _)
  have release : exec (.release src c) s = .next ((ctxReleaseCmd src c s).complete src (passCtrlOff c) false 0 0) :=
    congrArg Host.Outcome.next (gated _ _)
  have stop : exec (.stop src c) s = .next ((stopCmd src c s).complete src (passCtrlOff c) false 0 0) := congrArg Host.Outcome.next (gated _ _)
  have abortStop : exec (.abortStop src c) s = .next ((abortStopCmd src c s).complete src (passCtrlOff c) false 0 0) :=
    congrArg Host.Outcome.next (gated _ _)
  have restart : exec (.restart src c) s = .next ((restartCmd src c s).complete src (passCtrlOff c) false 0 0) :=
    congrArg Host.Outcome.next (gated _ _)
  have told {t : State} {n : BitVec 16} (h : Accepted t c n) (kept : (t.complete src (passCtrlOff c) false 0 0).kept = s.kept) :
      ((t.complete src (passCtrlOff c) false 0 0).ctx c).pass.refused = false ∧ (t.complete src (passCtrlOff c) false 0 0).kept = s.kept ∧
        ∃ e ∈ (t.complete src (passCtrlOff c) false 0 0).rcd.intake, e.code = 0x500C ∧ e.ctx = some c ∧ e.p16 = n :=
    ⟨(h.complete src _).refused, kept, (h.complete src _).records⟩
  have refused := passRefuse_turned s src c (passCtrlOff c)
  refine ⟨fun plan => ?_, fun held driver => ?_, fun plan idle drained clock => ⟨?_, ?_⟩, fun aborting idle => ?_, fun plan works drained => ?_,
    fun plan works => ?_, fun may => ?_, fun idle => ⟨?_, ?_, ?_⟩, fun free => ?_, fun barred => ?_⟩
  · refine ⟨_, hold, ?_⟩
    rw [holdCmd_eq src plan] at hold ⊢
    refine ⟨told (accepted_driverHolds s c 1 true) ((execHold_kept src c s).of_next hold), ?_, fun stands injected => ?_, fun runs => ?_⟩
    · rw [State.complete_ctx, settle_driverHold, driverHolds_ctx]
    · rw [State.complete_ctx]
      exact settle_held (by rwa [driverHolds_ctx]) (by rw [driverHolds_ctx]) (by rwa [driverHolds_ctx])
    · rw [State.complete_ctx, settle_of_elsewhere (by simp [driverHolds_ctx, runs]), driverHolds_ctx]
      exact runs
  · refine ⟨_, release, ?_⟩
    rw [ctxReleaseCmd_eq src held driver] at release ⊢
    refine ⟨told (accepted_driverHolds s c 2 false) ((execRelease_kept src c s).of_next release), ?_, fun fw digest sub => ?_⟩
    · rw [State.complete_ctx, settle_driverHold, driverHolds_ctx]
    · rw [State.complete_ctx]
      exact settle_released (by rwa [driverHolds_ctx]) (by rw [driverHolds_ctx]) (by rwa [driverHolds_ctx]) (by rwa [driverHolds_ctx])
        (by rw [driverHolds_subWait, sub])
  · refine ⟨_, stop, ?_⟩
    rw [stopCmd_eq src plan] at stop ⊢
    obtain ⟨accepted, effect⟩ := accepted_stopsAtOnce plan idle drained clock 3
    exact ⟨told accepted ((execStop_kept src c s).of_next stop), by simpa only [State.complete_ctx] using effect⟩
  · refine ⟨_, abortStop, ?_⟩
    rw [abortStopCmd_eq src plan, abortStopCtx_of_idle (by rw [passAccept_deciding, idle])] at abortStop ⊢
    obtain ⟨accepted, effect⟩ := accepted_stopsAtOnce plan idle drained clock 4
    exact ⟨told accepted ((execAbortStop_kept src c s).of_next abortStop), by simpa only [State.complete_ctx] using effect⟩
  · have plan : s.idleCtx c = false := State.not_idleCtx_iff.2 (by simp [aborting])
    refine ⟨⟨_, stop, ?_⟩, _, abortStop, ?_⟩
    · rw [stopCmd_eq src plan] at stop ⊢
      obtain ⟨accepted, state, due, -⟩ := accepted_stopLater plan (.inr aborting) 3
      exact ⟨told accepted ((execStop_kept src c s).of_next stop), by simpa only [State.complete_ctx] using ⟨state, due⟩⟩
    · rw [abortStopCmd_eq src plan, abortStopCtx_of_idle (by rw [passAccept_deciding, idle])] at abortStop ⊢
      obtain ⟨accepted, state, due, -⟩ := accepted_stopLater plan (.inr aborting) 4
      exact ⟨told accepted ((execAbortStop_kept src c s).of_next abortStop), by simpa only [State.complete_ctx] using ⟨state, due⟩⟩
  · refine ⟨_, stop, ?_⟩
    rw [stopCmd_eq src plan] at stop ⊢
    obtain ⟨accepted, state, due, cause⟩ := accepted_stopLater plan (.inl works) 3
    exact ⟨told accepted ((execStop_kept src c s).of_next stop), by simpa only [State.complete_ctx] using ⟨⟨state, due⟩, cause⟩⟩
  · refine ⟨_, abortStop, ?_⟩
    rw [abortStopCmd_eq src plan] at abortStop ⊢
    obtain ⟨accepted, state, due, cause⟩ := accepted_abortStop plan works 4
    exact ⟨told accepted ((execAbortStop_kept src c s).of_next abortStop), by simpa only [State.complete_ctx] using ⟨⟨state, due⟩, cause⟩⟩
  · refine ⟨_, restart, ?_⟩
    obtain ⟨p, restarted⟩ := restartCmd_eq src may
    rw [restarted] at restart ⊢
    obtain ⟨accepted, effect⟩ := accepted_restarts s c p
    exact ⟨told accepted ((execRestart_kept src c s).of_next restart), by simpa only [State.complete_ctx] using effect⟩
  · refine ⟨_, hold, ?_⟩
    rw [show holdCmd src c s = passRefuse s src c from if_pos idle] at hold ⊢
    obtain ⟨pass, exe, others, wce, shd, fst, rcd⟩ := refused
    exact ⟨pass, exe, others, wce, shd, fst, rcd, (execHold_kept src c s).of_next hold⟩
  · refine ⟨_, stop, ?_⟩
    rw [show stopCmd src c s = passRefuse s src c from if_pos idle] at stop ⊢
    obtain ⟨pass, exe, others, wce, shd, fst, rcd⟩ := refused
    exact ⟨pass, exe, others, wce, shd, fst, rcd, (execStop_kept src c s).of_next stop⟩
  · refine ⟨_, abortStop, ?_⟩
    rw [show abortStopCmd src c s = passRefuse s src c from if_pos idle] at abortStop ⊢
    obtain ⟨pass, exe, others, wce, shd, fst, rcd⟩ := refused
    exact ⟨pass, exe, others, wce, shd, fst, rcd, (execAbortStop_kept src c s).of_next abortStop⟩
  · have turned : ctxReleaseCmd src c s = passRefuse s src c := if_neg fun ⟨held, driver⟩ => by simp [held, driver] at free
    refine ⟨_, release, ?_⟩
    rw [turned] at release ⊢
    obtain ⟨pass, exe, others, wce, shd, fst, rcd⟩ := refused
    exact ⟨pass, exe, others, wce, shd, fst, rcd, (execRelease_kept src c s).of_next release⟩
  · refine ⟨_, restart, ?_⟩
    rw [show restartCmd src c s = passRefuse s src c from if_neg (Bool.eq_false_iff.1 barred)] at restart ⊢
    obtain ⟨pass, exe, others, wce, shd, fst, rcd⟩ := refused
    exact ⟨pass, exe, others, wce, shd, fst, rcd, (execRestart_kept src c s).of_next restart⟩

end Sys2Proof.Machine


namespace Sys2Proof.Machine

/-! ## A row whose only free spare is the array declared lasting (R198, R356)

The statement asks that a spare be free while the array that serves its position is not yet declared lasting. In this state the row's
shadow spare is the column that serves position 0, so that the declaration itself takes the row's last spare, and no substitution is
ordered: the spares are exhausted. -/

/-- Row 0 after bring-up with the roles at hand: its shadow spare is column 0, which serves position 0; MC runs and has its array's
declaration to take. -/
def spareServes : State :=
  { State.reset with
    shd := { State.reset.shd with rows := State.reset.shd.rows.upd 0 (fun _ => { shadow := 0, ready := true }) }
    fst := { State.reset.fst with histQ := [{ unit := uArr 0, act := .declare 1, event := 0 }] }
    fwp := { State.reset.fwp with procs := State.reset.fwp.procs.upd mc (fun x => { x with state := .run }) } }

/-- The substitutions ordered after a command. -/
def ordersAfter (i : Instr) (s : State) : Option (List SubOrder) :=
  match exec i s with
  | .next t => some t.fst.orders
  | _ => none

theorem ordersAfter_of_next {i : Instr} {s t : State} (done : exec i s = .next t) : ordersAfter i s = some t.fst.orders := by
  unfold ordersAfter
  rw [done]

theorem spareServes_free : spareServes.logicalOf 0 = some 0 ∧ spareServes.spareFor (rowOf 0) = true ∧ (spareServes.proc mc).state = .run := by
  decide +kernel

theorem spareServes_orders : ordersAfter .historyEntry spareServes = some [] := by decide +kernel

/-- Refutes O40: the array declared lasting may itself be the spare that was free, and then nothing is ordered. -/
theorem not_substitutionAtABoundary : ¬ Obligations.SubstitutionAtABoundary := by
  unfold Obligations.SubstitutionAtABoundary
  intro claim
  obtain ⟨-, ordered, -⟩ := claim
  obtain ⟨serves, free, runs⟩ := spareServes_free
  obtain ⟨t, done, orders, -⟩ := ordered spareServes 0 0 _ [] 1 rfl rfl rfl (by decide +kernel) runs serves free
  have none : some t.fst.orders = some [] := (ordersAfter_of_next done).symm.trans spareServes_orders
  rw [orders] at none
  cases none

end Sys2Proof.Machine


namespace Sys2Proof.Machine

/-! # Tick alignment and commit notices (R254 to R258, R268 to R270) -/

section

variable {s : State} {l : Lnk}

/-- TICK_STEP, as the recorder takes it in. -/
def stepEvent (cause : BitVec 16) (by16 : Nat) : Ev := { code := 0x6001, unit := uSpn, p16 := cause, p32 := satBits 32 (by16 / 16000) }

/-- The time after a step forward. -/
def Time.step (x : Time) (by16 : Nat) : Time :=
  { x with tick := BitVec.ofNat 64 ((x.tick.toNat * 16 + x.frac.toNat + by16) / 16)
           frac := BitVec.ofNat 4 ((x.tick.toNat * 16 + x.frac.toNat + by16) % 16) }

/-- The tick alignment after a step forward. -/
def Spn.step (x : Spn) (by16 : Nat) : Spn :=
  { x with steps := bump x.steps, slew := x.rate, slewAcc := 0, base := x.base + by16, lastSync := x.lastSync + BitVec.ofNat 64 (by16 / 16) }

theorem stepTick_eq (s : State) (cause : BitVec 16) (by16 : Nat) : stepTick s cause by16 =
    let t : State := { s with time := s.time.step by16, spn := s.spn.step by16 }
    t.onRec (fun r => { r with intake := r.intake ++ [t.stamp (stepEvent cause by16)] }) := by
  unfold stepTick
  dsimp only
  rw [State.emit_record _ rfl]
  rfl

theorem stepOrDefer_of_free (free : s.startPending = false) (cause : BitVec 16) (by16 : Nat) : stepOrDefer s cause by16 = stepTick s cause by16 :=
  if_neg (Bool.eq_false_iff.1 free)

/-! ## TICK_SYNC and its reply -/

/-- A control frame's retries counted. -/
def syncRetries (s : State) (n : Nat) : State := s.onSpn (fun x => { x with retries := x.retries + BitVec.ofNat 16 n })

theorem exec_tickSync (there : s.hasLink l = true) (trained : (s.lgtu.at l).fenced = false) (tick : BitVec 64) (frac : BitVec 4)
    (ahead : Option (BitVec 64)) (n : Nat) : exec (.tickSync l tick frac ahead n) s = .next
      (let t := match ahead with
        | some d => stepOrDefer (syncRetries s n) 2 (d.toNat * 16)
        | none => syncRetries s n
       t.sendCtl (.link l) (.tickSyncReply s.time.tick s.time.frac t.time.tick t.time.frac)) := by
  show execTickSync l tick frac ahead n s = _
  unfold execTickSync
  rw [if_neg (by simp [there, trained])]
  rfl

/-- The offset of an exchange, local less upstream, in 1/16 tick. -/
def syncOffset (s : State) (rx tx : BitVec 64) (rxf txf : BitVec 4) : Int :=
  ((tick16 s.spn.sentTick s.spn.sentFrac - tick16 rx rxf) + (tick16 s.time.tick s.time.frac - tick16 tx txf)) / 2

/-- The one-way delay of an exchange. -/
def syncDelay (s : State) (rx tx : BitVec 64) (rxf txf : BitVec 4) : Nat :=
  (((tick16 s.time.tick s.time.frac - tick16 s.spn.sentTick s.spn.sentFrac) - (tick16 tx txf - tick16 rx rxf)) / 2).toNat

/-- What every reply leaves: the delay of the link, the offset and the rate. -/
def syncHeard (s : State) (l : Lnk) (delay : Nat) (offset : Int) (n : Nat) : State :=
  ((syncRetries s n).onLgtu l (fun x => { x with delay })).onSpn (fun x => { x with
    synced := true, joined := true, offset, base := offset, lastSync := s.time.tick, rate := -s.rateFrom offset, slew := -s.rateFrom offset
    slewAcc := 0, slewFor := 0 })

theorem exec_tickSyncReply (sync : s.syncLink = some l) (rx tx : BitVec 64) (rxf txf : BitVec 4) (n : Nat) :
    exec (.tickSyncReply l rx rxf tx txf n) s = .next
      (let offset := syncOffset s rx tx rxf txf
       let t := syncHeard s l (syncDelay s rx tx rxf txf) offset n
       if offset < 0 ∧ (!s.spn.joined ∨ offset < -160000) then stepOrDefer t (if !s.spn.joined then 0 else 1) offset.natAbs
       else if 160000 < offset then t.sendCtl (.link l) (.stepUp s.time.tick)
       else t.onSpn (fun x => { x with slew := -(offset + s.rateFrom offset) })) := by
  show execTickSyncReply l rx rxf tx txf s n = _
  unfold execTickSyncReply
  dsimp only
  rw [if_neg (fun h => h sync)]
  split
  · next step => exact congrArg Host.Outcome.next (if_pos step).symm
  · next step =>
    refine Eq.trans ?_ (congrArg Host.Outcome.next (if_neg step).symm)
    split
    · next ask => exact congrArg Host.Outcome.next (if_pos ask).symm
    · next ask => exact congrArg Host.Outcome.next (if_neg ask).symm

/-- What a reply has told, as the exchange finds it and keeps it. -/
structure Heard (s : State) (l : Lnk) (delay : Nat) (offset : Int) (n : Nat) (t : State) : Prop where
  synced : t.spn.synced = true
  joined : t.spn.joined = true
  offset : t.spn.offset = offset
  retries : t.spn.retries = s.spn.retries + BitVec.ofNat 16 n
  delay : (t.lgtu.at l).delay = delay
  ctxs : t.ctxs = s.ctxs
  mem : t.mem = s.mem
  tags : t.tags = s.tags
  pending : t.pending = s.pending
  fuses : t.fuses = s.fuses

theorem Heard.syncHeard (s : State) (l : Lnk) (delay : Nat) (offset : Int) (n : Nat) : Heard s l delay offset n (syncHeard s l delay offset n) :=
  ⟨rfl, rfl, rfl, rfl, by simp [Machine.syncHeard, Tab.at_upd_same], rfl, rfl, rfl, rfl, rfl⟩

theorem Heard.stepTick {delay : Nat} {offset : Int} {n : Nat} {t : State} (h : Heard s l delay offset n t) (cause : BitVec 16) (by16 : Nat) :
    Heard s l delay offset n (stepTick t cause by16) := by
  obtain ⟨synced, joined, offset, retries, delay, ctxs, mem, tags, pending, fuses⟩ := h
  rw [stepTick_eq]
  exact ⟨synced, joined, offset, retries, delay, ctxs, mem, tags, pending, fuses⟩

theorem Heard.onSpn {delay : Nat} {offset : Int} {n : Nat} {t : State} (h : Heard s l delay offset n t) {f : Spn → Spn}
    (keeps : (f t.spn).synced = t.spn.synced ∧ (f t.spn).joined = t.spn.joined ∧ (f t.spn).offset = t.spn.offset ∧
      (f t.spn).retries = t.spn.retries) : Heard s l delay offset n (t.onSpn f) := by
  obtain ⟨synced, joined, offset, retries, delay, ctxs, mem, tags, pending, fuses⟩ := h
  obtain ⟨kSynced, kJoined, kOffset, kRetries⟩ := keeps
  exact ⟨kSynced.trans synced, kJoined.trans joined, kOffset.trans offset, kRetries.trans retries, delay, ctxs, mem, tags, pending, fuses⟩

theorem Heard.sendCtl {delay : Nat} {offset : Int} {n : Nat} {t : State} (h : Heard s l delay offset n t) (d : Dest) (x : Ctl) :
    Heard s l delay offset n (t.sendCtl d x) := by
  obtain ⟨synced, joined, offset, retries, delay, ctxs, mem, tags, pending, fuses⟩ := h
  exact ⟨synced, joined, offset, retries, delay, ctxs, mem, tags, pending, fuses⟩

/-! ## The settings (R289) -/

theorem max_twenty (x : BitVec 8) : (if x.toNat < 20 then 20 else x) = BitVec.ofNat 8 (max 20 x.toNat) := by
  apply BitVec.eq_of_toNat_eq
  split <;> simp <;> omega

theorem max_one (x : BitVec 16) : (if x = 0 then 1 else x) = BitVec.ofNat 16 (max 1 x.toNat) := by
  by_cases zero : x = 0
  · rw [if_pos zero, zero]
    rfl
  · have positive : 1 ≤ x.toNat := Nat.pos_of_ne_zero fun h => zero (BitVec.eq_of_toNat_eq h)
    rw [if_neg zero, Nat.max_eq_right positive, BitVec.ofNat_toNat, BitVec.setWidth_eq]

/-- The settings of the Spindle that a write stores, but for the chip's number. -/
def spnSettings (v : Reg) (x : Spn) : Spn :=
  { x with master := flag v 12, up := field v 13 5, alt := field v 18 5, lead := BitVec.ofNat 8 (max 20 (field v 24 8 : BitVec 8).toNat)
           armMs := BitVec.ofNat 16 (max 1 (field v 32 16 : BitVec 16).toNat), noticeMs := BitVec.ofNat 16 (max 1 (field v 48 16 : BitVec 16).toNat)
           joined := x.joined && x.up = field v 13 5 }

theorem spnCfg_eq (s : State) (src : Src) (v : Reg) : spnCfg src v s =
    if (field v 0 12 : BitVec 12) = s.spn.chip then s.onSpn (spnSettings v)
    else if s.loadedCtxs ≠ [] then (s.onSpn (spnSettings v)).logRefusal mc none src 0x600008
    else (s.onSpn (spnSettings v)).onSpn (fun x => { x with chip := field v 0 12 }) := by
  unfold spnCfg spnSettings
  rw [max_twenty, max_one, max_one]

theorem spnCfg_spn (s : State) (src : Src) (v : Reg) : (spnCfg src v s).spn =
    { spnSettings v s.spn with chip := if s.loadedCtxs = [] then field v 0 12 else s.spn.chip } := by
  rw [spnCfg_eq]
  by_cases same : (field v 0 12 : BitVec 12) = s.spn.chip
  · rw [if_pos same, same, ite_self]
    rfl
  rw [if_neg same]
  by_cases none : s.loadedCtxs = []
  · rw [if_neg (Classical.not_not.2 none), if_pos none]
    rfl
  · rw [if_pos none, if_neg none]
    rfl

theorem spnCfg_ctxs (s : State) (src : Src) (v : Reg) : (spnCfg src v s).ctxs = s.ctxs := by
  rw [spnCfg_eq]
  split
  · rfl
  split <;> rfl

/-! ## TICK_UNSYNCED, TICK_HIGH_STORE, notices -/

/-- TICK_UNSYNCED, as the fault steward takes it in. -/
def unsyncedEvent (s : State) : Ev :=
  { code := 0x6002, cls := .c, unit := uSpn, p16 := s.spn.up.setWidth 16, p32 := satBits 32 ((s.time.tick - s.spn.lastSync).toNat / 1000) }

theorem exec_tickUnsynced (below : s.spn.master = false) (linked : s.spn.up ≠ 31) : exec .tickUnsynced s = .next
    { s with spn := { s.spn with synced := false }, fst := { s.fst with faultQ := s.fst.faultQ ++ [s.stamp (unsyncedEvent s)] } } := by
  show execTickUnsynced s = _
  unfold execTickUnsynced
  rw [if_neg fun h => h.elim (fun root => by rw [below] at root; cases root) linked]
  dsimp only
  rw [State.emit_fault _ (by exact nofun)]
  rfl

theorem State.putItem_of_answers (works : s.rcd.flashOk = true) (item : BitVec 16) (value : BitVec 64) :
    (s.putItem item value).rcd = { s.rcd with flash := s.rcd.flash.putItem item value s.time.tick } := if_pos works

theorem State.putItem_of_lost (lost : ¬ s.rcd.flashOk = true) (item : BitVec 16) (value : BitVec 64) :
    (s.putItem item value).rcd = { s.rcd with confOut := s.rcd.confOut ++ [(item, value, s.time.tick)] } := if_neg lost

/-- Bits [63:30] of the tick. -/
def State.tickHigh (s : State) : BitVec 34 := (s.time.tick >>> 30).setWidth 34

/-- They are noted as stored. -/
def highNoted (s : State) : State := { s with time := { s.time with high := s.tickHigh } }

theorem exec_tickHighStore (changed : s.time.high ≠ s.tickHigh) :
    exec .tickHighStore s = .next ((highNoted s).putItem 1 (s.tickHigh.setWidth 64)) := if_neg changed

theorem exec_commitNotice (s : State) (chip : BitVec 16) (c : Ctx) (pass : BitVec 48) (n : Nat) :
    exec (.commitNotice chip c pass n) s = .next ((frameRetries s c n).onBar c (fun b =>
      { b with notices := if b.notices.contains (chip, pass) then b.notices else b.notices ++ [(chip, pass)] })) := rfl

theorem notice_kept {α : Type} [BEq α] [LawfulBEq α] (xs : List α) (x : α) : x ∈ (if xs.contains x then xs else xs ++ [x]) := by
  split
  · next known => exact List.contains_iff_mem.1 known
  · exact List.mem_append_right _ (List.mem_singleton.2 rfl)

theorem notices_stay {xs : List (BitVec 16 × BitVec 48)} {y : BitVec 16 × BitVec 48} (x : BitVec 16 × BitVec 48) (p : Bool) (mem : y ∈ xs) :
    y ∈ (if p then xs else xs ++ [x]) := by
  split
  · exact mem
  · exact List.mem_append_left _ mem

/-- The fault of a notice that is missing. -/
def noticeEvent (s : State) (c : Ctx) (d : Dependence) : Ev :=
  { passEv s c 0x600A .u (s.commitUnit c) (BitVec.ofNat 16 d.chip) with p32 := BitVec.ofInt 32 ((s.ctx c).pass.index.toNat + d.offset) }

theorem exec_noticeTimeout {c : Ctx} {p : Plan} {d : Dependence} (plan : s.planOf c = some p) (missing : (s.ctx c).missingNotice p = some d)
    (stands : (s.ctx c).pass.st = .boundary) (idle : s.deciding c = false) :
    exec (.noticeTimeout c) s = .next (stopCtx (s.emit (noticeEvent s c d)) c 0x600A) := by
  show execNoticeTimeout c s = _
  unfold execNoticeTimeout
  rw [plan, Option.bind_some, missing]
  dsimp only
  rw [if_neg (by simp [stands, idle])]
  rfl

end

/-- Settles O41, each exchange by its offset. -/
theorem tickAlignmentAndNotices : Obligations.TickAlignmentAndNotices := by
  unfold Obligations.TickAlignmentAndNotices
  refine ⟨fun s l sync => ?_, fun s l tick frac n there trained => ⟨?_, fun d free => ?_⟩, fun s l rx tx rxf txf n sync => ?_, fun s src v carried => ?_,
    fun s below linked => ?_, fun s changed => ?_, fun s chip c pass n => ?_, fun s c p d plan missing stands idle clock => ?_⟩
  · show execTickSyncSend s = _
    unfold execTickSyncSend
    rw [sync]
    rfl
  · rw [exec_tickSync there trained]
    rfl
  · have run := exec_tickSync there trained tick frac (some d) n
    dsimp only at run
    rw [stepOrDefer_of_free (s := syncRetries s n) free, stepTick_eq] at run
    exact ⟨_, _, run, rfl, rfl, rfl, rfl, rfl, rfl, rfl, rfl, rfl, rfl, rfl⟩
  · intro t1 t4 offset heard
    have run := exec_tickSyncReply sync rx tx rxf txf n
    have told := Heard.syncHeard s l (syncDelay s rx tx rxf txf) offset n
    have hears {t : State} (h : Heard s l (syncDelay s rx tx rxf txf) offset n t) : heard t :=
      ⟨h.synced, h.joined, h.offset, h.retries, h.delay, h.ctxs, h.mem, h.tags, h.pending, h.fuses⟩
    rw [show syncOffset s rx tx rxf txf = offset from rfl] at run
    dsimp only at run
    generalize offset = o at *
    refine ⟨fun joined low high => ?_, fun behind far free => ?_, fun behind waits => ?_, fun ahead => ?_⟩
    · rw [if_neg (by simp [joined]; omega), if_neg (by omega)] at run
      exact ⟨_, run, hears (told.onSpn ⟨rfl, rfl, rfl, rfl⟩), rfl, rfl, rfl, rfl, rfl, rfl, rfl⟩
    · rw [if_pos (by simpa [behind] using far), stepOrDefer_of_free (s := syncHeard ..) free, stepTick_eq] at run
      have stepped := told.stepTick (if !s.spn.joined then 0 else 1) o.natAbs
      rw [stepTick_eq] at stepped
      refine ⟨_, _, run, hears stepped, rfl, rfl, rfl, rfl, rfl, rfl, ?_⟩
      show (if !s.spn.joined then (0 : BitVec 16) else 1) = _
      cases s.spn.joined <;> rfl
    · rw [if_pos ⟨by omega, .inr behind⟩, show stepOrDefer (syncHeard ..) _ _ = _ from if_pos waits] at run
      exact ⟨_, run, hears (told.onSpn ⟨rfl, rfl, rfl, rfl⟩), rfl, nofun⟩
    · rw [if_neg (by omega), if_pos ahead] at run
      exact ⟨_, run, hears (told.sendCtl _ _), rfl, rfl⟩
  · have run : exec (.spnCfgWrite src v) s = .next ((spnCfg src v s).complete src 0x600008 false 0 0) :=
      congrArg Host.Outcome.next (gatedWrite_of_carry carried src v _)
    have stored : ((spnCfg src v s).complete src 0x600008 false 0 0).spn =
        { spnSettings v s.spn with chip := if s.loadedCtxs = [] then field v 0 12 else s.spn.chip } := by rw [State.complete_spn, spnCfg_spn]
    exact ⟨_, run, (congrArg Spn.master stored :), (congrArg Spn.up stored :), (congrArg Spn.alt stored :), (congrArg Spn.lead stored :),
      (congrArg Spn.armMs stored :), (congrArg Spn.noticeMs stored :), (congrArg Spn.chip stored :), by rw [State.complete_ctxs, spnCfg_ctxs],
      (execSpnCfgWrite_kept src v s).of_next run⟩
  · exact ⟨_, _, exec_tickUnsynced below linked, rfl, rfl, rfl, rfl, rfl⟩
  · have run := exec_tickHighStore changed
    refine ⟨_, run, rfl, ?_, rfl, rfl, (execTickHighStore_kept s).of_next run⟩
    intro w
    split
    · next works => exact (congrArg RecSt.flash (State.putItem_of_answers (s := highNoted s) works 1 w) :)
    · next lost =>
      have waits := State.putItem_of_lost (s := highNoted s) lost 1 w
      exact ⟨(congrArg RecSt.flash waits :), (congrArg RecSt.confOut waits :)⟩
  · have run := exec_commitNotice s chip c pass n
    refine ⟨_, run, ?_, fun x mem => ?_, ?_, fun d other => ?_, rfl, rfl, (execCommitNotice_kept chip c pass n s).of_next run⟩
    · rw [State.onBar_ctx_same]
      exact notice_kept ..
    · rw [State.onBar_ctx_same]
      exact notices_stay _ _ (by simpa [frameRetries] using mem)
    · simp [frameRetries]
    · exact (State.onCtx_ctx_other _ _ other).trans (State.onCtx_ctx_other _ _ other)
  · have run := exec_noticeTimeout plan missing stands idle
    have same : (s.emit (noticeEvent s c d)).ctx c = s.ctx c := State.emit_ctx ..
    have on : (s.emit (noticeEvent s c d)).aon.refOk = true := by rw [State.emit_aon, clock]
    have stop := stopCtx_at_once (s := s.emit (noticeEvent s c d)) (c := c) (by simp [State.idleCtx, same, stands])
      (by simpa [State.deciding, same] using idle) (by simp [same, stands]) 0x600A
    have pass := enterStopped_pass (c := c) on 0x600A
    rw [← stop] at pass
    refine ⟨_, s.stamp (noticeEvent s c d), run, by rw [pass]; rfl, by rw [pass]; rfl, ?_, rfl, rfl, rfl, rfl, (execNoticeTimeout_kept c s).of_next run⟩
    exact (Stops.stopCtx _ c _ on).faultQ (State.emit_raises s _ nofun)

end Sys2Proof.Machine


namespace Sys2Proof.Machine

/-! # The headstock barrier (R271 to R275) -/

section

variable {s t : State} {c : Ctx}

/-! ## The group of a context -/

/-- The group of a context is as it was: its plan and the chip's number. -/
structure SameGroup (c : Ctx) (s t : State) : Prop where
  plan : t.planOf c = s.planOf c
  chip : t.spn.chip = s.spn.chip

theorem SameGroup.onBar (s : State) (c : Ctx) (f : BarSt → BarSt) : SameGroup c s (s.onBar c f) where
  plan := by
    unfold State.planOf
    rw [State.onBar_ctx_same]
  chip := rfl

theorem SameGroup.frameRetries (s : State) (c : Ctx) (n : Nat) : SameGroup c s (frameRetries s c n) := .onBar s c _

theorem SameGroup.trans {u : State} (h : SameGroup c s t) (k : SameGroup c t u) : SameGroup c s u :=
  ⟨k.plan.trans h.plan, k.chip.trans h.chip⟩

theorem SameGroup.groupOf (h : SameGroup c s t) : t.groupOf c = s.groupOf c := by
  unfold State.groupOf
  rw [h.plan]

theorem SameGroup.isMaster (h : SameGroup c s t) : t.isMaster c = s.isMaster c := by
  unfold State.isMaster
  rw [h.groupOf, h.chip]

theorem SameGroup.groupNo (h : SameGroup c s t) : t.groupNo c = s.groupNo c := by
  unfold State.groupNo
  rw [h.groupOf]

theorem SameGroup.otherMembers (h : SameGroup c s t) : t.otherMembers c = s.otherMembers c := by
  unfold State.otherMembers
  rw [h.plan, h.chip]

theorem SameGroup.routesOf (h : SameGroup c s t) (m : BitVec 16) : t.routesOf c m = s.routesOf c m := by
  unfold State.routesOf
  rw [h.plan]

theorem SameGroup.pairOf (h : SameGroup c s t) : t.pairOf c = s.pairOf c := by
  unfold State.pairOf
  rw [h.plan]

theorem SameGroup.checkOf (h : SameGroup c s t) : t.checkOf c = s.checkOf c := by
  unfold State.checkOf
  rw [h.pairOf]

theorem SameGroup.missingMember (h : SameGroup c s t) (got : List (BitVec 16)) : t.missingMember c got = s.missingMember c got := by
  unfold State.missingMember
  rw [h.otherMembers]

/-! ## The frames of a barrier -/

/-- Frames sent over both routes of a member. -/
def memberFrames (s : State) (c : Ctx) (chip ofMember : BitVec 16) (x : Ctl) : List Out :=
  (s.routesOf c ofMember).map (fun r => .control (.member chip r) (ctlType x) x)

/-- Frames sent to every other member. -/
def groupFrames (s : State) (c : Ctx) (x : Ctl) : List Out := (s.otherMembers c).flatMap (fun m => memberFrames s c m m x)

/-- Frames sent to the master. -/
def masterFrames (s : State) (c : Ctx) (x : Ctl) : List Out :=
  match s.groupOf c with
  | some g => memberFrames s c (BitVec.ofNat 16 g.2) (s.spn.chip.setWidth 16) x
  | none => []

/-- Frames added to what has been sent. -/
def State.sends (s : State) (xs : List Out) : State := { s with out := s.out ++ xs }

theorem each_sendCtl (rs : List Nat) (s : State) (chip : BitVec 16) (x : Ctl) :
    s.each rs (fun s r => s.sendCtl (.member chip r) x) = s.sends (rs.map (fun r => .control (.member chip r) (ctlType x) x)) := by
  induction rs generalizing s with
  | nil => simp [State.sends]
  | cons r rs ih =>
    rw [State.each_cons, ih]
    simp [State.sends, State.sendCtl, State.send]

theorem sendBoth_eq (s : State) (c : Ctx) (chip ofMember : BitVec 16) (x : Ctl) :
    sendBoth s c chip ofMember x = s.sends (memberFrames s c chip ofMember x) := each_sendCtl ..

theorem each_sendBoth (ms : List (BitVec 16)) (s : State) (c : Ctx) (x : Ctl) :
    s.each ms (fun s chip => sendBoth s c chip chip x) = s.sends (ms.flatMap (fun m => memberFrames s c m m x)) := by
  induction ms generalizing s with
  | nil => simp [State.sends]
  | cons m ms ih =>
    rw [State.each_cons, ih, sendBoth_eq]
    simp only [State.sends, List.flatMap_cons, List.append_assoc]
    rfl

theorem toMembers_eq (s : State) (c : Ctx) (x : Ctl) : toMembers s c x = s.sends (groupFrames s c x) := each_sendBoth ..

theorem toMaster_eq (s : State) (c : Ctx) (x : Ctl) : toMaster s c x = s.sends (masterFrames s c x) := by
  unfold toMaster masterFrames
  cases s.groupOf c with
  | some g => exact sendBoth_eq ..
  | none => simp [State.sends]

theorem SameGroup.memberFrames (h : SameGroup c s t) (chip ofMember : BitVec 16) (x : Ctl) :
    memberFrames t c chip ofMember x = memberFrames s c chip ofMember x := by
  unfold Machine.memberFrames
  rw [h.routesOf]

theorem SameGroup.masterFrames (h : SameGroup c s t) (x : Ctl) : masterFrames t c x = masterFrames s c x := by
  unfold Machine.masterFrames
  rw [h.groupOf, h.chip]
  split
  · exact h.memberFrames ..
  · rfl

/-- Every other member has a frame over each of its routes. -/
def Reaches (c : Ctx) (s : State) (out : List Out) (x : Ctl) : Prop :=
  ∀ m ∈ s.otherMembers c, ∀ r ∈ s.routesOf c m, Out.control (.member m r) (ctlType x) x ∈ out

theorem Reaches.groupFrames (s : State) (c : Ctx) (x : Ctl) : Reaches c s (groupFrames s c x) x :=
  fun m member _ route => List.mem_flatMap.2 ⟨m, member, List.mem_map_of_mem route⟩

theorem Reaches.of_toMembers (same : SameGroup c s t) (x : Ctl) : Reaches c s (toMembers t c x).out x := by
  intro m member r route
  rw [toMembers_eq]
  exact List.mem_append_right _ (Reaches.groupFrames t c x m (by rwa [same.otherMembers]) r (by rwa [same.routesOf]))

theorem Reaches.mono {xs ys : List Out} {x : Ctl} (h : Reaches c s xs x) (more : xs ⊆ ys) : Reaches c s ys x :=
  fun m member r route => more (h m member r route)

theorem toMembers_ctx (s : State) (c d : Ctx) (x : Ctl) : (toMembers s c x).ctx d = s.ctx d := by
  rw [toMembers_eq]
  rfl

theorem toMaster_ctx (s : State) (c d : Ctx) (x : Ctl) : (toMaster s c x).ctx d = s.ctx d := by
  rw [toMaster_eq]
  rfl

theorem SameGroup.toMembers (s : State) (c : Ctx) (x : Ctl) : SameGroup c s (toMembers s c x) := by
  rw [toMembers_eq]
  exact ⟨rfl, rfl⟩

/-! ## START goes out -/

/-- The START tick, from now. -/
def startTick (s : State) (c : Ctx) : BitVec 64 :=
  s.time.tick + BitVec.ofNat 64 (max (s.spn.lead.toNat * 1000) (2 * s.deliveryBound c + 2000))

/-- The master's half of a barrier once START goes out. -/
def startsAt (s : State) (c : Ctx) (at_ : BitVec 64) : State := s.onBar c (fun b => { b with state := 2, startAt := some at_, acked := [] })

theorem sendStart_eq (s : State) (c : Ctx) :
    sendStart s c = toMembers (startsAt s c (startTick s c)) c (.start (s.groupNo c) (s.ctx c).bar.number (startTick s c)) := by
  unfold sendStart
  dsimp only
  rw [(SameGroup.onBar s c _).groupNo, State.onBar_ctx_same]
  rfl

/-- Every other member is armed. -/
def State.allArmed (s : State) (c : Ctx) : Bool := (s.otherMembers c).all (fun m => (s.ctx c).bar.armed.contains m)

theorem startIfArmed_of_armed (one : (s.ctx c).bar.state = 1) (all : s.allArmed c = true) : startIfArmed s c = sendStart s c := if_pos ⟨one, all⟩

theorem startIfArmed_of_waiting (missing : s.allArmed c = false) : startIfArmed s c = s := if_neg fun h => Bool.eq_false_iff.1 missing h.2

theorem sendStart_ctx (s : State) (c : Ctx) : (sendStart s c).ctx c =
    { s.ctx c with bar := { (s.ctx c).bar with state := 2, startAt := some (startTick s c), acked := [] } } := by
  rw [sendStart_eq, toMembers_ctx]
  exact State.onBar_ctx_same s c _

/-- What START leaves of a context but for its place at the barrier. -/
structure Starting (c : Ctx) (s t : State) : Prop where
  number : (t.ctx c).bar.number = (s.ctx c).bar.number
  attempts : (t.ctx c).bar.attempts = (s.ctx c).bar.attempts
  waiting : (t.ctx c).bar.waiting = (s.ctx c).bar.waiting
  armed : (t.ctx c).bar.armed = (s.ctx c).bar.armed
  pass : (t.ctx c).pass = (s.ctx c).pass
  others : ∀ d, d ≠ c → t.ctx d = s.ctx d
  out : s.out ⊆ t.out
  rcd : t.rcd = s.rcd

theorem Starting.refl (c : Ctx) (s : State) : Starting c s s := ⟨rfl, rfl, rfl, rfl, rfl, fun _ _ => rfl, List.Subset.refl _, rfl⟩

theorem Starting.sendStart (s : State) (c : Ctx) : Starting c s (sendStart s c) := by
  have frames : Machine.sendStart s c = (startsAt s c (startTick s c)).sends (groupFrames (startsAt s c (startTick s c)) c
      (.start (s.groupNo c) (s.ctx c).bar.number (startTick s c))) := by rw [sendStart_eq, toMembers_eq]
  have ctx := sendStart_ctx s c
  refine ⟨by rw [ctx], by rw [ctx], by rw [ctx], by rw [ctx], by rw [ctx], fun d other => ?_, ?_, ?_⟩
  all_goals rw [frames]
  · exact State.onCtx_ctx_other s _ other
  · exact List.subset_append_left _ _
  · rfl

theorem Starting.startIfArmed (s : State) (c : Ctx) : Starting c s (startIfArmed s c) := by
  unfold Machine.startIfArmed
  split
  · exact .sendStart s c
  · exact .refl c s

theorem Starting.toMembers (s : State) (c : Ctx) (x : Ctl) : Starting c s (toMembers s c x) := by
  rw [toMembers_eq]
  exact ⟨rfl, rfl, rfl, rfl, rfl, fun _ _ => rfl, List.subset_append_left _ _, rfl⟩

theorem Starting.trans {u : State} (h : Starting c s t) (k : Starting c t u) : Starting c s u where
  number := k.number.trans h.number
  attempts := k.attempts.trans h.attempts
  waiting := k.waiting.trans h.waiting
  armed := k.armed.trans h.armed
  pass := k.pass.trans h.pass
  others d other := (k.others d other).trans (h.others d other)
  out := List.Subset.trans h.out k.out
  rcd := k.rcd.trans h.rcd

theorem Starting.sendArm (s : State) (c : Ctx) : Starting c s (sendArm s c) := (Starting.toMembers s c _).trans (.startIfArmed _ c)

theorem sendArm_reaches (s : State) (c : Ctx) : Reaches c s (sendArm s c).out (.arm (s.groupNo c) (s.ctx c).bar.number (s.checkOf c)) :=
  (Reaches.of_toMembers ⟨rfl, rfl⟩ _).mono (Starting.startIfArmed _ c).out

theorem SameGroup.reaches (same : SameGroup c s t) {out : List Out} {x : Ctl} (h : Reaches c t out x) : Reaches c s out x :=
  fun m member r route => h m (by rwa [same.otherMembers]) r (by rwa [same.routesOf])

/-! ## The frames of a barrier as they arrive -/

theorem frameRetries_ctx (s : State) (c : Ctx) (n : Nat) : (frameRetries s c n).ctx c =
    { s.ctx c with bar := { (s.ctx c).bar with retry := (s.ctx c).bar.retry.add n } } := State.onBar_ctx_same ..

theorem exec_barrierArrive {p : Plan} (plan : s.planOf c = some p) (stands : (s.ctx c).pass.st = .boundary) (injected : (s.ctx c).exec.injected = true)
    (needs : (s.ctx c).needsBarrier p = true) (comes : (s.ctx c).bar.waiting = false) (held : (s.ctx c).bar.released = false)
    (commit : s.commitArrived c = true) (notices : (s.ctx c).noticesIn p = true) (load : s.loadAllows c = true) : exec (.barrierArrive c) s = .next
      (if s.isMaster c then sendArm (s.onBar c BarSt.begin_) c else if (s.ctx c).bar.armSeen then answerArmed s c
       else s.onBar c (fun b => { b with waiting := true })) := by
  show execBarrierArrive c s = _
  unfold execBarrierArrive
  rw [plan]
  dsimp only
  rw [if_neg (by simp [stands, injected, needs, comes, held, commit, notices, load])]
  cases s.isMaster c <;> cases (s.ctx c).bar.armSeen <;> rfl

theorem answerArmed_eq (s : State) (c : Ctx) : answerArmed s c =
    let t := s.onBar c (fun b => { b.begin_ with armSeen := false })
    toMaster t c (.armed (s.groupNo c) (t.ctx c).bar.number (s.checkOf c) (!s.spn.synced && !s.spn.master)) := by
  unfold answerArmed
  dsimp only
  rw [(SameGroup.onBar s c _).groupNo, (SameGroup.onBar s c _).checkOf]
  rfl

theorem toMaster_out (same : SameGroup c s t) (out : t.out = s.out) (x : Ctl) : (toMaster t c x).out = (toMaster s c x).out := by
  rw [toMaster_eq, toMaster_eq]
  show t.out ++ masterFrames t c x = s.out ++ masterFrames s c x
  rw [out, same.masterFrames]

/-- ARM seen before the context has come to its boundary. -/
def armNoted (s : State) (c : Ctx) (check : BitVec 16) : State := s.onBar c (fun b => { b with peerCheck := check, armSeen := true })

theorem exec_armFirst {g : BitVec 16} (group : s.ctxOfGroup g = some c) (member : s.isMaster c = false) (one : (s.ctx c).bar.state ≠ 1)
    (two : (s.ctx c).bar.state ≠ 2) (first : (s.ctx c).bar.armSeen = false) (away : (s.ctx c).bar.waiting = false) (check : BitVec 16) (n : Nat) :
    exec (.arm g (s.ctx c).bar.current check n) s = .next (armNoted (frameRetries s c n) c check) := by
  show execArm g _ check n s = _
  unfold execArm
  rw [group]
  dsimp only
  rw [(SameGroup.frameRetries s c n).isMaster, frameRetries_ctx]
  rw [if_neg (by
    rintro (h | h | h | h | h)
    · rw [member] at h; cases h
    · exact h rfl
    · exact one h
    · exact two h
    · rw [first] at h; cases h)]
  rw [if_neg (Bool.eq_false_iff.1 away)]
  rfl

theorem exec_armCopy {g : BitVec 16} (group : s.ctxOfGroup g = some c)
    (seen : (s.ctx c).bar.state = 1 ∨ (s.ctx c).bar.state = 2 ∨ (s.ctx c).bar.armSeen = true) (number check : BitVec 16) (n : Nat) :
    exec (.arm g number check n) s = .next (frameRetries s c n) := by
  show execArm g number check n s = _
  unfold execArm
  rw [group]
  dsimp only
  rw [frameRetries_ctx, if_pos (.inr (.inr seen))]

/-- A member's ARMED as the master notes it. -/
def armedNoted (s : State) (c : Ctx) (m check : BitVec 16) : State :=
  s.onBar c (fun b => { b with armed := if b.armed.contains m then b.armed else b.armed ++ [m], peerCheck := check })

theorem exec_armed {g check : BitVec 16} {chip : BitVec 12} (group : s.ctxOfGroup g = some c) (master : s.isMaster c = true)
    (one : (s.ctx c).bar.state = 1) (member : (s.otherMembers c).contains (chip.setWidth 16) = true)
    (agrees : (s.pairOf c).isSome = true → check = s.checkOf c) (n : Nat) :
    exec (.armed chip g (s.ctx c).bar.number check false n) s = .next (startIfArmed (armedNoted (frameRetries s c n) c (chip.setWidth 16) check) c) := by
  have same := (SameGroup.frameRetries s c n).trans (.onBar _ c (fun b =>
    { b with armed := if b.armed.contains (chip.setWidth 16) then b.armed else b.armed ++ [chip.setWidth 16], peerCheck := check }))
  show execArmed chip g _ check false n s = _
  unfold execArmed
  rw [group]
  dsimp only
  rw [(SameGroup.frameRetries s c n).isMaster, (SameGroup.frameRetries s c n).otherMembers, frameRetries_ctx, same.pairOf, same.checkOf]
  rw [if_neg (by
    rintro (h | h | h | h)
    · rw [master] at h; cases h
    · exact h one
    · exact h rfl
    · rw [member] at h; cases h), if_neg (by decide), if_neg (fun h => h.2 (agrees h.1))]
  rfl

theorem exec_start {g : BitVec 16} (group : s.ctxOfGroup g = some c) (member : s.isMaster c = false) (one : (s.ctx c).bar.state = 1)
    (at_ : BitVec 64) (n : Nat) : exec (.start g (s.ctx c).bar.number at_ n) s = .next
      (toMaster ((frameRetries s c n).onBar c (fun b => { b with state := 2, startAt := some at_ })) c (.startAck g (s.ctx c).bar.number)) := by
  show execStart g _ at_ n s = _
  unfold execStart
  rw [group]
  dsimp only
  rw [(SameGroup.frameRetries s c n).isMaster, frameRetries_ctx]
  rw [if_neg (by
    rintro (h | h | h)
    · rw [member] at h; cases h
    · exact h one
    · exact h rfl)]

theorem exec_startAck {g : BitVec 16} {chip : BitVec 12} (group : s.ctxOfGroup g = some c) (master : s.isMaster c = true)
    (two : (s.ctx c).bar.state = 2) (n : Nat) : exec (.startAck chip g (s.ctx c).bar.number n) s = .next
      ((frameRetries s c n).onBar c (fun b => { b with acked := if b.acked.contains (chip.setWidth 16) then b.acked else b.acked ++ [chip.setWidth 16] })) := by
  show execStartAck chip g _ n s = _
  unfold execStartAck
  rw [group]
  dsimp only
  rw [(SameGroup.frameRetries s c n).isMaster, frameRetries_ctx]
  rw [if_neg (by
    rintro (h | h | h)
    · rw [master] at h; cases h
    · exact h two
    · exact h rfl)]

/-! ## The barrier fires -/

theorem takeDeferred_ctxs (s : State) : (takeDeferred s).ctxs = s.ctxs := by
  unfold takeDeferred
  split
  · rfl
  split
  · rfl
  · rw [stepTick_eq]
    rfl

theorem takeDeferred_intake (s : State) : s.rcd.intake ⊆ (takeDeferred s).rcd.intake := by
  unfold takeDeferred
  split
  · exact List.Subset.refl _
  split
  · exact List.Subset.refl _
  · rw [stepTick_eq]
    exact List.subset_append_left _ _

theorem takeDeferred_mem (s : State) : (takeDeferred s).mem = s.mem ∧ (takeDeferred s).tags = s.tags := by
  have held := takeDeferred_held s
  unfold State.held at held
  simp only [Prod.mk.injEq] at held
  exact held.2.2

/-- A context leaves its barrier's boundary. -/
def barrierLeft (s : State) (c : Ctx) : State :=
  s.onBar c (fun b => { b with state := 3, released := true, waiting := false, startAt := none, armSeen := false })

/-- BARRIER_FIRED, which the master records. -/
def fireRecorded (s : State) (c : Ctx) (number : BitVec 16) : State :=
  if s.isMaster c then s.emit { code := 0x6006, unit := uSpn, ctx := some c, p16 := s.groupNo c, p32 := number.setWidth 32 } else s

theorem exec_barrierFire {at_ : BitVec 64} (two : (s.ctx c).bar.state = 2) (due : (s.ctx c).bar.startAt = some at_)
    (acked : s.isMaster c = true → s.missingMember c (s.ctx c).bar.acked = none) :
    exec (.barrierFire c) s = .next (takeDeferred (fireRecorded (barrierLeft s c) c (s.ctx c).bar.number)) := by
  show execBarrierFire c s = _
  unfold execBarrierFire
  dsimp only
  rw [due]
  dsimp only
  rw [if_neg (by
    rintro (h | ⟨master, missing⟩)
    · exact h two
    · rw [acked master] at missing; cases missing)]
  rfl

theorem fireRecorded_ctx (s : State) (c d : Ctx) (number : BitVec 16) : (fireRecorded s c number).ctx d = s.ctx d := by
  unfold fireRecorded
  split
  · exact State.emit_ctx ..
  · rfl

theorem fireRecorded_mem (s : State) (c : Ctx) (number : BitVec 16) : (fireRecorded s c number).mem = s.mem ∧ (fireRecorded s c number).tags = s.tags := by
  unfold fireRecorded
  split
  · exact ⟨State.emit_mem .., State.emit_tags ..⟩
  · exact ⟨rfl, rfl⟩

end

end Sys2Proof.Machine


namespace Sys2Proof.Machine

/-! # A barrier is abandoned (R274, R275) -/

section

variable {s t : State} {c : Ctx}

/-! ## By the master -/

/-- BARRIER_ABANDON, as the recorder takes it in. -/
def abandonEvent (s : State) (c : Ctx) (cause : BitVec 4) (chip : BitVec 12) : Ev :=
  { code := 0x6007, unit := uSpn, ctx := some c, p16 := s.groupNo c,
    p32 := (s.ctx c).bar.number.setWidth 32 ||| (cause.setWidth 32 <<< 16) ||| (chip.setWidth 32 <<< 20) }

theorem recordAbandon_records (s : State) (c : Ctx) (cause : BitVec 4) (chip : BitVec 12) :
    s.stamp (abandonEvent s c cause chip) ∈ (recordAbandon s c cause chip).rcd.intake := State.emit_records s (abandonEvent s c cause chip) rfl

theorem recordAbandon_ctx (s : State) (c d : Ctx) (cause : BitVec 4) (chip : BitVec 12) : (recordAbandon s c cause chip).ctx d = s.ctx d :=
  State.emit_ctx ..

theorem SameGroup.recordAbandon (s : State) (c : Ctx) (cause : BitVec 4) (chip : BitVec 12) : SameGroup c s (recordAbandon s c cause chip) :=
  ⟨by unfold State.planOf; rw [recordAbandon_ctx], by simp [Machine.recordAbandon]⟩

/-- The abandonment recorded and told to the members. -/
def abandonTold (s : State) (c : Ctx) (cause : BitVec 4) (chip : BitVec 12) : State :=
  toMembers (recordAbandon s c cause chip) c (.abandon (s.groupNo c) (s.ctx c).bar.number cause)

/-- The master's half of the barrier that begins again. -/
def armsAgain (b : BarSt) : BarSt := { b.back with state := 1 }

theorem abandonBarrier_again {cause : BitVec 4} (plan : cause ≠ 4) (again : (s.ctx c).bar.attempts ≠ 2) (chip : BitVec 12) :
    abandonBarrier s c cause chip = sendArm (((abandonTold s c cause chip).onBar c BarSt.back).onBar c (fun b => { b with state := 1 })) c := by
  have third : (((abandonTold s c cause chip).onBar c BarSt.back).ctx c).bar.attempts ≠ 3 := by
    rw [State.onBar_ctx_same, abandonTold, toMembers_ctx, recordAbandon_ctx]
    show (s.ctx c).bar.attempts + 1 ≠ 3
    generalize (s.ctx c).bar.attempts = n at again
    revert again
    revert n
    decide
  unfold abandonBarrier
  dsimp only
  rw [if_neg plan]
  exact if_neg third

/-- An abandonment after which the master begins again. -/
theorem abandonBarrier_effect {cause : BitVec 4} (plan : cause ≠ 4) (again : (s.ctx c).bar.attempts ≠ 2) (chip : BitVec 12) :
    let t := abandonBarrier s c cause chip
    (t.ctx c).bar.attempts = (s.ctx c).bar.attempts + 1 ∧ (t.ctx c).bar.number = (s.ctx c).bar.number + 1 ∧
      s.stamp (abandonEvent s c cause chip) ∈ t.rcd.intake ∧ Reaches c s t.out (.abandon (s.groupNo c) (s.ctx c).bar.number cause) := by
  dsimp only
  rw [abandonBarrier_again plan again]
  have arms := Starting.sendArm (((abandonTold s c cause chip).onBar c BarSt.back).onBar c (fun b => { b with state := 1 })) c
  have told : (abandonTold s c cause chip).ctx c = s.ctx c := by rw [abandonTold, toMembers_ctx, recordAbandon_ctx]
  refine ⟨?_, ?_, ?_, ?_⟩
  · rw [arms.attempts, State.onBar_ctx_same, State.onBar_ctx_same, told]
    rfl
  · rw [arms.number, State.onBar_ctx_same, State.onBar_ctx_same, told]
    rfl
  · rw [arms.rcd]
    show _ ∈ (abandonTold s c cause chip).rcd.intake
    rw [abandonTold, (Starting.toMembers _ c _).rcd]
    exact recordAbandon_records s c cause chip
  · exact (Reaches.of_toMembers (SameGroup.recordAbandon s c cause chip) _).mono arms.out

theorem exec_armTimeout {m : BitVec 16} (master : s.isMaster c = true) (one : (s.ctx c).bar.state = 1) (stands : (s.ctx c).bar.waiting = true)
    (missing : s.missingMember c (s.ctx c).bar.armed = some m) : exec (.armTimeout c) s = .next (abandonBarrier s c 1 (m.setWidth 12)) := by
  show execArmTimeout c s = _
  unfold execArmTimeout
  dsimp only
  rw [if_neg (by simp [master, one, stands]), missing]

theorem exec_startAckDeadline {m : BitVec 16} (master : s.isMaster c = true) (two : (s.ctx c).bar.state = 2)
    (missing : s.missingMember c (s.ctx c).bar.acked = some m) : exec (.startAckDeadline c) s = .next (abandonBarrier s c 2 (m.setWidth 12)) := by
  show execStartAckDeadline c s = _
  unfold execStartAckDeadline
  dsimp only
  rw [if_neg (by simp [master, two]), missing]

/-! ## A stop leaves the barrier's state and number -/

theorem stopEffects_bar (s : State) (c : Ctx) (event : BitVec 16) : ((stopEffects s c event).ctx c).bar = (s.ctx c).bar.stop := by
  obtain ⟨prv, ended⟩ := endStall_ctx (stopRegisters (leaveUndecided s c) c event) c
  have told : (stopEffects s c event).ctx c = (endStall (stopRegisters (leaveUndecided s c) c event) c).ctx c := tellPartner_ctx _ c c
  rw [told, ended]
  simp [stopRegisters, State.ctx_eq_of_ctxs (leaveUndecided_ctxs s c) c]

theorem enterStopped_bar (clock : s.aon.refOk = true) (event : BitVec 16) : ((enterStopped s c event).ctx c).bar = (s.ctx c).bar.stop := by
  rw [enterStopped_eq, State.ctx_eq_of_ctxs (afterStop_ctxs ?_) c, stopEffects_bar]
  rw [(Within.stopEffects c s event).aon, clock]

theorem BarSt.stop_stop (b : BarSt) : b.stop.stop = b.stop := rfl

/-- But for its waiting, its start tick and its release, a context's half of a barrier is as it was before the stop. -/
theorem stopCtx_bar (clock : s.aon.refOk = true) (event : BitVec 16) : ((stopCtx s c event).ctx c).bar.stop = (s.ctx c).bar.stop := by
  have later : ((noteStop s c event).ctx c).bar.stop = (s.ctx c).bar.stop := by
    rw [noteStop, State.onExec_ctx_same]
  unfold stopCtx
  split
  case h_1 | h_2 => rfl
  case h_3 => exact later
  all_goals
    split
    · exact later
    · rw [enterStopped_bar clock, BarSt.stop_stop]

theorem abortStopCtx_bar (clock : s.aon.refOk = true) (event : BitVec 16) : ((abortStopCtx s c event).ctx c).bar.stop = (s.ctx c).bar.stop := by
  unfold abortStopCtx
  split
  · rw [noteCause, State.onExec_ctx_same, State.onExec_ctx_same]
  · exact stopCtx_bar clock event

theorem noticed_of_all {xs : List (BitVec 16)} {m y : BitVec 16} (h : y = m ∨ y ∈ xs) : y ∈ (if xs.contains m then xs else xs ++ [m]) := by
  obtain rfl | mem := h
  · exact notice_kept ..
  · split
    · exact mem
    · exact List.mem_append_left _ mem

theorem unnoticed {xs : List (BitVec 16)} {m y : BitVec 16} (other : y ≠ m) (absent : y ∉ xs) :
    y ∉ (if xs.contains m then xs else xs ++ [m]) := by
  split
  · exact absent
  · simp [other, absent]

/-! ## By a member -/

theorem exec_abandon_fired {g : BitVec 16} (group : s.ctxOfGroup g = some c) (member : s.isMaster c = false) (fired : (s.ctx c).bar.state = 3)
    (copy : (s.ctx c).bar.split = true) (cause : BitVec 4) (n : Nat) :
    exec (.abandon g (s.ctx c).bar.number cause n) s = .next (frameRetries s c n) := by
  show execAbandon g _ cause n s = _
  unfold execAbandon
  rw [group]
  dsimp only
  rw [(SameGroup.frameRetries s c n).isMaster, frameRetries_ctx, if_neg (Bool.eq_false_iff.1 member), if_pos ⟨fired, rfl⟩, if_pos copy]

/-- A fired barrier noted as split. -/
def splitNoted (s : State) (c : Ctx) : State := s.onBar c (fun b => { b with split := true })

/-- BARRIER_SPLIT, as the fault steward takes it in. -/
def splitEvent (c : Ctx) (g number : BitVec 16) : Ev :=
  { code := 0x6009, cls := .u, unit := uSpn, ctx := some c, p16 := g, p32 := number.setWidth 32 }

theorem exec_abandon_split {g : BitVec 16} (group : s.ctxOfGroup g = some c) (member : s.isMaster c = false) (fired : (s.ctx c).bar.state = 3)
    (first : (s.ctx c).bar.split = false) (cause : BitVec 4) (n : Nat) : exec (.abandon g (s.ctx c).bar.number cause n) s = .next
      (abortStopCtx ((splitNoted (frameRetries s c n) c).emit (splitEvent c g (s.ctx c).bar.number)) c 0x6009) := by
  show execAbandon g _ cause n s = _
  unfold execAbandon
  rw [group]
  dsimp only
  rw [(SameGroup.frameRetries s c n).isMaster, frameRetries_ctx, if_neg (Bool.eq_false_iff.1 member), if_pos ⟨fired, rfl⟩,
    if_neg (Bool.eq_false_iff.1 first)]
  rfl

theorem BarSt.current_ne (b : BarSt) : ¬ (b.state = 3 ∧ b.current = b.number) := by
  rintro ⟨fired, same⟩
  rw [BarSt.current, if_pos (.inl fired)] at same
  generalize b.number = n at same
  bv_omega

theorem exec_abandon_fails {g : BitVec 16} (group : s.ctxOfGroup g = some c) (member : s.isMaster c = false) (third : (s.ctx c).bar.coming.attempts = 3)
    (cause : BitVec 4) (n : Nat) : exec (.abandon g (s.ctx c).bar.current cause n) s = .next (barrierFail (frameRetries s c n) c) := by
  have attempts : ({ (s.ctx c).bar with retry := (s.ctx c).bar.retry.add n } : BarSt).coming.attempts = (s.ctx c).bar.coming.attempts := by
    unfold BarSt.coming
    dsimp only
    split <;> rfl
  show execAbandon g _ cause n s = _
  unfold execAbandon
  rw [group]
  dsimp only
  rw [(SameGroup.frameRetries s c n).isMaster, frameRetries_ctx, if_neg (Bool.eq_false_iff.1 member)]
  exact (if_neg (BarSt.current_ne (s.ctx c).bar)).trans ((if_neg (Classical.not_not.2 rfl)).trans (if_pos (attempts.trans third)))

/-- A member sets its barrier back for the next number. -/
def memberBack (s : State) (c : Ctx) (cause : BitVec 4) : State :=
  (recordAbandon (s.fresh.2.onBar c BarSt.coming) c cause (s.fresh.1.setWidth 12)).onBar c BarSt.back

theorem exec_abandon_back {g : BitVec 16} {cause : BitVec 4} (group : s.ctxOfGroup g = some c) (member : s.isMaster c = false)
    (more : (s.ctx c).bar.coming.attempts ≠ 3) (plan : cause ≠ 4) (n : Nat) :
    exec (.abandon g (s.ctx c).bar.current cause n) s = .next (takeDeferred (memberBack (frameRetries s c n) c cause)) := by
  have attempts : ({ (s.ctx c).bar with retry := (s.ctx c).bar.retry.add n } : BarSt).coming.attempts = (s.ctx c).bar.coming.attempts := by
    unfold BarSt.coming
    dsimp only
    split <;> rfl
  show execAbandon g _ cause n s = _
  unfold execAbandon
  rw [group]
  dsimp only
  rw [(SameGroup.frameRetries s c n).isMaster, frameRetries_ctx, if_neg (Bool.eq_false_iff.1 member)]
  refine (if_neg (BarSt.current_ne (s.ctx c).bar)).trans ((if_neg (Classical.not_not.2 rfl)).trans ((if_neg fun h => more (attempts.symm.trans h)).trans ?_))
  rw [if_neg plan]
  rfl

theorem memberBack_ctx (s : State) (c : Ctx) (cause : BitVec 4) :
    (memberBack s c cause).ctx c = { s.ctx c with bar := (s.ctx c).bar.coming.back } := by
  rw [memberBack, State.onBar_ctx_same, recordAbandon_ctx, State.onBar_ctx_same]
  rfl

theorem memberBack_records (s : State) (c : Ctx) (cause : BitVec 4) : ∃ e ∈ (memberBack s c cause).rcd.intake, e.code = 0x6007 ∧ e.unit = uSpn ∧ e.ctx = some c :=
  ⟨_, recordAbandon_records (s.fresh.2.onBar c BarSt.coming) c cause (s.fresh.1.setWidth 12), rfl, rfl, rfl⟩

theorem memberBack_mem (s : State) (c : Ctx) (cause : BitVec 4) : (memberBack s c cause).mem = s.mem ∧ (memberBack s c cause).tags = s.tags :=
  ⟨State.emit_mem .., State.emit_tags ..⟩

theorem BarSt.coming_number (b : BarSt) : b.coming.number = b.current := by
  unfold BarSt.coming
  split
  · rfl
  · next stands => exact (if_neg stands).symm

theorem coming_retry (b : BarSt) (n : Nat) : ({ b with retry := b.retry.add n } : BarSt).coming = { b.coming with retry := b.retry.add n } := by
  unfold BarSt.coming
  dsimp only
  split <;> rfl

/-- BARRIER_FAIL, as the fault steward takes it in. -/
def failEvent (s : State) (c : Ctx) : Ev :=
  { code := 0x6008, cls := .u, unit := uSpn, ctx := some c, p16 := s.groupNo c, p32 := (s.ctx c).bar.number.setWidth 32 }

/-- A barrier that has failed. -/
def barrierFailed (s : State) (c : Ctx) : State := s.onBar c (fun b => { b with state := 5 })

theorem barrierFail_eq (s : State) (c : Ctx) : barrierFail s c = stopCtx ((barrierFailed s c).emit (failEvent (barrierFailed s c) c)) c 0x6008 := rfl

theorem barrierFail_effect (clock : s.aon.refOk = true) : ∃ e ∈ (barrierFail s c).fst.faultQ, e.code = 0x6008 ∧ e.cls = .u ∧ e.unit = uSpn ∧
    e.ctx = some c ∧ e.p16 = s.groupNo c ∧ ((barrierFail s c).ctx c).bar.state = 5 := by
  have on : ((barrierFailed s c).emit (failEvent (barrierFailed s c) c)).aon.refOk = true := by rw [State.emit_aon]; exact clock
  have bar := stopCtx_bar (c := c) on 0x6008
  refine ⟨(barrierFailed s c).stamp (failEvent (barrierFailed s c) c), (Stops.stopCtx _ c _ on).faultQ (State.emit_raises _ _ nofun), rfl, rfl, rfl, rfl,
    (SameGroup.onBar s c _).groupNo, ?_⟩
  rw [State.emit_ctx, barrierFailed, State.onBar_ctx_same] at bar
  exact (congrArg BarSt.state bar :)

end

/-- Settles O42, each frame by the half of the barrier it finds. -/
theorem headstockBarriers : Obligations.HeadstockBarriers := by
  unfold Obligations.HeadstockBarriers
  intro toAll
  refine ⟨fun s c p plan stands injected needs comes held commit notices load => ?_,
    fun s c g check n group member one two first away => ?_, fun s c g number check n group seen => exec_armCopy group seen number check n,
    fun s c chip g check n group master one member agrees => ?_, fun s c g at_ n group member one => ?_, fun s c chip g n group master two => ?_,
    fun s c at_ two due acked => ?_, fun s c m master one stands missing again => ?_, fun s c m master two missing again => ?_,
    fun s c g cause n group member => ⟨fun more mild => ?_, fun third clock => ?_, fun fired copy => exec_abandon_fired group member fired copy cause n,
      fun fired first clock => ?_⟩⟩
  · have run := exec_barrierArrive plan stands injected needs comes held commit notices load
    have kept := (execBarrierArrive_kept c s).of_next run
    by_cases master : s.isMaster c = true
    · rw [if_pos master] at run kept
      have arms := Starting.sendArm (s.onBar c BarSt.begin_) c
      have reached := (SameGroup.onBar s c BarSt.begin_).reaches (sendArm_reaches (s.onBar c BarSt.begin_) c)
      rw [(SameGroup.onBar s c BarSt.begin_).groupNo, (SameGroup.onBar s c BarSt.begin_).checkOf, ← arms.number] at reached
      refine ⟨_, run, ?_, ?_, fun d other => ?_, kept, fun _ => reached, fun slave => absurd master (Bool.eq_false_iff.1 slave)⟩
      · rw [arms.waiting, State.onBar_ctx_same]
        rfl
      · rw [arms.pass, State.onBar_ctx_same]
      · exact (arms.others d other).trans (State.onCtx_ctx_other s _ other)
    rw [if_neg master] at run kept
    by_cases seen : (s.ctx c).bar.armSeen = true
    · rw [if_pos seen, answerArmed_eq] at run kept
      refine ⟨_, run, ?_, ?_, fun d other => ?_, kept, fun root => absurd root master, fun _ _ => ⟨?_, ?_⟩⟩
      · rw [toMaster_ctx, State.onBar_ctx_same]
        rfl
      · rw [toMaster_ctx, State.onBar_ctx_same]
      · rw [toMaster_ctx]
        exact State.onCtx_ctx_other s _ other
      · rw [toMaster_ctx, State.onBar_ctx_same]
        rfl
      · rw [toMaster_ctx]
        exact toMaster_out (.onBar s c _) rfl _
    · rw [if_neg seen] at run kept
      refine ⟨_, run, ?_, ?_, fun d other => State.onCtx_ctx_other s _ other, kept, fun root => absurd root master, fun _ was => absurd was seen⟩
      all_goals rw [State.onBar_ctx_same]
  · have run := exec_armFirst group member one two first away check n
    refine ⟨_, run, ?_, ?_, rfl, ?_, (execArm_kept ..).of_next run⟩
    all_goals rw [armNoted, State.onBar_ctx_same]
    rw [frameRetries_ctx]
  · have run := exec_armed group master one member agrees n
    have noted : (armedNoted (frameRetries s c n) c (chip.setWidth 16) check).ctx c = { s.ctx c with bar := { (s.ctx c).bar with
        retry := (s.ctx c).bar.retry.add n
        armed := if (s.ctx c).bar.armed.contains (chip.setWidth 16) then (s.ctx c).bar.armed else (s.ctx c).bar.armed ++ [chip.setWidth 16]
        peerCheck := check } } := by
      rw [armedNoted, State.onBar_ctx_same, frameRetries_ctx]
    have same : SameGroup c s (armedNoted (frameRetries s c n) c (chip.setWidth 16) check) :=
      (SameGroup.frameRetries s c n).trans (.onBar _ c _)
    have now : startTick (armedNoted (frameRetries s c n) c (chip.setWidth 16) check) c = startTick s c := by
      unfold startTick State.deliveryBound
      rw [same.plan]
      rfl
    generalize was : armedNoted (frameRetries s c n) c (chip.setWidth 16) check = u at run noted same now
    have out : u.out = s.out := by rw [← was]; rfl
    refine ⟨_, run, ?_, (execArmed_kept ..).of_next run, fun all => ?_, fun ⟨m, other, lacks, absent⟩ => ?_⟩
    · rw [(Starting.startIfArmed u c).armed, noted]
      exact notice_kept ..
    · have armed : u.allArmed c = true := by
        refine List.all_eq_true.2 fun m mem => ?_
        rw [same.otherMembers] at mem
        rw [noted, List.contains_iff_mem]
        exact noticed_of_all (all m mem)
      rw [startIfArmed_of_armed (by rw [noted]; exact one) armed]
      refine ⟨by rw [sendStart_ctx], ?_, ?_⟩
      · rw [sendStart_ctx, now]
        rfl
      · rw [sendStart_eq, now, same.groupNo, noted]
        exact Reaches.of_toMembers (same.trans (.onBar u c _)) _
    · have waits : u.allArmed c = false := by
        refine List.all_eq_false.2 ⟨m, by rwa [same.otherMembers], ?_⟩
        rw [noted, List.contains_iff_mem]
        exact unnoticed lacks absent
      rw [startIfArmed_of_waiting waits, noted]
      exact ⟨one, out⟩
  · have run := exec_start group member one at_ n
    have same : SameGroup c s ((frameRetries s c n).onBar c (fun b => { b with state := 2, startAt := some at_ })) :=
      (SameGroup.frameRetries s c n).trans (.onBar _ c _)
    refine ⟨_, run, ?_, ?_, toMaster_out same rfl _, ?_, (execStart_kept ..).of_next run⟩
    all_goals rw [toMaster_ctx, State.onBar_ctx_same]
    rw [frameRetries_ctx]
  · have run := exec_startAck (chip := chip) group master two n
    refine ⟨_, run, ?_, ?_, rfl, (execStartAck_kept ..).of_next run⟩
    all_goals rw [State.onBar_ctx_same, frameRetries_ctx]
    · exact notice_kept ..
    · exact two
  · have run := exec_barrierFire two due acked
    have left : (takeDeferred (fireRecorded (barrierLeft s c) c (s.ctx c).bar.number)).ctx c = { s.ctx c with bar := { (s.ctx c).bar with
        state := 3, released := true, waiting := false, startAt := none, armSeen := false } } := by
      rw [State.ctx_eq_of_ctxs (takeDeferred_ctxs _) c, fireRecorded_ctx, barrierLeft, State.onBar_ctx_same]
    obtain ⟨mem, tags⟩ := takeDeferred_mem (fireRecorded (barrierLeft s c) c (s.ctx c).bar.number)
    obtain ⟨mem', tags'⟩ := fireRecorded_mem (barrierLeft s c) c (s.ctx c).bar.number
    refine ⟨_, run, by rw [left], by rw [left], by rw [left], by rw [left], fun master => ?_, mem.trans mem', tags.trans tags'⟩
    have records : fireRecorded (barrierLeft s c) c (s.ctx c).bar.number = (barrierLeft s c).emit _ :=
      if_pos (((SameGroup.onBar s c _).isMaster).trans master)
    rw [records]
    exact ⟨_, takeDeferred_intake _ (State.emit_records _ _ rfl), rfl, rfl, rfl⟩
  · have run := exec_armTimeout master one stands missing
    obtain ⟨attempts, number, recorded, reached⟩ := abandonBarrier_effect (s := s) (c := c) (cause := 1) (by decide) again (m.setWidth 12)
    exact ⟨_, run, attempts, number, ⟨_, recorded, rfl, rfl, rfl⟩, reached, (execArmTimeout_kept c s).of_next run⟩
  · have run := exec_startAckDeadline master two missing
    obtain ⟨attempts, number, -, reached⟩ := abandonBarrier_effect (s := s) (c := c) (cause := 2) (by decide) again (m.setWidth 12)
    exact ⟨_, run, attempts, number, reached, (execStartAckDeadline_kept c s).of_next run⟩
  · have run := exec_abandon_back group member more mild n
    have back := State.ctx_eq_of_ctxs (takeDeferred_ctxs (memberBack (frameRetries s c n) c cause)) c
    rw [memberBack_ctx, frameRetries_ctx, coming_retry] at back
    obtain ⟨mem, tags⟩ := takeDeferred_mem (memberBack (frameRetries s c n) c cause)
    obtain ⟨mem', tags'⟩ := memberBack_mem (frameRetries s c n) c cause
    obtain ⟨e, recorded, names⟩ := memberBack_records (frameRetries s c n) c cause
    refine ⟨_, run, ?_, by rw [back]; rfl, by rw [back]; rfl, by rw [back]; rfl, ⟨e, takeDeferred_intake _ recorded, names⟩, by rw [back],
      mem.trans mem', tags.trans tags'⟩
    rw [back, ← BarSt.coming_number]
    rfl
  · have run := exec_abandon_fails group member third cause n
    obtain ⟨e, raised, code, cls, unit, ctx, p16, state⟩ := barrierFail_effect (s := frameRetries s c n) (c := c) clock
    refine ⟨_, e, run, state, raised, code, cls, unit, ctx, p16.trans (SameGroup.frameRetries s c n).groupNo, ?_⟩
    rw [barrierFail_kept, frameRetries_kept]
  · have run := exec_abandon_split group member fired first cause n
    have on : ((splitNoted (frameRetries s c n) c).emit (splitEvent c g (s.ctx c).bar.number)).aon.refOk = true := by
      rw [State.emit_aon]
      exact clock
    have bar := abortStopCtx_bar (c := c) on 0x6009
    rw [State.emit_ctx, splitNoted, State.onBar_ctx_same] at bar
    refine ⟨_, (splitNoted (frameRetries s c n) c).stamp (splitEvent c g (s.ctx c).bar.number), run, (congrArg BarSt.split bar :),
      (Stops.abortStopCtx _ c _ on).faultQ (State.emit_raises _ _ nofun), rfl, rfl, rfl, rfl, rfl, ?_⟩
    rw [abortStopCtx_kept, State.emit_kept, splitNoted, State.onBar_kept, frameRetries_kept]

end Sys2Proof.Machine


namespace Sys2Proof.Machine

/-! # What stops and drains leave of the fault steward -/

section

variable {s t : State} {c : Ctx}

/-- The fault steward but for its queues, the units' history and the drain. -/
def Fst.marks (f : Fst) : Fst := { f.butUnits with state := .run, cause := 0, drainFrom := 0, await := [] }

theorem Serves.marks (h : Serves s t) : t.fst.marks = s.fst.marks := by
  unfold Fst.marks
  rw [h.fst]

theorem Within.fst (h : Within c s t) : { t.fst with faultQ := [], histQ := [] } = { s.fst with faultQ := [], histQ := [] } :=
  (congrArg State.fst h.rest :)

theorem Within.marks (h : Within c s t) : t.fst.marks = s.fst.marks := by
  show Fst.marks { t.fst with faultQ := [], histQ := [] } = Fst.marks { s.fst with faultQ := [], histQ := [] }
  rw [h.fst]

theorem emit_marks (s : State) (e : Ev) : (s.emit e).fst.marks = s.fst.marks := (Serves.emit s e).marks

theorem endDrain_marks (s : State) : (endDrain s).fst.marks = s.fst.marks := by
  have left (t : State) (xs : List UnitId) : (t.each xs leaveService).fst.marks = t.fst.marks :=
    (Serves.each (s := t) (f := leaveService) (xs := xs) fun t u => .leaveService t u).marks
  unfold endDrain
  dsimp only
  show (State.each _ _ leaveService).fst.marks = _
  rw [left, emit_marks]
  rfl

theorem moveWithin_marks (s : State) (dest : Vs) (cause : BitVec 32) : (moveWithin s dest cause).fst.marks = s.fst.marks := by
  have closed : (if s.pwr.vs = .vs0 ∧ dest ≠ .vs0 then closeRecord (cutPatterns (s.each (List.finRange 25) stopTest) (fun _ => true) 4) else s).fst.marks
      = s.fst.marks := (Serves.ite (fun _ => (Serves.each fun t n => .stopTest t n).trans ((Serves.cutPatterns _ _ _).trans (.closeRecord _)))
        fun _ => .refl s).marks
  unfold moveWithin
  dsimp only
  show (recordMove _ dest cause).fst.marks = _
  rw [(Serves.recordMove _ dest cause).marks, closed]

theorem afterStop_marks (clock : s.aon.refOk = true) : (afterStop s).fst.marks = s.fst.marks := by
  unfold afterStop
  dsimp only
  split
  · rfl
  have drained : (if s.fst.state = .draining then endDrain s else s).fst.marks = s.fst.marks ∧
      (if s.fst.state = .draining then endDrain s else s).aon = s.aon := by
    split
    · exact ⟨endDrain_marks s, (Stops.endDrain s).aon⟩
    · exact ⟨rfl, rfl⟩
  generalize (if s.fst.state = .draining then endDrain s else s) = t at drained ⊢
  obtain ⟨marks, aon⟩ := drained
  have moved : (if t.thm.stopped ∧ t.pwr.vs.code < 2 then (moveWithin t .vs2 2).send .stopArrayClock else t).fst.marks = s.fst.marks ∧
      (if t.thm.stopped ∧ t.pwr.vs.code < 2 then (moveWithin t .vs2 2).send .stopArrayClock else t).aon = s.aon := by
    split
    · exact ⟨(moveWithin_marks t _ _).trans marks, (Stops.moveWithin t _ _).aon.trans aon⟩
    · exact ⟨marks, aon⟩
  generalize (if t.thm.stopped ∧ t.pwr.vs.code < 2 then (moveWithin t .vs2 2).send .stopArrayClock else t) = u at moved ⊢
  obtain ⟨marks, aon⟩ := moved
  rw [if_neg (by simp [aon, clock])]
  exact marks

theorem enterStopped_marks (clock : s.aon.refOk = true) (event : BitVec 16) : (enterStopped s c event).fst.marks = s.fst.marks := by
  rw [enterStopped_eq, afterStop_marks (by rw [(Within.stopEffects c s event).aon, clock]), (Within.stopEffects c s event).marks]

theorem stopCtx_marks (clock : s.aon.refOk = true) (event : BitVec 16) : (stopCtx s c event).fst.marks = s.fst.marks := by
  unfold stopCtx
  split
  case h_1 | h_2 | h_3 => rfl
  all_goals
    split
    · rfl
    · exact enterStopped_marks clock event

theorem abortStopCtx_marks (clock : s.aon.refOk = true) (event : BitVec 16) : (abortStopCtx s c event).fst.marks = s.fst.marks := by
  unfold abortStopCtx
  split
  · rfl
  · exact stopCtx_marks clock event

theorem each_marks {f : State → Ctx → State} (keeps : ∀ t d, t.aon.refOk = true → (f t d).fst.marks = t.fst.marks ∧ (f t d).aon.refOk = true)
    (clock : s.aon.refOk = true) (xs : List Ctx) : (s.each xs f).fst.marks = s.fst.marks ∧ (s.each xs f).aon.refOk = true :=
  State.each_induction (P := fun t => t.fst.marks = s.fst.marks ∧ t.aon.refOk = true) ⟨rfl, clock⟩ fun t d _ before =>
    ⟨(keeps t d before.2).1.trans before.1, (keeps t d before.2).2⟩

theorem startDrain_marks (clock : s.aon.refOk = true) (cause : BitVec 3) : (startDrain s cause).fst.marks = s.fst.marks := by
  have aborts (t : State) (d : Ctx) (on : t.aon.refOk = true) : (abortStopCtx t d 0x1007).fst.marks = t.fst.marks ∧ (abortStopCtx t d 0x1007).aon.refOk = true :=
    ⟨abortStopCtx_marks on _, (abortStopCtx_refOk t d _).trans on⟩
  have stops (t : State) (d : Ctx) (on : t.aon.refOk = true) : (if cause = 4 then abortStopCtx t d 0x1007 else stopCtx t d 0x1007).fst.marks = t.fst.marks ∧
      (if cause = 4 then abortStopCtx t d 0x1007 else stopCtx t d 0x1007).aon.refOk = true := by
    split
    · exact aborts t d on
    · exact ⟨stopCtx_marks on _, (stopCtx_refOk t d _).trans on⟩
  have loads (t : State) (on : t.aon.refOk = true) : (t.each allCtx endLoad).fst.marks = t.fst.marks ∧ (t.each allCtx endLoad).aon.refOk = true :=
    each_marks (fun u d on => ⟨(Within.endLoad d u).marks, by rw [(Within.endLoad d u).aon, on]⟩) on allCtx
  unfold startDrain
  dsimp only
  split
  · obtain ⟨marks, on⟩ := each_marks aborts clock (s.loadedCtxs.filter (fun c => (s.ctx c).pass.st ≠ .stopped))
    exact (afterStop_marks on).trans marks
  split
  · rfl
  · generalize begun : State.irqSet _ irqFault = t
    have told : t.fst.marks = s.fst.marks ∧ t.aon.refOk = true := by
      rw [← begun]
      exact ⟨emit_marks _ _, (congrArg Aon.refOk (State.emit_aon _ _)).trans clock⟩
    obtain ⟨marks, on⟩ := told
    obtain ⟨loaded, loadOn⟩ := loads t on
    generalize t.each allCtx endLoad = u at loaded loadOn ⊢
    obtain ⟨stopped, stopOn⟩ := each_marks stops loadOn (s.loadedCtxs.filter (fun c => (s.ctx c).pass.st ≠ .stopped))
    rw [afterStop_marks stopOn, stopped, loaded, marks]

theorem setReplace_replace (s : State) (cause : BitVec 3) (unit : UnitId) : (setReplace s cause unit).fst.replace = true := by
  unfold setReplace
  split
  · next set => exact set
  · rfl

theorem healthEvent_fst (s : State) : (healthEvent s).fst = s.fst := by
  unfold healthEvent
  split <;> rfl

/-- While the reference clock runs, the flag stands when the drain has begun. -/
theorem replaceAndDrain_replace (clock : s.aon.refOk = true) (cause : BitVec 3) (unit : UnitId) : (replaceAndDrain s cause unit).fst.replace = true := by
  unfold replaceAndDrain
  dsimp only
  rw [healthEvent_fst]
  have set : ∀ t : State, t.aon.refOk = true → (startDrain (setReplace t cause unit) cause).fst.replace = true := fun t on =>
    ((congrArg Fst.replace (startDrain_marks (by rw [(Stops.setReplace t cause unit).aon, on]) cause) :)).trans (setReplace_replace t cause unit)
  exact set _ (by rw [(Stops.exportSig s _ _).aon, clock])

/-- The record of a late report. -/
def lateRecord (c : Ctx) (unit : UnitId) (kind : BitVec 16) (pass : BitVec 48) : Ev :=
  { code := 0x500A, cls := .u, unit, ctx := some c, p16 := kind, p32 := pass.setWidth 32, acc := 0x12, addr := pass.setWidth 64 }

/-- The escaped catch of a late report. -/
def escapedCatch (c : Ctx) (unit : UnitId) (kind : BitVec 16) (pass : BitVec 48) : Ev := { lateRecord c unit kind pass with code := 0x1006 }

theorem lateReport_eq (s : State) (c : Ctx) (unit : UnitId) (kind : BitVec 16) (pass : BitVec 48) : lateReport s c unit kind pass =
    replaceAndDrain (awaitRetire ((s.emit (lateRecord c unit kind pass)).emit (escapedCatch c unit kind pass)) (histUnit unit)) 4 unit := rfl

/-- A catch of a committed execution is reported, and the chip drained for it. -/
theorem lateReport_raises (clock : s.aon.refOk = true) (unit : UnitId) (kind : BitVec 16) (pass : BitVec 48) :
    (∃ e ∈ (lateReport s c unit kind pass).fst.faultQ, e.code = 0x1006 ∧ e.cls = .u ∧ e.unit = unit ∧ e.p16 = kind ∧ e.p32 = pass.setWidth 32) ∧
      (lateReport s c unit kind pass).fst.replace = true := by
  rw [lateReport_eq]
  have on : (s.emit (lateRecord c unit kind pass)).aon.refOk = true := by rw [State.emit_aon, clock]
  generalize s.emit (lateRecord c unit kind pass) = t at on ⊢
  have onE : (t.emit (escapedCatch c unit kind pass)).aon.refOk = true := by rw [State.emit_aon, on]
  have waits := Stops.awaitRetire (t.emit (escapedCatch c unit kind pass)) (histUnit unit)
  have onW : (awaitRetire (t.emit (escapedCatch c unit kind pass)) (histUnit unit)).aon.refOk = true := by rw [waits.aon, onE]
  exact ⟨⟨t.stamp (escapedCatch c unit kind pass), (Stops.replaceAndDrain _ 4 unit onW).faultQ (waits.faultQ (State.emit_raises t (escapedCatch c unit kind pass) nofun)),
    rfl, rfl, rfl, rfl, rfl⟩, replaceAndDrain_replace onW 4 unit⟩

end

end Sys2Proof.Machine


namespace Sys2Proof.Machine

/-! ## A hunt area in a memory that lists a byte twice (R286)

A byte is read from the first entry of its key, and the value 0 is written by leaving that entry out. The statement asks of every state
what was written to be read back, also where the memory's list is not in its canonical form: a byte listed twice reads as its second
entry when 0 has been written. -/

/-- Context 0 hunts with its area at job address 0, which lies at byte 0 of stack 0; that byte is listed twice. -/
def listedTwice : State :=
  { State.reset with
    jobMap := [{ job := 0, size := 8, stack := 0, addr := 0 }]
    mem := [(0, 1), (0, 1)]
    ctxs := State.reset.ctxs.upd 0 (fun _ =>
      { plan := { active := some { extra := { pair := some { chip := 0, ctx := 0, link := 0, alt := 0, check := 0, hunt := 0 } } } }
        exec := { ended := true, injected := false }, lsc := { hunt := true } }) }

/-- A byte of a stack after a command. -/
def byteAfter (i : Instr) (s : State) (stack addr : Nat) : Option Byte :=
  match exec i s with
  | .next t => some (t.byteAt stack addr)
  | _ => none

theorem byteAfter_of_next {i : Instr} {s t : State} (done : exec i s = .next t) (stack addr : Nat) :
    byteAfter i s stack addr = some (t.byteAt stack addr) := by
  unfold byteAfter
  rw [done]

theorem listedTwice_place : ∀ j : Fin 8, listedTwice.enginePlace (0 + j.val) = some (0, j.val) := by decide +kernel

theorem listedTwice_byte : byteAfter (.poisonCollect 0 [0]) listedTwice 0 0 = some 1 := by decide +kernel

/-- Refutes O43: of a memory that lists a byte twice the fingerprint written to the hunt area is not what it reads. -/
theorem not_lockStepDigestsAndHunt : ¬ Obligations.LockStepDigestsAndHunt := by
  unfold Obligations.LockStepDigestsAndHunt
  intro claim
  obtain ⟨-, -, -, -, area, -⟩ := claim
  have ctx : listedTwice.ctx 0 =
      { plan := { active := some { extra := { pair := some { chip := 0, ctx := 0, link := 0, alt := 0, check := 0, hunt := 0 } } } }
        exec := { ended := true, injected := false }, lsc := { hunt := true } } := Tab.at_upd_same ..
  obtain ⟨t, done, -, -, -, -, written, -⟩ := area listedTwice 0 _ _ [0] (by rw [State.planOf, ctx]) rfl (by rw [ctx]) (by rw [ctx]) (by rw [ctx])
    (by rw [ctx])
  have zero : t.byteAt 0 0 = 0 := written 0 0 0 (by decide) (listedTwice_place 0) fun j y below other place => by
    have at_ := listedTwice_place ⟨j, below⟩
    rw [show listedTwice.enginePlace (0 + j) = some y from place, Option.some.injEq] at at_
    rw [at_]
    simpa [memKey] using other
  have one := (byteAfter_of_next done 0 0).symm.trans listedTwice_byte
  rw [zero] at one
  cases one

end Sys2Proof.Machine


namespace Sys2Proof.Machine

/-! # Provenance records (R297 to R310) -/

section

variable {s t u : State}

/-! ## The engine's own reads (R297, R315) -/

/-- From `s` to `t` the tag units have read blanks for the engine: tags, their registers and waiting faults may have changed. -/
structure Reads (s t : State) : Prop where
  rest : t.butTags = s.butTags
  tables : ∀ g, t.tables g = s.tables g
  appends : Appends s t

theorem Reads.refl (s : State) : Reads s s := ⟨rfl, fun _ => rfl, .refl s⟩

theorem Reads.trans (h : Reads s t) (k : Reads t u) : Reads s u :=
  ⟨k.rest.trans h.rest, fun g => (k.tables g).trans (h.tables g), h.appends.trans k.appends⟩

theorem Reads.gtuRead (s : State) (g : Gtu) (b : Nat) : Reads s (gtuRead s g none none b [] true 0x06).1 :=
  ⟨gtuRead_butTags .., fun _ => gtuRead_tables .., .gtuRead ..⟩

theorem Reads.engineRead (s : State) (a n : Nat) (r : JobRead) : Reads s (engineRead s a n r).2 :=
  State.each_induction (P := Reads s) (.refl s) fun t x _ before => before.trans (.gtuRead t x.1 x.2)

theorem engineRead_bytes (s : State) (a n : Nat) (r : JobRead) : (engineRead s a n r).1 = s.engineBytes a n r := rfl

/-- Where the memory meets no uncorrectable error within the run, nothing changes. -/
theorem engineRead_clean (s : State) (a n : Nat) {r : JobRead} (clean : JobRead.ecc r n = false) : (engineRead s a n r).2 = s := by
  have none : r.errors.filter (fun i => decide (i < n)) = [] := List.filter_eq_nil_iff.2 (List.any_eq_false.1 clean)
  unfold engineRead
  dsimp only
  rw [none]
  rfl

theorem ecc_of_none {r : JobRead} (none : r.errors = []) (n : Nat) : JobRead.ecc r n = false := by
  unfold JobRead.ecc
  rw [none]
  rfl

/-! ## A leaf is hashed (R297, R298) -/

/-- The state a leaf's bytes have been read in. -/
def leafRead (s : State) (sp : Span) (role leaf : Nat) (r : JobRead) : State := (leafBytes s sp role leaf r).2.2

theorem Reads.leafRead (s : State) (sp : Span) (role leaf : Nat) (r : JobRead) : Reads s (leafRead s sp role leaf r) := by
  unfold Machine.leafRead leafBytes
  by_cases full : role = 3
  · rw [if_pos full]
    exact .refl s
  · rw [if_neg full]
    exact .engineRead ..

theorem leafBytes_of_captures (s : State) (sp : Span) {role : Nat} (captures : role ≠ 3) (leaf : Nat) (r : JobRead) : leafBytes s sp role leaf r =
    (clearStates (s.engineBytes (sp.plan.bankAddr role sp.bank + 8 * (131072 * leaf)) (8 * min 131072 (sp.count role - 131072 * leaf)) r),
      JobRead.ecc r (8 * min 131072 (sp.count role - 131072 * leaf)),
      (engineRead s (sp.plan.bankAddr role sp.bank + 8 * (131072 * leaf)) (8 * min 131072 (sp.count role - 131072 * leaf)) r).2) := by
  unfold leafBytes
  rw [if_neg captures]
  rfl

theorem leafRead_clean (s : State) (sp : Span) (role leaf : Nat) {r : JobRead} (clean : (leafBytes s sp role leaf r).2.1 = false) :
    leafRead s sp role leaf r = s := by
  unfold leafRead
  by_cases full : role = 3
  · unfold leafBytes
    rw [if_pos full]
  · rw [leafBytes_of_captures s sp full] at clean ⊢
    exact engineRead_clean _ _ _ clean

theorem leafBytes_clean (s : State) (sp : Span) (role leaf : Nat) {r : JobRead} (none : r.errors = []) : (leafBytes s sp role leaf r).2.1 = false := by
  by_cases full : role = 3
  · unfold leafBytes
    rw [if_pos full]
    simp [none]
  · rw [leafBytes_of_captures s sp full]
    exact ecc_of_none none _

/-- The bytes and their errors do not depend on what the cores do. -/
theorem leafBytes_onPrvEng (s : State) (f : Prv → Prv) (sp : Span) (role leaf : Nat) (r : JobRead) :
    (leafBytes (s.onPrvEng f) sp role leaf r).1 = (leafBytes s sp role leaf r).1 ∧
      (leafBytes (s.onPrvEng f) sp role leaf r).2.1 = (leafBytes s sp role leaf r).2.1 := by
  by_cases full : role = 3
  · unfold leafBytes
    rw [if_pos full, if_pos full]
    exact ⟨rfl, rfl⟩
  · rw [leafBytes_of_captures _ sp full, leafBytes_of_captures _ sp full]
    exact ⟨rfl, rfl⟩

/-! ## The record is written (R306, R307) -/

theorem recordBytes_of_fuses (same : t.fuses = s.fuses) (sp : Span) (seq : BitVec 32) : recordBytes t sp seq = recordBytes s sp seq := by
  unfold recordBytes
  rw [same]

/-- The tags after a write of the engine itself. -/
def engineTags (tags : List (Nat × BitVec 64)) (blanks : List (Nat × Nat)) (xs : List (Nat × Nat)) : List (Nat × BitVec 64) :=
  xs.foldl (fun tg b => alPut emptyTag tg (tagKey b.1 b.2) (unkeyedTag (decide (blanks.count b = 4096)) (alGet emptyTag tg (tagKey b.1 b.2)))) tags

theorem each_setTag_tags (blanks xs : List (Nat × Nat)) (s : State) :
    (s.each xs (fun s b => s.setTag b.1 b.2 (unkeyedTag (decide (blanks.count b = 4096)) (s.tagOf b.1 b.2)))).tags = engineTags s.tags blanks xs := by
  induction xs generalizing s with
  | nil => rfl
  | cons x xs ih =>
    rw [State.each_cons, ih]
    rfl

/-- The blanks that a write of the engine itself touches. -/
def State.engineBlanks (s : State) (a : Nat) (bytes : List Byte) : List (Nat × Nat) :=
  (bytes.zipIdx.filterMap (fun x => (s.enginePlace (a + x.2)).map (fun y => (x.1, y)))).map (fun x => (x.2.1, x.2.2 / 4096))

theorem engineWrite_tags (s : State) (a : Nat) (bytes : List Byte) :
    (s.engineWrite a bytes).tags = engineTags s.tags (s.engineBlanks a bytes) (s.engineBlanks a bytes).eraseDups := by
  unfold State.engineWrite
  dsimp only
  exact each_setTag_tags ..

theorem engineWrite_tags_congr (tags : t.tags = s.tags) (jobMap : t.jobMap = s.jobMap) (retained : ∀ g, (t.mgtu.at g).retained = (s.mgtu.at g).retained)
    (a : Nat) (bytes : List Byte) : (t.engineWrite a bytes).tags = (s.engineWrite a bytes).tags := by
  rw [engineWrite_tags, engineWrite_tags, State.engineBlanks, State.engineBlanks, tags]
  simp only [enginePlace_congr jobMap retained]

theorem engineWrite_fields (s : State) (a : Nat) (bytes : List Byte) : (s.engineWrite a bytes).ctxs = s.ctxs ∧ (s.engineWrite a bytes).prv = s.prv ∧
    (s.engineWrite a bytes).fst = s.fst ∧ (s.engineWrite a bytes).irq = s.irq := by
  obtain ⟨tags, eq⟩ := engineWrite_eq s a bytes
  rw [eq]
  exact ⟨rfl, rfl, rfl, rfl⟩

/-! ## The record of a span that is done -/

/-- A record kept in the ring of its context; the span is no longer waiting. -/
def recordKept (t : State) (sp : Span) (addr : Nat) (seq : BitVec 32) : State :=
  (t.onPrvEng (fun e => { e with spans := e.spans.filter (fun y => y.id ≠ sp.id) })).onPrv sp.ctx (fun x => x.put addr seq)

/-- PRV_RECORD, as the recorder takes it in. -/
def recordEvent (sp : Span) (seq : BitVec 32) : Ev :=
  { code := 0x7001, unit := uPrv, ctx := some sp.ctx, p16 := BitVec.ofNat 16 sp.result, p32 := seq }

/-- A record pending for the host. -/
def recordPending (t : State) (c : Ctx) : State := { t with irq := { t.irq with prv := t.irq.prv ||| ctxBit c } }

/-- A record told to the recorder and to the host. -/
def recordTold (t : State) (sp : Span) (seq : BitVec 32) : State := (recordPending (t.emit (recordEvent sp seq)) sp.ctx).irqSet irqPrv

/-- The ring entry and the number of a span's record. -/
def Span.ringSlot (sp : Span) (s : State) : Nat × BitVec 32 := (sp.plan.ringAddr (s.ctx sp.ctx).prv.nextSeq, (s.ctx sp.ctx).prv.nextSeq)

/-- A span's record written to its ring entry. -/
def recordWritten (s : State) (sp : Span) : State := s.engineWrite (sp.ringSlot s).1 (recordBytes s sp (sp.ringSlot s).2)

theorem writeRecord_eq (s : State) (sp : Span) :
    writeRecord s sp = recordTold (recordKept (recordWritten s sp) sp (sp.ringSlot s).1 (sp.ringSlot s).2) sp (sp.ringSlot s).2 := by
  unfold writeRecord recordTold recordPending recordKept recordWritten Span.ringSlot recordEvent
  dsimp only

theorem recordTold_fields (t : State) (sp : Span) (seq : BitVec 32) : (recordTold t sp seq).ctxs = t.ctxs ∧ (recordTold t sp seq).prv = t.prv ∧
    (recordTold t sp seq).fst = t.fst ∧ (recordTold t sp seq).mem = t.mem ∧ (recordTold t sp seq).tags = t.tags ∧
    (recordTold t sp seq).irq.prv = t.irq.prv ||| ctxBit sp.ctx ∧ (recordTold t sp seq).irq.status = t.irq.status ||| irqPrv := by
  unfold recordTold
  rw [State.emit_record _ rfl]
  exact ⟨rfl, rfl, rfl, rfl, rfl, rfl, rfl⟩

theorem recordKept_fields (t : State) (sp : Span) (addr : Nat) (seq : BitVec 32) : (recordKept t sp addr seq).fst = t.fst ∧
    (recordKept t sp addr seq).mem = t.mem ∧ (recordKept t sp addr seq).tags = t.tags ∧ (recordKept t sp addr seq).irq = t.irq ∧
    (recordKept t sp addr seq).prv = { t.prv with spans := t.prv.spans.filter (fun y => y.id ≠ sp.id) } := ⟨rfl, rfl, rfl, rfl, rfl⟩

theorem recordKept_ctxs (t : State) (sp : Span) (addr : Nat) (seq : BitVec 32) :
    (recordKept t sp addr seq).ctxs = t.ctxs.upd sp.ctx (fun x => { x with prv := x.prv.put addr seq }) := rfl

theorem writeRecord_prv (s : State) (sp : Span) : (writeRecord s sp).prv = { s.prv with spans := s.prv.spans.filter (fun y => y.id ≠ sp.id) } := by
  rw [writeRecord_eq, (recordTold_fields ..).2.1, (recordKept_fields ..).2.2.2.2, recordWritten, (engineWrite_fields ..).2.1]

theorem writeRecord_ctxs (s : State) (sp : Span) : (writeRecord s sp).ctxs =
    s.ctxs.upd sp.ctx (fun x => { x with prv := x.prv.put (sp.ringSlot s).1 (sp.ringSlot s).2 }) := by
  rw [writeRecord_eq, (recordTold_fields ..).1, recordKept_ctxs, recordWritten, (engineWrite_fields ..).1]

theorem writeRecord_ctx (s : State) (sp : Span) : (writeRecord s sp).ctx sp.ctx = { s.ctx sp.ctx with
    prv := (s.ctx sp.ctx).prv.put (sp.ringSlot s).1 (sp.ringSlot s).2 } := by
  unfold State.ctx
  rw [writeRecord_ctxs]
  exact Tab.at_upd_same ..

theorem writeRecord_others (s : State) (sp : Span) {d : Ctx} (other : d ≠ sp.ctx) : (writeRecord s sp).ctx d = s.ctx d := by
  unfold State.ctx
  rw [writeRecord_ctxs]
  exact Tab.at_upd_other _ _ other

theorem writeRecord_fst (s : State) (sp : Span) : (writeRecord s sp).fst = s.fst := by
  rw [writeRecord_eq, (recordTold_fields ..).2.2.1, (recordKept_fields ..).1, recordWritten, (engineWrite_fields ..).2.2.1]

theorem writeRecord_mem (s : State) (sp : Span) : (writeRecord s sp).mem = (recordWritten s sp).mem := by
  rw [writeRecord_eq, (recordTold_fields ..).2.2.2.1, (recordKept_fields ..).2.1]

theorem writeRecord_tags (s : State) (sp : Span) : (writeRecord s sp).tags = (recordWritten s sp).tags := by
  rw [writeRecord_eq, (recordTold_fields ..).2.2.2.2.1, (recordKept_fields ..).2.2.1]

theorem writeRecord_still (s : State) (sp : Span) : (writeRecord s sp).still = s.still := (stores_iff.1 (writeRecord_stores s sp)).1

theorem writeRecord_irq (s : State) (sp : Span) :
    (writeRecord s sp).irq.prv = s.irq.prv ||| ctxBit sp.ctx ∧ (writeRecord s sp).irq.status = s.irq.status ||| irqPrv := by
  have told := (recordTold_fields (recordKept (recordWritten s sp) sp (sp.ringSlot s).1 (sp.ringSlot s).2) sp (sp.ringSlot s).2).2.2.2.2.2
  obtain ⟨prv, status⟩ := told
  rw [writeRecord_eq, prv, status, (recordKept_fields ..).2.2.2.1, recordWritten, (engineWrite_fields ..).2.2.2]
  exact ⟨rfl, rfl⟩

theorem recordTold_records (t : State) (sp : Span) (seq : BitVec 32) : t.stamp (recordEvent sp seq) ∈ (recordTold t sp seq).rcd.intake :=
  State.emit_records t (recordEvent sp seq) rfl

theorem writeRecord_records (s : State) (sp : Span) : ∃ e ∈ (writeRecord s sp).rcd.intake, e.code = 0x7001 ∧ e.unit = uPrv ∧ e.ctx = some sp.ctx ∧
    e.p32 = (sp.ringSlot s).2 := by
  rw [writeRecord_eq]
  generalize recordKept (recordWritten s sp) sp (sp.ringSlot s).1 (sp.ringSlot s).2 = t
  exact ⟨t.stamp (recordEvent sp (sp.ringSlot s).2), recordTold_records .., rfl, rfl, rfl, rfl⟩

theorem feedCores_of_none (none : nextLeaf s.prv.spans = none) : feedCores s = s := by
  refine State.each_same fun k _ => ?_
  unfold feedCore
  split
  · rfl
  · rw [none]

theorem unstall_of_unstalled {c : Ctx} (free : (s.ctx c).prv.stalled = false) : unstall s c = s := by
  unfold unstall endStall
  dsimp only
  rw [free]
  split <;> exact if_neg (by decide)

/-- The engine's only span is done, and no context waits. -/
theorem provAdvance_of_done {sp : Span} (spans : s.prv.spans = [sp]) (todo : sp.todo = []) (busy : sp.busy = [])
    (free : ∀ c, (s.ctx c).prv.stalled = false) : provAdvance s = writeRecord s sp := by
  have idle : nextLeaf s.prv.spans = none := by simp [nextLeaf, spans, todo]
  have due : doneSpan s.prv.spans = some sp := by simp [doneSpan, spans, todo, busy]
  have written : writeRecords s.prv.spans.length s = writeRecord s sp := by
    rw [spans]
    show (match doneSpan s.prv.spans with | some sp => writeRecords 0 (writeRecord s sp) | none => s) = _
    rw [due]
    rfl
  unfold provAdvance
  dsimp only
  rw [feedCores_of_none idle, written]
  refine State.each_same fun c _ => unstall_of_unstalled ?_
  by_cases same : c = sp.ctx
  · rw [same, writeRecord_ctx]
    exact free sp.ctx
  · rw [writeRecord_others s sp same]
    exact free c

/-! ## PRV_LEAF_DONE -/

/-- A core is free again. -/
def coreFreed (s : State) (core : Fin 8) : State := s.onPrvEng (fun e => { e with cores := e.cores.upd core (fun _ => none) })

/-- The hash of a leaf kept in its span. -/
def leafKept (s : State) (sp : Span) (role leaf : Nat) (bytes : List Byte) (bad : Bool) : State :=
  s.onPrvEng (fun e => { e with spans := e.spans.map (fun y => if y.id = sp.id then y.finish role leaf (sha3 bytes) bad else y) })

/-- PRV_READ_ERROR, as the fault steward takes it in. -/
def leafFault (core : Fin 8) (sp : Span) (role leaf : Nat) : Ev :=
  { code := 0x7003, cls := .c, unit := BitVec.ofNat 16 (0x7300 + core.val), ctx := some sp.ctx, p16 := BitVec.ofNat 16 role
    p32 := BitVec.ofNat 32 (sp.firstSlot role leaf) }

/-- A leaf's hash kept, and its read error raised. -/
def leafDone (s : State) (core : Fin 8) (sp : Span) (role leaf : Nat) (r : JobRead) : State :=
  let x := leafBytes (coreFreed s core) sp role leaf r
  let t := leafKept (leafRead (coreFreed s core) sp role leaf r) sp role leaf x.1 x.2.1
  if x.2.1 then t.emit (leafFault core sp role leaf) else t

theorem exec_prvLeafDone {core : Fin 8} {sp : Span} {role leaf : Nat} (runs : s.prv.cores.at core = some (sp.id, role, leaf)) (spans : s.prv.spans = [sp])
    (r : JobRead) : exec (.prvLeafDone core r) s = .next (provAdvance (leafDone s core sp role leaf r)) := by
  show execPrvLeafDone core r s = _
  unfold execPrvLeafDone
  rw [runs]
  dsimp only
  rw [show (s.onPrvEng (fun e => { e with cores := e.cores.upd core (fun _ => none) })).prv.spans = [sp] from spans,
    List.find?_cons_of_pos (by simp)]
  rfl

theorem Reads.coreFreed {core : Fin 8} (h : Reads (coreFreed s core) t) : t.mem = s.mem ∧ t.jobMap = s.jobMap ∧ t.ctxs = s.ctxs ∧ t.irq = s.irq ∧
    t.fuses = s.fuses ∧ t.still = s.still ∧ t.prv = { s.prv with cores := s.prv.cores.upd core (fun _ => none) } ∧
    ∀ g, (t.mgtu.at g).retained = (s.mgtu.at g).retained :=
  ⟨(congrArg State.mem h.rest :), (congrArg State.jobMap h.rest :), (congrArg State.ctxs h.rest :), (congrArg State.irq h.rest :),
    (congrArg State.fuses h.rest :), (congrArg State.still h.rest :), (congrArg State.prv h.rest :), fun g => congrArg Prod.fst (h.tables g)⟩

theorem leafDone_emit (core : Fin 8) (sp : Span) (role leaf : Nat) (bad : Bool) (t : State) : let u := if bad then t.emit (leafFault core sp role leaf) else t
    u.mem = t.mem ∧ u.tags = t.tags ∧ u.jobMap = t.jobMap ∧ u.ctxs = t.ctxs ∧ u.irq = t.irq ∧ u.fuses = t.fuses ∧ u.still = t.still ∧ u.prv = t.prv ∧
      u.mgtu = t.mgtu := by
  cases bad
  · exact ⟨rfl, rfl, rfl, rfl, rfl, rfl, rfl, rfl, rfl⟩
  · dsimp only
    rw [if_pos rfl, State.emit_fault _ (by exact nofun)]
    exact ⟨rfl, rfl, rfl, rfl, rfl, rfl, rfl, rfl, rfl⟩

/-- A leaf that ends: its span has its hash, and nothing else has changed but what the bank's reads and their error leave. -/
theorem leafDone_fields {sp : Span} (spans : s.prv.spans = [sp]) (core : Fin 8) (role leaf : Nat) (r : JobRead) : let t := leafDone s core sp role leaf r
    let bad := (leafBytes s sp role leaf r).2.1
    t.mem = s.mem ∧ (r.errors = [] → t.tags = s.tags) ∧ t.jobMap = s.jobMap ∧ t.ctxs = s.ctxs ∧ t.irq = s.irq ∧ t.fuses = s.fuses ∧ t.still = s.still ∧
      t.prv = { s.prv with cores := s.prv.cores.upd core (fun _ => none), spans := [sp.finish role leaf (sha3 (leafBytes s sp role leaf r).1) bad] } ∧
      (∀ g, (t.mgtu.at g).retained = (s.mgtu.at g).retained) ∧
      (bad = true → ∃ e ∈ t.fst.faultQ, e.code = 0x7003 ∧ e.cls = .c ∧ e.unit = BitVec.ofNat 16 (0x7300 + core.val) ∧ e.ctx = some sp.ctx ∧
        e.p16 = BitVec.ofNat 16 role) ∧ (bad = false → t.fst = s.fst) := by
  obtain ⟨bytes, errors⟩ : (leafBytes (coreFreed s core) sp role leaf r).1 = (leafBytes s sp role leaf r).1 ∧
      (leafBytes (coreFreed s core) sp role leaf r).2.1 = (leafBytes s sp role leaf r).2.1 := leafBytes_onPrvEng s _ sp role leaf r
  obtain ⟨mem, jobMap, ctxs, irq, fuses, still, prv, retained⟩ := (Reads.leafRead (coreFreed s core) sp role leaf r).coreFreed
  have same (clean : (leafBytes s sp role leaf r).2.1 = false) : leafRead (coreFreed s core) sp role leaf r = coreFreed s core :=
    leafRead_clean _ sp role leaf (errors.trans clean)
  have none (h : r.errors = []) : (leafBytes s sp role leaf r).2.1 = false := leafBytes_clean s sp role leaf h
  have shape : leafDone s core sp role leaf r = if (leafBytes s sp role leaf r).2.1 then (leafKept (leafRead (coreFreed s core) sp role leaf r) sp role leaf
      (leafBytes s sp role leaf r).1 (leafBytes s sp role leaf r).2.1).emit (leafFault core sp role leaf) else leafKept (leafRead (coreFreed s core) sp role leaf r)
      sp role leaf (leafBytes s sp role leaf r).1 (leafBytes s sp role leaf r).2.1 := by
    unfold leafDone
    dsimp only
    rw [bytes, errors]
  generalize (leafBytes s sp role leaf r).1 = data at shape ⊢
  generalize (leafBytes s sp role leaf r).2.1 = bad at shape same none ⊢
  generalize read : leafRead (coreFreed s core) sp role leaf r = u at shape mem jobMap ctxs irq fuses still prv retained same
  have kept : (leafKept u sp role leaf data bad).prv = { s.prv with cores := s.prv.cores.upd core (fun _ => Option.none)
                                                                    spans := [sp.finish role leaf (sha3 data) bad] } := by
    unfold leafKept
    rw [State.onPrvEng_prv, prv]
    simp [spans]
  obtain ⟨eMem, eTags, eJobMap, eCtxs, eIrq, eFuses, eStill, ePrv, eMgtu⟩ := leafDone_emit core sp role leaf bad (leafKept u sp role leaf data bad)
  dsimp only
  rw [shape]
  refine ⟨eMem.trans mem, fun h => eTags.trans ?_, eJobMap.trans jobMap, eCtxs.trans ctxs, eIrq.trans irq, eFuses.trans fuses, eStill.trans still,
    ePrv.trans kept, fun g => ?_, fun isBad => ?_, fun isClean => ?_⟩
  · show u.tags = s.tags
    rw [same (none h)]
    rfl
  · rw [eMgtu]
    exact retained g
  · rw [if_pos isBad]
    exact ⟨(leafKept u sp role leaf data bad).stamp (leafFault core sp role leaf), State.emit_raises _ _ nofun, rfl, rfl, rfl, rfl, rfl⟩
  · rw [if_neg (Bool.eq_false_iff.1 isClean)]
    show u.fst = s.fst
    rw [same isClean]
    rfl

theorem or_and_self_right {w : Nat} (x y : BitVec w) : (x ||| y) &&& y = y := by
  refine BitVec.eq_of_getLsbD_eq fun i _ => ?_
  rw [BitVec.getLsbD_and, BitVec.getLsbD_or]
  cases x.getLsbD i <;> cases y.getLsbD i <;> rfl

theorem Span.finish_done {sp : Span} {role leaf : Nat} (busy : sp.busy = [(role, leaf)]) (todo : sp.todo = []) (hash : List Byte) (bad : Bool) :
    (sp.finish role leaf hash bad).busy = [] ∧ (sp.finish role leaf hash bad).todo = [] ∧ (sp.finish role leaf hash bad).ctx = sp.ctx ∧
      (sp.finish role leaf hash bad).plan = sp.plan ∧ (sp.finish role leaf hash bad).id = sp.id := by
  unfold Span.finish
  dsimp only
  split
  · simp [busy, todo]
  split <;> simp [busy, todo]

theorem Span.finish_lost (sp : Span) {role : Nat} (captures : role < 3) (leaf : Nat) (hash : List Byte) :
    (sp.finish role leaf hash true).lost.getLsbD role = true := by
  unfold Span.finish
  dsimp only
  rw [if_neg (by decide), if_neg (by omega)]
  simp [captures]

/-! ## Acknowledgement and fetch (R310) -/

/-- An acknowledgement that is taken. -/
def ackTaken (s : State) (c : Ctx) (seq : BitVec 32) : State := s.onPrv c (fun y => { y with ackSeq := seq, refused := false })

theorem unstall_ctx (s : State) (c : Ctx) : ∃ stalled cause, (unstall s c).ctx c = { s.ctx c with prv := { (s.ctx c).prv with stalled, cause } } := by
  unfold unstall endStall
  dsimp only
  split
  · split
    · exact ⟨_, _, by rw [State.emit_ctx, State.onPrv_ctx_same]⟩
    · exact ⟨_, _, rfl⟩
  · split
    · exact ⟨_, _, State.onPrv_ctx_same ..⟩
    · exact ⟨_, _, rfl⟩

theorem Within.unstall (s : State) (c : Ctx) : Within c s (unstall s c) := by
  unfold Machine.unstall
  exact .ite (fun _ => .endStall c s) fun _ => .ite (fun _ => .onCtx c s _) fun _ => .refl c s

/-- Waits that end leave every context's pass, and what it has been acknowledged. -/
theorem each_unstall (xs : List Ctx) (s : State) (d : Ctx) : ((s.each xs unstall).ctx d).pass = (s.ctx d).pass ∧
    ((s.each xs unstall).ctx d).prv.ackSeq = (s.ctx d).prv.ackSeq ∧ ((s.each xs unstall).ctx d).prv.refused = (s.ctx d).prv.refused := by
  refine State.each_induction (P := fun t => (t.ctx d).pass = (s.ctx d).pass ∧ (t.ctx d).prv.ackSeq = (s.ctx d).prv.ackSeq ∧
    (t.ctx d).prv.refused = (s.ctx d).prv.refused) ⟨rfl, rfl, rfl⟩ fun t c _ before => ?_
  by_cases same : d = c
  · subst same
    obtain ⟨stalled, cause, ctx⟩ := unstall_ctx t d
    rwa [ctx]
  · rwa [(Within.unstall t c).others d same]

theorem ctxAck_taken {c : Ctx} {v : Reg} (src : Src) (some_ : (s.ctx c).prv.lastSeq ≠ 0xFFFFFFFF) (names : (field v 0 32 : BitVec 32) ≠ 0xFFFFFFFF)
    (written : seqDiff (field v 0 32) (s.ctx c).prv.lastSeq ≤ 0)
    (forward : (s.ctx c).prv.ackSeq = 0xFFFFFFFF ∨ seqDiff (s.ctx c).prv.ackSeq (field v 0 32) ≤ 0) :
    ctxAck src c v s = (ackTaken s c (field v 0 32)).each allCtx unstall := by
  unfold ctxAck
  dsimp only
  exact if_pos (by
    simp only [Bool.and_eq_true, Bool.or_eq_true, decide_eq_true_eq, ne_eq]
    exact ⟨⟨⟨some_, names⟩, written⟩, forward⟩)

theorem ctxAck_refused {c : Ctx} {v : Reg} (src : Src) (bad : (s.ctx c).prv.lastSeq = 0xFFFFFFFF ∨ (field v 0 32 : BitVec 32) = 0xFFFFFFFF ∨
    0 < seqDiff (field v 0 32) (s.ctx c).prv.lastSeq ∨ ((s.ctx c).prv.ackSeq ≠ 0xFFFFFFFF ∧ 0 < seqDiff (s.ctx c).prv.ackSeq (field v 0 32))) :
    ctxAck src c v s = (s.onPrv c (fun y => { y with refused := true })).logRefusal mc (some c) src (0x700200 + 8 * c.val) := by
  unfold ctxAck
  dsimp only
  refine if_neg fun ok => ?_
  simp only [Bool.and_eq_true, Bool.or_eq_true, decide_eq_true_eq, ne_eq] at ok
  obtain ⟨⟨⟨some_, names⟩, written⟩, forward⟩ := ok
  obtain none | unnamed | late | ⟨acked, back⟩ := bad
  · exact absurd none some_
  · exact absurd unnamed names
  · omega
  · exact forward.elim acked fun le => by omega

end

/-- Settles O44: the engine's only span ends with its record; the acknowledgement goes by the order of the numbers. -/
theorem provenanceRecordsAndFetches : Obligations.ProvenanceRecordsAndFetches := by
  unfold Obligations.ProvenanceRecordsAndFetches
  refine ⟨fun s core sp role leaf r cores spans todo busy free => ?_, fun s src c v carried => ?_, fun s src v carried go => ?_, fun s r going => ?_⟩
  · intro bad done seq written
    refine ⟨fun captures => by rw [leafBytes_of_captures s sp captures], ?_⟩
    have runs : s.prv.cores.at core = some (sp.id, role, leaf) := by
      rw [cores]
      simp [Tab.at]
    have run := exec_prvLeafDone runs spans r
    obtain ⟨mem, tags, jobMap, ctxs, irq, fuses, still, prv, retained, bad_, clean⟩ := leafDone_fields spans core role leaf r
    have list : (leafDone s core sp role leaf r).prv.spans = [done] := by rw [prv]
    obtain ⟨idle, left, ctx, plan, id⟩ := Span.finish_done busy todo (sha3 (leafBytes s sp role leaf r).1) bad
    have waits (c : Ctx) : ((leafDone s core sp role leaf r).ctx c).prv.stalled = false := by
      rw [State.ctx_eq_of_ctxs ctxs]
      exact free c
    rw [provAdvance_of_done list left idle waits] at run
    have slot : done.ringSlot (leafDone s core sp role leaf r) = (sp.plan.ringAddr seq, seq) := by
      unfold Span.ringSlot
      rw [ctx, plan, State.ctx_eq_of_ctxs ctxs]
    have target : recordWritten (leafDone s core sp role leaf r) done = (leafDone s core sp role leaf r).engineWrite (sp.plan.ringAddr seq)
        (recordBytes s done seq) := by
      rw [recordWritten, slot, recordBytes_of_fuses fuses]
    have put := writeRecord_ctx (leafDone s core sp role leaf r) done
    rw [slot, ctx, State.ctx_eq_of_ctxs ctxs] at put
    have irqs := writeRecord_irq (leafDone s core sp role leaf r) done
    rw [ctx] at irqs
    obtain ⟨bits, status⟩ := irqs
    refine ⟨_, run, ?_, ?_, ?_, ?_, fun none => ?_, ?_, ?_, ?_, ?_, ?_, fun isBad => ⟨fun captures => ?_, ?_⟩, fun isClean => ?_⟩
    · rw [writeRecord_prv]
      show List.filter _ (leafDone s core sp role leaf r).prv.spans = []
      rw [list]
      simp
    · rw [writeRecord_prv, prv]
      exact Tab.at_upd_same ..
    · rw [writeRecord_mem, target]
      exact engineWrite_mem_congr mem jobMap retained _ _
    · rw [writeRecord_still, still]
    · rw [writeRecord_tags, target]
      exact engineWrite_tags_congr (tags none) jobMap retained _ _
    · rw [put]
      exact List.mem_append_right _ (List.mem_singleton_self _)
    · rw [bits, BitVec.and_comm]
      exact or_and_self_right ..
    · rw [status]
      exact or_and_self_right ..
    · rw [put]
      rfl
    · have told := writeRecord_records (leafDone s core sp role leaf r) done
      rwa [slot, ctx] at told
    · rw [show done = sp.finish role leaf (sha3 (leafBytes s sp role leaf r).1) true from
        congrArg (fun b => sp.finish role leaf (sha3 (leafBytes s sp role leaf r).1) b) isBad]
      exact Span.finish_lost sp captures leaf _
    · rw [writeRecord_fst]
      exact bad_ isBad
    · rw [writeRecord_fst]
      exact clean isClean
  · intro seq x
    have gated : exec (.prvCtxAck src c v) s = .next ((ctxAck src c v s).complete src (0x700200 + 8 * c.val) false 0 0) :=
      congrArg Host.Outcome.next (gatedWrite_of_carry carried src v _)
    refine ⟨fun some_ names written forward => ?_, fun refused => ?_⟩
    · rw [ctxAck_taken src some_ names written forward] at gated
      have freed (d : Ctx) := each_unstall allCtx (ackTaken s c seq) d
      have taken : (ackTaken s c seq).ctx c = { s.ctx c with prv := { (s.ctx c).prv with ackSeq := seq, refused := false } } := State.onPrv_ctx_same ..
      refine ⟨_, gated, ?_, ?_, fun d => ?_, ?_⟩
      · rw [State.complete_ctx, (freed c).2.1, taken]
      · rw [State.complete_ctx, (freed c).2.2, taken]
      · rw [State.complete_ctx, (freed d).1]
        by_cases same : d = c
        · rw [same, taken]
        · exact congrArg CtxSt.pass (State.onCtx_ctx_other s _ same)
      · exact (execPrvCtxAck_kept src c v s).of_next gated
    · rw [ctxAck_refused src refused] at gated
      refine ⟨_, gated, ?_, fun d other => ?_, by simp, (execPrvCtxAck_kept src c v s).of_next gated⟩
      · rw [State.complete_ctx, State.logRefusal_ctx, State.onPrv_ctx_same]
      · rw [State.complete_ctx, State.logRefusal_ctx]
        exact State.onCtx_ctx_other s _ other
  · have gated : exec (.prvReadGo src v) s = .next ((prvReadSel v s).complete src 0x700408 false 0 0) :=
      congrArg Host.Outcome.next (gatedWrite_of_carry carried src v _)
    rw [gated]
    unfold prvReadSel
    rw [go]
    simp only [Bool.or_true, Bool.not_true, Bool.and_false]
    rfl
  · intro kept
    refine ⟨fun absent => ?_, fun q addr found => ?_⟩
    · show execPrvReadDone s r = _
      unfold execPrvReadDone
      rw [if_neg (by simp [going]), show List.find? (fun e : BitVec 32 × Nat => decide (e.1 = s.prv.selSeq)) _ = none from absent]
      rfl
    · have run : exec (.prvReadDone r) s = .next ((engineRead s addr 256 r).2.onPrvEng (fun e =>
          { e with going := false, done := true, absent := false, data := s.engineBytes addr 256 r })) := by
        show execPrvReadDone s r = _
        unfold execPrvReadDone
        rw [if_neg (by simp [going]), show List.find? (fun e : BitVec 32 × Nat => decide (e.1 = s.prv.selSeq)) _ = some (q, addr) from found]
        rfl
      have reads := Reads.engineRead s addr 256 r
      refine ⟨_, run, ?_, (congrArg State.mem reads.rest :), (congrArg State.still reads.rest :), fun clean => ?_⟩
      · rw [State.onPrvEng_prv, show (engineRead s addr 256 r).2.prv = s.prv from (congrArg State.prv reads.rest :)]
      · rw [engineRead_clean s addr 256 (ecc_of_none clean 256)]
        exact ⟨rfl, rfl, rfl⟩

end Sys2Proof.Machine


namespace Sys2Proof.Machine

/-! # The driver's commands to a plan load (R316, R325, R333) -/

variable {s : State} {c : Ctx}

/-! ## The loader takes the next image (R317) -/

/-- The loader takes nothing, or the context at the head of the queue. -/
theorem planNext_cases (s : State) : planNext s = s ∨ ∃ c rest, s.pln.validating = none ∧ s.pln.queue = c :: rest ∧
    planNext s = (s.onPln (fun x => { x with queue := rest, validating := some c })).onPlan c (fun p => { p with phase := .validating }) := by
  unfold planNext
  split
  · next c rest none queue =>
    split
    · exact .inr ⟨c, rest, none, queue, rfl⟩
    · exact .inl rfl
  · exact .inl rfl

/-- The state but for the contexts and the loader. -/
def State.butLoads (s : State) : State := { s with ctxs := Vector.replicate 32 {}, pln := {} }

theorem planNext_butLoads (s : State) : (planNext s).butLoads = s.butLoads := by
  obtain taken | ⟨c, rest, -, -, taken⟩ := planNext_cases s
  · rw [taken]
  · rw [taken]
    rfl

theorem planNext_fst (s : State) : (planNext s).fst = s.fst := (congrArg State.fst (planNext_butLoads s) :)
theorem planNext_rcd (s : State) : (planNext s).rcd = s.rcd := (congrArg State.rcd (planNext_butLoads s) :)
theorem planNext_irq (s : State) : (planNext s).irq = s.irq := (congrArg State.irq (planNext_butLoads s) :)
theorem planNext_out (s : State) : (planNext s).out = s.out := (congrArg State.out (planNext_butLoads s) :)

/-- A context that does not wait in the queue keeps its state, and is neither queued nor validated by it. -/
theorem planNext_of_not_queued (absent : c ∉ s.pln.queue) : (planNext s).ctx c = s.ctx c ∧ c ∉ (planNext s).pln.queue ∧
    ((planNext s).pln.validating = some c → s.pln.validating = some c) := by
  obtain same | ⟨d, rest, -, queue, taken⟩ := planNext_cases s
  · rw [same]
    exact ⟨rfl, absent, id⟩
  · rw [queue, List.mem_cons, not_or] at absent
    obtain ⟨other, left⟩ := absent
    rw [taken]
    exact ⟨(State.onPlan_ctx_other _ _ other).trans rfl, left, fun is => absurd (Option.some.inj is).symm other⟩

/-! ## LOAD -/

/-- A LOAD accepted: the context at the end of the queue. -/
def loadQueued (s : State) (c : Ctx) : State :=
  ((planAccept s c).onPlan c (fun p => { p with phase := .queued, from_ := p.addr, kib := p.lenKib })).onPln
    (fun x => { x with queue := x.queue ++ [c] })

theorem loadQueued_ctx (s : State) (c : Ctx) : (loadQueued s c).ctx c =
    { s.ctx c with plan := { (s.ctx c).plan with refused := false, phase := .queued, from_ := (s.ctx c).plan.addr, kib := (s.ctx c).plan.lenKib } } := by
  simp [loadQueued, planAccept]

/-- A context that enters the queue is behind the others, or validated at once. -/
theorem planNext_of_queued (waits : c ∈ s.pln.queue) :
    (planNext s).ctx c = s.ctx c ∧ c ∈ (planNext s).pln.queue ∨
    (planNext s).ctx c = { s.ctx c with plan := { (s.ctx c).plan with phase := .validating } } ∧ (planNext s).pln.validating = some c := by
  obtain same | ⟨d, rest, -, queue, taken⟩ := planNext_cases s
  · rw [same]
    exact .inl ⟨rfl, waits⟩
  · rw [taken]
    by_cases first : c = d
    · subst first
      exact .inr ⟨(State.onPlan_ctx_same ..).trans rfl, rfl⟩
    · refine .inl ⟨(State.onPlan_ctx_other _ _ first).trans rfl, ?_⟩
      rw [queue] at waits
      exact (List.mem_cons.1 waits).resolve_left first

theorem exec_load_accepted (carried : s.gate (planCtrlOff c) = .carry) (src : Src) (idle : (s.ctx c).plan.phase = .none)
    (accepted : s.loadsAccepted = true) :
    exec (.load src c) s = .next ((planNext (loadQueued s c)).complete src (planCtrlOff c) false 0 0) := by
  refine congrArg Host.Outcome.next ((gatedWrite_of_carry carried src _ _).trans ?_)
  rw [loadCmd, if_pos ⟨idle, accepted⟩]
  rfl

/-! ## A command refused, CANCEL and UNLOAD -/

theorem planRefuse_ctx (s : State) (src : Src) (c : Ctx) :
    (planRefuse s src c).ctx c = { s.ctx c with plan := { (s.ctx c).plan with refused := true } } :=
  (State.logRefusal_ctx ..).trans (State.onPlan_ctx_same ..)

theorem exec_load_refused (carried : s.gate (planCtrlOff c) = .carry) (src : Src)
    (refused : (s.ctx c).plan.phase ≠ .none ∨ s.loadsAccepted = false) :
    exec (.load src c) s = .next ((planRefuse s src c).complete src (planCtrlOff c) false 0 0) := by
  refine congrArg Host.Outcome.next ((gatedWrite_of_carry carried src _ _).trans ?_)
  rw [loadCmd, if_neg]
  rintro ⟨idle, accepted⟩
  rcases refused with other | other
  · exact other idle
  · rw [accepted] at other
    cases other

theorem exec_cancel_accepted (carried : s.gate (planCtrlOff c) = .carry) (src : Src)
    (loads : (s.ctx c).plan.phase = .queued ∨ (s.ctx c).plan.phase = .validating ∨ (s.ctx c).plan.phase = .distributing ∨ (s.ctx c).plan.phase = .pending) :
    exec (.cancel src c) s = .next ((planNext (discardLoad (planAccept s c) c)).complete src (planCtrlOff c) false 0 0) := by
  refine congrArg Host.Outcome.next ((gatedWrite_of_carry carried src _ _).trans ?_)
  unfold cancelCmd
  rcases loads with phase | phase | phase | phase <;> rw [phase]

/-- The plan of a context whose load is discarded. -/
def PlanSt.discarded (x : PlanSt) : PlanSt :=
  { x with phase := .none, pend := none, pendHash := [], pendKey := none, banks := [], switched := false, outcome := 3, event := 0xC006
           atApp := false, cause := 0, cls := 0, index := 0, conflict := 0xFF, valid := true }

theorem discardLoad_ctx (s : State) (c : Ctx) : (discardLoad s c).ctx c = { s.ctx c with plan := (s.ctx c).plan.discarded } := by
  simp [discardLoad, loadOutcome, PlanSt.discarded]

theorem discardLoad_pln (s : State) (c : Ctx) : c ∉ (discardLoad s c).pln.queue ∧ (discardLoad s c).pln.validating ≠ some c := by
  unfold discardLoad loadOutcome
  dsimp only
  rw [State.emit_pln]
  refine ⟨?_, ?_⟩
  · show c ∉ s.pln.queue.filter (· ≠ c)
    simp
  · show (if s.pln.validating = some c then none else s.pln.validating) ≠ some c
    split
    · exact nofun
    · assumption

/-- PLAN_CANCELLED: the phase in which the load was. -/
def cancelled (s : State) (c : Ctx) : Ev := { code := 0xC006, unit := uPln, ctx := some c, p16 := BitVec.ofNat 16 (s.ctx c).plan.phase.code }

theorem discardLoad_records (s : State) (c : Ctx) : ∃ e ∈ (discardLoad s c).rcd.intake, e.code = 0xC006 ∧ e.unit = uPln ∧ e.ctx = some c ∧
    e.p16 = BitVec.ofNat 16 (s.ctx c).plan.phase.code :=
  ⟨_, State.emit_records _ (cancelled s c) rfl, rfl, rfl, rfl, rfl⟩

theorem discardLoad_irq (s : State) (c : Ctx) : (discardLoad s c).irq.status &&& 0x40 = 0x40 := by
  unfold discardLoad loadOutcome
  dsimp only
  rw [State.emit_irq]
  exact or_and_self_right ..

theorem exec_unload_accepted (carried : s.gate (planCtrlOff c) = .carry) (src : Src) (idle : (s.ctx c).plan.phase = .none)
    (stopped : (s.ctx c).pass.st = .stopped) :
    exec (.unload src c) s = .next (((planAccept s c).onPlan c (fun p => { p with phase := .unloading })).complete src (planCtrlOff c) false 0 0) := by
  refine congrArg Host.Outcome.next ((gatedWrite_of_carry carried src _ _).trans ?_)
  rw [unloadCmd, if_pos ⟨idle, stopped⟩]

/-! ## The release of a plan (R325) -/

/-- What the release of a plan ends before the plan's own fields: the wait for a span, the open span, and what ports and slices remember. -/
def spanReleased (s : State) (c : Ctx) : State := forgetExecutions (dropSpan (endStall (noteUse s) c) c false) c

/-- The context released: no plan, and the next pass index 0. -/
def CtxSt.released (x : CtxSt) : CtxSt :=
  { x with
    plan := { x.plan with phase := .none, active := none, minor := 0, hash := [], rho := 0, keyCheck := 0, loaded := false, fresh := false, onNew := [] }
    pass := { x.pass with st := .noPlan, index := 0, driverHold := false, holdSub := false, holdFw := false, holdDigest := false }
    exec := {} }

/-- PLAN_UNLOADED with the commit count. -/
def unloaded (s : State) (c : Ctx) : Ev := { code := 0xC007, unit := uPln, ctx := some c, p32 := (s.ctx c).pass.commitCount.setWidth 32 }

theorem unloadPlan_ctx (s : State) (c : Ctx) : (unloadPlan s c).ctx c = ((spanReleased s c).ctx c).released := by
  unfold unloadPlan spanReleased
  dsimp only
  generalize forgetExecutions _ _ = t
  rw [State.emit_ctx, State.onExec_ctx_same, State.onPass_ctx_same, State.onPlan_ctx_same]
  rfl

theorem unloadPlan_ctx_other {d : Ctx} (s : State) (other : d ≠ c) : (unloadPlan s c).ctx d = (spanReleased s c).ctx d := by
  unfold unloadPlan spanReleased
  dsimp only
  generalize forgetExecutions _ _ = t
  rw [State.emit_ctx, State.onExec_ctx_other _ _ other, State.onPass_ctx_other _ _ other, State.onPlan_ctx_other _ _ other]

theorem unloadPlan_records (s : State) (c : Ctx) : ∃ e ∈ (unloadPlan s c).rcd.intake, e.code = 0xC007 ∧ e.unit = uPln ∧ e.ctx = some c ∧
    e.p32 = (s.ctx c).pass.commitCount.setWidth 32 :=
  ⟨_, State.emit_records _ (unloaded s c) rfl, rfl, rfl, rfl, rfl⟩

theorem dropSpan_ctx_other {d : Ctx} (s : State) (report : Bool) (other : d ≠ c) : (dropSpan s c report).ctx d = s.ctx d := by
  unfold dropSpan
  split
  · rfl
  · dsimp only
    split
    · rw [State.emit_ctx, State.onPrv_ctx_other _ _ other]
    · rw [State.onPrv_ctx_other _ _ other]

/-- The context has no open span any more. -/
theorem dropSpan_ctx (s : State) (c : Ctx) (report : Bool) : (dropSpan s c report).ctx c =
    { s.ctx c with prv := { (s.ctx c).prv with span := none } } := by
  unfold dropSpan
  split
  · next open_ => rw [← open_]
  · dsimp only
    split
    · rw [State.emit_ctx, State.onPrv_ctx_same]
    · rw [State.onPrv_ctx_same]

theorem forgetExecutions_ctx (s : State) (c d : Ctx) : (forgetExecutions s c).ctx d = s.ctx d := by
  unfold forgetExecutions
  exact State.onWce_ctx ..

theorem spanReleased_span (s : State) (c : Ctx) : ((spanReleased s c).ctx c).prv.span = none := by
  rw [spanReleased, forgetExecutions_ctx, dropSpan_ctx]

theorem spanReleased_ctx_other {d : Ctx} (s : State) (other : d ≠ c) : (spanReleased s c).ctx d = s.ctx d := by
  rw [spanReleased, forgetExecutions_ctx, dropSpan_ctx_other _ _ other, (Within.endStall c _).others d other, (Serves.noteUse s).ctx]

theorem exec_planUnloaded (unloading : (s.ctx c).plan.phase = .unloading) (back : s.copiesLeft c = 0) :
    exec (.planUnloaded c) s = .next (unloadPlan s c) :=
  congrArg Host.Outcome.next (if_pos ⟨.inl unloading, back⟩)

/-- Settles O45: a load is put at the end of the queue, from which the loader takes the first; CANCEL takes it out again; the release of a
plan resets the context's fields after its span has been dropped. -/
theorem planCommands : Obligations.PlanCommands := by
  unfold Obligations.PlanCommands
  refine ⟨fun s src c carried idle accepted absent => ?_, fun s src c carried refused => ?_, fun s src c carried loads => ?_,
    fun s src c carried idle stopped => ?_, fun s c unloading back => ?_⟩
  · have run := exec_load_accepted carried src idle accepted
    have fst : (planNext (loadQueued s c)).fst = s.fst := planNext_fst _
    obtain ⟨same, waits⟩ | ⟨first, validates⟩ := planNext_of_queued (s := loadQueued s c) (c := c) (List.mem_append_right _ (List.mem_singleton_self _))
    · rw [loadQueued_ctx] at same
      refine ⟨_, run, ?_, ?_, ?_, .inl ⟨?_, by rwa [State.complete_pln]⟩, ?_, by rwa [State.complete_fst], (execLoad_kept src c s).of_next run⟩
      all_goals rw [State.complete_ctx, same]
    · rw [loadQueued_ctx] at first
      refine ⟨_, run, ?_, ?_, ?_, .inr ⟨?_, by rwa [State.complete_pln]⟩, ?_, by rwa [State.complete_fst], (execLoad_kept src c s).of_next run⟩
      all_goals rw [State.complete_ctx, first]
  · have run := exec_load_refused carried src refused
    refine ⟨_, run, ?_, ?_, fun d other => ?_, ?_, (execLoad_kept src c s).of_next run⟩
    · rw [State.complete_ctx, planRefuse_ctx]
    · rw [State.complete_pln]
      rfl
    · rw [State.complete_ctx]
      exact (State.logRefusal_ctx ..).trans (State.onPlan_ctx_other _ _ other)
    · rw [State.complete_rcd]
      rfl
  · have run := exec_cancel_accepted carried src loads
    have before : (planAccept s c).ctx c = { s.ctx c with plan := { (s.ctx c).plan with refused := false } } := State.onPlan_ctx_same ..
    obtain ⟨absent, left⟩ := discardLoad_pln (planAccept s c) c
    obtain ⟨same, out_of_queue, validates⟩ := planNext_of_not_queued absent
    rw [discardLoad_ctx, before] at same
    refine ⟨_, run, ?_, ?_, ?_, ?_, ?_, ?_, ?_, ?_, ?_, (execCancel_kept src c s).of_next run⟩
    case refine_6 => rwa [State.complete_pln]
    case refine_7 =>
      rw [State.complete_pln]
      exact fun now => left (validates now)
    case refine_8 =>
      have told := discardLoad_records (planAccept s c) c
      rw [before] at told
      rw [State.complete_rcd, planNext_rcd]
      exact told
    case refine_9 =>
      rw [State.complete_irq, planNext_irq]
      exact discardLoad_irq ..
    all_goals
      rw [State.complete_ctx, same]
      rfl
  · have run := exec_unload_accepted carried src idle stopped
    have own : ((planAccept s c).onPlan c (fun p => { p with phase := .unloading })).ctx c =
      { s.ctx c with plan := { (s.ctx c).plan with refused := false, phase := .unloading } } := by simp [planAccept]
    refine ⟨_, run, ?_, ?_, ?_, fun d other => ?_, (execUnload_kept src c s).of_next run⟩
    · rw [State.complete_ctx, own]
    · rw [State.complete_ctx, own]
    · rw [State.complete_ctx, own]
    · rw [State.complete_ctx, State.onPlan_ctx_other _ _ other]
      exact State.onPlan_ctx_other _ _ other
  · have run := exec_planUnloaded unloading back
    refine ⟨_, run, ?_, ?_, ?_, ?_, ?_, ?_, fun d other => ?_, unloadPlan_records s c, (execPlanUnloaded_kept c s).of_next run⟩
    case refine_6 => rw [unloadPlan_ctx]; exact spanReleased_span s c
    case refine_7 => rw [unloadPlan_ctx_other s other, spanReleased_ctx_other s other]
    all_goals rw [unloadPlan_ctx]; rfl

end Sys2Proof.Machine


namespace Sys2Proof.Machine

/-! # A plan is validated, distributed and applied (R315 to R321) -/

variable {s t : State} {c : Ctx}

theorem State.onPln_butLoads (s : State) (f : Pln → Pln) : (s.onPln f).butLoads = s.butLoads := rfl
theorem State.onPlan_butLoads (s : State) (c : Ctx) (f : PlanSt → PlanSt) : (s.onPlan c f).butLoads = s.butLoads := rfl

theorem planNext_dists (s : State) : (planNext s).pln.dists = s.pln.dists := by
  obtain taken | ⟨c, rest, -, -, taken⟩ := planNext_cases s
  · rw [taken]
  · rw [taken]
    rfl

/-! ## The image and the program are read (R315, R495) -/

theorem Reads.imageOf (s : State) (c : Ctx) (image : JobRead) : Reads s (imageOf s c image).2 := .engineRead ..

theorem Reads.programOf (s : State) (p : Plan) (program : JobRead) : Reads s (programOf s p program).2 := by
  unfold Machine.programOf
  split
  · exact .engineRead ..
  · exact .refl s

theorem imageOf_clean (s : State) (c : Ctx) {image : JobRead} (clean : image.errors = []) : (imageOf s c image).2 = s :=
  engineRead_clean _ _ _ (ecc_of_none clean _)

theorem programOf_clean (s : State) (p : Plan) {program : JobRead} (clean : program.errors = []) : (programOf s p program).2 = s := by
  unfold programOf
  split
  · exact engineRead_clean _ _ _ (ecc_of_none clean _)
  · rfl

theorem Reads.ctxs (h : Reads s t) : t.ctxs = s.ctxs := (congrArg State.ctxs h.rest :)
theorem Reads.ctx (h : Reads s t) (d : Ctx) : t.ctx d = s.ctx d := State.ctx_eq_of_ctxs h.ctxs d
theorem Reads.pln (h : Reads s t) : t.pln = s.pln := (congrArg State.pln h.rest :)
theorem Reads.mem (h : Reads s t) : t.mem = s.mem := (congrArg State.mem h.rest :)
theorem Reads.still (h : Reads s t) : t.still = s.still := (congrArg State.still h.rest :)

/-- The program image read for a load: none for an image that does not decode. -/
def codeOf (s : State) (c : Ctx) (image program : JobRead) (read : Plan × Option PlanBad) : List Byte × State :=
  if read.2.isSome then ([], (imageOf s c image).2) else programOf (imageOf s c image).2 read.1 program

theorem Reads.codeOf (s : State) (c : Ctx) (image program : JobRead) (read : Plan × Option PlanBad) : Reads s (codeOf s c image program read).2 := by
  unfold Machine.codeOf
  split
  · exact .imageOf s c image
  · exact (Reads.imageOf s c image).trans (.programOf ..)

theorem codeOf_clean (s : State) (c : Ctx) {image program : JobRead} (read : Plan × Option PlanBad) (clean : image.errors = [])
    (cleanCode : program.errors = []) : (codeOf s c image program read).2 = s := by
  unfold codeOf
  split
  · exact imageOf_clean s c clean
  · rw [programOf_clean _ _ cleanCode, imageOf_clean s c clean]

/-! ## A load is refused (R319, R332) -/

/-- The plan of a context whose load is refused. -/
def PlanSt.refusedFor (y : PlanSt) (x : PlanBad) (atApp : Bool) : PlanSt :=
  { y with phase := .none, pend := none, pendHash := [], pendKey := none, banks := [], switched := false, outcome := 2, event := x.event, atApp
           cause := BitVec.ofNat 8 x.cause, cls := BitVec.ofNat 4 x.cls, index := BitVec.ofNat 16 x.index, conflict := BitVec.ofNat 8 x.conflict
           valid := true }

theorem refuseLoad_ctx (s : State) (c : Ctx) (x : PlanBad) (atApp : Bool) :
    (refuseLoad s c x atApp).ctx c = { s.ctx c with plan := (s.ctx c).plan.refusedFor x atApp } := by
  simp [refuseLoad, loadOutcome, PlanSt.refusedFor]

theorem Within.refuseLoad (s : State) (c : Ctx) (x : PlanBad) (atApp : Bool) : Within c s (refuseLoad s c x atApp) := by
  unfold Machine.refuseLoad
  exact (Within.onCtx c s _).trans ((Within.onPln c _ _).trans ((Within.emit c _ _).trans (.loadOutcome c _ ..)))

theorem refuseLoad_pln (s : State) (c : Ctx) (x : PlanBad) (atApp : Bool) : (refuseLoad s c x atApp).pln =
    { s.pln with validating := if s.pln.validating = some c then none else s.pln.validating, dists := s.pln.dists.filter (fun d => d.ctx ≠ c) } := by
  simp [refuseLoad, loadOutcome]
  rfl

/-- The refusal, as the recorder takes it in. -/
def refusal (c : Ctx) (x : PlanBad) (atApp : Bool) : Ev :=
  { code := x.event, unit := uPln, ctx := some c, p32 := x.param, p16 := BitVec.ofNat 16 (x.cause + (if atApp then 32768 else 0)) }

theorem refuseLoad_records (s : State) (c : Ctx) (x : PlanBad) (atApp : Bool) :
    ∃ e ∈ (refuseLoad s c x atApp).rcd.intake, e.code = x.event ∧ e.unit = uPln ∧ e.ctx = some c :=
  ⟨_, State.emit_records _ (refusal c x atApp) rfl, rfl, rfl, rfl⟩

theorem refuseLoad_distOf (s : State) (c : Ctx) (x : PlanBad) (atApp : Bool) : (refuseLoad s c x atApp).distOf c = none := by
  unfold State.distOf
  rw [refuseLoad_pln]
  simp

/-! ## A flit leaves (R66, R67) -/

/-- The next flit leaves where none is on its way. -/
theorem distSend_of_todo {d : Dist} {k : BitVec 16} {o : Nat} {rest : List (BitVec 16 × Nat)} (bytes : List Byte) (targets : List UnitId) (s : State)
    (none : d.flit = none) (todo : d.todo = (k, o) :: rest) : distSend bytes targets s d =
      (s.send (.planDist d.ctx k o (flitData bytes k o)), { d with todo := rest, flit := some (k, o, flitData bytes k o), owing := targets }) := by
  unfold distSend
  rw [none, todo]

/-- A distribution that sends changes nothing but what is sent. -/
theorem distSend_butOut (bytes : List Byte) (targets : List UnitId) (s : State) (d : Dist) :
    { (distSend bytes targets s d).1 with out := [] } = { s with out := [] } ∧ s.out ⊆ (distSend bytes targets s d).1.out ∧
      (distSend bytes targets s d).2.ctx = d.ctx := by
  unfold distSend
  split
  · exact ⟨rfl, List.subset_append_left .., rfl⟩
  · exact ⟨rfl, List.Subset.refl _, rfl⟩

theorem State.putDist_distOf (s : State) (d : Dist) : (s.putDist d).distOf d.ctx = some d := by
  unfold State.distOf State.putDist
  rw [State.onPln_pln, List.find?_append, List.find?_eq_none.2 (by simp), Option.none_or]
  simp

theorem State.putDist_mem (s : State) (d : Dist) : d ∈ (s.putDist d).pln.dists := List.mem_append_right _ (List.mem_singleton_self _)

/-! ## PLAN_VALIDATED -/

/-- PLAN_VALIDATED, as the recorder takes it in. -/
def validatedEvent (c : Ctx) (p : Plan) : Ev :=
  { code := 0xC008, unit := uPln, ctx := some c, p16 := BitVec.ofNat 16 p.core.ignored, p32 := BitVec.ofNat 32 ((p.core.imageLen + 1023) / 1024) }

/-- The plan of a context whose load has passed its checks. -/
def PlanSt.validated (y : PlanSt) (p : Plan) (code : List Byte) : PlanSt :=
  { y with phase := .distributing, pend := some p, pendHash := sha3 code, pendKey := p.key, banks := [] }

/-- A load that has passed its checks, before its key and first flit leave. -/
def loadValidated (s : State) (c : Ctx) (p : Plan) (code : List Byte) : State :=
  ((s.onPlan c (fun l => l.validated p code)).onPln (fun l => { l with validating := none })).emit (validatedEvent c p)

/-- The distribution of a load begins. -/
def distBegins (s : State) (c : Ctx) (p : Plan) (bytes : List Byte) : State × Dist :=
  distSend bytes (s.distTargets p) (sendKey s c p) { ctx := c, todo := distFlits bytes }

theorem exec_planValidated (validating : s.pln.validating = some c) (image program : JobRead) (work : WorkFacts) :
    let bytes := s.engineBytes (s.ctx c).plan.from_.toNat (1024 * (s.ctx c).plan.kib.toNat) image
    let read := readImage bytes (s.ctx c).plan.kib.toNat work
    let code := codeOf s c image program read
    exec (.planValidated image program work) s = match validate code.2 c read.1 read.2 program with
      | some x => .next (planNext (refuseLoad code.2 c x false))
      | none => .next (planNext ((distBegins (loadValidated code.2 c read.1 code.1) c read.1 bytes).1.putDist
          (distBegins (loadValidated code.2 c read.1 code.1) c read.1 bytes).2)) := by
  show execPlanValidated image program s work = _
  unfold execPlanValidated
  rw [validating]
  have ctx : (imageOf s c image).2.ctx c = s.ctx c := (Reads.imageOf s c image).ctx c
  dsimp only
  rw [ctx]
  unfold codeOf distBegins loadValidated
  rfl

theorem loadValidated_ctx (s : State) (c : Ctx) (p : Plan) (code : List Byte) :
    (loadValidated s c p code).ctx c = { s.ctx c with plan := (s.ctx c).plan.validated p code } := by
  unfold loadValidated
  rw [State.emit_ctx, State.onPln_ctx, State.onPlan_ctx_same]

theorem Within.loadValidated (s : State) (c : Ctx) (p : Plan) (code : List Byte) : Within c s (loadValidated s c p code) :=
  (Within.onCtx c s _).trans ((Within.onPln c _ _).trans (.emit c _ _))

theorem loadValidated_records (s : State) (c : Ctx) (p : Plan) (code : List Byte) :
    ∃ e ∈ (loadValidated s c p code).rcd.intake, e.code = 0xC008 ∧ e.unit = uPln ∧ e.ctx = some c :=
  ⟨_, State.emit_records _ (validatedEvent c p) rfl, rfl, rfl, rfl⟩

theorem sendKey_butOut (s : State) (c : Ctx) (p : Plan) : { sendKey s c p with out := [] } = { s with out := [] } := by
  unfold sendKey
  split <;> rfl

theorem sendKey_sends (s : State) {c : Ctx} {p : Plan} {k : BitVec 61 × BitVec 16} (key : p.key = some k) :
    Out.planKey c k.1 k.2 ∈ (sendKey s c p).out := by
  unfold sendKey
  rw [key]
  exact List.mem_append_right _ (List.mem_singleton_self _)

/-- The distribution of a load begins: nothing changes but what is sent. -/
theorem distBegins_butOut (s : State) (c : Ctx) (p : Plan) (bytes : List Byte) :
    { (distBegins s c p bytes).1 with out := [] } = { s with out := [] } ∧ (distBegins s c p bytes).2.ctx = c := by
  obtain ⟨rest, -, ctx⟩ := distSend_butOut bytes (s.distTargets p) (sendKey s c p) { ctx := c, todo := distFlits bytes }
  exact ⟨rest.trans (sendKey_butOut s c p), ctx⟩

theorem distBegins_key (s : State) {c : Ctx} {p : Plan} (bytes : List Byte) {k : BitVec 61 × BitVec 16} (key : p.key = some k) :
    Out.planKey c k.1 k.2 ∈ (distBegins s c p bytes).1.out :=
  (distSend_butOut bytes (s.distTargets p) (sendKey s c p) { ctx := c, todo := distFlits bytes }).2.1 (sendKey_sends s key)

theorem distBegins_flit (s : State) (c : Ctx) (p : Plan) {bytes : List Byte} {k : BitVec 16} {o : Nat} {rest : List (BitVec 16 × Nat)}
    (first : distFlits bytes = (k, o) :: rest) : Out.planDist c k o (flitData bytes k o) ∈ (distBegins s c p bytes).1.out := by
  unfold distBegins
  rw [distSend_of_todo (rest := rest) bytes _ _ rfl first]
  exact List.mem_append_right _ (List.mem_singleton_self _)

/-- A load that has passed its checks: its distribution has begun. -/
theorem planValidated_distributes (s : State) (absent : c ∉ s.pln.queue) (p : Plan) (code bytes : List Byte) :
    let b := distBegins (loadValidated s c p code) c p bytes
    let t := planNext (b.1.putDist b.2)
    t.ctx c = { s.ctx c with plan := (s.ctx c).plan.validated p code } ∧ (∃ d ∈ t.pln.dists, d.ctx = c) ∧ t.out = b.1.out ∧
      t.rcd = (loadValidated s c p code).rcd := by
  obtain ⟨rest, ctx⟩ := distBegins_butOut (loadValidated s c p code) c p bytes
  have pln : (distBegins (loadValidated s c p code) c p bytes).1.pln = (loadValidated s c p code).pln := (congrArg State.pln rest :)
  have same := State.ctx_eq_of_ctxs (congrArg State.ctxs rest :) c
  have rcd : (distBegins (loadValidated s c p code) c p bytes).1.rcd = (loadValidated s c p code).rcd := (congrArg State.rcd rest :)
  generalize distBegins (loadValidated s c p code) c p bytes = b at rest ctx pln same rcd
  have queue : b.1.pln.queue = s.pln.queue := by
    rw [pln]
    unfold loadValidated
    rw [State.emit_pln]
    rfl
  obtain ⟨own, -⟩ := planNext_of_not_queued (s := b.1.putDist b.2) (c := c) (by rw [show (b.1.putDist b.2).pln.queue = b.1.pln.queue from rfl, queue]; exact absent)
  refine ⟨own.trans (same.trans (loadValidated_ctx ..)), ⟨b.2, ?_, ctx⟩, planNext_out _, (planNext_rcd _).trans rcd⟩
  rw [planNext_dists]
  exact State.putDist_mem ..

/-! ## PLAN_DIST: a target takes a flit (R66, R67) -/

/-- The banks of a unit after a flit: the section's last flit fills one. -/
def flitTaken (s : State) (c : Ctx) (d : Dist) (u : UnitId) (k : BitVec 16) : State :=
  if d.todo.any (fun f => f.1 = k) then s else s.onPlan c (fun l => { l with banks := l.banks ++ [(u, k)] })

/-- The flit after one that every target has taken. -/
def nextFlit (s : State) (c : Ctx) (p : Plan) (d : Dist) : State × Dist :=
  distSend (imageOf s c { flips := [], errors := [] }).1 (s.distTargets p) s { d with flit := none }

theorem takeFlit_waits (s : State) (c : Ctx) (p : Plan) (d : Dist) (u : UnitId) (k : BitVec 16) (owing : d.owing.erase u ≠ []) :
    takeFlit s c p d u k = (flitTaken s c d u k).putDist { d with owing := d.owing.erase u } := if_pos owing

theorem takeFlit_next (s : State) (c : Ctx) (p : Plan) (d : Dist) (u : UnitId) (k : BitVec 16) (last : d.owing.erase u = []) :
    takeFlit s c p d u k = (nextFlit (flitTaken s c d u k) c p { d with owing := d.owing.erase u }).1.putDist
      (nextFlit (flitTaken s c d u k) c p { d with owing := d.owing.erase u }).2 := if_neg (Classical.not_not.2 last)

theorem flitTaken_banks (s : State) (c : Ctx) (d : Dist) (u : UnitId) (k : BitVec 16) : ((flitTaken s c d u k).ctx c).plan.banks =
    if d.todo.any (fun f => f.1 = k) then (s.ctx c).plan.banks else (s.ctx c).plan.banks ++ [(u, k)] := by
  unfold flitTaken
  split
  · rfl
  · rw [State.onPlan_ctx_same]

theorem flitTaken_phase (s : State) (c : Ctx) (d : Dist) (u : UnitId) (k : BitVec 16) :
    ((flitTaken s c d u k).ctx c).plan.phase = (s.ctx c).plan.phase := by
  unfold flitTaken
  split
  · rfl
  · rw [State.onPlan_ctx_same]

theorem Within.flitTaken (s : State) (c : Ctx) (d : Dist) (u : UnitId) (k : BitVec 16) : Within c s (flitTaken s c d u k) :=
  .ite (fun _ => .refl c s) fun _ => .onCtx c s _

theorem flitTaken_rest (s : State) (c : Ctx) (d : Dist) (u : UnitId) (k : BitVec 16) : (flitTaken s c d u k).out = s.out ∧
    (flitTaken s c d u k).fst = s.fst ∧ (flitTaken s c d u k).shd = s.shd := by
  unfold flitTaken
  split <;> exact ⟨rfl, rfl, rfl⟩

theorem distTargets_congr (shd : t.shd = s.shd) (p : Plan) : t.distTargets p = s.distTargets p := by
  unfold State.distTargets State.physOf
  rw [shd]

theorem takeFlit_butLoads (s : State) (c : Ctx) (p : Plan) (d : Dist) (u : UnitId) (k : BitVec 16) :
    (takeFlit s c p d u k).ctxs = (flitTaken s c d u k).ctxs ∧ (takeFlit s c p d u k).fst = s.fst := by
  by_cases last : d.owing.erase u = []
  · obtain ⟨rest, -⟩ := distSend_butOut (imageOf (flitTaken s c d u k) c { flips := [], errors := [] }).1 ((flitTaken s c d u k).distTargets p)
      (flitTaken s c d u k) { d with owing := d.owing.erase u, flit := none }
    rw [takeFlit_next s c p d u k last]
    exact ⟨(congrArg State.ctxs rest :), (congrArg State.fst rest :).trans (flitTaken_rest ..).2.1⟩
  · rw [takeFlit_waits s c p d u k last]
    exact ⟨rfl, (flitTaken_rest ..).2.1⟩

theorem exec_planDist {u : UnitId} {k : BitVec 16} {o : Nat} {x : BitVec 64} {p : Plan} {d : Dist} (exists_ : s.unitExists u = true) (flit : k ≠ 0xFFFF)
    (pend : (s.ctx c).plan.pend = some p) (dist : s.distOf c = some d) (way : d.flit = some (k, o, x)) (owes : d.owing.contains u = true) :
    exec (.planDist u c k o x) s = .next (takeFlit s c p d u k) := by
  show execPlanDist u c k s o x = _
  unfold execPlanDist
  dsimp only
  rw [if_neg (by simp [exists_]), if_neg flit, pend, dist]
  dsimp only
  rw [if_pos ⟨way, owes⟩]

theorem exec_planDist_switch {u : UnitId} (exists_ : s.unitExists u = true) (c : Ctx) (o : Nat) (x : BitVec 64) : exec (.planDist u c 0xFFFF o x) s =
    .next (if (s.ctx c).plan.owed.contains u then s.onPlan c (fun q => { q with onNew := q.onNew ++ [u], owed := q.owed.erase u }) else s) := by
  show execPlanDist u c 0xFFFF s o x = _
  unfold execPlanDist
  dsimp only
  rw [if_neg (by simp [exists_]), if_pos rfl]

theorem dist_ctx {d : Dist} (dist : s.distOf c = some d) : d.ctx = c := by
  simpa using List.find?_some dist

/-! ## DISTRIBUTION_DONE -/

/-- The check repeated before a load is pending. -/
def recheck (bytes : List Byte) (kib : Nat) : Option PlanBad := if badHeader bytes kib then some { cause := 1 } else badCrc bytes

/-- A load pending: its hash is that of the program and of the image. -/
def loadPending (s : State) (c : Ctx) (p : Plan) (bytes : List Byte) : State :=
  (finishDist s c).onPlan c (fun l => { l with phase := .pending, pendHash := sha3 (ascii "IM" ++ l.pendHash ++ sha3 (bytes.take p.core.imageLen)) })

theorem exec_distributionDone {p : Plan} (pend : (s.ctx c).plan.pend = some p) (phase : (s.ctx c).plan.phase = .distributing) (taken : s.distTaken c = true)
    (image : JobRead) : let bytes := s.engineBytes (s.ctx c).plan.from_.toNat (1024 * (s.ctx c).plan.kib.toNat) image
    exec (.distributionDone c image) s = match recheck bytes (s.ctx c).plan.kib.toNat with
      | some y => .next (refuseLoad (imageOf s c image).2 c y false)
      | none => .next (loadPending (imageOf s c image).2 c p bytes) := by
  show execDistributionDone c image s = _
  unfold execDistributionDone
  dsimp only
  rw [pend]
  dsimp only
  rw [if_neg (by simp [phase, taken])]
  rfl

theorem exec_distributionDone_waits {p : Plan} (pend : (s.ctx c).plan.pend = some p) (waits : s.distTaken c = false) (image : JobRead) :
    exec (.distributionDone c image) s = .next s := by
  show execDistributionDone c image s = _
  unfold execDistributionDone
  dsimp only
  rw [pend]
  dsimp only
  rw [if_pos (by simp [waits])]

/-! ## PLAN_SWITCH (R318 to R321) -/

/-- A context on its new plan, before its holds are formed again. -/
def switched (s : State) (c : Ctx) (p : Plan) (targets : List UnitId) : State :=
  stall ((s.onCtx c (fun x => x.switch p)).onPlan c (fun l => { l with owed := targets })) c

/-- What a switch ends: the wait for a span, the open span, and what ports and slices remember. -/
def spanEnded (s : State) (c : Ctx) : State := forgetExecutions (dropSpan (endStall s c) c true) c

theorem switchPlan_eq (s : State) (c : Ctx) (p : Plan) : let u := switched (spanEnded s c) c p (s.switchTargets c p)
    switchPlan s c p = settle ((noteUse u).send (.planDist c 0xFFFF 0 ((u.ctx c).pass.index.setWidth 64))) c := rfl

theorem Within.dropSpan (s : State) (c : Ctx) (report : Bool) : Within c s (dropSpan s c report) := by
  unfold Machine.dropSpan
  split
  · exact .refl c s
  · exact .ite (fun _ => (Within.onCtx c _ _).trans (.emit c _ _)) fun _ => .onCtx c _ _

theorem Within.stall (s : State) (c : Ctx) : Within c s (stall s c) := by
  unfold Machine.stall
  exact .ite (fun _ => .refl c s) fun _ => .onCtx c s _

/-- After what a switch ends, the context has no open span, and only its provenance has changed. -/
theorem spanEnded_ctx (s : State) (c : Ctx) : ∃ prv, prv.span = none ∧ (spanEnded s c).ctx c = { s.ctx c with prv } := by
  obtain ⟨prv, ended⟩ := endStall_ctx s c
  refine ⟨{ prv with span := none }, rfl, ?_⟩
  unfold spanEnded
  rw [forgetExecutions_ctx, dropSpan_ctx, ended]

theorem spanEnded_ctx_other {d : Ctx} (s : State) (other : d ≠ c) : (spanEnded s c).ctx d = s.ctx d := by
  unfold spanEnded
  rw [forgetExecutions_ctx]
  exact ((Within.endStall c s).trans (.dropSpan _ c true)).others d other

theorem spanEnded_mgtu (s : State) (c : Ctx) : (spanEnded s c).mgtu = s.mgtu := by
  unfold spanEnded forgetExecutions
  rw [State.onWce_mgtu]
  exact ((Within.endStall c s).trans (.dropSpan _ c true)).mgtu

theorem stall_span (s : State) (c : Ctx) : ∃ prv, prv.span = (s.ctx c).prv.span ∧ (stall s c).ctx c = { s.ctx c with prv } := by
  unfold stall
  dsimp only
  split
  · exact ⟨_, rfl, rfl⟩
  · exact ⟨{ (s.ctx c).prv with stalled := true, cause := s.stallCause c, stallFrom := s.time.tick }, rfl, State.onPrv_ctx_same ..⟩

theorem switched_ctx (s : State) (c : Ctx) (p : Plan) (targets : List UnitId) : ∃ prv, prv.span = (s.ctx c).prv.span ∧
    (switched s c p targets).ctx c = { (s.ctx c).switch p with plan := { (s.ctx c).plan.switch p with owed := targets }, prv } := by
  unfold switched
  obtain ⟨prv, span, stalled⟩ := stall_span ((s.onCtx c (fun x => x.switch p)).onPlan c (fun l => { l with owed := targets })) c
  rw [State.onPlan_ctx_same, State.onCtx_ctx_same] at stalled span
  refine ⟨prv, span.trans ?_, stalled⟩
  show (PrvCtx.switch _ _).span = _
  unfold PrvCtx.switch
  dsimp only
  split <;> rfl

theorem Within.switched (s : State) (c : Ctx) (p : Plan) (targets : List UnitId) : Within c s (switched s c p targets) :=
  ((Within.onCtx c s _).trans (.onCtx c _ _)).trans (.stall _ c)

/-- A context that stands at its application point stands at a boundary after the switch. -/
theorem PassSt.switch_stands (at_ : s.atPoint c = true) : (s.ctx c).pass.switch.st = .boundary ∨ (s.ctx c).pass.switch.st = .held := by
  unfold State.atPoint at at_
  unfold PassSt.switch
  dsimp only at at_ ⊢
  cases st : (s.ctx c).pass.st <;> rw [st] at at_ <;> simp at at_ ⊢

/-- The context whose hold causes are formed last, after its units have been told. -/
theorem noteUse_send_ctx (s : State) (o : Out) (d : Ctx) : ((noteUse s).send o).ctx d = s.ctx d := (Serves.noteUse s).ctx d

/-- The switch flit of a context on its new plan. -/
def switchFlit (s : State) (c : Ctx) : Out := .planDist c 0xFFFF 0 ((s.ctx c).pass.index.setWidth 64)

/-- A context on its new plan, its units told. -/
def switchTold (u : State) (c : Ctx) : State := (noteUse u).send (switchFlit u c)

theorem switchTold_ctx (u : State) (c d : Ctx) : (switchTold u c).ctx d = u.ctx d := noteUse_send_ctx ..

theorem switchTold_mgtu (u : State) (c : Ctx) : (switchTold u c).mgtu = u.mgtu := (congrArg State.mgtu (Serves.noteUse u).rest :)

theorem settle_switchTold_sends (u : State) (c : Ctx) : switchFlit u c ∈ (settle (switchTold u c) c).out :=
  (Within.settle c _).appends.out (List.mem_append_right _ (List.mem_singleton_self _))

theorem settle_stands (stands : (s.ctx c).pass.st = .boundary ∨ (s.ctx c).pass.st = .held) : ∃ st holdSub, (st = .boundary ∨ st = .held) ∧
    (settle s c).ctx c = { s.ctx c with pass := { (s.ctx c).pass with st, holdSub } } := by
  refine ⟨_, _, ?_, settle_ctx stands⟩
  split
  · exact .inr rfl
  · exact .inl rfl

/-- What a switch leaves of its context. -/
structure CtxSt.SwitchedTo (x y : CtxSt) (p : Plan) (targets : List UnitId) : Prop where
  plan : y.plan = { x.plan.switch p with owed := targets }
  index : y.pass.index = x.pass.switch.index
  commitCount : y.pass.commitCount = x.pass.switch.index
  position : y.pos.position = 0
  stands : y.pass.st = .boundary ∨ y.pass.st = .held
  span : y.prv.span = none

theorem switchPlan_ctx (p : Plan) (at_ : s.atPoint c = true) : (s.ctx c).SwitchedTo ((switchPlan s c p).ctx c) p (s.switchTargets c p) := by
  obtain ⟨prv, span, ended⟩ := spanEnded_ctx s c
  obtain ⟨prv', span', done⟩ := switched_ctx (spanEnded s c) c p (s.switchTargets c p)
  rw [ended] at done span'
  have stands := PassSt.switch_stands at_
  rw [switchPlan_eq]
  generalize switched (spanEnded s c) c p (s.switchTargets c p) = u at done
  obtain ⟨st, holdSub, stood, formed⟩ := settle_stands (s := switchTold u c) (c := c) (by rw [switchTold_ctx, done]; exact stands)
  rw [switchTold_ctx, done] at formed
  show CtxSt.SwitchedTo _ ((settle (switchTold u c) c).ctx c) _ _
  rw [formed]
  exact ⟨rfl, rfl, rfl, rfl, stood, span'.trans span⟩

/-- What a switch leaves of the rest. -/
theorem switchPlan_rest (p : Plan) : (∀ d, d ≠ c → (switchPlan s c p).ctx d = s.ctx d) ∧ (switchPlan s c p).mgtu = s.mgtu ∧
    Out.planDist c 0xFFFF 0 ((s.ctx c).pass.switch.index.setWidth 64) ∈ (switchPlan s c p).out := by
  obtain ⟨prv, span, ended⟩ := spanEnded_ctx s c
  obtain ⟨prv', span', done⟩ := switched_ctx (spanEnded s c) c p (s.switchTargets c p)
  have within := Within.switched (spanEnded s c) c p (s.switchTargets c p)
  rw [ended] at done
  rw [switchPlan_eq]
  generalize switched (spanEnded s c) c p (s.switchTargets c p) = u at done within
  show (∀ d, d ≠ c → (settle (switchTold u c) c).ctx d = s.ctx d) ∧ (settle (switchTold u c) c).mgtu = s.mgtu ∧ _ ∈ (settle (switchTold u c) c).out
  refine ⟨fun d other => ?_, ?_, ?_⟩
  · rw [(Within.settle c _).others d other, switchTold_ctx, within.others d other, spanEnded_ctx_other s other]
  · rw [(Within.settle c _).mgtu, switchTold_mgtu, within.mgtu, spanEnded_mgtu]
  · have sent := settle_switchTold_sends u c
    rwa [switchFlit, done] at sent

theorem exec_planSwitch {p : Plan} (pend : (s.ctx c).plan.pend = some p) (phase : (s.ctx c).plan.phase = .pending) (at_ : s.atPoint c = true) :
    exec (.planSwitch c) s = match presentChecks s c p with
      | some x => .next (refuseLoad s c x true)
      | none => .next (if (s.ctx c).plan.owed = [] then switchPlan s c p else s) := by
  show execPlanSwitch c s = _
  unfold execPlanSwitch
  rw [pend]
  dsimp only
  rw [if_neg (by simp [phase, at_])] <;> rfl

theorem exec_planSwitch_waits (away : s.atPoint c = false) : exec (.planSwitch c) s = .next s := by
  show execPlanSwitch c s = _
  unfold execPlanSwitch
  split
  · rfl
  · rw [if_pos (by simp [away])]

/-! ## O46 -/

/-- A load validated: distributed, or refused. -/
theorem planValidated_clause (image program : JobRead) (work : WorkFacts) (validating : s.pln.validating = some c) (absent : c ∉ s.pln.queue) :
    let bytes := s.engineBytes (s.ctx c).plan.from_.toNat (1024 * (s.ctx c).plan.kib.toNat) image
    let read := readImage bytes (s.ctx c).plan.kib.toNat work
    let code := codeOf s c image program read
    let told (t : State) : Prop := (t.ctx c).plan.active = (s.ctx c).plan.active ∧ (t.ctx c).pass = (s.ctx c).pass ∧ t.mem = s.mem ∧ t.still = s.still ∧
      (image.errors = [] → program.errors = [] → t.tags = s.tags)
    (validate code.2 c read.1 read.2 program = none → ∃ t, exec (.planValidated image program work) s = .next t ∧ told t ∧ (t.ctx c).plan.phase = .distributing ∧
      (t.ctx c).plan.pend = some read.1 ∧ (t.ctx c).plan.pendHash = sha3 code.1 ∧ (t.ctx c).plan.banks = [] ∧ (∃ d ∈ t.pln.dists, d.ctx = c) ∧
      (∀ k o rest, distFlits bytes = (k, o) :: rest → Out.planDist c k o (flitData bytes k o) ∈ t.out) ∧
      (t.ctx c).plan.pendKey = read.1.key ∧ (∀ k, read.1.key = some k → Out.planKey c k.1 k.2 ∈ t.out) ∧
      (∃ e ∈ t.rcd.intake, e.code = 0xC008 ∧ e.unit = uPln ∧ e.ctx = some c)) ∧
    (∀ x, validate code.2 c read.1 read.2 program = some x → ∃ t, exec (.planValidated image program work) s = .next t ∧ told t ∧ (t.ctx c).plan.phase = .none ∧ (t.ctx c).plan.pend = none ∧
      (t.ctx c).plan.outcome = 2 ∧ (t.ctx c).plan.valid = true ∧ (t.ctx c).plan.atApp = false ∧ (t.ctx c).plan.cause = BitVec.ofNat 8 x.cause ∧ (t.ctx c).plan.event = x.event ∧
      (∃ e ∈ t.rcd.intake, e.code = x.event ∧ e.unit = uPln ∧ e.ctx = some c)) := by
  have run := exec_planValidated validating image program work
  dsimp only at run ⊢
  generalize s.engineBytes (s.ctx c).plan.from_.toNat (1024 * (s.ctx c).plan.kib.toNat) image = bytes at run ⊢
  generalize readImage bytes (s.ctx c).plan.kib.toNat work = read at run ⊢
  have reads := Reads.codeOf s c image program read
  have clean := codeOf_clean s c (image := image) (program := program) read
  generalize codeOf s c image program read = code at run reads clean ⊢
  have queue : c ∉ code.2.pln.queue := by rwa [reads.pln]
  refine ⟨fun good => ?_, fun x bad => ?_⟩
  · rw [good] at run
    dsimp only at run
    obtain ⟨own, dist, out, rcd⟩ := planValidated_distributes code.2 queue read.1 code.1 bytes
    have rest : (planNext ((distBegins (loadValidated code.2 c read.1 code.1) c read.1 bytes).1.putDist
        (distBegins (loadValidated code.2 c read.1 code.1) c read.1 bytes).2)).kept = code.2.kept := by simp [distBegins, loadValidated]
    dsimp only at own dist out rcd
    generalize planNext _ = t at run own dist out rcd rest
    rw [reads.ctx] at own
    refine ⟨t, run, ⟨?_, ?_, ?_, ?_, ?_⟩, ?_, ?_, ?_, ?_, dist, ?_, ?_, ?_, ?_⟩
    case refine_3 => exact (mem_of_kept rest).trans reads.mem
    case refine_4 => exact (congrArg Prod.fst rest :).trans reads.still
    case refine_5 => exact fun a b => (tags_of_kept rest).trans (congrArg State.tags (clean a b))
    case refine_10 =>
      intro k o left first
      rw [out]
      exact distBegins_flit _ c read.1 first
    case refine_12 =>
      intro k key
      rw [out]
      exact distBegins_key _ bytes key
    case refine_13 =>
      rw [rcd]
      exact loadValidated_records ..
    all_goals rw [own] <;> rfl
  · rw [bad] at run
    dsimp only at run
    have own : (planNext (refuseLoad code.2 c x false)).ctx c = _ :=
      (planNext_of_not_queued (by rw [refuseLoad_pln]; exact queue)).1.trans (refuseLoad_ctx code.2 c x false)
    have rcd := planNext_rcd (refuseLoad code.2 c x false)
    have rest : (planNext (refuseLoad code.2 c x false)).kept = code.2.kept := by simp
    generalize planNext _ = t at run own rcd rest
    rw [reads.ctx] at own
    refine ⟨t, run, ⟨?_, ?_, ?_, ?_, ?_⟩, ?_, ?_, ?_, ?_, ?_, ?_, ?_, ?_⟩
    case refine_3 => exact (mem_of_kept rest).trans reads.mem
    case refine_4 => exact (congrArg Prod.fst rest :).trans reads.still
    case refine_5 => exact fun a b => (tags_of_kept rest).trans (congrArg State.tags (clean a b))
    case refine_13 =>
      rw [rcd]
      exact refuseLoad_records ..
    all_goals rw [own] <;> rfl

/-- A flit taken by a target. -/
theorem planDist_clause {u : UnitId} {k : BitVec 16} {o : Nat} {x : BitVec 64} {p : Plan} {d : Dist} (exists_ : s.unitExists u = true) (flit : k ≠ 0xFFFF)
    (pend : (s.ctx c).plan.pend = some p) (dist : s.distOf c = some d) (way : d.flit = some (k, o, x)) (owes : d.owing.contains u = true) :
    ∃ t, exec (.planDist u c k o x) s = .next t ∧ t.kept = s.kept ∧ t.fst = s.fst ∧
      (t.ctx c).plan.phase = (s.ctx c).plan.phase ∧ (∀ e, e ≠ c → t.ctx e = s.ctx e) ∧
      (d.todo.any (fun f => f.1 = k) = false → (t.ctx c).plan.banks = (s.ctx c).plan.banks ++ [(u, k)]) ∧
      (d.todo.any (fun f => f.1 = k) = true → (t.ctx c).plan.banks = (s.ctx c).plan.banks) ∧
      (d.owing.erase u ≠ [] → t.out = s.out ∧ t.distOf c = some { d with owing := d.owing.erase u }) ∧
      (d.owing.erase u = [] → ∀ k' o' rest, d.todo = (k', o') :: rest → ∃ y, t.out = s.out ++ [.planDist c k' o' y] ∧
        t.distOf c = some { d with todo := rest, flit := some (k', o', y), owing := s.distTargets p }) := by
  have run := exec_planDist exists_ flit pend dist way owes
  obtain rfl := dist_ctx dist
  obtain ⟨ctxs, fst⟩ := takeFlit_butLoads s d.ctx p d u k
  have ctx (e : Ctx) : (takeFlit s d.ctx p d u k).ctx e = (flitTaken s d.ctx d u k).ctx e := State.ctx_eq_of_ctxs ctxs e
  obtain ⟨out, -, shd⟩ := flitTaken_rest s d.ctx d u k
  refine ⟨_, run, (execPlanDist_kept ..).of_next run, fst, ?_, fun e other => ?_, fun last => ?_, fun more => ?_, fun waits => ?_, fun all k' o' rest todo => ?_⟩
  · rw [ctx, flitTaken_phase]
  · rw [ctx]
    exact (Within.flitTaken ..).others e other
  · rw [ctx, flitTaken_banks, if_neg (Bool.eq_false_iff.1 last)]
  · rw [ctx, flitTaken_banks, if_pos more]
  · rw [takeFlit_waits s d.ctx p d u k waits]
    exact ⟨out, State.putDist_distOf (flitTaken s d.ctx d u k) { d with owing := d.owing.erase u }⟩
  · refine ⟨flitData (imageOf (flitTaken s d.ctx d u k) d.ctx { flips := [], errors := [] }).1 k' o', ?_⟩
    rw [takeFlit_next s d.ctx p d u k all, nextFlit,
      distSend_of_todo (d := { d with owing := d.owing.erase u, flit := none }) (rest := rest) _ _ _ rfl todo, distTargets_congr shd]
    generalize flitData _ k' o' = y
    refine ⟨?_, ?_⟩
    · show (flitTaken s d.ctx d u k).out ++ [Out.planDist d.ctx k' o' y] = _
      rw [out]
    · exact State.putDist_distOf ((flitTaken s d.ctx d u k).send (.planDist d.ctx k' o' y))
        { d with todo := rest, flit := some (k', o', y), owing := s.distTargets p }

theorem recheck_good {bytes : List Byte} {kib : Nat} (header : badHeader bytes kib = false) (crc : badCrc bytes = none) : recheck bytes kib = none := by
  rw [recheck, if_neg (Bool.eq_false_iff.1 header), crc]

theorem recheck_bad {bytes : List Byte} {kib : Nat} (bad : badHeader bytes kib = true ∨ badCrc bytes ≠ none) : ∃ x, recheck bytes kib = some x := by
  unfold recheck
  split
  · exact ⟨_, rfl⟩
  · next header => exact Option.ne_none_iff_exists'.1 (bad.resolve_left header)

theorem loadPending_ctx (s : State) (c : Ctx) (p : Plan) (bytes : List Byte) : (loadPending s c p bytes).ctx c = { s.ctx c with plan := { (s.ctx c).plan with
    phase := .pending, pendHash := sha3 (ascii "IM" ++ (s.ctx c).plan.pendHash ++ sha3 (bytes.take p.core.imageLen)) } } :=
  State.onPlan_ctx_same ..

theorem loadPending_distOf (s : State) (c : Ctx) (p : Plan) (bytes : List Byte) : (loadPending s c p bytes).distOf c = none := by
  show List.find? _ (s.pln.dists.filter (fun d => d.ctx ≠ c)) = none
  simp

/-- The CRCs checked again at the end of the distribution. -/
theorem distributionDone_clause (image : JobRead) {p : Plan} (pend : (s.ctx c).plan.pend = some p) (phase : (s.ctx c).plan.phase = .distributing)
    (taken : s.distTaken c = true) :
    let bytes := s.engineBytes (s.ctx c).plan.from_.toNat (1024 * (s.ctx c).plan.kib.toNat) image
    let told (t : State) : Prop := (t.ctx c).pass = (s.ctx c).pass ∧ t.distOf c = none ∧ t.mem = s.mem ∧ t.still = s.still ∧ (image.errors = [] → t.tags = s.tags)
    (badHeader bytes (s.ctx c).plan.kib.toNat = false → badCrc bytes = none → ∃ t, exec (.distributionDone c image) s = .next t ∧ told t ∧ (t.ctx c).plan.phase = .pending ∧
      (t.ctx c).plan.pend = some p ∧ (t.ctx c).plan.pendHash = sha3 (ascii "IM" ++ (s.ctx c).plan.pendHash ++ sha3 (bytes.take p.core.imageLen)) ∧ (t.ctx c).plan.banks = (s.ctx c).plan.banks) ∧
    (badHeader bytes (s.ctx c).plan.kib.toNat = true ∨ badCrc bytes ≠ none → ∃ t, exec (.distributionDone c image) s = .next t ∧ told t ∧ (t.ctx c).plan.phase = .none ∧
      (t.ctx c).plan.pend = none ∧ (t.ctx c).plan.outcome = 2 ∧ (t.ctx c).plan.banks = []) := by
  have run := exec_distributionDone pend phase taken image
  dsimp only at run ⊢
  generalize s.engineBytes (s.ctx c).plan.from_.toNat (1024 * (s.ctx c).plan.kib.toNat) image = bytes at run ⊢
  have reads := Reads.imageOf s c image
  have clean := imageOf_clean s c (image := image)
  generalize (imageOf s c image).2 = u at run reads clean
  refine ⟨fun header crc => ?_, fun bad => ?_⟩
  · rw [recheck_good header crc] at run
    dsimp only at run
    have own := loadPending_ctx u c p bytes
    have dist := loadPending_distOf u c p bytes
    have rest : (loadPending u c p bytes).kept = u.kept := rfl
    generalize loadPending u c p bytes = t at run own dist rest
    rw [reads.ctx] at own
    refine ⟨t, run, ⟨?_, dist, (mem_of_kept rest).trans reads.mem, (congrArg Prod.fst rest :).trans reads.still,
      fun a => (tags_of_kept rest).trans (congrArg State.tags (clean a))⟩, ?_, ?_, ?_, ?_⟩
    case refine_3 => rw [own]; exact pend
    all_goals rw [own]
  · obtain ⟨x, found⟩ := recheck_bad bad
    rw [found] at run
    dsimp only at run
    have own := refuseLoad_ctx u c x false
    have dist := refuseLoad_distOf u c x false
    have rest : (refuseLoad u c x false).kept = u.kept := by simp
    generalize refuseLoad u c x false = t at run own dist rest
    rw [reads.ctx] at own
    refine ⟨t, run, ⟨?_, dist, (mem_of_kept rest).trans reads.mem, (congrArg Prod.fst rest :).trans reads.still,
      fun a => (tags_of_kept rest).trans (congrArg State.tags (clean a))⟩, ?_, ?_, ?_, ?_⟩
    all_goals rw [own] <;> rfl

/-- Settles O46: each command's stages keep what the statement names, and the switch is a chain of changes to one context. -/
theorem planValidationAndSwitch : Obligations.PlanValidationAndSwitch := by
  unfold Obligations.PlanValidationAndSwitch
  refine ⟨fun s c image program work validating absent => planValidated_clause image program work validating absent,
    fun s u c k o x p d exists_ flit pend dist way owes => planDist_clause exists_ flit pend dist way owes,
    fun s u c o x exists_ => exec_planDist_switch exists_ c o x,
    fun s c image p pend phase => ⟨fun waits => exec_distributionDone_waits pend waits image, fun taken => distributionDone_clause image pend phase taken⟩,
    fun s c p pend phase at_ good => ?_, fun s c p x pend phase at_ bad => ?_, fun s c _ away => exec_planSwitch_waits away⟩
  · have run := exec_planSwitch pend phase at_
    rw [good] at run
    dsimp only at run
    refine ⟨fun owed => ?_, fun free => ?_⟩
    · rw [run, if_neg owed]
    · rw [if_pos free] at run
      have own := switchPlan_ctx p at_
      obtain ⟨others, mgtu, sent⟩ := switchPlan_rest (s := s) (c := c) p
      have plan := own.plan
      refine ⟨_, run, ?_, ?_, ?_, ?_, ?_, own.index, own.commitCount, own.position, ?_, ?_, own.span, sent, others, mgtu, (execPlanSwitch_kept c s).of_next run⟩
      case refine_6 | refine_7 => rcases own.stands with st | st <;> (rw [st]; exact nofun)
      all_goals rw [plan] <;> rfl
  · have run := exec_planSwitch pend phase at_
    rw [bad] at run
    refine ⟨_, run, ?_, ?_, ?_, ?_, ?_, ?_, (execPlanSwitch_kept c s).of_next run⟩
    all_goals rw [refuseLoad_ctx] <;> rfl

end Sys2Proof.Machine


namespace Sys2Proof.Machine

/-! ## A drain that completes with a row without a slice (R184, R346, R359)

The statement asks that no fault waits after the one that was taken. Here the standby slice waits for the end of a drain to leave service,
and row 0 waits for it to be handed over; no context has a plan. The F fault begins the drain, which completes at once: the standby leaves
service, the row that waits for it is lost, and SLICE_LOST, a U fault, waits. -/

/-- The F fault that waits. -/
def waitingF : Ev := { code := 0x4001, cls := .f, unit := uMgtu 0 }

/-- After bring-up, an F fault waiting, with the standby to leave service at the end of the next drain and a row waiting for the standby. -/
def standbyAwaits : State :=
  { State.reset with
    aon := { State.reset.aon with valid := true, refOk := true }
    pwr := { State.reset.pwr with step := 7, vs := .vs0 }
    fst := { State.reset.fst with faultQ := [waitingF], await := [uSlice standby] }
    wce := { State.reset.wce with orders := [0] } }

theorem standbyAwaits_taken : standbyAwaits.early = false ∧ standbyAwaits.fst.state = .run ∧ (standbyAwaits.fst.slots.at 2).valid = false ∧
    standbyAwaits.aon.refOk = true := by decide +kernel

theorem standbyAwaits_faults : faultsAfter .faultTaken standbyAwaits ≠ some [] := by decide +kernel

/-- Refutes O47: the end of the drain that an F fault begins may raise a fault of its own, SLICE_LOST, which then waits. -/
theorem not_faultsAreTakenBySlots : ¬ Obligations.FaultsAreTakenBySlots := by
  unfold Obligations.FaultsAreTakenBySlots
  intro claim
  obtain ⟨late, runs, free, clock⟩ := standbyAwaits_taken
  obtain ⟨-, -, -, -, -, -, -, -, drains, -⟩ := claim standbyAwaits waitingF rfl late (by rw [runs]; exact nofun)
  obtain ⟨t, ⟨done, empty, -⟩, -⟩ := drains rfl free runs clock
  exact standbyAwaits_faults ((faultsAfter_of_next done).trans (congrArg some empty))

end Sys2Proof.Machine


namespace Sys2Proof.Machine

/-! # What the withdrawal of units leaves of the window rule (R351, R353) -/

section

variable {s t u : State}

/-- The window rule as VX_FST_HISTORY_CFG gives it. -/
def Fst.rule (f : Fst) : BitVec 14 × BitVec 4 × Bool := (f.window, f.threshold, f.cfgRefused)

/-- From `s` to `t` the window rule stays, while the reference clock runs: no stop takes the engine to VS4. -/
def Ruled (s t : State) : Prop := s.aon.refOk = true → t.aon.refOk = true ∧ t.fst.rule = s.fst.rule

theorem Ruled.refl (s : State) : Ruled s s := fun on => ⟨on, rfl⟩

theorem Ruled.trans (h : Ruled s t) (k : Ruled t u) : Ruled s u := fun on =>
  ⟨(k (h on).1).1, (k (h on).1).2.trans (h on).2⟩

theorem Ruled.each {α : Type} {f : State → α → State} {xs : List α} (step : ∀ t x, Ruled t (f t x)) : Ruled s (s.each xs f) :=
  State.each_induction (P := Ruled s) (.refl s) fun t x _ before => before.trans (step t x)

theorem Ruled.ite {p : Prop} [Decidable p] (yes : p → Ruled s t) (no : ¬p → Ruled s u) : Ruled s (if p then t else u) := by
  split
  · next h => exact yes h
  · next h => exact no h

theorem Ruled.of_same (aon : t.aon = s.aon) (rule : t.fst.rule = s.fst.rule) : Ruled s t := fun on => ⟨by rw [aon, on], rule⟩

theorem Fst.rule_of_marks {f g : Fst} (same : f.marks = g.marks) : f.rule = g.rule :=
  (congrArg Fst.rule same :)

theorem Serves.ruled (h : Serves s t) : Ruled s t := .of_same h.aon (Fst.rule_of_marks h.marks)

section

variable (s)

theorem Ruled.onWce (f : Wce → Wce) : Ruled s (s.onWce f) := .of_same rfl rfl
theorem Ruled.onFst {f : Fst → Fst} (rule : (f s.fst).rule = s.fst.rule) : Ruled s (s.onFst f) := .of_same rfl rule
theorem Ruled.emit (e : Ev) : Ruled s (s.emit e) := (Serves.emit s e).ruled
theorem Ruled.putItem (item : BitVec 16) (value : BitVec 64) : Ruled s (s.putItem item value) := .of_same rfl rfl
theorem Ruled.settleAll : Ruled s (settleAll s) :=
  .each fun t c => .of_same (Within.settle c t).aon (congrArg Fst.rule (settle_fst t c))

/-! ## Stops and drains -/

theorem Ruled.abortStopCtx (c : Ctx) (event : BitVec 16) : Ruled s (abortStopCtx s c event) := fun on =>
  ⟨(abortStopCtx_refOk s c event).trans on, Fst.rule_of_marks (abortStopCtx_marks on event)⟩

theorem Ruled.startDrain (cause : BitVec 3) : Ruled s (startDrain s cause) := fun on =>
  ⟨by rw [(Stops.startDrain s cause on).aon, on], Fst.rule_of_marks (startDrain_marks on cause)⟩

theorem Ruled.replaceAndDrain (cause : BitVec 3) (unit : UnitId) : Ruled s (replaceAndDrain s cause unit) := by
  have flagged (t : State) : Ruled t (setReplace t cause unit) := by
    unfold setReplace
    exact .ite (fun _ => .refl t) fun _ => .of_same rfl rfl
  have signed (e : Ev) : Ruled s (exportSig s e 3) := .of_same rfl rfl
  have told (t : State) : Ruled t (healthEvent t) := .of_same (Stops.healthEvent t).aon (congrArg Fst.rule (healthEvent_fst t))
  exact (signed _).trans ((flagged _).trans ((Ruled.startDrain _ cause).trans (told _)))

theorem Ruled.awaitRetire (u : UnitId) : Ruled s (awaitRetire s u) :=
  .ite (fun _ => .of_same rfl rfl) fun _ => (Serves.leaveService s u).ruled

/-! ## Slices and standby resources (R184, R356) -/

theorem sendVerdict_aon (a : Arr) (slice : Nat) (e : Ctx × BitVec 48 × BitVec 8) (seq : BitVec 32) (v : Verdict) (covers voids : Nat) (reason : BitVec 4) :
    (sendVerdict s a slice e seq v covers voids reason).aon = s.aon := by
  have served : (noteServed s a slice).aon = s.aon := by
    unfold noteServed
    split <;> rfl
  unfold sendVerdict
  dsimp only
  split
  · rfl
  · split <;> exact served

theorem loseTiles_rest (ps : List Arr) (only : Option Nat) (reason : BitVec 4) : (loseTiles s ps only reason).fst = s.fst ∧
    (loseTiles s ps only reason).aon = s.aon := by
  unfold loseTiles
  dsimp only
  refine State.each_induction (P := fun t => t.fst = s.fst ∧ t.aon = s.aon) ?_ fun t i _ before => ?_
  · exact State.each_induction (P := fun t => t.fst = s.fst ∧ t.aon = s.aon) ⟨rfl, rfl⟩ fun t a _ before => before
  · refine State.each_induction (P := fun t => t.fst = s.fst ∧ t.aon = s.aon) before fun t o _ before => ?_
    split
    · exact ⟨(sendVerdict_fst ..).trans before.1, (sendVerdict_aon ..).trans before.2⟩
    · exact before

theorem Ruled.sliceLost (r : Row) : Ruled s (sliceLost s r) := by
  unfold Machine.sliceLost
  refine .ite (fun _ => .refl s) fun _ => ?_
  have lost : Ruled s (loseTiles s (s.rotation (s.arbiterOf r) r) none 8) :=
    .of_same (loseTiles_rest s _ _ _).2 (congrArg Fst.rule (loseTiles_rest s _ _ _).1)
  exact (lost.trans (Serves.rowLost _ r _).ruled).trans
    ((Ruled.each fun t c => .abortStopCtx t c 0x2014).trans ((Ruled.awaitRetire _ _).trans (.replaceAndDrain _ 2 _)))

theorem Ruled.cutTestOf (ns : List Slice) : Ruled s (cutTestOf s ns) := .each fun t n => (Serves.cutSelftest t n).ruled

theorem Ruled.withdrawStandby {lose : State → Row → State} (lost : ∀ t r, Ruled t (lose t r)) : Ruled s (withdrawStandby lose s) := by
  unfold Machine.withdrawStandby
  dsimp only
  refine .trans ?_ (.each lost)
  have retired (ns : List Slice) : Ruled s (((Machine.cutTestOf s ns).onSlice standby (fun x => { x with state := .retired })).onWce
      (fun w => { w with handover := none, reason := 0, orders := [] })) :=
    (Ruled.cutTestOf s ns).trans ((Ruled.onWce _ _).trans (.onWce _ _))
  split
  · exact retired _
  · exact (retired _).trans (.ite (fun _ => lost _ _) fun _ => (Serves.giveBack _ _ _).ruled)

theorem Ruled.startTakeover (r : Row) (reason : BitVec 3) : Ruled s (startTakeover s r reason) := by
  unfold Machine.startTakeover
  exact ((Ruled.onWce s _).trans ((Ruled.onWce _ _).trans (.onWce _ _))).trans ((Serves.closeGroups _ r).ruled.trans (.emit _ _))

theorem Ruled.startRelease (r : Row) : Ruled s (startRelease s r) := by
  unfold Machine.startRelease
  exact ((Ruled.onWce s _).trans ((Ruled.onWce _ _).trans (.onWce _ _))).trans ((Serves.closeGroups _ r).ruled.trans (.emit _ _))

theorem Ruled.keepRow (r : Row) : Ruled s (keepRow s r) := by
  unfold Machine.keepRow
  exact ((Ruled.onWce s _).trans (.onWce _ _)).trans (Serves.retireUnit _ _).ruled

theorem Ruled.orderSlice (r : Row) : Ruled s (orderSlice s r) := by
  unfold Machine.orderSlice
  dsimp only
  refine .ite (fun _ => (Serves.retireUnit s _).ruled) fun _ => .ite (fun _ => .refl s) fun _ =>
    .ite (fun _ => (Ruled.cutTestOf s _).trans (.sliceLost _ r)) fun _ => .ite (fun _ => .onWce s _) fun _ => ?_
  split
  · exact .ite (fun _ => .ite (fun _ => .onWce s _) fun _ => .onWce s _) fun _ => .ite (fun _ => .sliceLost s r) fun _ => .onWce s _
  · split
    · exact (Ruled.cutTestOf s _).trans (.startTakeover _ r 1)
    · exact .ite (fun _ => (Ruled.cutTestOf s _).trans (.keepRow _ r)) fun _ => .ite (fun _ => .sliceLost s r) fun _ =>
        .ite (fun _ => .onWce s _) fun _ => (Ruled.onWce s _).trans ((Ruled.cutTestOf _ _).trans (.startRelease _ _))

theorem Ruled.idleBorrow (r : Row) : Ruled s (idleBorrow s r) := by
  have taken (d : Row) : Ruled s (takeDonor s r d) := by
    unfold takeDonor
    have lent := (Serves.cutPatterns s (fun q => q.unit = uArr (arrOf d (s.shd.rows.at d).reserve.toNat)) 2).trans
      ((Serves.onRow _ r (fun y => { y with borrow := true, donor := BitVec.ofNat 5 d.val })).trans
        ((Serves.onRow _ d (fun y => { y with lendTo := BitVec.ofNat 5 r.val })).trans (.noteUse _)))
    exact lent.ruled.trans (.ite (fun _ => .emit _ _) fun _ => .emit _ _)
  have refused : Ruled s (noDonor s r) :=
    ((Serves.onRow s r _).ruled.trans (.emit _ _)).trans (.each fun t c => .abortStopCtx t c 0x5105)
  unfold Machine.idleBorrow borrowCheck
  refine .ite (fun _ => .ite (fun _ => .refl s) fun _ => ?_) fun _ => .refl s
  split
  · exact taken _
  · exact refused

theorem Ruled.standbyFault (u : UnitId) {out : State → State} (leaves : ∀ t, Ruled t (out t)) : Ruled s (standbyFault s u out) := by
  have counted (m : BitVec 2) : Ruled s (s.onFst (fun f => { f with standby := m })) := .of_same rfl rfl
  unfold Machine.standbyFault
  dsimp only
  refine ((counted _).trans ((Ruled.putItem _ _ _).trans (.emit _ _))).trans (.ite (fun _ => (Ruled.awaitRetire _ u).trans (.replaceAndDrain _ 3 u))
    fun _ => .ite (fun _ => leaves _) fun _ => .awaitRetire _ u)

/-! ## A unit declared lasting (R356) -/

theorem Ruled.orderSubstitution (a : Arr) (logical : Nat) : Ruled s (orderSubstitution s a logical) := by
  have ordered (o : SubOrder) : Ruled s (s.onFst (fun f => { f with orders := f.orders ++ [o] })) := .of_same rfl rfl
  unfold Machine.orderSubstitution sparesExhausted
  exact .ite (fun _ => (Ruled.emit s _).trans ((Ruled.awaitRetire _ _).trans (.replaceAndDrain _ 2 _))) fun _ =>
    (ordered _).trans (.settleAll _)

theorem Ruled.unitLost (u : UnitId) (p : Plan → Bool) : Ruled s (unitLost s u p) := by
  unfold Machine.unitLost
  exact (Ruled.emit s _).trans ((Ruled.each fun t c => .abortStopCtx t c 0x100E).trans (Serves.retireUnit _ u).ruled)

theorem Ruled.onLgtu (l : Lnk) (f : Lgtu → Lgtu) : Ruled s (s.onLgtu l f) := .of_same rfl rfl

theorem Ruled.withCtxs (ctxs : Tab 32 CtxSt) : Ruled s { s with ctxs } := .of_same rfl rfl

theorem Ruled.onAllCtx (f : Ctx → CtxSt → CtxSt) : Ruled s (s.onAllCtx f) := .withCtxs s _

theorem Ruled.noteLinks : Ruled s (noteLinks s) := by
  unfold Machine.noteLinks
  exact .onAllCtx s _

theorem Ruled.onSensor (n : Sensor) (f : SensorSt → SensorSt) : Ruled s (s.onSensor n f) := .of_same rfl rfl

theorem Ruled.fenceLink (l : Lnk) (why : BitVec 16) : Ruled s (fenceLink s l why) := by
  have shut (t : State) : Ruled t (Machine.noteLinks (t.onLgtu l (fun x => { x with width := 0, fenced := true, open_ := [] }))) := (Ruled.onLgtu t l _).trans (.noteLinks _)
  unfold Machine.fenceLink
  dsimp only
  refine ((Serves.cutPatterns s _ 5).ruled.trans ((shut _).trans (.emit _ _))).trans (.ite (fun _ => .refl _) fun _ => (Ruled.emit _ _).trans (.each fun t c => .abortStopCtx t c 0x6005))

theorem Ruled.actOnLasting (u : UnitId) : Ruled s (actOnLasting s u) := by
  unfold Machine.actOnLasting
  split
  · split
    · exact .refl s
    · split
      · exact .orderSubstitution s _ _
      · exact .standbyFault s u fun t => (Serves.leaveService t u).ruled.trans (.idleBorrow _ _)
  · split
    · exact .orderSlice s _
    · exact .standbyFault s u fun t => (Ruled.withdrawStandby t fun t r => .sliceLost t r).trans (Serves.retireUnit _ u).ruled
  · exact .unitLost s u _
  · split
    · exact .refl s
    · exact ((Ruled.fenceLink s _ 2).trans (.onLgtu _ _ _)).trans (Serves.retireUnit _ u).ruled
  · split
    · exact .refl s
    · exact (Ruled.onSensor s _ _).trans (Serves.retireUnit _ u).ruled
  · exact .refl s
  · exact .ite (fun _ => .unitLost s u _) fun _ => (Serves.retireUnit s u).ruled

/-- UNIT_LASTING, as the recorder takes it in. -/
def lastingEvent (s : State) (u : UnitId) (cause : BitVec 8) : Ev :=
  { code := 0x1001, unit := u, p16 := cause.setWidth 16, p32 := BitVec.ofNat 32 (s.fst.stampsIn s.time.opsec u).length }

theorem Ruled.declareLasting (u : UnitId) (cause : BitVec 8) (event : BitVec 16) : Ruled s (declareLasting s u cause event) := by
  have condemned (v : Hist) : Ruled s (s.onFst (fun f => f.setUnit (histUnit u) v)) :=
    (Serves.onFst s (Fst.setUnit_faultQ ..) (Fst.setUnit_butUnits ..)).ruled
  have masked (t : State) (a : Arr) : Ruled t (t.onFst (fun f => { f with failed := f.failed.upd (rowOf a) (fun m => m ||| (1#26 <<< colOf a)) })) := .of_same rfl rfl
  unfold Machine.declareLasting
  refine .ite (fun _ => .refl s) fun _ => ?_
  have told := (condemned { (s.fst.unit (histUnit u)) with state := .lasting, cause := cause }).trans ((Ruled.emit _ (lastingEvent s (histUnit u) cause)).trans
    (Serves.histRecord _ (histUnit u) 4 0xFF event (cause.setWidth 32) none).ruled)
  refine told.trans ?_
  dsimp only
  split
  · exact (masked _ _).trans (.actOnLasting _ _)
  · exact .actOnLasting _ _

end

end

end Sys2Proof.Machine


namespace Sys2Proof.Machine

/-! # The fault steward's history, settings and reports (R336 to R362) -/

variable {s t : State}

/-! ## A unit's history entry (R350) -/

/-- What is found under a key once an entry has been put there. -/
theorem find?_put {α : Type} (l : List (UnitId × α)) (u : UnitId) (v : α) :
    (if l.any (fun p => p.1 = u) then l.map (fun p => if p.1 = u then (u, v) else p) else l ++ [(u, v)]).find? (fun p => p.1 = u) = some (u, v) := by
  split
  · next listed =>
    obtain ⟨p, mem, is⟩ := List.any_eq_true.1 listed
    have own : p.1 = u := of_decide_eq_true is
    obtain ⟨x, found⟩ : ∃ x, (l.map (fun p => if p.1 = u then (u, v) else p)).find? (fun p => p.1 = u) = some x := by
      rw [← Option.isSome_iff_exists, List.find?_isSome]
      exact ⟨(u, v), List.mem_map.2 ⟨p, mem, if_pos own⟩, by simp⟩
    obtain ⟨q, -, made⟩ := List.mem_map.1 (List.mem_of_find?_eq_some found)
    have named : x.1 = u := of_decide_eq_true (List.find?_some found :)
    by_cases changed : q.1 = u
    · rw [found, ← made, if_pos changed]
    · rw [if_neg changed] at made
      rw [made] at changed
      exact absurd named changed
  · next absent =>
    rw [List.find?_append, List.find?_eq_none.2 fun p mem is => absent (List.any_eq_true.2 ⟨p, mem, is⟩)]
    simp

theorem Fst.setUnit_unit (f : Fst) (u : UnitId) (v : Hist) : (f.setUnit u v).unit u = v := by
  have found := find?_put f.units u v
  unfold Fst.unit Fst.setUnit
  split <;> rename_i listed
  · rw [if_pos listed] at found
    exact congrArg (fun x => (Option.map Prod.snd x).getD {}) found
  · rw [if_neg listed] at found
    exact congrArg (fun x => (Option.map Prod.snd x).getD {}) found

/-- A unit's history entry after a record of it: only the newest outcome has changed. -/
theorem histRecord_unit (s : State) (u : UnitId) (kind col : BitVec 8) (event : BitVec 16) (param : BitVec 32) (ctx : Option Ctx) :
    (s.histRecord u kind col event param ctx).fst.unit u = { s.fst.unit u with lastOp := s.time.opsec, lastEvent := event } := by
  unfold State.histRecord
  exact Fst.setUnit_unit ..

/-- The entry of a unit after an outcome of it. -/
theorem entered_unit (s : State) (u : UnitId) (v : Hist) (kind col : BitVec 8) (event : BitVec 16) (param : BitVec 32) (ctx : Option Ctx) :
    ((s.onFst (fun f => f.setUnit u v)).histRecord u kind col event param ctx).fst.unit u = { v with lastOp := s.time.opsec, lastEvent := event } := by
  rw [histRecord_unit, show (s.onFst (fun f => f.setUnit u v)).fst = s.fst.setUnit u v from rfl, Fst.setUnit_unit]
  rfl

theorem Fst.retire_unit (f : Fst) (u : UnitId) (v : Hist) : (f.retire u v).unit u = v := by
  unfold Fst.retire
  split
  · exact Fst.setUnit_unit ..
  · show (Option.map Prod.snd (List.find? (fun p => p.1 = u) (f.units.filter (fun p => p.1 ≠ u) ++ [(u, v)]))).getD {} = v
    rw [List.find?_append, List.find?_eq_none.2 (by simp)]
    simp

theorem Fst.setUnit_histQ (f : Fst) (u : UnitId) (v : Hist) : (f.setUnit u v).histQ = f.histQ := by
  unfold Fst.setUnit
  split <;> rfl

theorem Fst.retire_histQ (f : Fst) (u : UnitId) (v : Hist) : (f.retire u v).histQ = f.histQ := by
  unfold Fst.retire
  split
  · exact Fst.setUnit_histQ ..
  · rfl

theorem histRecord_histQ (s : State) (u : UnitId) (kind col : BitVec 8) (event : BitVec 16) (param : BitVec 32) (ctx : Option Ctx) :
    (s.histRecord u kind col event param ctx).fst.histQ = s.fst.histQ := Fst.setUnit_histQ ..

theorem settleAll_fst (s : State) : (settleAll s).fst = s.fst := State.each_field (f := settle) (fun t => t.fst) settle_fst allCtx s

theorem settleAll_mgtu (s : State) : (settleAll s).mgtu = s.mgtu :=
  State.each_field (f := settle) (fun t => t.mgtu) (fun t c => (Within.settle c t).mgtu) allCtx s

theorem settleAll_thm (s : State) : (settleAll s).thm = s.thm :=
  State.each_field (f := settle) (fun t => t.thm) (fun t c => (congrArg State.thm (Within.settle c t).rest :)) allCtx s

/-! ## The queue to MC (R350, R355) -/

/-- The oldest entry has left the queue. -/
def entryTaken (s : State) (rest : List HistEntry) : State := s.onFst (fun f => { f with histQ := rest })

theorem exec_historyEntry {e : HistEntry} {rest : List HistEntry} (queue : s.fst.histQ = e :: rest)
    (runs : (s.fwp.procs.at mc).state = .hold ∨ (s.fwp.procs.at mc).state = .run) :
    exec .historyEntry s = .next (settleAll (takeHistory (entryTaken s rest) e)) := by
  show execHistoryEntry s = _
  unfold execHistoryEntry
  rw [queue]
  dsimp only
  rcases runs with state | state <;> (rw [state]; rfl)

theorem exec_historyEntry_waits (hold : (s.fwp.procs.at mc).state ≠ .hold) (run : (s.fwp.procs.at mc).state ≠ .run) : exec .historyEntry s = .next s := by
  show execHistoryEntry s = _
  unfold execHistoryEntry
  split
  · rfl
  · split
    · contradiction
    · contradiction
    · rfl

theorem histUnit_of_other {u : UnitId} (other : uClass u ≠ 1) : histUnit u = u := if_neg other

/-- The entry names the unit itself. -/
theorem HistEntry.named {e : HistEntry} (other : uClass e.unit ≠ 1) : { e with unit := histUnit e.unit } = e := by
  rw [histUnit_of_other other]

theorem takeHistory_undecided {e : HistEntry} (other : uClass e.unit ≠ 1) (act : e.act = .undecided) : takeHistory s e =
    (s.onFst (fun f => f.setUnit e.unit { s.fst.unit e.unit with undecided := (s.fst.unit e.unit).undecided + 1 })).histRecord
      e.unit 2 e.col e.event e.pass e.ctx := by
  unfold takeHistory
  dsimp only
  rw [histUnit_of_other other, act]

theorem takeHistory_report {e : HistEntry} (other : uClass e.unit ≠ 1) (act : e.act = .report) : takeHistory s e =
    (s.onFst (fun f => f.setUnit e.unit { s.fst.unit e.unit with reports := (s.fst.unit e.unit).reports + 1 })).histRecord
      e.unit 3 e.col e.event e.pass e.ctx := by
  unfold takeHistory
  dsimp only
  rw [histUnit_of_other other, act]

/-- A confirmed catch of a unit that stays in service. -/
def confirmKept (s : State) (e : HistEntry) : State :=
  (s.onFst (fun f => f.setUnit e.unit { s.fst.unit e.unit with
    stamps := confirmStamps (s.fst.unit e.unit).stamps e.opsec e.col (s.fst.window.toNat * 3600)
    confirmed := (s.fst.unit e.unit).confirmed + 1, state := .watch })).histRecord e.unit 1 e.col e.event e.pass e.ctx

theorem takeHistory_confirm {e : HistEntry} (other : uClass e.unit ≠ 1) (act : e.act = .confirm) (serves : (s.fst.unit e.unit).state ≠ .lasting)
    (kept : (s.fst.unit e.unit).state ≠ .retired) (few : s.fst.wouldMeet e.unit e.opsec e.col = false) : takeHistory s e = confirmKept s e := by
  unfold takeHistory
  rw [HistEntry.named other]
  dsimp only
  rw [act]
  show enterAndJudge s e = _
  unfold enterAndJudge
  dsimp only
  rw [few, if_neg (by simp)]
  unfold enterConfirmed
  dsimp only
  rw [if_neg (by simp [serves, kept])]
  rfl

theorem uSensor_toNat (n : Sensor) : (uSensor n).toNat = 6 * 4096 + n.val := by
  unfold uSensor unitId
  rw [BitVec.toNat_ofNat]
  omega

theorem uClass_uSensor (n : Sensor) : uClass (uSensor n) = 6 := by
  rw [uClass, uSensor_toNat]
  omega

theorem uIndex_uSensor (n : Sensor) : uIndex (uSensor n) = n.val := by
  rw [uIndex, uSensor_toNat]
  omega

theorem takeHistory_declare {e : HistEntry} {cause : BitVec 8} {n : Sensor} (act : e.act = .declare cause) (sensor : e.unit = uSensor n) :
    takeHistory s e = declareLasting s (uSensor n) cause e.event := by
  have other : uClass e.unit ≠ 1 := by rw [sensor, uClass_uSensor]; decide
  unfold takeHistory
  rw [HistEntry.named other]
  dsimp only
  rw [act]
  show declareLasting (if e.event = 0x600F then stopIfNoSpare s e else s) e.unit cause e.event = _
  have stays : stopIfNoSpare s e = s := by
    unfold stopIfNoSpare
    rw [sensor, uClass_uSensor]
    rfl
  rw [stays, ite_self, sensor]

/-! ## A sensor declared lasting (R356) -/

/-- A unit condemned: UNIT_LASTING and its history record. -/
def condemned (s : State) (u : UnitId) (cause : BitVec 8) (event : BitVec 16) : State :=
  ((s.onFst (fun f => f.setUnit u { f.unit u with state := .lasting, cause })).emit (lastingEvent s u cause)).histRecord u 4 0xFF event
    (cause.setWidth 32) none

theorem declareLasting_sensor (s : State) (n : Sensor) (cause : BitVec 8) (event : BitVec 16) (serves : (s.fst.unit (uSensor n)).state ≠ .lasting)
    (kept : (s.fst.unit (uSensor n)).state ≠ .retired) : declareLasting s (uSensor n) cause event =
      retireUnit ((condemned s (uSensor n) cause event).onSensor n (fun x => { x with state := .retired })) (uSensor n) := by
  have own : histUnit (uSensor n) = uSensor n := histUnit_of_other (by rw [uClass_uSensor]; decide)
  have act (t : State) : actOnLasting t (uSensor n) = retireUnit (t.onSensor n (fun x => { x with state := .retired })) (uSensor n) := by
    unfold actOnLasting
    rw [uClass_uSensor]
    show (match finOf 640 (uIndex (uSensor n)) with | none => t | some k => retireUnit (t.onSensor k (fun x => { x with state := .retired })) (uSensor n)) = _
    rw [uIndex_uSensor, finOf, dif_pos n.isLt]
  unfold declareLasting
  dsimp only
  rw [own, if_neg (by simp [Fst.declared, serves, kept]), act]
  congr 2
  rw [uClass_uSensor]
  split
  · next zero _ => cases zero
  · rfl

theorem retireUnit_leaves (s : State) (n : Sensor) : let t := retireUnit s (uSensor n)
    t.fst.histQ = s.fst.histQ ∧ (t.fst.unit (uSensor n)).state = .retired ∧ t.thm = s.thm ∧ s.rcd.intake ⊆ t.rcd.intake := by
  have eq : retireUnit s (uSensor n) = (s.onFst (fun f => f.retire (uSensor n) { s.fst.unit (uSensor n) with state := .retired })).histRecord (uSensor n) 4 0xFF
      (s.fst.unit (uSensor n)).lastEvent ((s.fst.unit (uSensor n)).cause.setWidth 32) none := by
    unfold retireUnit
    rw [uClass_uSensor]
    exact if_neg (by decide)
  dsimp only
  rw [eq]
  refine ⟨?_, ?_, rfl, List.Subset.refl _⟩
  · rw [histRecord_histQ]
    exact Fst.retire_histQ ..
  · rw [histRecord_unit]
    exact congrArg Hist.state (Fst.retire_unit ..)

/-- The sensor out of service. -/
theorem declareLasting_sensor_leaves (s : State) (n : Sensor) (cause : BitVec 8) (event : BitVec 16) (serves : (s.fst.unit (uSensor n)).state ≠ .lasting)
    (kept : (s.fst.unit (uSensor n)).state ≠ .retired) : let t := declareLasting s (uSensor n) cause event
    t.fst.histQ = s.fst.histQ ∧ (t.fst.unit (uSensor n)).state = .retired ∧ (t.thm.sensors.at n).state = .retired ∧
      s.stamp (lastingEvent s (uSensor n) cause) ∈ t.rcd.intake := by
  dsimp only
  rw [declareLasting_sensor s n cause event serves kept]
  have emitted : s.stamp (lastingEvent s (uSensor n) cause) ∈ (condemned s (uSensor n) cause event).rcd.intake :=
    (Appends.histRecord _ (uSensor n) 4 0xFF event (cause.setWidth 32) none).intake
      (State.emit_records (s.onFst (fun f => f.setUnit (uSensor n) { f.unit (uSensor n) with state := .lasting, cause })) (lastingEvent s (uSensor n) cause) rfl)
  have queue : (condemned s (uSensor n) cause event).fst.histQ = s.fst.histQ := by
    unfold condemned
    rw [histRecord_histQ, State.emit_record _ rfl]
    exact Fst.setUnit_histQ ..
  generalize condemned s (uSensor n) cause event = u at emitted queue
  have out := retireUnit_leaves (u.onSensor n (fun x => { x with state := .retired })) n
  obtain ⟨histQ, unit, thm, intake⟩ := out
  refine ⟨histQ.trans queue, unit, ?_, intake emitted⟩
  rw [thm]
  exact congrArg SensorSt.state (Tab.at_upd_same ..)

/-! ## Slots and settings (R343, R353) -/

theorem exec_fstSlotAck {k : Fin 3} (carried : s.gate (0x100100 + 0x20 * k.val) = .carry) (src : Src) :
    exec (.fstSlotAck src k) s = .next ((slotAck src k s).complete src (0x100100 + 0x20 * k.val) false 0 0) :=
  congrArg Host.Outcome.next (gatedWrite_of_carry carried src _ _)

theorem slotAck_refused {k : Fin 3} (src : Src) (drains : k = 2 ∧ (s.fst.state = .draining ∨ s.fst.state = .halted)) : slotAck src k s =
    (s.onFst (fun f => { f with refused := true })).logRefusal mc none src 0x100140 := if_pos drains

/-- A slot freed. -/
def slotFreed (s : State) (k : Fin 3) : State :=
  s.onFst (fun f => { f with slots := f.slots.upd k (fun x => { x with valid := false }), refused := f.refused && k ≠ 2 })

theorem slotAck_frees {k : Fin 3} (src : Src) (may : ¬ (k = 2 ∧ (s.fst.state = .draining ∨ s.fst.state = .halted))) :
    (slotAck src k s).fst = (slotFreed s k).fst ∧ (slotAck src k s).ctxs = s.ctxs := by
  have told (t : State) : (healthEvent t).fst = t.fst ∧ (healthEvent t).ctxs = t.ctxs := by
    refine ⟨healthEvent_fst t, ?_⟩
    unfold healthEvent
    split <;> rfl
  have health {p : Prop} [Decidable p] (t : State) (f : Aon → Aon) : (if p then t.setAon f else t).fst = t.fst ∧ (if p then t.setAon f else t).ctxs = t.ctxs := by
    split
    · exact ⟨State.setAon_fst .., State.setAon_ctxs ..⟩
    · exact ⟨rfl, rfl⟩
  unfold slotAck
  rw [if_neg may]
  dsimp only
  rw [(told _).1, (told _).2, (health _ _).1, (health _ _).2]
  exact ⟨rfl, rfl⟩

/-- VX_FST_HISTORY_CFG stored and recorded, before the rule is applied to the units. -/
def ruleStored (s : State) (w t : Nat) : State :=
  let u := ((s.onFst (fun f => { f with window := BitVec.ofNat 14 w, threshold := BitVec.ofNat 4 t, cfgRefused := false })).putItem 4
    (BitVec.ofNat 64 (w + 16384 * t))).emit { code := 0x100D, unit := uFst, p16 := BitVec.ofNat 16 t, p32 := BitVec.ofNat 32 w }
  u.onFst (fun f => f.prune u.time.opsec)

/-- The units that reach the threshold by the stored rule. -/
def unitsMet (s : State) (t : Nat) : List (UnitId × Hist) :=
  s.fst.units.filter (fun p => p.2.state ≠ .lasting ∧ p.2.state ≠ .retired ∧ t ≤ s.fst.inWindow s.time.opsec p.1)

theorem historyCfg_stored (src : Src) (v : Reg) (idle : s.loadedCtxs = []) :
    let u := ruleStored s (max 1 (min 8760 (field v 0 14 : BitVec 14).toNat)) (max 1 (min 8 (field v 14 4 : BitVec 4).toNat))
    historyCfg src v s = u.each (unitsMet u (max 1 (min 8 (field v 14 4 : BitVec 4).toNat))) (fun s p => declareLasting s p.1 2 p.2.lastEvent) :=
  if_neg (Classical.not_not.2 idle)

theorem ruleStored_rule (s : State) (w t : Nat) : (ruleStored s w t).fst.rule = (BitVec.ofNat 14 w, BitVec.ofNat 4 t, false) ∧
    (ruleStored s w t).aon = s.aon := by
  unfold ruleStored
  refine ⟨?_, State.emit_aon ..⟩
  exact Fst.rule_of_marks (emit_marks _ _)

/-- While the reference clock runs the rule stands when it has been applied to the units. -/
theorem historyCfg_rule (src : Src) (v : Reg) (idle : s.loadedCtxs = []) (clock : s.aon.refOk = true) : (historyCfg src v s).fst.rule =
    (BitVec.ofNat 14 (max 1 (min 8760 (field v 0 14 : BitVec 14).toNat)), BitVec.ofNat 4 (max 1 (min 8 (field v 14 4 : BitVec 4).toNat)), false) := by
  rw [historyCfg_stored src v idle]
  obtain ⟨rule, aon⟩ := ruleStored_rule s (max 1 (min 8760 (field v 0 14 : BitVec 14).toNat)) (max 1 (min 8 (field v 14 4 : BitVec 4).toNat))
  generalize ruleStored s _ _ = u at rule aon
  have kept : Ruled u (u.each (unitsMet u (max 1 (min 8 (field v 14 4 : BitVec 4).toNat))) (fun s p => declareLasting s p.1 2 p.2.lastEvent)) :=
    .each fun t p => Ruled.declareLasting t p.1 2 p.2.lastEvent
  exact ((kept (by rw [aon, clock])).2).trans rule

/-! ## Reports of the T9 (R336) -/

/-- An array's report, as the fault steward takes it in. -/
def arrayEvent (s : State) (a : Arr) (code : BitVec 16) (cls : Cls) (t9 : BitVec 16) (c : Option Ctx) : Ev :=
  { code, cls, unit := uArr a, ctx := c, p16 := t9, p32 := s.passLow c }

/-- An array's report in its history. -/
def arrayEntry (s : State) (a : Arr) (code : BitVec 16) (c : Option Ctx) : HistEntry :=
  { unit := uArr a, act := .report, event := code, pass := s.passLow c, ctx := c, tick := s.time.tick, opsec := s.time.opsec }

theorem arrayReport_eq (s : State) (a : Arr) (code : BitVec 16) {cls : Cls} (fault : cls ≠ .record) (t9 : BitVec 16) (c : Option Ctx) :
    arrayReport s a code cls t9 c = { s with fst := { s.fst with
      faultQ := s.fst.faultQ ++ [s.stamp (arrayEvent s a code cls t9 c)], histQ := s.fst.histQ ++ [arrayEntry s a code c] } } := by
  unfold arrayReport
  dsimp only
  rw [State.emit_fault _ (by exact fault)]
  rfl

/-! ## Tiles not produced (R177, R336) -/

theorem sendVerdict_ports (s : State) (a : Arr) (slice : Nat) (e : Ctx × BitVec 48 × BitVec 8) (seq : BitVec 32) (covers : Nat) (reason : BitVec 4) :
    (sendVerdict s a slice e seq .notProduced covers 0 reason).wce.ports = s.wce.ports := by
  have served : (noteServed s a slice).wce.ports = s.wce.ports := by
    unfold noteServed
    split <;> rfl
  unfold sendVerdict
  split
  · rfl
  · exact served

theorem sendVerdict_out (s : State) (a : Arr) (slice : Nat) (e : Ctx × BitVec 48 × BitVec 8) (seq : BitVec 32) (covers : Nat) (reason : BitVec 4) :
    s.out ⊆ (sendVerdict s a slice e seq .notProduced covers 0 reason).out := by
  have served : (noteServed s a slice).out = s.out := by
    unfold noteServed
    split <;> rfl
  unfold sendVerdict
  split
  · exact List.Subset.refl _
  · rw [← served]
    exact List.subset_append_left ..

/-- What one step of a run sends for a port as it stands, the whole run sends. -/
theorem each_sends {α : Type} {f : State → α → State} {o : Out} (ports : ∀ t x, (f t x).wce.ports = t.wce.ports) (grows : ∀ t x, t.out ⊆ (f t x).out)
    {xs : List α} {x : α} (mem : x ∈ xs) (s : State) (sends : ∀ t, t.wce.ports = s.wce.ports → o ∈ (f t x).out) : o ∈ (s.each xs f).out := by
  have rest (t : State) (ys : List α) : t.out ⊆ (t.each ys f).out :=
    State.each_induction (P := fun u => t.out ⊆ u.out) (List.Subset.refl _) fun u y _ before => List.Subset.trans before (grows u y)
  induction xs generalizing s with
  | nil => cases mem
  | cons y ys ih =>
    rw [State.each_cons]
    rcases List.mem_cons.1 mem with rfl | later
    · exact rest _ ys (sends s rfl)
    · exact ih later _ fun t same => sends t (same.trans (ports s y))

/-- The verdicts of a port's lost tiles. -/
def sendLost (a : Arr) (owed : List (Nat × (Ctx × BitVec 48 × BitVec 8) × BitVec 32 × Nat)) (reason : BitVec 4) (s : State) (i : Nat) : State :=
  match owed[i]? with
  | some (n, e, seq, k) => sendVerdict s a n e seq .notProduced k 0 reason
  | none => s

theorem loseTiles_one (s : State) (a : Arr) (reason : BitVec 4) : loseTiles s [a] none reason =
    (s.onPort a (Port.lose none)).each (List.range ((s.wce.ports.at a).owed none).length) (sendLost a ((s.wce.ports.at a).owed none) reason) := by
  unfold loseTiles
  dsimp only [List.map, List.foldl]
  rw [Nat.zero_max]
  rfl

theorem sendLost_ports (a : Arr) (owed : List (Nat × (Ctx × BitVec 48 × BitVec 8) × BitVec 32 × Nat)) (reason : BitVec 4) (s : State) (i : Nat) :
    (sendLost a owed reason s i).wce.ports = s.wce.ports := by
  unfold sendLost
  split
  · exact sendVerdict_ports ..
  · rfl

theorem sendLost_out (a : Arr) (owed : List (Nat × (Ctx × BitVec 48 × BitVec 8) × BitVec 32 × Nat)) (reason : BitVec 4) (s : State) (i : Nat) :
    s.out ⊆ (sendLost a owed reason s i).out := by
  unfold sendLost
  split
  · exact sendVerdict_out ..
  · exact List.Subset.refl _

/-- A port that loses its tiles is empty. -/
theorem loseTiles_port (s : State) (a : Arr) (reason : BitVec 4) : ((loseTiles s [a] none reason).wce.ports.at a).cur = none ∧
    ((loseTiles s [a] none reason).wce.ports.at a).park = [] := by
  have ports : (loseTiles s [a] none reason).wce.ports = (s.onPort a (Port.lose none)).wce.ports := by
    rw [loseTiles_one]
    exact State.each_field (fun t => t.wce.ports) (sendLost_ports a _ reason) _ _
  rw [ports, show (s.onPort a (Port.lose none)).wce.ports.at a = Port.lose none (s.wce.ports.at a) from Tab.at_upd_same ..]
  simp [Port.lose, Tile.checkedBy]

/-- Each execution of the port's tiles has a verdict, unless the port has sent a catch for it. -/
theorem loseTiles_sends {a : Arr} {x : Tile} (open_ : x ∈ (s.wce.ports.at a).open_) (checked : x.monitor = false)
    (first : (s.wce.ports.at a).caught.contains x.exec = false) (reason : BitVec 4) :
    ∃ f, Out.tileVerdict f ∈ (loseTiles s [a] none reason).out ∧ f.ctx = x.desc.ctx ∧ f.verdict = .notProduced := by
  obtain ⟨n, seq, k, owes⟩ : ∃ n seq k, (n, x.exec, seq, k) ∈ (s.wce.ports.at a).owed none := by
    unfold Port.owed
    refine ⟨_, _, _, List.mem_map.2 ⟨x.exec, ?_, rfl⟩⟩
    rw [List.mem_eraseDups]
    exact List.mem_map.2 ⟨x, List.mem_filter.2 ⟨open_, by simp [Tile.checkedBy, checked]⟩, rfl⟩
  obtain ⟨i, short, is⟩ := List.mem_iff_getElem.1 owes
  refine ⟨verdictFlit a x.exec seq .notProduced k 0 reason, ?_, rfl, rfl⟩
  rw [loseTiles_one]
  refine each_sends (sendLost_ports a _ reason) (sendLost_out a _ reason) (List.mem_range.2 short) _ fun t same => ?_
  unfold sendLost
  rw [List.getElem?_eq_getElem short, is]
  refine sendVerdict_sends a ?_ ..
  rw [same, show (s.onPort a (Port.lose none)).wce.ports.at a = Port.lose none (s.wce.ports.at a) from Tab.at_upd_same ..]
  exact first

/-! ## O48 -/

theorem State.putItem_times (s : State) : s.storeTimes = { s with rcd := if s.rcd.flashOk then { s.rcd with
      flash := (s.rcd.flash.putItem 2 (s.time.opsec.setWidth 64) s.time.tick).putItem 3 (s.time.wall.setWidth 64) s.time.tick }
    else { s.rcd with confOut := s.rcd.confOut ++ [(2, s.time.opsec.setWidth 64, s.time.tick), (3, s.time.wall.setWidth 64, s.time.tick)] } } := by
  unfold State.storeTimes State.putItem State.onRec
  by_cases works : s.rcd.flashOk = true
  · simp [works]
  · simp [works]

/-- A condition of a storm of corrected errors (R336). -/
def stormEvent (s : State) (g : Gtu) (count addr : Nat) : Ev :=
  s.stamp { code := 0x3003, cls := .c, unit := uMgtu g, p16 := satBits 16 count, p32 := BitVec.ofNat 32 (addr / 4096) }

/-- An error of the host port (R336). -/
def pcieEvent (s : State) (code : BitVec 16) (cls : Cls) (bit : BitVec 16) : Ev := s.stamp { code, cls, unit := uHost, p16 := bit }

/-- Settles O48: each entry of the history changes its unit's entry and nothing the stops keep; the rule stays when units are declared by
it; a report of an array is an event and a history entry. -/
theorem faultStewardHistoryAndReports : Obligations.FaultStewardHistoryAndReports := by
  unfold Obligations.FaultStewardHistoryAndReports
  refine ⟨fun s src k carried => ?_, fun s e rest queue runs other => ?_, fun s hold run => exec_historyEntry_waits hold run, fun s src v carried => ?_,
    fun s => congrArg Host.Outcome.next (State.putItem_times s), fun s a code c => ?_, fun s a code c => ?_, fun s g count addr => ?_, fun s bit => ?_,
    fun s src v carried => congrArg Host.Outcome.next (gatedWrite_of_carry carried src v _), fun s => rfl⟩
  · have run := exec_fstSlotAck carried src
    refine ⟨fun may => ?_, fun two drains => ?_⟩
    · obtain ⟨fst, ctxs⟩ := slotAck_frees (s := s) (k := k) src (by
        rintro ⟨two, drains⟩
        rcases may with not_two | state | state
        · exact not_two two
        · rw [state] at drains
          simp at drains
        · rw [state] at drains
          simp at drains)
      refine ⟨_, run, ?_, fun j differs => ?_, ?_, ?_, (execFstSlotAck_kept src k s).of_next run⟩
      · rw [State.complete_fst, fst]
        exact congrArg Slot3.valid (Tab.at_upd_same ..)
      · rw [State.complete_fst, fst]
        exact Tab.at_upd_other _ _ differs
      · rw [State.complete_fst, fst]
        rfl
      · rw [State.complete_ctxs, ctxs]
    · rw [slotAck_refused src ⟨two, drains⟩] at run
      refine ⟨_, run, ?_, ?_, ?_, (execFstSlotAck_kept src k s).of_next run⟩
      · rw [State.complete_fst]
        rfl
      · rw [State.complete_ctxs]
        rfl
      · rw [State.complete_aon]
        rfl
  · have run := exec_historyEntry queue runs
    refine ⟨fun act => ?_, fun act => ?_, fun act serves kept few => ?_, fun cause n act sensor serves kept => ?_⟩
    · rw [takeHistory_undecided other act] at run
      refine ⟨_, run, ?_, ?_, ?_, ?_, ?_, (execHistoryEntry_kept s).of_next run⟩
      case refine_5 => rw [settleAll_mgtu]; rfl
      case refine_1 => rw [settleAll_fst, histRecord_histQ]; exact Fst.setUnit_histQ ..
      all_goals
        rw [settleAll_fst, entered_unit]
        rfl
    · rw [takeHistory_report other act] at run
      refine ⟨_, run, ?_, ?_, (execHistoryEntry_kept s).of_next run⟩
      · rw [settleAll_fst, histRecord_histQ]
        exact Fst.setUnit_histQ ..
      · rw [settleAll_fst, entered_unit]
        rfl
    · rw [takeHistory_confirm (s := entryTaken s rest) other act serves kept few] at run
      refine ⟨_, run, ?_, ?_, ?_, ?_, (execHistoryEntry_kept s).of_next run⟩
      case refine_1 =>
        rw [settleAll_fst, confirmKept, histRecord_histQ]
        exact Fst.setUnit_histQ ..
      all_goals rw [settleAll_fst, confirmKept, entered_unit] <;> rfl
    · have left := declareLasting_sensor_leaves (entryTaken s rest) n cause e.event (sensor ▸ serves) (sensor ▸ kept)
      rw [takeHistory_declare act sensor] at run
      dsimp only at left
      generalize declareLasting (entryTaken s rest) (uSensor n) cause e.event = t at run left
      obtain ⟨histQ, unit, thm, intake⟩ := left
      refine ⟨_, run, ?_, ?_, ?_, ⟨(entryTaken s rest).stamp (lastingEvent (entryTaken s rest) (uSensor n) cause), ?_, rfl, sensor.symm, rfl⟩, (execHistoryEntry_kept s).of_next run⟩
      · rw [settleAll_fst, histQ]
        rfl
      · rw [settleAll_fst, sensor, unit]
      · rw [settleAll_thm, thm]
      · exact (Stops.settleAll t).intake intake
  · have run : exec (.fstHistoryCfgWrite src v) s = .next ((historyCfg src v s).complete src 0x100010 false 0 0) :=
      congrArg Host.Outcome.next (gatedWrite_of_carry carried src v _)
    refine ⟨fun idle clock => ?_, fun loaded => ?_⟩
    · have rule := historyCfg_rule src v idle clock
      refine ⟨_, run, ?_, ?_, ?_, (execFstHistoryCfgWrite_kept src v s).of_next run⟩
      all_goals rw [State.complete_fst]
      · exact (congrArg Prod.fst rule :)
      · exact (congrArg (fun r => r.2.1) rule :)
      · exact (congrArg (fun r => r.2.2) rule :)
    · rw [show historyCfg src v s = (s.onFst (fun f => { f with cfgRefused := true })).logRefusal mc none src 0x100010 from if_pos loaded] at run
      refine ⟨_, run, ?_, ?_, ?_, (execFstHistoryCfgWrite_kept src v s).of_next run⟩
      · rw [State.complete_fst]
        rfl
      · rw [State.complete_ctxs]
        rfl
      · rw [State.complete_rcd]
        rfl
  · exact ⟨_, s.stamp (arrayEvent s a 0x3001 .c code c), arrayEntry s a 0x3001 c, rfl, arrayReport_eq s a 0x3001 (cls := .c) nofun code c, rfl, rfl, rfl, rfl, rfl, rfl, rfl⟩
  · have run : exec (.arraySequencer a code c) s = .next (arrayReport (loseTiles s [a] none 0) a 0x3002 .u code c) := rfl
    obtain ⟨cur, park⟩ := loseTiles_port s a 0
    have sends {x : Tile} (open_ : x ∈ (s.wce.ports.at a).open_) (checked : x.monitor = false)
        (first : (s.wce.ports.at a).caught.contains x.exec = false) := loseTiles_sends open_ checked first 0
    rw [arrayReport_eq _ a 0x3002 (by exact nofun)] at run
    refine ⟨_, run, cur, park, ⟨_, List.mem_append_right _ (List.mem_singleton_self _), rfl, rfl, rfl, rfl⟩,
      ⟨_, List.mem_append_right _ (List.mem_singleton_self _), rfl, rfl⟩, fun x => sends,
      (execArraySequencer_kept a code c s).of_next run⟩
  · refine ⟨fun few => if_pos few, fun many => ⟨stormEvent s g count addr, rfl, rfl, rfl, rfl, ?_⟩⟩
    refine (if_neg (Nat.not_lt.2 many)).trans (congrArg Host.Outcome.next ?_)
    rw [State.emit_fault _ (by exact nofun)]
    rfl
  · refine ⟨pcieEvent s 0x3005 .c bit, pcieEvent s 0x3006 .u bit, rfl, rfl, rfl, rfl, rfl, rfl, rfl, rfl, congrArg Host.Outcome.next ?_,
      congrArg Host.Outcome.next ?_⟩
    · rw [State.emit_fault _ (by exact nofun)]
      rfl
    · rw [State.emit_fault _ (by exact nofun)]
      rfl

end Sys2Proof.Machine


namespace Sys2Proof.Machine

/-! # Field screening (R363 to R381) -/

variable {s t : State}

/-! ## A unit's screening entry -/

theorem Scr.setUnit_unit (x : Scr) (u : UnitId) (v : ScrUnit) : (x.setUnit u v).unit u = v := by
  have found := find?_put x.units u v
  unfold Scr.unit Scr.setUnit
  split <;> rename_i listed
  · rw [if_pos listed] at found
    exact congrArg (fun y => (Option.map Prod.snd y).getD {}) found
  · rw [if_neg listed] at found
    exact congrArg (fun y => (Option.map Prod.snd y).getD {}) found

/-- The rotation but for the units, the rotation's number and its beginning. -/
def Scr.butRotation (x : Scr) : Scr := { x with units := [], rotation := 0, rotFrom := 0 }

theorem Scr.setUnit_butRotation (x : Scr) (u : UnitId) (v : ScrUnit) : (x.setUnit u v).butRotation = x.butRotation := by
  unfold Scr.setUnit
  split <;> rfl

theorem find?_map_values {α β : Type} (f : α → β) (l : List (UnitId × α)) (u : UnitId) :
    (l.map (fun e => (e.1, f e.2))).find? (fun p => p.1 = u) = (l.find? (fun p => p.1 = u)).map (fun e => (e.1, f e.2)) := by
  rw [List.find?_map]
  rfl

/-- A unit whose pattern of this rotation is taken back. -/
def ScrUnit.anew (x : ScrUnit) : ScrUnit := { x with round := false }

/-- A rotation that ends takes back only that units have completed a pattern in it. -/
theorem rotationCheck_unit (s : State) (u : UnitId) : ∃ round, (rotationCheck s).scr.unit u = { s.scr.unit u with round } := by
  unfold rotationCheck
  split
  · refine ⟨false, ?_⟩
    rw [State.emit_scr]
    show (Option.map Prod.snd (List.find? (fun p => p.1 = u) (s.scr.units.map (fun e => (e.1, e.2.anew))))).getD {} = (s.scr.unit u).anew
    rw [find?_map_values ScrUnit.anew]
    unfold Scr.unit
    cases s.scr.units.find? (fun p => p.1 = u) <;> rfl
  · exact ⟨_, rfl⟩

theorem rotationCheck_scr (s : State) : (rotationCheck s).scr.butRotation = s.scr.butRotation := by
  unfold rotationCheck
  split
  · rw [State.emit_scr]
    rfl
  · rfl

theorem rotationCheck_fst (s : State) : (rotationCheck s).fst = s.fst := by
  unfold rotationCheck
  split
  · rw [State.emit_record _ rfl]
    rfl
  · rfl

/-! ## A pattern begins (R365 to R371) -/

/-- The pattern that begins on a unit. -/
def startedPattern (s : State) (u : UnitId) (pattern : BitVec 16) (field held : Bool) : Pattern :=
  { unit := u, pattern, start := s.time.tick, retest := (s.scr.unit u).retest.isSome && field, round := s.scr.rotation, field, held }

theorem beginPattern_eq (s : State) (u : UnitId) (pattern : BitVec 16) (field held : Bool) : beginPattern s u pattern field held =
    (s.onScr (fun x => { x with running := x.running ++ [startedPattern s u pattern field held]
                                testNow := if x.testNow = some u ∧ field then none else x.testNow })).send (.isolate u pattern true) := rfl

theorem fieldPattern_of_retest {u : UnitId} {pat : BitVec 16} {x : BitVec 64} (retest : (s.scr.unit u).retest = some (pat, x)) : s.fieldPattern u = pat := by
  unfold State.fieldPattern
  rw [retest]

theorem fieldPattern_of_none {u : UnitId} (none : (s.scr.unit u).retest = none) : s.fieldPattern u = rotationPattern (s.unitKind u) s.scr.rotation := by
  unfold State.fieldPattern
  rw [none]

theorem unitId_toNat {cls i : Nat} (small : cls * 4096 + i < 65536) : (unitId cls i).toNat = cls * 4096 + i := by
  unfold unitId
  rw [BitVec.toNat_ofNat]
  exact Nat.mod_eq_of_lt small

theorem uClass_uMgtu (g : Gtu) : uClass (uMgtu g) = 3 := by
  unfold uClass uMgtu
  rw [unitId_toNat (by omega)]
  omega

theorem uArr_toNat (a : Arr) : (uArr a).toNat = a.val := by
  unfold uArr
  rw [unitId_toNat (by omega)]
  omega

theorem uClass_uArr (a : Arr) : uClass (uArr a) = 0 := by
  rw [uClass, uArr_toNat]
  omega

theorem finOf_uArr (a : Arr) : finOf 624 (uIndex (uArr a)) = some a := by
  have index : uIndex (uArr a) = a.val := by
    rw [uIndex, uArr_toNat]
    omega
  rw [index, finOf, dif_pos a.isLt]

theorem uArr_injective {a b : Arr} (same : uArr a = uArr b) : a = b := by
  have nats := congrArg BitVec.toNat same
  rw [uArr_toNat, uArr_toNat] at nats
  exact Fin.ext nats

theorem screenStart_guard {u : UnitId} (eligible : s.eligible u = true) (runs : s.tcRuns = true) (top : s.pwr.vs = .vs0)
    (free : s.scr.running.any (fun q => q.unit = u) = false) :
    ¬ (!s.eligible u || !s.tcRuns || s.pwr.vs ≠ .vs0 || s.scr.running.any (fun q => q.unit = u)) = true := by
  rw [eligible, runs, top, free]
  decide

theorem exec_screenPatternStart_gtu {g : Gtu} (eligible : s.eligible (uMgtu g) = true) (runs : s.tcRuns = true) (top : s.pwr.vs = .vs0)
    (free : s.scr.running.any (fun q => q.unit = uMgtu g) = false) (slot : Bool)
    (due : (s.scr.unit (uMgtu g)).round = false ∨ (s.scr.unit (uMgtu g)).retest ≠ none ∨ s.scr.testNow = some (uMgtu g)) :
    exec (.screenPatternStart (uMgtu g) slot) s = .next (beginPattern s (uMgtu g) (s.fieldPattern (uMgtu g)) true false) := by
  have isDue : s.gtuDue (uMgtu g) = true := by
    unfold State.gtuDue
    rw [uClass_uMgtu]
    rcases due with round | retest | named
    · simp [round]
    · simp [Option.isSome_iff_ne_none, retest]
    · simp [named]
  show execScreenPatternStart (uMgtu g) slot s = _
  unfold execScreenPatternStart
  rw [if_neg (screenStart_guard eligible runs top free), uClass_uMgtu]
  exact if_pos isDue

theorem exec_screenPatternStart_arr {a : Arr} (eligible : s.eligible (uArr a) = true) (runs : s.tcRuns = true) (top : s.pwr.vs = .vs0)
    (free : s.scr.running.any (fun q => q.unit = uArr a) = false) (slot : Bool) : exec (.screenPatternStart (uArr a) slot) s =
      if slot then .next (match s.screenSlot a with | some (c, y) => beginSlot s a c y | none => s)
      else if s.scr.running.any (fun q => q.field && uClass q.unit = 0) ∨ s.chosenArray ≠ some a then .next s
      else .next (beginPattern s (uArr a) (s.fieldPattern (uArr a)) true (s.ownerRests a)) := by
  show execScreenPatternStart (uArr a) slot s = _
  unfold execScreenPatternStart
  rw [if_neg (screenStart_guard eligible runs top free), uClass_uArr]
  show (match finOf 624 (uIndex (uArr a)) with | none => _ | some a => _) = _
  rw [finOf_uArr] <;> rfl

theorem screenSlot_is {a : Arr} {c : Ctx} {y : PatternAt} (slot : s.screenSlot a = some (c, y)) :
    (s.ctx c).exec.tests.contains y = false ∧ y.arr = a.val ∧ (s.ctx c).pass.st = .running := by
  unfold State.screenSlot at slot
  dsimp only at slot
  split at slot
  · cases slot
  · next d owner =>
    split at slot
    · cases slot
    · next p plan =>
      split at slot
      · next free =>
        obtain ⟨z, found, is⟩ := Option.map_eq_some_iff.1 slot
        cases is
        have fits := List.find?_some found
        simp at fits
        exact ⟨by simpa using fits.1.2, fits.1.1.2, free.2.2⟩
      · cases slot

/-- A context that runs a pattern of its plan notes it. -/
def slotNoted (s : State) (c : Ctx) (y : PatternAt) : State := (reachOffset s c y.start).onExec c (fun e => { e with tests := e.tests ++ [y] })

theorem slotNoted_tests (s : State) (c : Ctx) (y : PatternAt) : ((slotNoted s c y).ctx c).exec.tests = (s.ctx c).exec.tests ++ [y] := by
  have exec_ : ((reachOffset s c y.start).ctx c).exec = (s.ctx c).exec := by
    unfold reachOffset
    split
    · rw [State.onPos_ctx_same]
    · rfl
  unfold slotNoted
  rw [State.onExec_ctx_same, exec_]

theorem slotNoted_others (s : State) {c d : Ctx} (other : d ≠ c) (y : PatternAt) : (slotNoted s c y).ctx d = s.ctx d := by
  unfold slotNoted reachOffset
  rw [State.onExec_ctx_other _ _ other]
  split
  · exact State.onPos_ctx_other _ _ other
  · rfl

theorem beginSlot_eq (s : State) (a : Arr) (c : Ctx) (y : PatternAt) : beginSlot s a c y =
    beginPattern (slotNoted s c y) (uArr a) (BitVec.ofNat 16 y.pattern) false false := rfl

theorem reachOffset_scr (s : State) (c : Ctx) (n : Nat) : (reachOffset s c n).scr = s.scr := by
  unfold reachOffset
  split <;> rfl

/-- The array that TC chooses: a retest first, then the array named, then the oldest. -/
theorem chosenArray_cases {a : Arr} (chosen : s.chosenArray = some a) : let l := (List.finRange 624).filter s.testable
    a ∈ l ∧ ((s.scr.unit (uArr a)).retest.isSome = true ∨ (∀ b ∈ l, (s.scr.unit (uArr b)).retest = none) ∧ (s.scr.testNow = some (uArr a) ∨
      (∀ b ∈ l, s.scr.testNow ≠ some (uArr b)) ∧ l.find? (fun a => l.all (fun b => decide (s.lastRank a ≤ s.lastRank b))) = some a)) := by
  unfold State.chosenArray at chosen
  dsimp only at chosen ⊢
  generalize (List.finRange 624).filter s.testable = l at chosen ⊢
  split at chosen
  · next b found =>
    cases chosen
    exact ⟨List.mem_of_find?_eq_some found, .inl (List.find?_some found :)⟩
  · next unfound =>
    have noRetest : ∀ b ∈ l, (s.scr.unit (uArr b)).retest = none := fun b mem => by simpa using List.find?_eq_none.1 unfound b mem
    split at chosen
    · next b found =>
      cases chosen
      exact ⟨List.mem_of_find?_eq_some found, .inr ⟨noRetest, .inl (of_decide_eq_true (List.find?_some found :))⟩⟩
    · next unnamed =>
      exact ⟨List.mem_of_find?_eq_some chosen, .inr ⟨noRetest, .inr ⟨fun b mem => by simpa using List.find?_eq_none.1 unnamed b mem, chosen⟩⟩⟩

/-- The first of a sorted list that satisfies a condition is the least. -/
theorem find?_finRange_least {n : Nat} {p q : Fin n → Bool} {a b : Fin n} (found : ((List.finRange n).filter p).find? q = some a)
    (pb : p b = true) (qb : q b = true) : a ≤ b := by
  rw [List.find?_filter] at found
  obtain ⟨-, before, after, split_, none⟩ := List.find?_eq_some_iff_append.1 found
  have mem : b ∈ before ++ a :: after := split_ ▸ List.mem_finRange b
  have sorted : (before ++ a :: after).Pairwise (· < ·) := split_ ▸ List.pairwise_lt_finRange n
  rcases List.mem_append.1 mem with early | late
  · exact absurd (none b early) (by simp [pb, qb])
  · rcases List.mem_cons.1 late with rfl | later
    · exact Nat.le_refl _
    · exact Nat.le_of_lt ((List.pairwise_cons.1 (List.pairwise_append.1 sorted).2.1).1 b later)

/-! ## The end of a pattern (R364, R373, R374) -/

/-- The unit works again. -/
def patternEnded (s : State) (q : Pattern) : State :=
  (s.onScr (fun x => { x with running := x.running.filter (fun y => y.unit ≠ q.unit) })).send (.isolate q.unit q.pattern false)

theorem exec_screenPatternEnd {q : Pattern} (runs : s.scr.running.find? (fun y => y.unit = q.unit) = some q) (misr : BitVec 128) (cycles : BitVec 32) :
    exec (.screenPatternEnd q.unit misr cycles) s = .next (if s.tcRuns then judgePattern (patternEnded s q) (q, misr, cycles)
      else (patternEnded s q).onScr (fun x => { x with ended := x.ended ++ [(q, misr, cycles)] })) := by
  show execScreenPatternEnd q.unit misr cycles s = _
  unfold execScreenPatternEnd
  rw [runs]
  rfl

/-- The result registers of a pattern judged. -/
def judged (s : State) (q : Pattern) (misr : BitVec 128) (cycles : BitVec 32) (result : BitVec 2) : State :=
  s.onScr (fun x => { x with
    resUnit := q.unit, resPat := q.pattern, result, resCause := 0, resRetest := q.retest, cycles := cycles
    expected := patternCycles q.pattern, misr := misr, resTick := s.time.tick })

/-- The pattern's cycles and MISR are those expected. -/
def State.passes (s : State) (q : Pattern) (misr : BitVec 128) (cycles : BitVec 32) : Prop :=
  misr = Config.expectedMisr q.pattern (s.unitKind q.unit) s.fuses.stepping ∧ cycles = patternCycles q.pattern

theorem judgePattern_good {q : Pattern} {misr : BitVec 128} {cycles : BitVec 32} (good : s.passes q misr cycles) :
    judgePattern s (q, misr, cycles) = rotationCheck (patternPass (judged s q misr cycles 1) q) := by
  unfold State.passes at good
  unfold judgePattern
  dsimp only
  rw [if_pos good, if_pos good]
  rfl

theorem judgePattern_bad {q : Pattern} {misr : BitVec 128} {cycles : BitVec 32} (bad : ¬ s.passes q misr cycles) :
    judgePattern s (q, misr, cycles) = rotationCheck (patternFail (judged s q misr cycles 2) q misr) := by
  unfold State.passes at bad
  unfold judgePattern
  dsimp only
  rw [if_neg bad, if_neg bad]
  rfl

/-- The retest that a unit passes enters the first failure as a confirmed catch. -/
def retestPassed (s : State) (q : Pattern) (t : BitVec 64) : State :=
  (s.emit { code := 0xD003, unit := q.unit, p16 := q.pattern, p32 := (t >>> 16).setWidth 32 }).histPut { unit := q.unit, act := .confirm, event := 0xD001 }

/-- A pass kept at its unit. -/
def passKept (s : State) (q : Pattern) : State :=
  s.onScr (fun x => x.setUnit q.unit { completedAt s q with
    lastPass := some s.time.tick, users := s.usersNow q.unit, retest := if q.retest then none else (completedAt s q).retest })

theorem patternPass_of_retest {q : Pattern} {pat : BitVec 16} {t : BitVec 64} (retest : q.retest = true)
    (first : (s.scr.unit q.unit).retest = some (pat, t)) : patternPass s q = retestPassed (passKept s q) q t := by
  have kept : (completedAt s q).retest = some (pat, t) := first
  unfold patternPass passKept
  dsimp only
  rw [retest, kept]
  rfl

theorem patternPass_other {q : Pattern} (other : q.retest = false ∨ (s.scr.unit q.unit).retest = none) : patternPass s q = passKept s q := by
  unfold patternPass passKept
  dsimp only
  split
  · next retest first =>
    rcases other with no | unset
    · rw [no] at retest
      cases retest
    · rw [show (completedAt s q).retest = none from unset] at first
      cases first
  · rfl

/-- The unit that a failed retest condemns. -/
def retestFailed (s : State) (q : Pattern) : State :=
  s.onScr (fun x => x.setUnit q.unit { completedAt s q with fails := satBits 16 ((completedAt s q).fails.toNat + 1), retest := none })

theorem patternFail_retest {q : Pattern} (retest : q.retest = true) (misr : BitVec 128) : patternFail s q misr =
    exposureRecords ((retestFailed s q).histPut { unit := q.unit, act := .declare 4, event := 0xD001 }) q.unit q.pattern := if_pos retest

/-- A first failure sets the retest. -/
def failureKept (s : State) (q : Pattern) : State :=
  s.onScr (fun x => x.setUnit q.unit { completedAt s q with
    fails := satBits 16 ((completedAt s q).fails.toNat + 1), retest := some (q.pattern, s.time.tick) })

/-- SCREEN_FAIL. -/
def screenFail (q : Pattern) (misr : BitVec 128) : Ev := { code := 0xD001, cls := .c, unit := q.unit, p16 := q.pattern, p32 := misr.setWidth 32 }

theorem patternFail_first {q : Pattern} (first : q.retest = false) (misr : BitVec 128) :
    patternFail s q misr = (failureKept s q).emit (screenFail q misr) := if_neg (Bool.eq_false_iff.1 first)

/-- What a judgement leaves of the engine. -/
structure Screened (s t : State) (q : Pattern) (misr : BitVec 128) (cycles : BitVec 32) (result : BitVec 2) : Prop where
  scr : t.scr.butRotation = ({ s.scr with
    running := s.scr.running.filter (fun y => y.unit ≠ q.unit), resUnit := q.unit, resPat := q.pattern, result, resCause := 0, resRetest := q.retest, cycles
    expected := patternCycles q.pattern, misr, resTick := s.time.tick } : Scr).butRotation
  out : Out.isolate q.unit q.pattern false ∈ t.out
  ctxs : t.ctxs = s.ctxs

/-- Judgements carried on by what serves. -/
theorem Screened.serves {u : State} {q : Pattern} {misr : BitVec 128} {cycles : BitVec 32} {result : BitVec 2} (h : Screened s t q misr cycles result)
    (step : Serves t u) (scr : u.scr.butRotation = t.scr.butRotation) : Screened s u q misr cycles result :=
  ⟨scr.trans h.scr, step.out h.out, step.ctxs.trans h.ctxs⟩

theorem judged_screened (s : State) (q : Pattern) (misr : BitVec 128) (cycles : BitVec 32) (result : BitVec 2) :
    Screened s (judged (patternEnded s q) q misr cycles result) q misr cycles result :=
  ⟨rfl, List.mem_append_right _ (List.mem_singleton_self _), rfl⟩

theorem Serves.setScrUnit (s : State) (u : UnitId) (v : ScrUnit) : Serves s (s.onScr (fun x => x.setUnit u v)) := .onScr s _

theorem setScrUnit_scr (s : State) (u : UnitId) (v : ScrUnit) : (s.onScr (fun x => x.setUnit u v)).scr.butRotation = s.scr.butRotation :=
  Scr.setUnit_butRotation ..

theorem Serves.retestPassed (s : State) (q : Pattern) (t : BitVec 64) : Serves s (retestPassed s q t) := (Serves.emit s _).trans (.histPut _ _)

theorem retestPassed_scr (s : State) (q : Pattern) (t : BitVec 64) : (retestPassed s q t).scr = s.scr := State.emit_scr ..

theorem Serves.exposureRecords (s : State) (u : UnitId) (pattern : BitVec 16) : Serves s (exposureRecords s u pattern) := by
  unfold Machine.exposureRecords
  exact (Serves.emit s _).trans (.emit _ _)

theorem exposureRecords_scr (s : State) (u : UnitId) (pattern : BitVec 16) : (exposureRecords s u pattern).scr = s.scr := by
  unfold exposureRecords
  exact (State.emit_scr ..).trans (State.emit_scr ..)

theorem exposureRecords_histQ (s : State) (u : UnitId) (pattern : BitVec 16) : (exposureRecords s u pattern).fst.histQ = s.fst.histQ := by
  unfold exposureRecords
  dsimp only
  rw [State.emit_record _ rfl, State.emit_record _ rfl]
  rfl

theorem retestPassed_fst (s : State) (q : Pattern) (t : BitVec 64) : (retestPassed s q t).fst.faultQ = s.fst.faultQ ∧
    ∃ h ∈ (retestPassed s q t).fst.histQ, h.unit = q.unit ∧ h.act = .confirm ∧ h.event = 0xD001 := by
  unfold retestPassed
  rw [State.emit_record _ rfl]
  exact ⟨rfl, ⟨_, List.mem_append_right _ (List.mem_singleton_self _), rfl, rfl, rfl⟩⟩

/-- The retest that passed, as the recorder takes it in. -/
def retestEvent (q : Pattern) (t : BitVec 64) : Ev := { code := 0xD003, unit := q.unit, p16 := q.pattern, p32 := (t >>> 16).setWidth 32 }

theorem retestPassed_records (s : State) (q : Pattern) (t : BitVec 64) : s.stamp (retestEvent q t) ∈ (retestPassed s q t).rcd.intake :=
  State.emit_records s (retestEvent q t) rfl

/-- A pattern that passes. -/
theorem patternPass_leaves (s : State) (q : Pattern) : let t := patternPass s q
    Serves s t ∧ t.scr.butRotation = s.scr.butRotation ∧ t.fst.faultQ = s.fst.faultQ ∧ (t.scr.unit q.unit).lastPass = some s.time.tick ∧
      (q.retest = true → (t.scr.unit q.unit).retest = none) ∧ (∀ x, q.retest = true → (s.scr.unit q.unit).retest = some x →
        (∃ h ∈ t.fst.histQ, h.unit = q.unit ∧ h.act = .confirm ∧ h.event = 0xD001) ∧ ∃ e ∈ t.rcd.intake, e.code = 0xD003 ∧ e.unit = q.unit ∧ e.p16 = q.pattern) := by
  have kept : (passKept s q).scr.unit q.unit = _ := Scr.setUnit_unit ..
  have serves : Serves s (passKept s q) := .setScrUnit s ..
  have scr : (passKept s q).scr.butRotation = s.scr.butRotation := setScrUnit_scr ..
  by_cases first : q.retest = true ∧ ∃ x, (s.scr.unit q.unit).retest = some x
  · obtain ⟨retest, ⟨pat, x⟩, failed⟩ := first
    dsimp only
    rw [patternPass_of_retest retest failed, retestPassed_scr, kept]
    obtain ⟨faultQ, entry⟩ := retestPassed_fst (passKept s q) q x
    exact ⟨serves.trans (.retestPassed ..), scr, faultQ, rfl, fun _ => if_pos retest, fun y _ _ => ⟨entry, _, retestPassed_records .., rfl, rfl, rfl⟩⟩
  · have other : q.retest = false ∨ (s.scr.unit q.unit).retest = none := by
      cases again : q.retest
      · exact .inl rfl
      · exact .inr (Option.eq_none_iff_forall_ne_some.2 fun x failed => first ⟨again, x, failed⟩)
    dsimp only
    rw [patternPass_other other, kept]
    exact ⟨serves, scr, rfl, rfl, fun retest => if_pos retest, fun x retest failed => absurd ⟨retest, x, failed⟩ first⟩

/-- A pattern that fails for the first time. -/
theorem patternFail_first_leaves {q : Pattern} (first : q.retest = false) (misr : BitVec 128) : let t := patternFail s q misr
    Serves s t ∧ t.scr.butRotation = s.scr.butRotation ∧ (t.scr.unit q.unit).retest = some (q.pattern, s.time.tick) ∧
      ∃ e ∈ t.fst.faultQ, e.code = 0xD001 ∧ e.cls = .c ∧ e.unit = q.unit ∧ e.p16 = q.pattern ∧ e.p32 = misr.setWidth 32 := by
  dsimp only
  rw [patternFail_first first, State.emit_scr]
  refine ⟨(Serves.setScrUnit s ..).trans (.emit _ _), setScrUnit_scr .., congrArg ScrUnit.retest (Scr.setUnit_unit ..),
    _, State.emit_raises _ (screenFail q misr) nofun, rfl, rfl, rfl, rfl, rfl⟩

/-- SCREEN_EXPOSURE, from the last pass. -/
def exposureLow (s : State) (u : UnitId) : Ev :=
  let t := ((s.scr.unit u).lastPass.getD (s.scr.unit u).bringTick) >>> 16
  { code := 0xD004, unit := u, p16 := (t >>> 32).setWidth 16, p32 := t.setWidth 32 }

theorem exposureRecords_records (s : State) (u : UnitId) (pattern : BitVec 16) : (∃ e ∈ (exposureRecords s u pattern).rcd.intake, e.code = 0xD004 ∧ e.unit = u) ∧
    ∃ e ∈ (exposureRecords s u pattern).rcd.intake, e.code = 0xD005 ∧ e.unit = u ∧ e.glued = true := by
  refine ⟨⟨s.stamp (exposureLow s u), (Appends.emit _ _).intake (State.emit_records s (exposureLow s u) rfl), rfl, rfl⟩, ?_⟩
  unfold exposureRecords
  dsimp only
  exact ⟨_, State.emit_records _ _ rfl, rfl, rfl, rfl⟩

/-- A retest that fails. -/
theorem patternFail_retest_leaves {q : Pattern} (retest : q.retest = true) (misr : BitVec 128) : let t := patternFail s q misr
    Serves s t ∧ t.scr.butRotation = s.scr.butRotation ∧ (t.scr.unit q.unit).retest = none ∧ (∃ h ∈ t.fst.histQ, h.unit = q.unit ∧ h.act = .declare 4) ∧
      (∃ e ∈ t.rcd.intake, e.code = 0xD004 ∧ e.unit = q.unit) ∧ ∃ e ∈ t.rcd.intake, e.code = 0xD005 ∧ e.unit = q.unit ∧ e.glued = true := by
  dsimp only
  rw [patternFail_retest retest, exposureRecords_scr]
  have condemned : ∃ h ∈ ((retestFailed s q).histPut { unit := q.unit, act := .declare 4, event := 0xD001 }).fst.histQ, h.unit = q.unit ∧ h.act = .declare 4 :=
    ⟨_, List.mem_append_right _ (List.mem_singleton_self _), rfl, rfl⟩
  have unit : ((retestFailed s q).histPut { unit := q.unit, act := .declare 4, event := 0xD001 }).scr.unit q.unit = _ := Scr.setUnit_unit ..
  have serves : Serves s ((retestFailed s q).histPut { unit := q.unit, act := .declare 4, event := 0xD001 }) := (Serves.setScrUnit s ..).trans (.histPut _ _)
  have scr : ((retestFailed s q).histPut { unit := q.unit, act := .declare 4, event := 0xD001 }).scr.butRotation = s.scr.butRotation := setScrUnit_scr ..
  generalize (retestFailed s q).histPut { unit := q.unit, act := .declare 4, event := 0xD001 } = u at condemned unit serves scr
  obtain ⟨low, high⟩ := exposureRecords_records u q.unit q.pattern
  refine ⟨serves.trans (.exposureRecords ..), scr, by rw [unit], ?_, low, high⟩
  rwa [exposureRecords_histQ]

/-! ## O49 -/

theorem chosenArray_clause {a : Arr} (chosen : s.chosenArray = some a) : s.testable a = true ∧ s.idleArray a 2884096 = true ∧ ∀ b, s.testable b = true →
    ((s.scr.unit (uArr b)).retest ≠ none → (s.scr.unit (uArr a)).retest ≠ none) ∧
    ((s.scr.unit (uArr a)).retest = none → s.scr.testNow = some (uArr b) → a = b) ∧
    ((s.scr.unit (uArr a)).retest = none → s.scr.testNow ≠ some (uArr a) → s.lastRank a ≤ s.lastRank b ∧ (s.lastRank a = s.lastRank b → a ≤ b)) := by
  obtain ⟨mem, why⟩ := chosenArray_cases chosen
  have testable : s.testable a = true := (List.mem_filter.1 mem).2
  have idle : s.idleArray a 2884096 = true := by
    unfold State.testable at testable
    exact (Bool.and_eq_true .. ▸ testable :).2
  refine ⟨testable, idle, fun b test => ?_⟩
  have listed : b ∈ (List.finRange 624).filter s.testable := List.mem_filter.2 ⟨List.mem_finRange b, test⟩
  rcases why with retest | ⟨fresh, named | ⟨unnamed, oldest⟩⟩
  · have some_ : (s.scr.unit (uArr a)).retest ≠ none := Option.isSome_iff_ne_none.1 retest
    exact ⟨fun _ => some_, fun none => absurd none some_, fun none => absurd none some_⟩
  · exact ⟨fun failed => absurd (fresh b listed) failed, fun _ is => uArr_injective (Option.some.inj (named.symm.trans is)), fun _ other => absurd named other⟩
  · refine ⟨fun failed => absurd (fresh b listed) failed, fun _ is => absurd is (unnamed b listed), fun _ _ => ?_⟩
    have first := List.find?_some (p := fun a => ((List.finRange 624).filter s.testable).all (fun b => decide (s.lastRank a ≤ s.lastRank b))) oldest
    have least := List.all_eq_true.1 first
    refine ⟨of_decide_eq_true (least b listed), fun same => find?_finRange_least oldest test ?_⟩
    exact List.all_eq_true.2 fun d mem => by rw [← same]; exact least d mem

/-- What the end of a pattern leaves, however it is judged. -/
theorem Screened.fields {q : Pattern} {misr : BitVec 128} {cycles : BitVec 32} {result : BitVec 2} (h : Screened s t q misr cycles result) :
    t.scr.running = s.scr.running.filter (fun y => y.unit ≠ q.unit) ∧ t.scr.resUnit = q.unit ∧ t.scr.resPat = q.pattern ∧ t.scr.cycles = cycles ∧
      t.scr.misr = misr ∧ t.scr.result = result :=
  ⟨(congrArg Scr.running h.scr :), (congrArg Scr.resUnit h.scr :), (congrArg Scr.resPat h.scr :), (congrArg Scr.cycles h.scr :), (congrArg Scr.misr h.scr :),
    (congrArg Scr.result h.scr :)⟩

/-- A judgement ends with the check of the rotation. -/
theorem Screened.judged {u : State} {q : Pattern} {misr : BitVec 128} {cycles : BitVec 32} {result : BitVec 2}
    (serves : Serves (judged (patternEnded s q) q misr cycles result) u) (scr : u.scr.butRotation = (judged (patternEnded s q) q misr cycles result).scr.butRotation) :
    Screened s (rotationCheck u) q misr cycles result :=
  (judged_screened s q misr cycles result).serves (serves.trans (.rotationCheck u)) ((rotationCheck_scr u).trans scr)

/-- The end of a pattern while TC runs. -/
theorem screenPatternEnd_clause {q : Pattern} (found : s.scr.running.find? (fun y => y.unit = q.unit) = some q) (misr : BitVec 128) (cycles : BitVec 32)
    (runs : s.tcRuns = true) : let good := misr = Config.expectedMisr q.pattern (s.unitKind q.unit) s.fuses.stepping ∧ cycles = patternCycles q.pattern
    ∃ t, exec (.screenPatternEnd q.unit misr cycles) s = .next t ∧ t.scr.running = s.scr.running.filter (fun y => y.unit ≠ q.unit) ∧ t.scr.resUnit = q.unit ∧ t.scr.resPat = q.pattern ∧
      t.scr.cycles = cycles ∧ t.scr.misr = misr ∧ Out.isolate q.unit q.pattern false ∈ t.out ∧ t.ctxs = s.ctxs ∧ t.kept = s.kept ∧
      (good → t.scr.result = 1 ∧ t.fst.faultQ = s.fst.faultQ ∧ (t.scr.unit q.unit).lastPass = some s.time.tick ∧ (q.retest = true → (t.scr.unit q.unit).retest = none) ∧
        (∀ x, q.retest = true → (s.scr.unit q.unit).retest = some x → (∃ h ∈ t.fst.histQ, h.unit = q.unit ∧ h.act = .confirm ∧ h.event = 0xD001) ∧
          ∃ e ∈ t.rcd.intake, e.code = 0xD003 ∧ e.unit = q.unit ∧ e.p16 = q.pattern)) ∧
      (¬ good → q.retest = false → t.scr.result = 2 ∧ (t.scr.unit q.unit).retest = some (q.pattern, s.time.tick) ∧
        ∃ e ∈ t.fst.faultQ, e.code = 0xD001 ∧ e.cls = .c ∧ e.unit = q.unit ∧ e.p16 = q.pattern ∧ e.p32 = misr.setWidth 32) ∧
      (¬ good → q.retest = true → t.scr.result = 2 ∧ (t.scr.unit q.unit).retest = none ∧ (∃ h ∈ t.fst.histQ, h.unit = q.unit ∧ h.act = .declare 4) ∧
        (∃ e ∈ t.rcd.intake, e.code = 0xD004 ∧ e.unit = q.unit) ∧ ∃ e ∈ t.rcd.intake, e.code = 0xD005 ∧ e.unit = q.unit ∧ e.glued = true) := by
  have run := exec_screenPatternEnd found misr cycles
  rw [if_pos runs] at run
  have kept {t : State} (is : exec (.screenPatternEnd q.unit misr cycles) s = .next t) : t.kept = s.kept := (execScreenPatternEnd_kept ..).of_next is
  by_cases good : (patternEnded s q).passes q misr cycles
  · rw [judgePattern_good good] at run
    obtain ⟨serves, scr, faultQ, lastPass, cleared, confirmed⟩ := patternPass_leaves (judged (patternEnded s q) q misr cycles 1) q
    generalize patternPass (judged (patternEnded s q) q misr cycles 1) q = u at run serves scr faultQ lastPass cleared confirmed
    have screened := Screened.judged serves scr
    obtain ⟨running, resUnit, resPat, cyc, mis, result⟩ := screened.fields
    obtain ⟨round, unit⟩ := rotationCheck_unit u q.unit
    have fst := rotationCheck_fst u
    refine ⟨_, run, running, resUnit, resPat, cyc, mis, screened.out, screened.ctxs, kept run, fun _ => ⟨result, ?_, ?_, fun retest => ?_, fun x retest failed => ?_⟩,
      fun bad => absurd good bad, fun bad => absurd good bad⟩
    · rw [fst]
      exact faultQ
    · rw [unit]
      exact lastPass
    · rw [unit]
      exact cleared retest
    · obtain ⟨entry, e, mem, is⟩ := confirmed x retest failed
      rw [fst]
      exact ⟨entry, e, (Serves.rotationCheck u).intake mem, is⟩
  · rw [judgePattern_bad good] at run
    cases retest : q.retest
    · obtain ⟨serves, scr, failed, raised⟩ := patternFail_first_leaves (s := judged (patternEnded s q) q misr cycles 2) retest misr
      generalize patternFail (judged (patternEnded s q) q misr cycles 2) q misr = u at run serves scr failed raised
      have screened := Screened.judged serves scr
      obtain ⟨running, resUnit, resPat, cyc, mis, result⟩ := screened.fields
      obtain ⟨round, unit⟩ := rotationCheck_unit u q.unit
      refine ⟨_, run, running, resUnit, resPat, cyc, mis, screened.out, screened.ctxs, kept run, fun is => absurd is good,
        fun _ _ => ⟨result, by rw [unit]; exact failed, by rwa [rotationCheck_fst]⟩, fun _ => nofun⟩
    · obtain ⟨serves, scr, failed, declared, low, high⟩ := patternFail_retest_leaves (s := judged (patternEnded s q) q misr cycles 2) retest misr
      generalize patternFail (judged (patternEnded s q) q misr cycles 2) q misr = u at run serves scr failed declared low high
      have screened := Screened.judged serves scr
      obtain ⟨running, resUnit, resPat, cyc, mis, result⟩ := screened.fields
      obtain ⟨round, unit⟩ := rotationCheck_unit u q.unit
      obtain ⟨e, lowMem, lowIs⟩ := low
      obtain ⟨f, highMem, highIs⟩ := high
      refine ⟨_, run, running, resUnit, resPat, cyc, mis, screened.out, screened.ctxs, kept run, fun is => absurd is good, fun _ => nofun,
        fun _ _ => ⟨result, by rw [unit]; exact failed, by rwa [rotationCheck_fst], ⟨e, (Serves.rotationCheck u).intake lowMem, lowIs⟩,
          ⟨f, (Serves.rotationCheck u).intake highMem, highIs⟩⟩⟩

/-- SCREEN_ROTATION_LATE, as the recorder takes it in. -/
def lateEvent (s : State) (u : UnitId) : Ev :=
  { code := 0xD007, unit := u, p16 := BitVec.ofNat 16 s.scr.rotation, p32 := satBits 32 ((s.time.opsec - (s.scr.unit u).lastOp).toNat / 60) }

/-- A unit noted late. -/
def lateNoted (s : State) (u : UnitId) : State := s.onScr (fun x => x.setUnit u { s.scr.unit u with late := true })

theorem exec_screenRotationLate {u : UnitId} (overdue : s.overdue u = true) (once : (s.scr.unit u).late = false) : ∃ e : Ev, e.code = 0xD007 ∧ e.cls = .record ∧
    e.unit = u ∧ exec (.screenRotationLate u) s = .next (rotationCheck ((lateNoted s u).emit e)) := by
  refine ⟨_, ?_, ?_, ?_, (if_neg ?_ : execScreenRotationLate u s = _)⟩
  case refine_4 => simp [overdue, once]
  all_goals rfl

/-- Settles O49: a pattern's judgement is a change of its unit's entry, its events and the check of the rotation, which takes back only
what units have completed. -/
theorem fieldScreening : Obligations.FieldScreening := by
  unfold Obligations.FieldScreening
  refine ⟨fun s g slot eligible runs top free due => ?_, fun s a eligible runs top free => ⟨fun chosen idle => ?_, fun other => ?_, fun empty => ?_, fun c y slot => ?_⟩,
    fun s a chosen => chosenArray_clause chosen, fun s q misr cycles found => ⟨fun idle => ?_, fun runs => screenPatternEnd_clause found misr cycles runs⟩,
    fun s u overdue once => ?_, fun s src carried => ⟨fun eligible none => ?_, fun refused => ?_⟩,
    fun s src v carried => congrArg Host.Outcome.next (gatedWrite_of_carry carried src v _), fun s => rfl⟩
  · have run := exec_screenPatternStart_gtu eligible runs top free slot due
    have kept := (execScreenPatternStart_kept (uMgtu g) slot s).of_next run
    rw [beginPattern_eq] at run kept
    refine ⟨_, _, run, rfl, rfl, rfl, fun none => ?_, fun pat x retest => fieldPattern_of_retest retest, ?_, rfl, rfl, rfl, kept⟩
    · show s.fieldPattern (uMgtu g) = _
      rw [fieldPattern_of_none none]
      unfold State.unitKind
      rw [uClass_uMgtu]
      rfl
    · show (if s.scr.testNow = some (uMgtu g) ∧ true = true then none else s.scr.testNow) ≠ _
      split
      · exact nofun
      · next other => exact fun is => other ⟨is, rfl⟩
  · have run := exec_screenPatternStart_arr eligible runs top free false
    rw [if_neg (by decide), if_neg (by simp [chosen]; simpa using idle)] at run
    have kept := (execScreenPatternStart_kept (uArr a) false s).of_next run
    rw [beginPattern_eq] at run kept
    exact ⟨_, _, run, rfl, rfl, rfl, fun pat x retest => fieldPattern_of_retest retest, rfl, rfl, kept⟩
  · rw [exec_screenPatternStart_arr eligible runs top free false, if_neg (by decide), if_pos other.symm]
  · rw [exec_screenPatternStart_arr eligible runs top free true, if_pos rfl, empty]
  · obtain ⟨new, own, inProgress⟩ := screenSlot_is slot
    have run := exec_screenPatternStart_arr eligible runs top free true
    rw [if_pos rfl, slot] at run
    have kept := (execScreenPatternStart_kept (uArr a) true s).of_next run
    dsimp only at run kept
    rw [beginSlot_eq, beginPattern_eq] at run kept
    refine ⟨new, own, _, run, ⟨startedPattern (slotNoted s c y) (uArr a) (BitVec.ofNat 16 y.pattern) false false, ?_, rfl, rfl, Bool.and_false _⟩, slotNoted_tests s c y,
      fun d other => slotNoted_others s other y, List.mem_append_right _ (List.mem_singleton_self _), kept⟩
    show (slotNoted s c y).scr.running ++ _ = _
    rw [show (slotNoted s c y).scr = s.scr from reachOffset_scr ..]
  · rw [exec_screenPatternEnd found, if_neg (Bool.eq_false_iff.1 idle)]
    rfl
  · obtain ⟨e, code, cls, unit, run⟩ := exec_screenRotationLate overdue once
    obtain ⟨round, entry⟩ := rotationCheck_unit ((lateNoted s u).emit e) u
    refine ⟨_, run, ?_, ⟨_, (Serves.rotationCheck _).intake (State.emit_records (lateNoted s u) e cls), code, unit⟩, ?_, (execScreenRotationLate_kept u s).of_next run⟩
    · rw [entry, State.emit_scr]
      exact congrArg ScrUnit.late (Scr.setUnit_unit ..)
    · rw [(Serves.rotationCheck _).ctxs, State.emit_ctxs]
      rfl
  · refine congrArg Host.Outcome.next ((gatedWrite_of_carry carried src 1 _).trans ?_)
    rw [testNowCmd, if_pos ⟨eligible, none⟩]
    rfl
  · have run : exec (.testNow src) s = .next ((testNowCmd src s).complete src 0xD00030 false 0 0) :=
      congrArg Host.Outcome.next (gatedWrite_of_carry carried src 1 _)
    rw [testNowCmd, if_neg (by
      rintro ⟨eligible, none⟩
      rcases refused with no | busy
      · rw [no] at eligible
        cases eligible
      · exact busy none)] at run
    refine ⟨_, run, ?_, ?_, (execTestNow_kept src s).of_next run⟩
    · rw [State.complete_scr]
      rfl
    · rw [State.complete_ctxs]
      rfl

end Sys2Proof.Machine


namespace Sys2Proof.Machine

/-! # The thermal guard (R383 to R401) -/

section

variable {s t u : State} {c d : Ctx}

/-! ## A stop of every context (R249, R394) -/

/-- A context that has stopped, or has a stop to come. -/
def CtxSt.Ends (x : CtxSt) : Prop := x.pass.st = .stopped ∨ x.exec.stopAfter ≠ none

theorem CtxSt.Ends.of_butLoad {x y : CtxSt} (h : x.Ends) (same : y.butLoad = x.butLoad) : y.Ends := by
  unfold CtxSt.Ends
  rwa [CtxSt.pass_of_butLoad same, CtxSt.exec_of_butLoad same]

theorem enterStopped_others (clock : s.aon.refOk = true) (event : BitVec 16) (other : d ≠ c) : (enterStopped s c event).ctx d = s.ctx d := by
  have within := Within.stopEffects c s event
  rw [enterStopped_eq, State.ctx_eq_of_ctxs (afterStop_ctxs (by rw [within.aon, clock])) d, within.others d other]

/-- STOP and ABORT_STOP of one context leave the others, while the reference clock runs. -/
theorem abortStopCtx_others (clock : s.aon.refOk = true) (event : BitVec 16) (other : d ≠ c) : (abortStopCtx s c event).ctx d = s.ctx d := by
  have noted : (noteStop s c event).ctx d = s.ctx d := State.onExec_ctx_other _ _ other
  unfold abortStopCtx stopCtx
  split
  · exact (State.onExec_ctx_other _ _ other).trans noted
  · split
    · rfl
    · rfl
    · exact noted
    all_goals exact (apply_ite (fun t : State => t.ctx d) ..).trans ((ite_congr rfl (fun _ => noted) fun _ => enterStopped_others clock event other).trans (ite_self _))

/-- A context with a plan keeps it over ABORT_STOP, and has stopped then or has a stop to come. -/
theorem abortStopCtx_own (clock : s.aon.refOk = true) (event : BitVec 16) (plan : (s.ctx c).pass.st ≠ .noPlan) :
    ((abortStopCtx s c event).ctx c).Ends ∧ ((abortStopCtx s c event).ctx c).pass.st ≠ .noPlan := by
  by_cases works : s.AtWork c
  · obtain ⟨-, stopAfter, state⟩ := (abortStopCtx_aborts works event).2
    exact ⟨.inr (by rw [stopAfter]; exact nofun), by rwa [state]⟩
  · rw [show abortStopCtx s c event = stopCtx s c event from if_neg works]
    by_cases stopped : (s.ctx c).pass.st = .stopped
    · unfold stopCtx
      rw [stopped]
      exact ⟨.inl stopped, plan⟩
    · have hasPlan : s.idleCtx c = false := State.not_idleCtx_iff.2 ⟨plan, stopped⟩
      have idle : s.deciding c = false := Bool.eq_false_iff.2 fun decides => works ⟨decides, plan, stopped⟩
      by_cases drains : (s.ctx c).pass.st = .aborting
      · rw [stopCtx_later hasPlan (.inr drains), CtxSt.Ends, noteStop_ctx]
        exact ⟨.inr nofun, plan⟩
      · rw [stopCtx_at_once hasPlan idle drains, CtxSt.Ends, enterStopped_pass clock]
        exact ⟨.inl rfl, nofun⟩

theorem CtxSt.Ends.abortStopCtx (h : (s.ctx d).Ends) (clock : s.aon.refOk = true) (c : Ctx) (event : BitVec 16) (plan : (s.ctx d).pass.st ≠ .noPlan) :
    ((abortStopCtx s c event).ctx d).Ends := by
  by_cases same : d = c
  · subst same
    exact (abortStopCtx_own clock event plan).1
  · rwa [abortStopCtx_others clock event same]

/-- ABORT_STOP takes no plan away. -/
theorem abortStopCtx_plan (clock : s.aon.refOk = true) (c : Ctx) (event : BitVec 16) (plan : (s.ctx d).pass.st ≠ .noPlan) :
    ((abortStopCtx s c event).ctx d).pass.st ≠ .noPlan := by
  by_cases same : d = c
  · subst same
    exact (abortStopCtx_own clock event plan).2
  · rwa [abortStopCtx_others clock event same]

theorem each_abortStopCtx_ends (clock : s.aon.refOk = true) (event : BitVec 16) (plan : (s.ctx d).pass.st ≠ .noPlan) (xs : List Ctx)
    (meant : d ∈ xs ∨ (s.ctx d).Ends) : ((s.each xs (fun s c => abortStopCtx s c event)).ctx d).Ends := by
  induction xs generalizing s with
  | nil => exact meant.resolve_left List.not_mem_nil
  | cons x xs ih =>
    rw [State.each_cons]
    refine ih ((abortStopCtx_refOk s x event).trans clock) (abortStopCtx_plan clock x event plan) ?_
    rcases meant with mem | ends
    · rcases List.mem_cons.1 mem with rfl | later
      · exact .inr (abortStopCtx_own clock event plan).1
      · exact .inl later
    · exact .inr (ends.abortStopCtx clock x event plan)

/-! ## The orderly stop (R393, R394) -/

/-- THERMAL_STOP, as the fault steward takes it in. -/
def thermalStopEvent (unit : UnitId) (cause reading : BitVec 16) : Ev :=
  { code := 0x8006, cls := .f, unit, p16 := cause, p32 := if cause = 1 then tempParam reading else 0, acc := 0x40, addr := reading.setWidth 64 }

/-- The divider at 40. -/
def dividerDown (s : State) : State := s.onThm (fun t => { t with stopped := true, m := 40 })

/-- Every load ended. -/
def loadsEnded (s : State) : State := s.each allCtx endLoad

theorem thermalStop_eq (first : s.thm.stopped = false) (unit : UnitId) (cause reading : BitVec 16) : thermalStop s unit cause reading =
    let u := loadsEnded (dividerDown (thermalEvent s (thermalStopEvent unit cause reading)))
    afterStop (u.each u.loadedCtxs (fun s c => abortStopCtx s c 0x8006)) := if_neg (Bool.eq_false_iff.1 first)

theorem Stops.thm (h : Stops s t) : t.thm = s.thm := (congrArg State.thm h.rest :)

theorem thermalEvent_fields (s : State) (e : Ev) : (thermalEvent s e).thm = s.thm ∧ (thermalEvent s e).ctxs = s.ctxs ∧ (thermalEvent s e).aon = s.aon ∧
    (thermalEvent s e).fuses = s.fuses ∧ (thermalEvent s e).pwr = s.pwr :=
  ⟨State.emit_thm .., State.emit_ctxs .., State.emit_aon .., State.emit_fuses .., State.emit_pwr ..⟩

/-- The orderly stop: the divider is down, the event waits, every context ends. -/
theorem thermalStop_leaves (first : s.thm.stopped = false) (clock : s.aon.refOk = true) (unit : UnitId) (cause reading : BitVec 16) :
    let t := thermalStop s unit cause reading
    t.thm = { s.thm with stopped := true, m := 40 } ∧ s.stamp (thermalStopEvent unit cause reading) ∈ t.fst.faultQ ∧
      ∀ c, (s.ctx c).pass.st ≠ .noPlan → (t.ctx c).Ends := by
  rw [thermalStop_eq first]
  obtain ⟨thm, ctxs, aon, -⟩ := thermalEvent_fields s (thermalStopEvent unit cause reading)
  have raised : s.stamp (thermalStopEvent unit cause reading) ∈ (thermalEvent s (thermalStopEvent unit cause reading)).fst.faultQ :=
    State.emit_raises s _ nofun
  generalize thermalEvent s (thermalStopEvent unit cause reading) = v at thm ctxs aon raised
  have down : (dividerDown v).thm = { s.thm with stopped := true, m := 40 } := by
    rw [← thm]
    rfl
  have ctx (c : Ctx) : (dividerDown v).ctx c = s.ctx c := State.ctx_eq_of_ctxs ctxs c
  have on : (dividerDown v).aon.refOk = true := (congrArg Aon.refOk aon).trans clock
  have waits : s.stamp (thermalStopEvent unit cause reading) ∈ (dividerDown v).fst.faultQ := raised
  generalize dividerDown v = w at down ctx on waits
  obtain ⟨appends, -, loads⟩ := each_endLoad w allCtx
  have ended : Stops w (loadsEnded w) := .each .endLoad
  have loadsOn : (loadsEnded w).aon.refOk = true := ended.refOk.trans on
  have same (c : Ctx) : ((loadsEnded w).ctx c).butLoad = (w.ctx c).butLoad := loads c
  generalize loadsEnded w = x at ended loadsOn same
  have aborts : Stops x (x.each x.loadedCtxs (fun s c => abortStopCtx s c 0x8006)) := .each_of_refOk loadsOn fun t c on => .abortStopCtx t c _ on
  have abortsOn := aborts.refOk.trans loadsOn
  have total := (ended.trans aborts).trans (.afterStop _ abortsOn)
  refine ⟨total.thm.trans down, total.faultQ waits, fun c plan => ?_⟩
  have hasPlan : (x.ctx c).pass.st ≠ .noPlan := by rwa [CtxSt.pass_of_butLoad (same c), ctx]
  rw [State.ctx_eq_of_ctxs (afterStop_ctxs abortsOn) c]
  exact each_abortStopCtx_ends loadsOn _ hasPlan _ (.inl (List.mem_filter.2 ⟨mem_allCtx c, by simpa [State.hasPlan] using hasPlan⟩))

end

end Sys2Proof.Machine


namespace Sys2Proof.Machine

/-! # Sensor samples (R383 to R386, R395) -/

section

variable {s t u : State} {n : Sensor} {x : Sample}

/-! ## The hottest sensor (R400) -/

/-- A LIVE sensor of the part that has been read. -/
def State.Reads (s : State) (n : Sensor) : Prop :=
  (s.thm.sensors.at n).state = .live ∧ (s.thm.sensors.at n).known = true ∧ s.unitExists (uSensor n) = true

/-- The hotter of what was found before and the next sensor. -/
def State.hotter (s : State) (best : Option (Sensor × BitVec 16)) (n : Sensor) : Option (Sensor × BitVec 16) :=
  let x := s.thm.sensors.at n
  if x.state = .live ∧ x.known ∧ s.unitExists (uSensor n) then match best with
    | some (_, r) => if r.toInt < x.reading.toInt then some (n, x.reading) else best
    | none => some (n, x.reading)
  else best

theorem hottest_eq (s : State) : s.hottest = (List.finRange 640).foldl s.hotter none := rfl

/-- What has been found is the hottest of the sensors seen. -/
inductive State.Found (s : State) (seen : Sensor → Prop) : Option (Sensor × BitVec 16) → Prop
  | nothing (silent : ∀ k, seen k → ¬ s.Reads k) : s.Found seen none
  | hottest (h : Sensor) (reads : s.Reads h)
      (most : ∀ k, seen k → s.Reads k → (s.thm.sensors.at k).reading.toInt ≤ (s.thm.sensors.at h).reading.toInt) :
      s.Found seen (some (h, (s.thm.sensors.at h).reading))

theorem State.Found.hotter {seen : Sensor → Prop} {best : Option (Sensor × BitVec 16)} (found : s.Found seen best) (n : Sensor) :
    s.Found (fun k => seen k ∨ k = n) (s.hotter best n) := by
  unfold State.hotter
  dsimp only
  split
  · next reads =>
    cases found with
    | nothing silent => exact .hottest n reads fun k sees readsK => sees.elim (fun before => absurd readsK (silent k before)) fun is => is ▸ Int.le_refl _
    | hottest h readsH most =>
      dsimp only
      split
      · next more =>
        exact .hottest n reads fun k sees readsK => sees.elim (fun before => Int.le_of_lt (Int.lt_of_le_of_lt (most k before readsK) more))
          fun is => is ▸ Int.le_refl _
      · next less => exact .hottest h readsH fun k sees readsK => sees.elim (fun before => most k before readsK) fun is => is ▸ Int.not_lt.1 less
  · next silentN =>
    cases found with
    | nothing silent => exact .nothing fun k sees => sees.elim (silent k) fun is => is ▸ silentN
    | hottest h readsH most => exact .hottest h readsH fun k sees readsK => sees.elim (fun before => most k before readsK) fun is => absurd (is ▸ readsK) silentN

theorem State.Found.mono {p q : Sensor → Prop} {best : Option (Sensor × BitVec 16)} (found : s.Found p best) (sees : ∀ k, q k → p k) : s.Found q best := by
  cases found with
  | nothing silent => exact .nothing fun k seen => silent k (sees k seen)
  | hottest h reads most => exact .hottest h reads fun k seen => most k (sees k seen)

theorem State.Found.foldl {seen : Sensor → Prop} {best : Option (Sensor × BitVec 16)} (found : s.Found seen best) (l : List Sensor) :
    s.Found (fun k => seen k ∨ k ∈ l) (l.foldl s.hotter best) := by
  induction l generalizing seen best with
  | nil => exact found.mono fun k sees => sees.resolve_right List.not_mem_nil
  | cons n l ih => exact (ih (found.hotter n)).mono fun k sees => by simpa [or_assoc, List.mem_cons] using sees

theorem foldl_found (s : State) {l : List Sensor} (all : ∀ k, k ∈ l) : s.Found (fun _ => True) (l.foldl s.hotter none) :=
  (State.Found.foldl (s := s) (seen := fun _ => False) (best := none) (.nothing fun _ never => never.elim) l).mono fun k _ => .inr (all k)

theorem hottest_found (s : State) : s.Found (fun _ => True) s.hottest := by
  rw [hottest_eq]
  exact foldl_found s List.mem_finRange

theorem State.Found.of_reads {best : Option (Sensor × BitVec 16)} (found : s.Found (fun _ => True) best) (reads : s.Reads n) :
    ∃ h, best = some (h, (s.thm.sensors.at h).reading) ∧ s.Reads h ∧
      ∀ k, s.Reads k → (s.thm.sensors.at k).reading.toInt ≤ (s.thm.sensors.at h).reading.toInt := by
  cases found with
  | nothing silent => exact absurd reads (silent n trivial)
  | hottest h readsH most => exact ⟨h, rfl, readsH, fun k readsK => most k trivial readsK⟩

/-- A sensor that has been read has a hottest one. -/
theorem hottest_of_reads (reads : s.Reads n) : ∃ h, s.hottest = some (h, (s.thm.sensors.at h).reading) ∧ s.Reads h ∧
    ∀ k, s.Reads k → (s.thm.sensors.at k).reading.toInt ≤ (s.thm.sensors.at h).reading.toInt :=
  (hottest_found s).of_reads reads

/-! ## A temperature sample of a LIVE sensor -/

/-- The comparators after a sample. -/
def SensorSt.compared (y : SensorSt) (trip : BitVec 8) (x : Sample) : SensorSt :=
  { y with hot := decide (1600 ≤ x.reading.toInt), tripped := y.tripped && decide ((trip.toNat : Int) * 16 ≤ x.reading.toInt) }

theorem compareHot_of_reading (s : State) (n : Sensor) (delivered : x.delivered = true) (reading : x.refDiff = none) :
    compareHot s n x = s.onSensor n (fun y => y.compared s.thm.trip x) := if_pos ⟨delivered, reading⟩

/-- The code of a sample and how often it has come in a row. -/
def SensorSt.sampled (y : SensorSt) (x : Sample) : SensorSt :=
  { y with same := if y.known && y.code = x.code then y.same + 1 else 1, code := x.code, known := true }

/-- A sample kept with its reading. -/
def SensorSt.read (y : SensorSt) (x : Sample) : SensorSt := { y.sampled x with reading := x.reading }

theorem State.onSensor_at (s : State) (n : Sensor) (f : SensorSt → SensorSt) : (s.onSensor n f).thm.sensors.at n = f (s.thm.sensors.at n) := Tab.at_upd_same ..

theorem State.onSensor_others (s : State) {n k : Sensor} (f : SensorSt → SensorSt) (other : k ≠ n) : (s.onSensor n f).thm.sensors.at k = s.thm.sensors.at k :=
  Tab.at_upd_other _ _ other

theorem State.onSensor_onSensor (s : State) (n : Sensor) (f g : SensorSt → SensorSt) : (s.onSensor n f).onSensor n g = s.onSensor n (g ∘ f) := by
  unfold State.onSensor State.onThm
  dsimp only
  rw [Tab.upd_upd]

theorem State.onSensor_congr (s : State) (n : Sensor) {f g : SensorSt → SensorSt} (same : f (s.thm.sensors.at n) = g (s.thm.sensors.at n)) :
    s.onSensor n f = s.onSensor n g := by
  have table : s.thm.sensors.upd n f = s.thm.sensors.upd n g := congrArg (fun y => s.thm.sensors.set n.val y n.isLt) same
  unfold State.onSensor State.onThm
  dsimp only
  rw [table]

/-- A sample of a LIVE sensor that is not stuck fails its range or is its reading. -/
theorem temperatureSample_live (live : (s.thm.sensors.at n).state = .live) (delivered : x.delivered = true)
    (moves : 3 ≤ s.pwr.vs.code ∨ (s.thm.sensors.at n).known = false ∨ x.code ≠ (s.thm.sensors.at n).code) : temperatureSample s n x =
      if outOfRange x then sensorFail (s.onSensor n (fun y => y.sampled x)) n .range 2 x.reading
      else liveSample (s.onSensor n (fun y => y.read x)) n x.reading := by
  have run : (decide (s.pwr.vs.code ≤ 2) && decide (1024 ≤ if (s.thm.sensors.at n).known && (s.thm.sensors.at n).code = x.code then (s.thm.sensors.at n).same + 1
      else 1)) = false := by
    rcases moves with low | new | other
    · simp [show ¬ s.pwr.vs.code ≤ 2 by omega]
    · simp [new]
    · have differs : ¬ (s.thm.sensors.at n).code = x.code := fun same => other same.symm
      simp [differs]
  have kept : s.onSensor n (fun y => { y with same := if (s.thm.sensors.at n).known && (s.thm.sensors.at n).code = x.code then (s.thm.sensors.at n).same + 1 else 1
                                              code := x.code, known := y.known || true }) = s.onSensor n (fun y => y.sampled x) :=
    State.onSensor_congr s n (by rw [Bool.or_true]; rfl)
  unfold temperatureSample
  simp only [delivered, live, run, Bool.not_true, Bool.false_eq_true, ↓reduceIte, Bool.and_true]
  rw [kept, State.onSensor_onSensor]
  rfl

/-- The peak after a sample. -/
def SensorSt.peaked (y : SensorSt) (r : BitVec 16) : SensorSt := { y with peak := if y.peak.toInt < r.toInt then r else y.peak }

/-- A sample counted toward the throttle and toward the orderly stop. -/
def SensorSt.counted (y : SensorSt) (r : BitVec 16) (k : Nat) : SensorSt :=
  { y.peaked r with maxNew := some (match y.maxNew with | some m => max m r.toInt | none => r.toInt), crit := k }

/-- From VS3 on a sample counts toward the peak only. -/
theorem liveSample_low (low : 3 ≤ s.pwr.vs.code) (n : Sensor) (r : BitVec 16) : liveSample s n r = s.onSensor n (fun y => y.peaked r) := if_pos low

theorem liveSample_cool (high : s.pwr.vs.code ≤ 2) {r : BitVec 16} (cool : r.toInt < s.thm.critNow.toNat * 16) (n : Sensor) :
    liveSample s n r = s.onSensor n (fun y => y.counted r 0) := by
  unfold liveSample
  dsimp only
  rw [if_neg (show ¬ 3 ≤ (s.onSensor n _).pwr.vs.code from Nat.not_le.2 (Nat.lt_succ_of_le high)), State.onSensor_onSensor, if_neg (Int.not_le.2 cool), if_neg (by decide)]
  rfl

/-- The third sample in a row at CRIT_C stops the engine, in the name of the hottest sensor. -/
theorem liveSample_hot (high : s.pwr.vs.code ≤ 2) {r : BitVec 16} (hot : (s.thm.critNow.toNat : Int) * 16 ≤ r.toInt)
    (third : 2 ≤ (s.thm.sensors.at n).crit) (reads : s.Reads n) : ∃ t h, t = s.onSensor n (fun y => y.counted r ((s.thm.sensors.at n).crit + 1)) ∧
      t.Reads h ∧ (∀ k, t.Reads k → (t.thm.sensors.at k).reading.toInt ≤ (t.thm.sensors.at h).reading.toInt) ∧
      liveSample s n r = thermalStop t (uSensor h) 1 (t.thm.sensors.at h).reading := by
  obtain ⟨live, known, part⟩ := reads
  have still : (s.onSensor n (fun y => y.counted r ((s.thm.sensors.at n).crit + 1))).Reads n :=
    ⟨by rw [State.onSensor_at]; exact live, by rw [State.onSensor_at]; exact known, part⟩
  obtain ⟨h, hottest, readsH, most⟩ := hottest_of_reads still
  refine ⟨_, h, rfl, readsH, most, ?_⟩
  unfold liveSample
  dsimp only
  rw [if_neg (show ¬ 3 ≤ (s.onSensor n _).pwr.vs.code from Nat.not_le.2 (Nat.lt_succ_of_le high)), State.onSensor_onSensor, if_pos hot,
    if_pos (Nat.succ_le_succ third)]
  split
  · next g u found =>
    obtain ⟨rfl, rfl⟩ := Prod.mk.inj (Option.some.inj (found.symm.trans hottest))
    rfl
  · next missing => exact absurd (missing.symm.trans hottest) nofun

/-! ## A sensor that fails (R384) -/

/-- SENSOR_FAILED. -/
def sensorFailedEvent (n : Sensor) (cause reading : BitVec 16) : Ev :=
  { code := 0x8004, cls := .c, unit := uSensor n, p16 := cause, p32 := tempParam reading, acc := 0x40, addr := reading.setWidth 64 }

/-- A sensor that has failed. -/
def SensorSt.failed (y : SensorSt) (st : SensorState) (reading : BitVec 16) : SensorSt :=
  { y with state := st, failures := satBits 8 (y.failures.toNat + 1), reading := reading, good := 0, crit := 0, failNew := true }

theorem sensorFail_leaves (s : State) (n : Sensor) (st : SensorState) (cause reading : BitVec 16) :
    let t := sensorFail s n st cause reading
    t.thm = { s.thm with sensors := s.thm.sensors.upd n (fun y => y.failed st reading), fails := s.thm.fails + 1 } ∧
      s.stamp (sensorFailedEvent n cause reading) ∈ t.fst.faultQ ∧ t.irq.status &&& 8 = 8 ∧ t.ctxs = s.ctxs := by
  have stages : sensorFail s n st cause reading =
      thermalEvent ((s.onSensor n (fun y => y.failed st reading)).onThm (fun t => { t with fails := t.fails + 1 })) (sensorFailedEvent n cause reading) := rfl
  rw [stages]
  obtain ⟨thm, ctxs, -⟩ := thermalEvent_fields ((s.onSensor n (fun y => y.failed st reading)).onThm (fun t => { t with fails := t.fails + 1 }))
    (sensorFailedEvent n cause reading)
  exact ⟨thm, State.emit_raises _ _ nofun, or_and_self_right _ _, ctxs⟩

/-! ## SENSOR_SAMPLE -/

/-- A delivered sample that is no reference conversion, of a sensor of the part. -/
theorem exec_sensorSample (part : s.unitExists (uSensor n) = true) (valid : s.aon.valid = true) (delivered : x.delivered = true) (plain : x.refDiff = none) :
    exec (.sensorSample n x) s =
      let t := s.onSensor n (fun y => y.compared s.thm.trip x)
      .next (if s.pwr.vs = .vs4 then sentinelSample t n x else temperatureSample t n x) := by
  show execSensorSample n x s = _
  unfold execSensorSample
  rw [if_neg (by rw [part, valid]; decide), compareHot_of_reading s n delivered plain]
  dsimp only
  by_cases dark : s.pwr.vs = .vs4
  · rw [if_pos dark]
    exact (if_pos dark).trans (congrArg Host.Outcome.next (if_neg (by rw [plain]; simp)))
  · rw [if_neg dark, plain]
    exact (if_neg dark).trans (if_neg (by rw [delivered]; decide))

/-- A sample in range. -/
theorem inRange (delivered : x.delivered = true) (least : -640 ≤ x.reading.toInt) (most : x.reading.toInt ≤ 2400) : outOfRange x = false := by
  simp [outOfRange, delivered, least, most]

theorem outOfRange_of (out : x.reading.toInt < -640 ∨ 2400 < x.reading.toInt) : outOfRange x = true := by
  rcases out with low | high
  · simp [outOfRange, low]
  · simp [outOfRange, high]

/-- The sensor after a sample that is its reading. -/
def SensorSt.taken (y : SensorSt) (trip : BitVec 8) (x : Sample) : SensorSt := (y.compared trip x).read x

/-- The state with the sample taken. -/
theorem exec_sensorSample_live (part : s.unitExists (uSensor n) = true) (valid : s.aon.valid = true) (live : (s.thm.sensors.at n).state = .live)
    (delivered : x.delivered = true) (plain : x.refDiff = none) (awake : s.pwr.vs ≠ .vs4)
    (moves : 3 ≤ s.pwr.vs.code ∨ (s.thm.sensors.at n).known = false ∨ x.code ≠ (s.thm.sensors.at n).code) : exec (.sensorSample n x) s = .next
      (if outOfRange x then sensorFail (s.onSensor n (fun y => (y.compared s.thm.trip x).sampled x)) n .range 2 x.reading
      else liveSample (s.onSensor n (fun y => y.taken s.thm.trip x)) n x.reading) := by
  rw [exec_sensorSample part valid delivered plain]
  dsimp only
  rw [if_neg awake, temperatureSample_live (by rw [State.onSensor_at]; exact live) delivered (by rw [State.onSensor_at]; exact moves),
    State.onSensor_onSensor, State.onSensor_onSensor]
  rfl

theorem Vs.ne_vs4_of_high {v : Vs} (high : v.code ≤ 2) : v ≠ .vs4 := fun is => absurd (is ▸ high : Vs.vs4.code ≤ 2) (by decide)

/-! ## The samples of a LIVE sensor in VS0 to VS2 -/

theorem sensorSample_cool (part : s.unitExists (uSensor n) = true) (valid : s.aon.valid = true) (high : s.pwr.vs.code ≤ 2) (live : (s.thm.sensors.at n).state = .live)
    (delivered : x.delivered = true) (plain : x.refDiff = none) (moves : (s.thm.sensors.at n).known = false ∨ x.code ≠ (s.thm.sensors.at n).code)
    (least : -640 ≤ x.reading.toInt) (most : x.reading.toInt ≤ 2400) (cool : x.reading.toInt < s.thm.critNow.toNat * 16) :
    ∃ t, exec (.sensorSample n x) s = .next t ∧ (t.thm.sensors.at n).reading = x.reading ∧
      (t.thm.sensors.at n).state = .live ∧ (t.thm.sensors.at n).crit = 0 ∧ (t.thm.sensors.at n).hot = decide (1600 ≤ x.reading.toInt) ∧
      (t.thm.sensors.at n).peak = (if (s.thm.sensors.at n).peak.toInt < x.reading.toInt then x.reading else (s.thm.sensors.at n).peak) ∧
      (∀ k, k ≠ n → t.thm.sensors.at k = s.thm.sensors.at k) ∧ t.ctxs = s.ctxs ∧ t.fst = s.fst ∧ t.kept = s.kept := by
  have run := exec_sensorSample_live part valid live delivered plain (Vs.ne_vs4_of_high high) (.inr moves)
  rw [if_neg (by rw [inRange delivered least most]; decide), liveSample_cool (by exact high) (by exact cool), State.onSensor_onSensor] at run
  refine ⟨_, run, ?_, ?_, ?_, ?_, ?_, fun k other => State.onSensor_others s _ other, rfl, rfl, (execSensorSample_kept n x s).of_next run⟩
  all_goals rw [State.onSensor_at]
  · rfl
  · exact live
  · rfl
  · rfl
  · rfl

theorem sensorSample_outOfRange (part : s.unitExists (uSensor n) = true) (valid : s.aon.valid = true) (live : (s.thm.sensors.at n).state = .live)
    (delivered : x.delivered = true) (plain : x.refDiff = none) (awake : s.pwr.vs ≠ .vs4)
    (moves : 3 ≤ s.pwr.vs.code ∨ (s.thm.sensors.at n).known = false ∨ x.code ≠ (s.thm.sensors.at n).code) (out : x.reading.toInt < -640 ∨ 2400 < x.reading.toInt) :
    ∃ t, exec (.sensorSample n x) s = .next t ∧ (t.thm.sensors.at n).state = .range ∧ t.thm.fails = s.thm.fails + 1 ∧
      (∃ e ∈ t.fst.faultQ, e.code = 0x8004 ∧ e.cls = .c ∧ e.unit = uSensor n ∧ e.p16 = 2) ∧ t.irq.status &&& 8 = 8 ∧ t.ctxs = s.ctxs ∧ t.kept = s.kept := by
  have run := exec_sensorSample_live part valid live delivered plain awake moves
  rw [if_pos (outOfRange_of out)] at run
  obtain ⟨thm, raised, irq, ctxs⟩ := sensorFail_leaves (s.onSensor n (fun y => (y.compared s.thm.trip x).sampled x)) n .range 2 x.reading
  refine ⟨_, run, ?_, ?_, ⟨_, raised, rfl, rfl, rfl, rfl⟩, irq, ctxs, (execSensorSample_kept n x s).of_next run⟩
  · rw [thm]
    exact (congrArg SensorSt.state (Tab.at_upd_same ..)).trans rfl
  · rw [thm]
    rfl

theorem sensorSample_hot (part : s.unitExists (uSensor n) = true) (valid : s.aon.valid = true) (high : s.pwr.vs.code ≤ 2) (live : (s.thm.sensors.at n).state = .live)
    (delivered : x.delivered = true) (plain : x.refDiff = none) (moves : (s.thm.sensors.at n).known = false ∨ x.code ≠ (s.thm.sensors.at n).code)
    (hot : (s.thm.critNow.toNat : Int) * 16 ≤ x.reading.toInt) (most : x.reading.toInt ≤ 2400) (third : 2 ≤ (s.thm.sensors.at n).crit)
    (first : s.thm.stopped = false) (clock : s.aon.refOk = true) : ∃ t, exec (.sensorSample n x) s = .next t ∧
      t.thm.stopped = true ∧ t.thm.m = 40 ∧ (∃ e ∈ t.fst.faultQ, e.code = 0x8006 ∧ e.cls = .f ∧ e.p16 = 1 ∧ ∃ h : Sensor, e.unit = uSensor h ∧ (t.thm.sensors.at h).state = .live ∧
        ∀ k, s.unitExists (uSensor k) = true → (t.thm.sensors.at k).state = .live → (t.thm.sensors.at k).known = true → (t.thm.sensors.at k).reading.toInt ≤ (t.thm.sensors.at h).reading.toInt) ∧
      (∀ c, (s.ctx c).pass.st ≠ .noPlan → (t.ctx c).pass.st = .stopped ∨ (t.ctx c).exec.stopAfter ≠ none) ∧ t.kept = s.kept := by
  have run := exec_sensorSample_live part valid live delivered plain (Vs.ne_vs4_of_high high) (.inr moves)
  have before : ((s.onSensor n (fun y => y.taken s.thm.trip x)).thm.sensors.at n) = (s.thm.sensors.at n).taken s.thm.trip x := State.onSensor_at ..
  have reads : (s.onSensor n (fun y => y.taken s.thm.trip x)).Reads n := ⟨by rw [before]; exact live, by rw [before]; rfl, part⟩
  obtain ⟨v, h, is, ⟨liveH, -, -⟩, hottest, stops⟩ := liveSample_hot (s := s.onSensor n (fun y => y.taken s.thm.trip x)) (by exact high) hot
    (by rw [before]; exact third) reads
  rw [if_neg (by rw [inRange delivered (Int.le_trans (by omega) hot) most]; decide), stops] at run
  have firstV : v.thm.stopped = false := by rw [is]; exact first
  have clockV : v.aon.refOk = true := by rw [is]; exact clock
  have ctxV (c : Ctx) : v.ctx c = s.ctx c := by rw [is]; rfl
  have partV (k : Sensor) : v.unitExists (uSensor k) = s.unitExists (uSensor k) := by rw [is]; rfl
  obtain ⟨thm, raised, ends⟩ := thermalStop_leaves firstV clockV (uSensor h) 1 (v.thm.sensors.at h).reading
  have sensors : (thermalStop v (uSensor h) 1 (v.thm.sensors.at h).reading).thm.sensors = v.thm.sensors := by rw [thm]
  refine ⟨_, run, by rw [thm], by rw [thm], ⟨_, raised, rfl, rfl, rfl, h, rfl, ?_, fun k partK liveK knownK => ?_⟩, fun c plan => ends c (by rwa [ctxV]),
    (execSensorSample_kept n x s).of_next run⟩
  · rw [sensors]
    exact liveH
  · rw [sensors] at liveK knownK ⊢
    exact hottest k ⟨liveK, knownK, by rwa [partV]⟩

/-! ## Samples in VS3 and VS4 -/

theorem sensorSample_vs3 (part : s.unitExists (uSensor n) = true) (valid : s.aon.valid = true) (live : (s.thm.sensors.at n).state = .live) (delivered : x.delivered = true)
    (plain : x.refDiff = none) (vs : s.pwr.vs = .vs3) (least : -640 ≤ x.reading.toInt) (most : x.reading.toInt ≤ 2400) :
    ∃ t, exec (.sensorSample n x) s = .next t ∧ (t.thm.sensors.at n).reading = x.reading ∧
      (t.thm.sensors.at n).crit = (s.thm.sensors.at n).crit ∧ (t.thm.sensors.at n).maxNew = (s.thm.sensors.at n).maxNew ∧ t.thm.stopped = s.thm.stopped ∧ t.fst = s.fst ∧ t.kept = s.kept := by
  have low : 3 ≤ s.pwr.vs.code := by rw [vs]; decide
  have run := exec_sensorSample_live part valid live delivered plain (by rw [vs]; decide) (.inl low)
  rw [if_neg (by rw [inRange delivered least most]; decide), liveSample_low (by exact low), State.onSensor_onSensor] at run
  refine ⟨_, run, ?_, ?_, ?_, rfl, rfl, (execSensorSample_kept n x s).of_next run⟩
  all_goals
    rw [State.onSensor_at]
    rfl

theorem sensorSample_vs4 (part : s.unitExists (uSensor n) = true) (valid : s.aon.valid = true) (live : (s.thm.sensors.at n).state = .live) (delivered : x.delivered = true)
    (plain : x.refDiff = none) (vs : s.pwr.vs = .vs4) (out : x.reading.toInt < -640 ∨ 2400 < x.reading.toInt) :
    ∃ t, exec (.sensorSample n x) s = .next t ∧ (t.thm.sensors.at n).state = .range ∧
      (∃ e ∈ t.fst.faultQ, e.code = 0x8004 ∧ e.cls = .c ∧ e.unit = uSensor n ∧ e.p16 = 2) ∧ t.kept = s.kept := by
  have run := exec_sensorSample part valid delivered plain
  have fails : sentinelSample (s.onSensor n (fun y => y.compared s.thm.trip x)) n x = sensorFail (s.onSensor n (fun y => y.compared s.thm.trip x)) n .range 2 x.reading := by
    unfold sentinelSample
    rw [State.onSensor_at, delivered]
    exact (if_pos live).trans (if_pos (outOfRange_of out))
  dsimp only at run
  rw [if_pos vs, fails] at run
  obtain ⟨thm, raised, -⟩ := sensorFail_leaves (s.onSensor n (fun y => y.compared s.thm.trip x)) n .range 2 x.reading
  refine ⟨_, run, ?_, ⟨_, raised, rfl, rfl, rfl, rfl⟩, (execSensorSample_kept n x s).of_next run⟩
  rw [thm]
  exact (congrArg SensorSt.state (Tab.at_upd_same ..)).trans rfl

end

end Sys2Proof.Machine


namespace Sys2Proof.Machine

/-! # The throttle, compensation, the limits and the clock stretch (R386 to R401) -/

section

variable {s t u : State}

/-! ## THROTTLE_UPDATE -/

/-- m after an update in VS0 with an effective temperature. -/
def throttled (s : State) : Option Int → State
  | some v => if s.pwr.vs = .vs0 then setM s v else s
  | none => s

/-- The window of an update is over. -/
def windowClosed (s : State) : State := s.onThm (fun x => { x with
  sensors := x.sensors.mapAll (fun _ y => { y with maxNew := none, failNew := false })
  critNow := x.crit
  stretch := if x.releasing then x.stretch - 1 else x.stretch })

/-- The hottest sensor noted; the index of none comes with an open value. -/
def hottestNoted (s : State) (reading : BitVec 16) (index : BitVec 10) (free : Nat) : State :=
  { s with thm := { s.thm with hottest := reading, hotIndex := index }, free }

theorem exec_throttleUpdate (high : s.pwr.vs.code ≤ 2) : ∃ r i f, exec .throttleUpdate s = .next (compensate (windowClosed (throttled (hottestNoted s r i f) s.tEff))) := by
  show ∃ r i f, execThrottleUpdate s = _
  unfold execThrottleUpdate
  rw [if_neg (Nat.not_le.2 (Nat.lt_succ_of_le high))]
  generalize s.tEff = eff
  cases s.hottest with
  | none => exact ⟨_, _, _, by cases eff <;> rfl⟩
  | some b => exact ⟨_, _, _, by cases eff <;> rfl⟩

/-- What recomputing the trims leaves. -/
structure Trims (s t : State) : Prop where
  m : t.thm.m = s.thm.m
  asks : t.thm.asks = s.thm.asks
  stretch : t.thm.stretch = s.thm.stretch
  sensors : ∀ n, (t.thm.sensors.at n).maxNew = (s.thm.sensors.at n).maxNew ∧ (t.thm.sensors.at n).failNew = (s.thm.sensors.at n).failNew ∧
    (t.thm.sensors.at n).reading = (s.thm.sensors.at n).reading
  ctxs : t.ctxs = s.ctxs
  rcd : t.rcd = s.rcd

theorem Trims.refl (s : State) : Trims s s := ⟨rfl, rfl, rfl, fun _ => ⟨rfl, rfl, rfl⟩, rfl, rfl⟩

/-- The compensation sensors are lost. -/
def trimsLost (s : State) : State :=
  (s.onThm (fun x => { x with compLost := true, fails := bump x.fails })).onSensor 624 (fun x => { x with failures := satBits 8 (x.failures.toNat + 1) })

theorem Trims.trimsLost (s : State) : Trims s (trimsLost s) := by
  refine ⟨rfl, rfl, rfl, fun n => ?_, rfl, rfl⟩
  by_cases same : n = 624
  · subst same
    unfold Machine.trimsLost
    rw [State.onSensor_at]
    exact ⟨rfl, rfl, rfl⟩
  · unfold Machine.trimsLost
    rw [State.onSensor_others _ _ same]
    exact ⟨rfl, rfl, rfl⟩

theorem Trims.thermalEvent {e : Ev} (h : Trims s t) (fault : e.cls ≠ .record) : Trims s (thermalEvent t e) := by
  obtain ⟨thm, ctxs, -⟩ := thermalEvent_fields t e
  obtain ⟨m, asks, stretch, sensors, ctxs', rcd⟩ := h
  have rcdE : (Machine.thermalEvent t e).rcd = t.rcd := by
    unfold Machine.thermalEvent
    rw [State.irqSet_rcd, State.emit_fault _ fault]
    exact State.onFst_rcd _ _
  exact ⟨by rw [thm, m], by rw [thm, asks], by rw [thm, stretch], fun n => by rw [thm]; exact sensors n, ctxs.trans ctxs', rcdE.trans rcd⟩

theorem Trims.compensate (s : State) : Trims s (compensate s) := by
  unfold Machine.compensate
  split
  · exact ⟨rfl, rfl, rfl, fun _ => ⟨rfl, rfl, rfl⟩, rfl, rfl⟩
  · split
    · exact .refl s
    · exact (Trims.trimsLost s).thermalEvent (by exact nofun)

theorem compensate_of_median {m : Int} (median : medianHigh s.compReadings = some m) :
    compensate s = s.onThm (fun x => { x with compAt := some m, compLost := false }) := by
  unfold compensate
  rw [median]

theorem windowClosed_sensor (s : State) (n : Sensor) :
    (windowClosed s).thm.sensors.at n = { s.thm.sensors.at n with maxNew := none, failNew := false } :=
  Tab.at_mapAll s.thm.sensors (fun _ y => { y with maxNew := none, failNew := false }) n

/-! ### m (R388, R392) -/

/-- The new m, and its least value in the episode. -/
def mStepped (s : State) (eff : Int) : State :=
  s.onThm (fun t => { t with m := nextM s.thm.m (mTarget eff s.thm.throttle.toNat)
                             lowest := if s.thm.m = 100 then nextM s.thm.m (mTarget eff s.thm.throttle.toNat) else min t.lowest (nextM s.thm.m (mTarget eff s.thm.throttle.toNat)) })

/-- THROTTLE_START. -/
def throttleStartEvent (m : Nat) (eff : Int) : Ev := { code := 0x8001, unit := uThm, p16 := BitVec.ofNat 16 m, p32 := BitVec.ofInt 32 eff }

/-- What changes m: the sensors, the stretch and the contexts stay. -/
structure Steers (s t : State) : Prop where
  asks : t.thm.asks = s.thm.asks
  stretch : t.thm.stretch = s.thm.stretch
  sensors : t.thm.sensors = s.thm.sensors
  ctxs : t.ctxs = s.ctxs

theorem Steers.thermalEvent (h : Steers s t) (e : Ev) : Steers s (thermalEvent t e) := by
  obtain ⟨thm, ctxs, -⟩ := thermalEvent_fields t e
  exact ⟨by rw [thm, h.asks], by rw [thm, h.stretch], by rw [thm, h.sensors], ctxs.trans h.ctxs⟩

theorem Steers.setM (s : State) (eff : Int) : Steers s (setM s eff) := by
  unfold Machine.setM
  split
  · exact ⟨rfl, rfl, rfl, rfl⟩
  · dsimp only
    split
    · apply Steers.thermalEvent
      exact ⟨rfl, rfl, rfl, rfl⟩
    · split
      · apply Steers.thermalEvent
        exact ⟨rfl, rfl, rfl, rfl⟩
      · exact ⟨rfl, rfl, rfl, rfl⟩

theorem setM_m (runs : s.thm.stopped = false) (eff : Int) : (setM s eff).thm.m = nextM s.thm.m (mTarget eff s.thm.throttle.toNat) := by
  unfold setM
  rw [if_neg (by rw [runs]; decide)]
  dsimp only
  split
  · exact (congrArg Thm.m (thermalEvent_fields _ _).1).trans rfl
  · split
    · exact (congrArg Thm.m (thermalEvent_fields _ _).1).trans rfl
    · rfl

/-- An update that takes m below 100 begins an episode. -/
theorem setM_starts (runs : s.thm.stopped = false) (eff : Int) (full : s.thm.m = 100) (less : (setM s eff).thm.m < 100) :
    ∃ e ∈ (setM s eff).rcd.intake, e.code = 0x8001 ∧ e.unit = uThm ∧ e.p16 = BitVec.ofNat 16 (setM s eff).thm.m := by
  rw [setM_m runs] at less ⊢
  have starts : setM s eff = thermalEvent ((mStepped s eff).onThm (fun t => { t with episode := some s.time.tick }))
      (throttleStartEvent (nextM s.thm.m (mTarget eff s.thm.throttle.toNat)) eff) :=
    (if_neg (by rw [runs]; decide)).trans (if_pos ⟨full, less⟩)
  rw [starts]
  exact ⟨_, State.emit_records _ _ rfl, rfl, rfl, rfl⟩

theorem nextM_eq (m target : Nat) : nextM m target = if target < m then target else min target (m + 2) := rfl

/-! ### The throttle law -/

theorem mTarget_law (te : Int) (c : Nat) : (te ≤ c * 16 → mTarget te c = 100) ∧ (c * 16 + 240 ≤ te → mTarget te c = 40) ∧
    (40 ≤ mTarget te c ∧ mTarget te c ≤ 100) := by
  unfold mTarget
  dsimp only
  refine ⟨fun low => if_pos (by omega), fun high => ?_, ?_⟩
  · rw [if_neg (by omega)]
    omega
  · split <;> omega

theorem throttleUpdate_vs0 {te : Int} (vs : s.pwr.vs = .vs0) (eff : s.tEff = some te) (runs : s.thm.stopped = false) : ∃ t, exec .throttleUpdate s = .next t ∧
    t.thm.m = (if mTarget te s.thm.throttle.toNat < s.thm.m then mTarget te s.thm.throttle.toNat else min (mTarget te s.thm.throttle.toNat) (s.thm.m + 2)) ∧
    (∀ n, (t.thm.sensors.at n).maxNew = none ∧ (t.thm.sensors.at n).failNew = false ∧ (t.thm.sensors.at n).reading = (s.thm.sensors.at n).reading) ∧
    (s.thm.m = 100 → t.thm.m < 100 → ∃ e ∈ t.rcd.intake, e.code = 0x8001 ∧ e.unit = uThm ∧ e.p16 = BitVec.ofNat 16 t.thm.m) ∧ t.ctxs = s.ctxs ∧ t.kept = s.kept := by
  obtain ⟨r, i, f, run⟩ := exec_throttleUpdate (s := s) (by rw [vs]; decide)
  rw [eff, show throttled (hottestNoted s r i f) (some te) = setM (hottestNoted s r i f) te from if_pos vs] at run
  have steers := Steers.setM (hottestNoted s r i f) te
  have m := setM_m (s := hottestNoted s r i f) runs te
  have starts := setM_starts (s := hottestNoted s r i f) runs te
  have kept := (execThrottleUpdate_kept s).of_next run
  generalize setM (hottestNoted s r i f) te = v at run steers m starts kept
  have trims := Trims.compensate (windowClosed v)
  have sensor (n : Sensor) : (windowClosed v).thm.sensors.at n = { s.thm.sensors.at n with maxNew := none, failNew := false } := by
    rw [windowClosed_sensor, steers.sensors]
    rfl
  refine ⟨_, run, trims.m.trans m, fun n => ?_, fun full less => ?_, trims.ctxs.trans steers.ctxs, kept⟩
  · obtain ⟨maxNew, failNew, reading⟩ := trims.sensors n
    rw [maxNew, failNew, reading, sensor]
    exact ⟨rfl, rfl, rfl⟩
  · rw [trims.rcd, trims.m] at *
    exact starts full less

/-! ## VX_THM_CFG (R401) -/

/-- The limits taken over. -/
def limitsSet (s : State) (v : Reg) : State :=
  s.onThm (fun x => { x with throttle := field v 0 8, crit := field v 8 8, trip := field v 16 8, refused := false })

/-- THERMAL_CONFIG. -/
def thermalConfigEvent (v : Reg) : Ev :=
  { code := 0x8009, unit := uThm, p16 := BitVec.ofNat 16 (field v 0 8 : BitVec 8).toNat
    p32 := BitVec.ofNat 32 ((field v 8 8 : BitVec 8).toNat + 256 * (field v 16 8 : BitVec 8).toNat) }

theorem thermalConfig_accepted (src : Src) {v : Reg}
    (ordered : 70 ≤ (field v 0 8 : BitVec 8).toNat ∧ (field v 0 8 : BitVec 8).toNat ≤ 105 ∧ (field v 0 8 : BitVec 8).toNat + 20 ≤ (field v 8 8 : BitVec 8).toNat ∧
      (field v 8 8 : BitVec 8).toNat + 5 ≤ (field v 16 8 : BitVec 8).toNat ∧ (field v 16 8 : BitVec 8).toNat ≤ 125)
    (runs : s.thm.stopped = false) (cool : s.aon.trip = false) :
    thermalConfig src v s = ((limitsSet s v).putItem 7 ((v.setWidth 24).setWidth 64)).emit (thermalConfigEvent v) := by
  obtain ⟨least, most, crit, trip, top⟩ := ordered
  exact if_pos ⟨least, most, crit, trip, top, by rw [runs]; rfl, by rw [cool]; rfl⟩

theorem thermalConfig_refused (src : Src) {v : Reg}
    (out : (field v 0 8 : BitVec 8).toNat < 70 ∨ 105 < (field v 0 8 : BitVec 8).toNat ∨ (field v 8 8 : BitVec 8).toNat < (field v 0 8 : BitVec 8).toNat + 20 ∨
      (field v 16 8 : BitVec 8).toNat < (field v 8 8 : BitVec 8).toNat + 5 ∨ 125 < (field v 16 8 : BitVec 8).toNat ∨ s.thm.stopped = true ∨ s.aon.trip = true) :
    thermalConfig src v s = (s.onThm (fun x => { x with refused := true })).logRefusal mc none src 0x800000 := by
  refine if_neg ?_
  rintro ⟨least, most, crit, trip, top, runs, cool⟩
  rcases out with h | h | h | h | h | h | h
  · omega
  · omega
  · omega
  · omega
  · omega
  · rw [h] at runs
    exact absurd runs (by decide)
  · rw [h] at cool
    exact absurd cool (by decide)

theorem exec_thermalConfig (carried : s.gate 0x800000 = .carry) (src : Src) (v : Reg) :
    exec (.thermalConfig src v) s = .next ((thermalConfig src v s).complete src 0x800000 false 0 0) :=
  congrArg Host.Outcome.next (gatedWrite_of_carry carried src v _)

theorem thermalConfig_takes (src : Src) {v : Reg} (carried : s.gate 0x800000 = .carry)
    (ordered : 70 ≤ (field v 0 8 : BitVec 8).toNat ∧ (field v 0 8 : BitVec 8).toNat ≤ 105 ∧ (field v 0 8 : BitVec 8).toNat + 20 ≤ (field v 8 8 : BitVec 8).toNat ∧
      (field v 8 8 : BitVec 8).toNat + 5 ≤ (field v 16 8 : BitVec 8).toNat ∧ (field v 16 8 : BitVec 8).toNat ≤ 125)
    (runs : s.thm.stopped = false) (cool : s.aon.trip = false) : ∃ u, exec (.thermalConfig src v) s = .next u ∧
      u.thm = { s.thm with throttle := field v 0 8, crit := field v 8 8, trip := field v 16 8, refused := false } ∧
      (∃ e ∈ u.rcd.intake, e.code = 0x8009 ∧ e.unit = uThm ∧ e.p16 = BitVec.ofNat 16 (field v 0 8 : BitVec 8).toNat) ∧ u.ctxs = s.ctxs ∧ u.kept = s.kept := by
  have run := exec_thermalConfig carried src v
  rw [thermalConfig_accepted src ordered runs cool] at run
  refine ⟨_, run, ?_, ⟨((limitsSet s v).putItem 7 ((v.setWidth 24).setWidth 64)).stamp (thermalConfigEvent v), ?_, rfl, rfl, rfl⟩, ?_, (execThermalConfig_kept src v s).of_next run⟩
  · rw [State.complete_thm, State.emit_thm, State.putItem_eq]
    rfl
  · rw [State.complete_rcd]
    exact State.emit_records _ (thermalConfigEvent v) rfl
  · rw [State.complete_ctxs, State.emit_ctxs, State.putItem_eq]
    rfl

theorem thermalConfig_refuses (src : Src) {v : Reg} (carried : s.gate 0x800000 = .carry)
    (out : (field v 0 8 : BitVec 8).toNat < 70 ∨ 105 < (field v 0 8 : BitVec 8).toNat ∨ (field v 8 8 : BitVec 8).toNat < (field v 0 8 : BitVec 8).toNat + 20 ∨
      (field v 16 8 : BitVec 8).toNat < (field v 8 8 : BitVec 8).toNat + 5 ∨ 125 < (field v 16 8 : BitVec 8).toNat ∨ s.thm.stopped = true ∨ s.aon.trip = true) :
    ∃ u, exec (.thermalConfig src v) s = .next u ∧ u.thm = { s.thm with refused := true } ∧ u.ctxs = s.ctxs ∧ u.rcd = s.rcd ∧ u.kept = s.kept := by
  have run := exec_thermalConfig carried src v
  rw [thermalConfig_refused src out] at run
  refine ⟨_, run, ?_, ?_, ?_, (execThermalConfig_kept src v s).of_next run⟩
  · rw [State.complete_thm, State.logRefusal_thm]
    rfl
  · rw [State.complete_ctxs, State.logRefusal_ctxs]
    rfl
  · rw [State.complete_rcd, State.logRefusal_rcd]
    rfl

/-- Settles O50: a sample by the checks it passes, the throttle update by its stages, the limits by their order. -/
theorem sensorsAndThrottle : Obligations.SensorsAndThrottle := by
  unfold Obligations.SensorsAndThrottle
  refine ⟨fun s n x part valid high live delivered plain moves => ⟨?_, ?_, ?_⟩, fun s n x part valid live delivered plain => ⟨?_, ?_⟩,
    fun s te vs eff runs => throttleUpdate_vs0 vs eff runs, mTarget_law, fun s m valid low median => ?_, fun s src v carried => ⟨?_, ?_⟩,
    fun s src v carried => ?_, fun s => rfl⟩
  · exact sensorSample_cool part valid high live delivered plain moves
  · exact sensorSample_outOfRange part valid live delivered plain (Vs.ne_vs4_of_high high) (.inr moves)
  · exact sensorSample_hot part valid high live delivered plain moves
  · exact sensorSample_vs3 part valid live delivered plain
  · exact sensorSample_vs4 part valid live delivered plain
  · show execCompensationUpdate s = _
    unfold execCompensationUpdate
    rw [if_pos (by simp [valid, low]), compensate_of_median median]
    rfl
  · exact fun least most crit trip top => thermalConfig_takes src carried ⟨least, most, crit, trip, top⟩
  · exact thermalConfig_refuses src carried
  · exact congrArg Host.Outcome.next (gatedWrite_of_carry carried src v _)

/-! ## The clock stretch (R390) -/

/-- CLOCK_STRETCH. -/
def clockStretchEvent (k : Nat) (mon : BitVec 32) : Ev := { code := 0x8003, unit := uThm, p16 := BitVec.ofNat 16 k, p32 := mon }

theorem exec_clockStretch {k : Fin 17} (some_ : k.val ≠ 0) (vs : s.pwr.vs = .vs0) (mon : BitVec 32) : exec (.clockStretch k mon) s =
    if s.thm.asks = [] then .next (((s.onThm (fun t => t.ask mon k.val)).onThm (fun t => { t with stretches := t.stretches + 1 })).emit (clockStretchEvent k.val mon))
    else .next (s.onThm (fun t => t.ask mon k.val)) := by
  show execClockStretch k mon s = _
  unfold execClockStretch
  rw [if_neg (by rintro (zero | low); exact some_ zero; exact low vs)]
  refine ite_congr (propext ?_) (fun _ => rfl) fun _ => rfl
  simp [Thm.stretchOn]

theorem asked_lt {asks : List (BitVec 32 × Nat)} {m k : Nat} : asks.foldl (fun m a => max m a.2) m < k ↔ m < k ∧ ∀ a ∈ asks, a.2 < k := by
  induction asks generalizing m with
  | nil => simp
  | cons a asks ih => rw [List.foldl_cons, ih, List.forall_mem_cons, Nat.max_lt, and_assoc]

theorem Thm.releasing_iff (t : Thm) : t.releasing = true ↔ 0 < t.stretch ∧ ∀ a ∈ t.asks, a.2 < t.stretch := by
  rw [Thm.releasing, decide_eq_true_iff, Thm.asked, asked_lt]

theorem Steers.throttled (s : State) (eff : Option Int) : Steers s (throttled s eff) := by
  unfold Machine.throttled
  split
  · split
    · exact .setM s _
    · exact ⟨rfl, rfl, rfl, rfl⟩
  · exact ⟨rfl, rfl, rfl, rfl⟩

theorem throttleUpdate_releases (high : s.pwr.vs.code ≤ 2) : ∃ t, exec .throttleUpdate s = .next t ∧ t.thm.asks = s.thm.asks ∧ t.kept = s.kept ∧
    t.thm.stretch = if s.thm.releasing then s.thm.stretch - 1 else s.thm.stretch := by
  obtain ⟨r, i, f, run⟩ := exec_throttleUpdate high
  have steers := Steers.throttled (hottestNoted s r i f) s.tEff
  have kept := (execThrottleUpdate_kept s).of_next run
  generalize throttled (hottestNoted s r i f) s.tEff = v at run steers kept
  have trims := Trims.compensate (windowClosed v)
  refine ⟨_, run, trims.asks.trans steers.asks, kept, trims.stretch.trans ?_⟩
  show (if v.thm.releasing then v.thm.stretch - 1 else v.thm.stretch) = _
  unfold Thm.releasing Thm.asked
  rw [steers.asks, steers.stretch]
  rfl

/-- Settles O51: the requests in force, what a release takes, and the orderly stop of a margin violation. -/
theorem clockStretch : Obligations.ClockStretch := by
  unfold Obligations.ClockStretch
  refine ⟨fun s k mon some_ vs quiet => ?_, fun s k mon some_ vs busy => ?_, fun s mon => rfl, fun s high => ?_, fun s vs violates first clock => ?_⟩
  · have run := exec_clockStretch some_ vs mon
    rw [if_pos quiet, State.emit_record _ rfl] at run
    refine ⟨_, s.stamp (clockStretchEvent k.val mon), run, ?_, rfl, rfl, rfl, rfl, ?_⟩
    · unfold State.onThm Thm.ask
      dsimp only
      rw [quiet]
      rfl
    · show Thm.pct { s.thm.ask mon k.val with stretches := s.thm.stretches + 1 } = _
      unfold Thm.ask
      rw [quiet]
      rfl
  · exact (exec_clockStretch some_ vs mon).trans (if_neg busy)
  · obtain ⟨t, run, asks, kept, stretch⟩ := throttleUpdate_releases high
    refine ⟨t, run, asks, kept, fun ⟨a, mem, holds⟩ => ?_, fun below => ?_⟩
    · rw [stretch, if_neg fun releases => Nat.not_lt.2 holds (((Thm.releasing_iff _).1 releases).2 a mem)]
    · rw [stretch]
      split
      · rfl
      · next stays =>
        have zero : ¬ 0 < s.thm.stretch := fun more => stays ((Thm.releasing_iff _).2 ⟨more, below⟩)
        omega
  · have run : exec .marginViolationTimeout s = .next (thermalStop s uThm 2 0) := by
      show execMarginViolationTimeout s = _
      unfold execMarginViolationTimeout
      rw [if_pos ⟨vs, by simpa using violates⟩]
    obtain ⟨thm, raised, -⟩ := thermalStop_leaves first clock uThm 2 0
    exact ⟨_, run, by rw [thm], by rw [thm], ⟨_, raised, rfl, rfl, rfl, rfl⟩, (execMarginViolationTimeout_kept s).of_next run⟩

end

end Sys2Proof.Machine


namespace Sys2Proof.Machine

/-! ## A signature that finds the queue full (R417, R419)

The statement asks that nothing is left in the intake once its one event has been taken. Here the event carries a signature, and the signature
queue holds 64 entries of class C: the oldest makes room, and CPER_DROPPED is a record of its own, which waits in the intake. -/

/-- A signature of class C. -/
def classCEntry : Cper :=
  { cls := 0, code := 0x4002, unit := uMgtu 0, ctx := none, op := 0, esc := false, replace := false, noWall := false, halted := false, p16 := 0, p32 := 0,
    addr := 0, tick := 0, wall := 0, unitTemp := 0, hottest := 0, vcore := 0, vmem := 0, seq := 0 }

/-- An event with its signature. -/
def signedEvent : Ev := { code := 0x4002, cls := .c, unit := uMgtu 0, sig := some classCEntry }

/-- After bring-up with a full signature queue, and the event in the intake. -/
def signaturesFull : State :=
  { State.reset with
    aon := { State.reset.aon with valid := true, strap := 0 }
    rcd := { State.reset.rcd with intake := [signedEvent], seqSet := true, cpers := List.replicate 64 classCEntry } }

theorem signaturesFull_ready : signaturesFull.rcd.intake = [signedEvent] ∧ signedEvent.glued = false ∧ signaturesFull.rcd.openTill = none ∧
    signaturesFull.rcd.queue.length < 4096 ∧ signaturesFull.rcd.seqSet = true := by decide +kernel

/-- How many events a step leaves in the intake. -/
def intakeAfter (i : Instr) (s : State) : Option Nat :=
  match exec i s with
  | .next t => some t.rcd.intake.length
  | _ => none

theorem intakeAfter_of_next {i : Instr} {s t : State} (step : exec i s = .next t) : intakeAfter i s = some t.rcd.intake.length := by
  rw [intakeAfter, step]

theorem signaturesFull_intake : intakeAfter .recordIntake signaturesFull = some 1 := by decide +kernel

/-- Refutes O52: the signature of the event taken may push an entry out of a full queue, and CPER_DROPPED then stands in the intake. -/
theorem not_recordsFromIntakeToFlash : ¬ Obligations.RecordsFromIntakeToFlash := by
  unfold Obligations.RecordsFromIntakeToFlash
  intro claim
  obtain ⟨takes, -⟩ := claim
  obtain ⟨event, glued, shut, room, numbered⟩ := signaturesFull_ready
  obtain ⟨t, step, empty, -⟩ := takes signaturesFull signedEvent event glued shut room numbered
  have count := (intakeAfter_of_next step).symm.trans signaturesFull_intake
  rw [empty] at count
  exact absurd count (by decide)

end Sys2Proof.Machine


namespace Sys2Proof.Machine

/-! ## A waiting register access that restarts MC (R74, R447, R450)

The statement asks that MC is no longer RESTARTING once its latches are open and the requests that waited for it have been served. Here the
request that waited is a register write over the management port to RESTART in MC's own VX_FWP_CTRL: MC reaches RUN, serves it, and restarts. -/

/-- The write of RESTART to MC's VX_FWP_CTRL. -/
def restartRequest : MgtWait := .request (.access 0xB01010 8 (.write 1))

/-- After bring-up, MC under its latches with a protocol agreed, and the request waiting for it. -/
def restartWaits : State :=
  { State.reset with
    aon := { State.reset.aon with valid := true, refOk := true }
    pwr := { State.reset.pwr with step := 7, vs := .vs0 }
    fwp := { State.reset.fwp with procs := State.reset.fwp.procs.upd mc (fun x => { x with state := .restarting, latches := true, greeted := true }) }
    mgt := [restartRequest] }

theorem restartWaits_ready : (restartWaits.proc mc).state = .restarting ∧ restartWaits.clocked mc = true ∧ restartWaits.mgt ≠ [] := by decide +kernel

/-- The state of a processor after a step. -/
def procStateAfter (i : Instr) (p : Proc) (s : State) : Option ProcState :=
  match exec i s with
  | .next t => some (t.proc p).state
  | _ => none

theorem procStateAfter_of_next {i : Instr} {s t : State} (p : Proc) (step : exec i s = .next t) : procStateAfter i p s = some (t.proc p).state := by
  rw [procStateAfter, step]

theorem restartWaits_restarts : procStateAfter (.latchRelease mc []) mc restartWaits = some .restarting := by decide +kernel

/-- Refutes O53: MC serves what waited for it, and a request among it may restart it at once. -/
theorem not_processorsRestartAndLoad : ¬ Obligations.ProcessorsRestartAndLoad := by
  unfold Obligations.ProcessorsRestartAndLoad
  intro claim
  obtain ⟨-, -, -, -, -, -, serves, -⟩ := claim
  obtain ⟨held, clocked, waits⟩ := restartWaits_ready
  obtain ⟨t, step, -, works, -⟩ := serves restartWaits held clocked waits
  exact works (Option.some.inj ((procStateAfter_of_next mc step).symm.trans restartWaits_restarts))

end Sys2Proof.Machine


namespace Sys2Proof.Machine

/-! # Mailbox exchanges (R431 to R440) -/

section

variable {s t u : State} {p : Proc} {side : Fin 2}

/-! ## Processors and their logs -/

theorem State.onProc_at (s : State) (p : Proc) (f : ProcSt → ProcSt) : (s.onProc p f).proc p = f (s.proc p) := Tab.at_upd_same ..

theorem State.onProc_others (s : State) {p q : Proc} (f : ProcSt → ProcSt) (other : q ≠ p) : (s.onProc p f).proc q = s.proc q := Tab.at_upd_other _ _ other

/-- A processor but for its log. -/
def ProcSt.unlogged (x : ProcSt) : ProcSt := { x with written := 0, log := [] }

/-- A state but for the processors and the open values. -/
def State.butProcs (s : State) : State := { s with free := 0, fwp := { s.fwp with procs := Vector.replicate 6 {} } }

/-- From `s` to `t` processors have made log entries. -/
structure Logs (s t : State) : Prop where
  rest : t.butProcs = s.butProcs
  procs : ∀ q, (t.proc q).unlogged = (s.proc q).unlogged

theorem Logs.refl (s : State) : Logs s s := ⟨rfl, fun _ => rfl⟩

theorem Logs.logTo (s : State) (p : Proc) (code : BitVec 16) (c : Option Ctx) (hw : Bool) (arg : BitVec 32) : Logs s (s.logTo p code c hw arg) := by
  refine ⟨rfl, fun q => ?_⟩
  unfold State.logTo
  by_cases same : q = p
  · subst same
    rw [State.onProc_at]
    rfl
  · rw [State.onProc_others _ _ same]

theorem Logs.tracePoint (s : State) (p : Proc) (point : Nat) : Logs s (tracePoint s p point) := by
  unfold Machine.tracePoint
  split
  · obtain ⟨rest, procs⟩ := Logs.logTo s.fresh.2 p (BitVec.ofNat 16 point) none false (s.fresh.1.setWidth 32)
    exact ⟨rest.trans rfl, procs⟩
  · exact .refl s

theorem Logs.irq (h : Logs s t) : t.irq = s.irq := (congrArg State.irq h.rest :)
theorem Logs.ctxs (h : Logs s t) : t.ctxs = s.ctxs := (congrArg State.ctxs h.rest :)
theorem Logs.rcd (h : Logs s t) : t.rcd = s.rcd := (congrArg State.rcd h.rest :)
theorem Logs.fst (h : Logs s t) : t.fst = s.fst := (congrArg State.fst h.rest :)
theorem Logs.out (h : Logs s t) : t.out = s.out := (congrArg State.out h.rest :)
theorem Logs.mbox (h : Logs s t) : t.fwp.mbox = s.fwp.mbox := (congrArg (fun s : State => s.fwp.mbox) h.rest :)
theorem Logs.chans (h : Logs s t) : t.fwp.chans = s.fwp.chans := (congrArg (fun s : State => s.fwp.chans) h.rest :)
theorem Logs.state (h : Logs s t) (q : Proc) : (t.proc q).state = (s.proc q).state := (congrArg ProcSt.state (h.procs q) :)
theorem Logs.major (h : Logs s t) (q : Proc) : (t.proc q).major = (s.proc q).major := (congrArg ProcSt.major (h.procs q) :)
theorem Logs.minor (h : Logs s t) (q : Proc) : (t.proc q).minor = (s.proc q).minor := (congrArg ProcSt.minor (h.procs q) :)

/-! ## RING and MBX_TIMEOUT -/

theorem mboxOf_val (p : Proc) (side : Fin 2) : (⟨(mboxOf p side).val / 2, by omega⟩ : Proc) = p ∧ (⟨(mboxOf p side).val % 2, by omega⟩ : Fin 2) = side := by
  constructor
  · refine Fin.ext ?_
    show (2 * p.val + side.val) / 2 = p.val
    omega
  · refine Fin.ext ?_
    show (2 * p.val + side.val) % 2 = side.val
    omega

/-- The request copied, the exchange begun. -/
def rung (s : State) (m : Fin 12) : State :=
  s.onMbox m (fun x => { x with inReq := x.req, busy := true, done := false, timedOut := false, refused := false })

theorem mbxRing_begins {src : Src} (free : (s.fwp.mbox.at (mboxOf p side)).busy = false) (own : side = 0 ↔ src = .host) (works : (s.proc p).state ≠ .failed) :
    mbxRing src (mboxOf p side) s = rung s (mboxOf p side) := by
  obtain ⟨isP, isSide⟩ := mboxOf_val p side
  unfold mbxRing
  dsimp only
  rw [isP, isSide, if_neg (by rw [free]; rintro (busy | other); exact absurd busy (by decide); exact other (propext own))]
  exact if_neg works

theorem mbxRing_refused (src : Src) {m : Fin 12} (busy : (s.fwp.mbox.at m).busy = true) :
    mbxRing src m s = (s.onMbox m (fun x => { x with refused := true })).logRefusal mc none src (mbxCtrlOff m) := if_pos (.inl busy)

theorem exec_mbxRing (carried : s.gate (mbxCtrlOff (mboxOf p side)) = .carry) (src : Src) : exec (.mbxRing src p side) s =
    .next ((mbxRing src (mboxOf p side) s).complete src (mbxCtrlOff (mboxOf p side)) false 0 0) := congrArg Host.Outcome.next (gatedWrite_of_carry carried src _ _)

/-- MBX_TIMEOUT. -/
def mbxTimeoutEvent (p : Proc) (side : Fin 2) (m : Mbox) : Ev :=
  { code := 0xA001, cls := .c, unit := uProc p, p16 := BitVec.ofNat 16 (imageField m.bytes 2 2), p32 := BitVec.ofNat 32 (imageField m.bytes 4 1 + 256 * side.val) }

theorem exec_mbxTimeout (busy : (s.fwp.mbox.at (mboxOf p side)).busy = true) (early : (s.fwp.mbox.at (mboxOf p side)).timedOut = false) : exec (.mbxTimeout p side) s =
    .next ((s.onMbox (mboxOf p side) (fun x => { x with timedOut := true })).emit (mbxTimeoutEvent p side (s.fwp.mbox.at (mboxOf p side)))) := by
  show execMbxTimeout p side s = _
  unfold execMbxTimeout
  dsimp only
  rw [if_neg (by rw [busy, early]; decide)]
  rfl

/-! ## A response posted -/

theorem postResponse_mbox (s : State) (p : Proc) (side : Fin 2) (rsp : MboxRegs) : (postResponse s p side rsp).fwp.mbox.at (mboxOf p side) =
    { s.fwp.mbox.at (mboxOf p side) with rsp, busy := false, done := true } := by
  unfold postResponse
  dsimp only
  split
  all_goals exact Tab.at_upd_same ..

theorem postResponse_irq (s : State) (p : Proc) (side : Fin 2) (rsp : MboxRegs) : (postResponse s p side rsp).irq.mbx = s.irq.mbx ||| (1#12 <<< (mboxOf p side).val) ∧
    (side = 0 → (postResponse s p side rsp).irq.status &&& 2 = 2) := by
  unfold postResponse
  dsimp only
  split
  · exact ⟨rfl, fun _ => or_and_self_right _ _⟩
  · next other => exact ⟨rfl, fun is => absurd is other⟩

theorem postResponse_ctxs (s : State) (p : Proc) (side : Fin 2) (rsp : MboxRegs) : (postResponse s p side rsp).ctxs = s.ctxs := by
  unfold postResponse
  dsimp only
  split <;> rfl

theorem postResponse_rcd (s : State) (p : Proc) (side : Fin 2) (rsp : MboxRegs) : (postResponse s p side rsp).rcd = s.rcd := by
  unfold postResponse
  dsimp only
  split <;> rfl

/-- An exchange that has ended with a response. -/
structure Answered (s : State) (p : Proc) (side : Fin 2) (rsp : MboxRegs) (t : State) : Prop where
  rsp : (t.fwp.mbox.at (mboxOf p side)).rsp = rsp
  busy : (t.fwp.mbox.at (mboxOf p side)).busy = false
  done : (t.fwp.mbox.at (mboxOf p side)).done = true
  mbx : t.irq.mbx = s.irq.mbx ||| (1#12 <<< (mboxOf p side).val)
  status : side = 0 → t.irq.status &&& 2 = 2
  ctxs : t.ctxs = s.ctxs

/-- A response posted after what has kept the interrupts and the contexts. -/
theorem Answered.posted (rsp : MboxRegs) (irq : u.irq = s.irq) (ctxs : u.ctxs = s.ctxs) : Answered s p side rsp (Machine.tracePoint (postResponse u p side rsp) p 3) := by
  have logs := Logs.tracePoint (postResponse u p side rsp) p 3
  obtain ⟨mbx, status⟩ := postResponse_irq u p side rsp
  have mbox := postResponse_mbox u p side rsp
  rw [← logs.mbox] at mbox
  exact ⟨by rw [mbox], by rw [mbox], by rw [mbox], by rw [logs.irq, mbx, irq], fun zero => by rw [logs.irq]; exact status zero,
    by rw [logs.ctxs, postResponse_ctxs, ctxs]⟩

/-! ## What a request leaves (R434 to R440) -/

theorem Serves.patternPass (s : State) (q : Pattern) : Serves s (patternPass s q) := by
  unfold Machine.patternPass
  dsimp only
  split
  · exact (Serves.onScr s _).trans ((Serves.emit _ _).trans (.histPut _ _))
  · exact .onScr s _

theorem Serves.patternFail (s : State) (q : Pattern) (misr : BitVec 128) : Serves s (patternFail s q misr) := by
  unfold Machine.patternFail
  dsimp only
  split
  · exact (Serves.onScr s _).trans ((Serves.histPut _ _).trans (.exposureRecords _ _ _))
  · exact (Serves.onScr s _).trans (.emit _ _)

/-- The result of a pattern kept. -/
theorem Serves.judgePattern (s : State) (e : Pattern × BitVec 128 × BitVec 32) : Serves s (judgePattern s e) := by
  obtain ⟨q, misr, cycles⟩ := e
  by_cases good : s.passes q misr cycles
  · rw [judgePattern_good good]
    exact (Serves.onScr s _).trans ((Serves.patternPass _ q).trans (.rotationCheck _))
  · rw [judgePattern_bad good]
    exact (Serves.onScr s _).trans ((Serves.patternFail _ q misr).trans (.rotationCheck _))

theorem Serves.judgeEnded (s : State) : Serves s (judgeEnded s) := (Serves.onScr s _).trans (.each fun t e => .judgePattern t e)

theorem Serves.irq (h : Serves s t) : t.irq = s.irq := (congrArg State.irq h.rest :)
theorem Serves.fwp (h : Serves s t) : t.fwp = s.fwp := (congrArg State.fwp h.rest :)

/-- RUN, and a lasting history ended (R451). -/
def runEntered (s : State) (p : Proc) : State :=
  let t := s.onProc p (fun x => { x with state := .run })
  if (s.fst.unit (uProc p)).state = .lasting then t.onFst (fun f => f.setUnit (uProc p) { s.fst.unit (uProc p) with state := .watch }) else t

theorem reachRun_eq (s : State) (p : Proc) : reachRun s p = if p.val = 5 then judgeEnded (runEntered s p) else runEntered s p := rfl

theorem runEntered_leaves (s : State) (p : Proc) : (runEntered s p).irq = s.irq ∧ (runEntered s p).ctxs = s.ctxs ∧
    (runEntered s p).fwp = { s.fwp with procs := s.fwp.procs.upd p (fun x => { x with state := .run }) } := by
  unfold runEntered
  dsimp only
  split
  all_goals exact ⟨rfl, rfl, rfl⟩

/-- RUN: the interrupts and the contexts stay, and the other processors. -/
theorem reachRun_leaves (s : State) (p : Proc) : (reachRun s p).irq = s.irq ∧ (reachRun s p).ctxs = s.ctxs ∧
    (reachRun s p).fwp = { s.fwp with procs := s.fwp.procs.upd p (fun x => { x with state := .run }) } := by
  obtain ⟨irq, ctxs, fwp⟩ := runEntered_leaves s p
  rw [reachRun_eq]
  split
  · have serves := Serves.judgeEnded (runEntered s p)
    exact ⟨serves.irq.trans irq, serves.ctxs.trans ctxs, serves.fwp.trans fwp⟩
  · exact ⟨irq, ctxs, fwp⟩

/-- What answering a request keeps: the interrupts and the contexts. -/
structure Answers (s : State) (a : Answer) : Prop where
  irq : a.state.irq = s.irq
  ctxs : a.state.ctxs = s.ctxs

theorem Answers.badRequest (q : Request) (status : Nat) : Answers s (badRequest s p side q status) := ⟨State.emit_irq .., State.emit_ctxs ..⟩

/-- The protocol of a side agreed. -/
def agreed (s : State) (p : Proc) (side : Fin 2) (a : BitVec 8) : State :=
  s.onProc p (fun y => if side = 0 then { y with agreed0 := a, greeted := true } else { y with agreed1 := a })

/-- HELLO taken: the host side brings a processor in HOLD to RUN. -/
def greeted (s : State) (p : Proc) (side : Fin 2) (a : BitVec 8) : State :=
  if side = 0 ∧ (s.proc p).state = .hold then reachRun (agreed s p side a) p else agreed s p side a

theorem greeted_leaves (s : State) (p : Proc) (side : Fin 2) (a : BitVec 8) : (greeted s p side a).irq = s.irq ∧ (greeted s p side a).ctxs = s.ctxs ∧
    ((greeted s p side a).proc p).state = if side = 0 ∧ (s.proc p).state = .hold then .run else (s.proc p).state := by
  unfold greeted
  split
  · obtain ⟨irq, ctxs, fwp⟩ := reachRun_leaves (agreed s p side a) p
    refine ⟨irq, ctxs, ?_⟩
    unfold State.proc
    rw [fwp]
    exact congrArg ProcSt.state (Tab.at_upd_same ..)
  · refine ⟨rfl, rfl, ?_⟩
    unfold agreed
    rw [State.onProc_at]
    split <;> rfl

theorem answerHello_eq (s : State) (p : Proc) (side : Fin 2) (q : Request) : answerHello s p side q =
    let a := BitVec.ofNat 8 (min q.minor (s.proc p).minor.toNat)
    { status := 0, state := greeted s p side a
      payload := leBytes 4 (s.proc p).version.toNat ++ [(s.proc p).major, (s.proc p).minor, a, BitVec.ofNat 8 ((greeted s p side a).proc p).state.code] } := rfl

theorem Answers.answerHello (q : Request) : Answers s (answerHello s p side q) := by
  rw [answerHello_eq]
  obtain ⟨irq, ctxs, -⟩ := greeted_leaves s p side (BitVec.ofNat 8 (min q.minor (s.proc p).minor.toNat))
  exact ⟨irq, ctxs⟩

theorem Answers.answerQueue (q : Request) : Answers s (answerQueue s p side q) := by
  unfold Machine.answerQueue
  split
  · exact .badRequest q 5
  · exact ⟨rfl, rfl⟩

theorem Answers.answerName (q : Request) : Answers s (answerName s p side q) := by
  unfold Machine.answerName
  dsimp only
  split
  · exact .badRequest q 5
  · exact ⟨rfl, rfl⟩

theorem Answers.refuseHello (q : Request) : Answers s (refuseHello s p side q) := ⟨State.emit_irq .., State.emit_ctxs ..⟩

theorem Answers.carryOut (q : Request) : Answers s (carryOut s p side q) := by
  have plain (status : Nat) (payload : List Byte) : Answers s { status, payload, state := s } := ⟨rfl, rfl⟩
  unfold Machine.carryOut
  dsimp only
  split
  · split
    · exact .refuseHello q
    · exact plain _ _
  · split
    · exact .badRequest q 5
    · split
      · exact plain _ _
      · split
        · exact .answerHello q
        · exact plain _ _
        · exact plain _ _
        · split
          · exact .answerQueue q
          · exact plain _ _
        · exact .answerName q
        · exact plain _ _

/-! ## A request served (R435, R436) -/

/-- The last answered request is the one that comes again. -/
def Mbox.answeredBefore (m : Mbox) (q : Request) : Option (BitVec 8 × BitVec 16 × MboxRegs) :=
  m.last.filter (fun r => r.1.toNat = q.tag && r.2.1.toNat = q.opcode)

/-- The answer to a request that is no repeat. -/
def firstAnswer (s : State) (p : Proc) (side : Fin 2) (q : Request) : Answer := if q.crcOk then carryOut s p side q else badRequest s p side q 4

theorem Answers.firstAnswer (q : Request) : Answers s (firstAnswer s p side q) := by
  unfold Machine.firstAnswer
  split
  · exact .carryOut q
  · exact .badRequest q 4

/-- A response kept for a repeat of its request. -/
def responseKept (m : Fin 12) (q : Request) (a : Answer) (rsp : MboxRegs) : State :=
  if a.status = 0 then a.state.onMbox m (fun x => { x with last := some (BitVec.ofNat 8 q.tag, BitVec.ofNat 16 q.opcode, rsp) }) else a.state

theorem responseKept_leaves (m : Fin 12) (q : Request) (a : Answer) (rsp : MboxRegs) : (responseKept m q a rsp).irq = a.state.irq ∧
    (responseKept m q a rsp).ctxs = a.state.ctxs ∧ (responseKept m q a rsp).rcd = a.state.rcd := by
  unfold responseKept
  split
  all_goals exact ⟨rfl, rfl, rfl⟩

theorem serveRequest_first {q : Request} (first : q.crcOk = true → (s.fwp.mbox.at (mboxOf p side)).answeredBefore q = none) : serveRequest s p side q =
    let v := tracePoint s p 2
    let a := firstAnswer v p side q
    tracePoint (postResponse (responseKept (mboxOf p side) q a (responseOf (v.proc p) q a)) p side (responseOf (v.proc p) q a)) p 3 := by
  have none_ : (if q.crcOk then ((tracePoint s p 2).fwp.mbox.at (mboxOf p side)).last.filter (fun r => r.1.toNat = q.tag && r.2.1.toNat = q.opcode) else none) = none := by
    rw [(Logs.tracePoint s p 2).mbox]
    split
    · next good => exact first good
    · rfl
  unfold serveRequest
  dsimp only
  rw [none_] <;> rfl

theorem serveRequest_again {q : Request} {r : BitVec 8 × BitVec 16 × MboxRegs} (good : q.crcOk = true)
    (again : (s.fwp.mbox.at (mboxOf p side)).answeredBefore q = some r) : serveRequest s p side q = tracePoint (postResponse (tracePoint s p 2) p side r.2.2) p 3 := by
  have some_ : (if q.crcOk then ((tracePoint s p 2).fwp.mbox.at (mboxOf p side)).last.filter (fun r => r.1.toNat = q.tag && r.2.1.toNat = q.opcode) else none) = some r := by
    rw [(Logs.tracePoint s p 2).mbox, if_pos good]
    exact again
  unfold serveRequest
  dsimp only
  rw [some_] <;> rfl

theorem serveOpcode_takes {n : Nat} (busy : (s.fwp.mbox.at (mboxOf p side)).busy = true) (runs : s.fwRuns p = true)
    (own : (requestOf (s.fwp.mbox.at (mboxOf p side)).bytes).opcode = n) :
    serveOpcode n p side s = serveRequest s p side (requestOf (s.fwp.mbox.at (mboxOf p side)).bytes) := if_pos ⟨busy, runs, .inl own⟩

theorem serveOpcode_idle {n : Nat} (free : (s.fwp.mbox.at (mboxOf p side)).busy = false) : serveOpcode n p side s = s :=
  if_neg fun ⟨busy, _⟩ => absurd (free.symm.trans busy) (by decide)

/-! ## The responses of R432 -/

/-- The message of an answer. -/
def sealed (x : ProcSt) (q : Request) (status : Nat) (payload : List Byte) : MboxRegs :=
  sealMessage ([x.major, x.minor] ++ leBytes 2 q.opcode ++ [BitVec.ofNat 8 q.tag, BitVec.ofNat 8 status, BitVec.ofNat 8 payload.length, 1] ++ exactly 52 payload)

theorem responseOf_logs (h : Logs s t) (p : Proc) (q : Request) (a : Answer) : responseOf (t.proc p) q a = sealed (s.proc p) q a.status a.payload := by
  unfold responseOf sealed
  rw [h.major, h.minor]

/-- A request that is no repeat is answered by its first answer. -/
theorem serveRequest_answered {q : Request} (first : q.crcOk = true → (s.fwp.mbox.at (mboxOf p side)).answeredBefore q = none) :
    let a := firstAnswer (tracePoint s p 2) p side q
    Answered s p side (sealed (s.proc p) q a.status a.payload) (serveRequest s p side q) := by
  have logs := Logs.tracePoint s p 2
  have answers := Answers.firstAnswer (s := tracePoint s p 2) (p := p) (side := side) q
  rw [serveRequest_first first]
  dsimp only
  rw [responseOf_logs logs]
  generalize firstAnswer (tracePoint s p 2) p side q = a at answers
  obtain ⟨irq, ctxs, -⟩ := responseKept_leaves (mboxOf p side) q a (sealed (s.proc p) q a.status a.payload)
  exact .posted _ (irq.trans (answers.irq.trans logs.irq)) (ctxs.trans (answers.ctxs.trans logs.ctxs))

theorem serveRequest_repeats {q : Request} {r : BitVec 8 × BitVec 16 × MboxRegs} (good : q.crcOk = true)
    (again : (s.fwp.mbox.at (mboxOf p side)).answeredBefore q = some r) : Answered s p side r.2.2 (serveRequest s p side q) := by
  have logs := Logs.tracePoint s p 2
  rw [serveRequest_again good again]
  exact .posted _ logs.irq logs.ctxs

/-- A request that may be carried out: its opcode decides. -/
theorem carryOut_of_opcode {q : Request} (major : q.major = (s.proc p).major.toNat) (short : q.length ≤ 52) (served : (s.proc p).state = .hold → servedInHold q.opcode = true) :
    carryOut s p side q = match q.opcode with
      | 1 => answerHello s p side q
      | 2 => answerStatus s p
      | 3 => { status := 0, state := s, payload := q.payload.take q.length }
      | 4 => if 1 ≤ p.val ∧ p.val ≤ 4 then answerQueue s p side q else { status := 3, state := s }
      | 5 => answerName s p side q
      | _ => { status := 3, state := s } := by
  unfold carryOut
  dsimp only
  rw [if_neg (not_not_intro major), if_neg (Nat.not_lt.2 short), if_neg (by rintro ⟨hold, refused⟩; rw [served hold] at refused; exact absurd refused (by decide))] <;> rfl

/-! ## The rows of R434 -/

/-- A good request: its CRC, version and length, and no repeat. -/
structure Good (s : State) (p : Proc) (side : Fin 2) (q : Request) : Prop where
  crc : q.crcOk = true
  major : q.major = (s.proc p).major.toNat
  short : q.length ≤ 52
  first : (s.fwp.mbox.at (mboxOf p side)).answeredBefore q = none

/-- The answer of a good request is that of its opcode. -/
theorem Good.answers {q : Request} (good : Good s p side q) (served : (s.proc p).state = .hold → servedInHold q.opcode = true) {status : Nat} {payload : List Byte}
    (row : ∀ v, Logs s v → q.major = (v.proc p).major.toNat → q.length ≤ 52 → ((v.proc p).state = .hold → servedInHold q.opcode = true) → v = tracePoint s p 2 →
      (carryOut v p side q).status = status ∧ (carryOut v p side q).payload = payload) :
    Answered s p side (sealed (s.proc p) q status payload) (serveRequest s p side q) := by
  have logs := Logs.tracePoint s p 2
  have answered := serveRequest_answered (s := s) (p := p) (side := side) (q := q) fun _ => good.first
  have is : firstAnswer (tracePoint s p 2) p side q = carryOut (tracePoint s p 2) p side q := if_pos good.crc
  obtain ⟨isStatus, isPayload⟩ := row (tracePoint s p 2) logs (by rw [logs.major]; exact good.major) good.short (by rw [logs.state]; exact served) rfl
  dsimp only at answered
  rwa [is, isStatus, isPayload] at answered

theorem Good.hello {q : Request} (good : Good s p side q) (opcode : q.opcode = 1) :
    Answered s p side (sealed (s.proc p) q 0 (leBytes 4 (s.proc p).version.toNat ++ [(s.proc p).major, (s.proc p).minor, BitVec.ofNat 8 (min q.minor (s.proc p).minor.toNat),
      if side = 0 ∧ (s.proc p).state = .hold then 3 else BitVec.ofNat 8 (s.proc p).state.code])) (serveRequest s p side q) := by
  refine good.answers (fun _ => by rw [opcode]; rfl) fun v logs major short served _ => ?_
  rw [carryOut_of_opcode major short served, opcode]
  refine ⟨rfl, ?_⟩
  have version : (v.proc p).version = (s.proc p).version := (congrArg ProcSt.version (logs.procs p) :)
  obtain ⟨-, -, state⟩ := greeted_leaves v p side (BitVec.ofNat 8 (min q.minor (s.proc p).minor.toNat))
  change (answerHello v p side q).payload = _
  rw [answerHello_eq, version, logs.major, logs.minor]
  dsimp only
  rw [state, logs.state, apply_ite ProcState.code, apply_ite (BitVec.ofNat 8)]
  rfl

theorem Good.status {q : Request} (good : Good s p side q) (opcode : q.opcode = 2) :
    Answered s p side (sealed (s.proc p) q 0 ([BitVec.ofNat 8 (s.proc p).state.code, (s.proc p).cause.setWidth 8] ++ leBytes 2 (s.proc p).restarts.toNat ++
      leBytes 8 (s.proc p).from_.toNat ++ leBytes 2 (s.proc p).period.toNat)) (serveRequest s p side q) := by
  refine good.answers (fun _ => by rw [opcode]; rfl) fun v logs major short served _ => ?_
  rw [carryOut_of_opcode major short served, opcode]
  refine ⟨rfl, ?_⟩
  have cause : (v.proc p).cause = (s.proc p).cause := (congrArg ProcSt.cause (logs.procs p) :)
  have restarts : (v.proc p).restarts = (s.proc p).restarts := (congrArg ProcSt.restarts (logs.procs p) :)
  have from_ : (v.proc p).from_ = (s.proc p).from_ := (congrArg ProcSt.from_ (logs.procs p) :)
  have period : (v.proc p).period = (s.proc p).period := (congrArg ProcSt.period (logs.procs p) :)
  change (answerStatus v p).payload = _
  unfold answerStatus
  dsimp only
  rw [logs.state, cause, restarts, from_, period]

theorem Good.echo {q : Request} (good : Good s p side q) (opcode : q.opcode = 3) :
    Answered s p side (sealed (s.proc p) q 0 (q.payload.take q.length)) (serveRequest s p side q) := by
  refine good.answers (fun _ => by rw [opcode]; rfl) fun v logs major short served _ => ?_
  rw [carryOut_of_opcode major short served, opcode]
  exact ⟨rfl, rfl⟩

theorem Good.queue {q : Request} (good : Good s p side q) (opcode : q.opcode = 4) (least : 1 ≤ p.val) (most : p.val ≤ 4) (runs : (s.proc p).state = .run)
    {c : Ctx} (names : imageField q.payload 0 1 = c.val) : ∃ w : BitVec 64, Answered s p side
      (sealed (s.proc p) q 0 (leBytes 6 (s.ctx c).exec.token.toNat ++ leBytes 2 w.toNat ++ [if (s.ctx c).exec.replayDue && !(s.ctx c).exec.replaySent then 1 else 0]))
      (serveRequest s p side q) := by
  refine ⟨Config.freeWord (tracePoint s p 2).free, good.answers (fun hold => by rw [runs] at hold; cases hold) fun v logs major short served is => ?_⟩
  rw [carryOut_of_opcode major short served, opcode]
  rw [if_pos ⟨least, most⟩]
  unfold answerQueue
  have ctx : finOf 32 (imageField q.payload 0 1) = some c := by
    rw [names]
    exact (dif_pos c.isLt).trans rfl
  rw [ctx]
  subst is
  dsimp only
  rw [show (tracePoint s p 2).fresh.2.ctx c = s.ctx c from State.ctx_eq_of_ctxs logs.ctxs c]
  exact ⟨rfl, rfl⟩

theorem Good.name {q : Request} (good : Good s p side q) (opcode : q.opcode = 5) (other : p ≠ mc) (point : 64 ≤ imageField q.payload 0 1) :
    Answered s p side (sealed (s.proc p) q 0 (exactly 48 (Config.traceName (s.proc p).code (s.proc p).table (imageField q.payload 0 1)))) (serveRequest s p side q) := by
  refine good.answers (fun _ => by rw [opcode]; rfl) fun v logs major short served _ => ?_
  have code : (v.proc p).code = (s.proc p).code := (congrArg ProcSt.code (logs.procs p) :)
  have table : (v.proc p).table = (s.proc p).table := (congrArg ProcSt.table (logs.procs p) :)
  rw [carryOut_of_opcode major short served, opcode]
  unfold answerName
  dsimp only
  rw [if_neg (Nat.not_lt.2 point), if_neg other, code, table]
  exact ⟨rfl, rfl⟩

/-- MBX_BAD_REQUEST. -/
def badRequestEvent (p : Proc) (side : Fin 2) (q : Request) (status : Nat) : Ev :=
  { code := 0xA002, unit := uProc p, p16 := BitVec.ofNat 16 q.opcode, p32 := BitVec.ofNat 32 (status + 256 * q.tag + 65536 * side.val) }

/-- A request with a bad CRC. -/
theorem serveRequest_bad {q : Request} (bad : q.crcOk = false) : Answered s p side (sealed (s.proc p) q 4 []) (serveRequest s p side q) ∧
    ∃ e ∈ (serveRequest s p side q).rcd.intake, e.code = 0xA002 ∧ e.unit = uProc p := by
  have first : q.crcOk = true → (s.fwp.mbox.at (mboxOf p side)).answeredBefore q = none := fun good => absurd (bad.symm.trans good) (by decide)
  have is (v : State) : firstAnswer v p side q = badRequest v p side q 4 := if_neg (by rw [bad]; decide)
  constructor
  · have answered := serveRequest_answered first
    dsimp only at answered
    rwa [is] at answered
  · refine ⟨(tracePoint s p 2).stamp (badRequestEvent p side q 4), ?_, rfl, rfl⟩
    rw [serveRequest_first first]
    dsimp only
    obtain ⟨-, -, rcd⟩ := responseKept_leaves (mboxOf p side) q (badRequest (tracePoint s p 2) p side q 4)
      (responseOf ((tracePoint s p 2).proc p) q (badRequest (tracePoint s p 2) p side q 4))
    rw [is, (Logs.tracePoint _ p 3).rcd, postResponse_rcd, rcd]
    exact State.emit_records _ (badRequestEvent p side q 4) rfl

/-! ## What the firmware did (R425, R454, R455) -/

/-- A processor whose core does not run has done nothing. -/
theorem fwActs_still (still : s.coreRuns p = false) (acts : List FwAct) : fwActs s p acts = s :=
  State.each_induction (P := fun t => t = s) rfl fun t a _ same => by
    rw [same]
    exact if_pos (by rw [still]; rfl)

theorem fwActs_one (runs : s.coreRuns p = true) {a : FwAct} {t : State} (act : (if !s.coreRuns p then s else t) = fwAct p s a) : fwActs s p [a] = t :=
  act.symm.trans (if_neg (by rw [runs]; decide))

theorem fwActs_kick (runs : s.coreRuns p = true) (arg : BitVec 32) : fwActs s p [.kick arg] = traceAs s p 1 none arg := fwActs_one runs rfl

theorem fwActs_loop (runs : s.coreRuns p = true) (arg : BitVec 32) : fwActs s p [.loop arg] = traceAs s p 0 none arg := fwActs_one runs rfl

theorem fwActs_message (runs : s.coreRuns p = true) {code : BitVec 16} (least : 0x100 ≤ code.toNat) (most : code.toNat < 0x8000) (c : Option Ctx) (arg : BitVec 32) :
    fwActs s p [.message code c arg] = s.logTo p code c false arg := (fwActs_one runs rfl).trans (if_pos ⟨least, most⟩)

/-- A word stored in a data part. -/
def ProcSt.stored (x : ProcSt) (part : TcmPart) (word : Nat) (v : BitVec 32) : ProcSt :=
  match part with
  | .retained => { x with retained := tcmPut word v x.retained }
  | _ => { x with working := tcmPut word v x.working }

theorem fwActs_store (runs : s.coreRuns p = true) {part : TcmPart} {word : Nat} (data : part ≠ .code) (room : word < tcmWords p part) (v : BitVec 32) :
    fwActs s p [.store part word v] = s.onProc p (fun x => x.stored part word v) := by
  refine (fwActs_one runs rfl).trans ((if_neg (Nat.not_le.2 room)).trans ?_)
  cases part with
  | code => exact absurd rfl data
  | retained => rfl
  | working => rfl

theorem fwActs_reg (runs : s.coreRuns p = true) (i : Fin 32) (v : BitVec 32) : fwActs s p [.reg i v] =
    if i = 0 then s else s.onProc p (fun x => { x with regs := x.regs.set i v }) := fwActs_one runs rfl

/-- A register written, but x0. -/
theorem fwActs_reg_at (runs : s.coreRuns p = true) (i : Fin 32) (v : BitVec 32) :
    (((fwActs s p [.reg i v]).proc p).regs.at i = if i = 0 then (s.proc p).regs.at 0 else v) ∧
      (∀ j, j ≠ i → ((fwActs s p [.reg i v]).proc p).regs.at j = (s.proc p).regs.at j) ∧ (fwActs s p [.reg i v]).fwp.mbox = s.fwp.mbox ∧
      (fwActs s p [.reg i v]).kept = s.kept := by
  rw [fwActs_reg runs]
  split
  · next zero => exact ⟨by rw [zero], fun j _ => rfl, rfl, rfl⟩
  · refine ⟨?_, fun j other => ?_, rfl, rfl⟩
    · rw [State.onProc_at]
      exact Vector.getElem_set_self _
    · rw [State.onProc_at]
      exact Vector.getElem_set_ne i.isLt j.isLt fun same => other (Fin.ext same.symm)

/-- The commands by which the firmware is served. -/
def mailboxRows (p : Proc) (side : Fin 2) : List (List FwAct → Instr) :=
  [(.hello p side ·), (.getStatus p side ·), (.echo p side ·), (.queueStatus p side ·), (.traceName p side ·)]

/-- With no request in progress a command is what the firmware did. -/
theorem exec_mailboxRow (free : (s.fwp.mbox.at (mboxOf p side)).busy = false) {f : List FwAct → Instr} (row : f ∈ mailboxRows p side) (acts : List FwAct)
    (same : (fwActs s p acts).fwp.mbox = s.fwp.mbox) : exec (f acts) s = .next (fwActs s p acts) := by
  have idle (n : Nat) : serveOpcode n p side (fwActs s p acts) = fwActs s p acts := serveOpcode_idle (by rw [same]; exact free)
  simp only [mailboxRows, List.mem_cons, List.not_mem_nil, or_false] at row
  rcases row with rfl | rfl | rfl | rfl | rfl
  · exact congrArg Host.Outcome.next (idle 1)
  · exact congrArg Host.Outcome.next (idle 2)
  · exact congrArg Host.Outcome.next (idle 3)
  · exact congrArg Host.Outcome.next (idle 4)
  · exact congrArg Host.Outcome.next (idle 5)

theorem traceAs_mbox (s : State) (p : Proc) (point : Nat) (c : Option Ctx) (arg : BitVec 32) : (traceAs s p point c arg).fwp.mbox = s.fwp.mbox := by
  unfold traceAs
  split <;> rfl

theorem imageField_byte (b : List Byte) (lo : Nat) : imageField b lo 1 < 256 := by
  unfold imageField
  generalize b.drop lo = rest
  cases rest with
  | nil => decide
  | cons x rest => 
    have bound := x.isLt
    simp [leNat]
    omega

/-- The last request answered comes again. -/
theorem answeredBefore_of_last {m : Mbox} {q : Request} {r : MboxRegs} (opcode : q.opcode = 3) (tag : q.tag < 256) (last : m.last = some (BitVec.ofNat 8 q.tag, 3, r)) :
    m.answeredBefore q = some (BitVec.ofNat 8 q.tag, 3, r) := by
  unfold Mbox.answeredBefore
  rw [last, Option.filter_some, if_pos]
  rw [opcode, BitVec.toNat_ofNat, Nat.mod_eq_of_lt tag]
  simp

/-- Settles O54: an exchange begins and ends by its mailbox, each row answers a good request, and the firmware's own acts come first. -/
theorem mailboxExchanges : Obligations.MailboxExchanges := by
  unfold Obligations.MailboxExchanges
  refine ⟨fun s src p side carried => ⟨fun free own works => ?_, fun busy => ?_⟩, fun s p side busy early => ?_, ?_, fun s p side free f row => ?_⟩
  · have run := exec_mbxRing carried src
    rw [mbxRing_begins free own works] at run
    refine ⟨_, run, ?_, ?_, ?_, (execMbxRing_kept src p side s).of_next run⟩
    · rw [State.complete_fwp]
      exact Tab.at_upd_same ..
    · rw [State.complete_fwp]
      rfl
    · rw [State.complete_ctxs]
      rfl
  · have run := exec_mbxRing carried src
    rw [mbxRing_refused src busy] at run
    refine ⟨_, run, ?_, ?_, (execMbxRing_kept src p side s).of_next run⟩
    · rw [State.complete_fwp]
      exact Tab.at_upd_same ..
    · rw [State.complete_ctxs]
      rfl
  · have run := exec_mbxTimeout busy early
    refine ⟨_, (s.onMbox (mboxOf p side) (fun x => { x with timedOut := true })).stamp (mbxTimeoutEvent p side (s.fwp.mbox.at (mboxOf p side))), run, ?_, ?_, rfl, rfl, rfl, ?_,
      (execMbxTimeout_kept p side s).of_next run⟩
    · rw [State.emit_fwp]
      exact Tab.at_upd_same ..
    · rw [State.emit_fault _ (by exact nofun)]
      rfl
    · rw [State.emit_ctxs]
      rfl
  · intro s0 p side acts s busy runs m x q seal_ answered good
    have served {n : Nat} (opcode : q.opcode = n) : serveOpcode n p side s = serveRequest s p side q := serveOpcode_takes busy runs opcode
    have done {c : Instr} {n : Nat} {rsp : MboxRegs} (step : exec c s0 = .next (serveOpcode n p side s)) (opcode : q.opcode = n)
        (h : Answered s p side rsp (serveRequest s p side q)) : answered c rsp := by
      rw [← served opcode] at h
      exact ⟨_, step, h.rsp, h.busy, h.done, h.mbx, h.status, fun _ => h.ctxs, serveOpcode_kept n p side s⟩
    have fine (g : good) : Good s p side q := ⟨g.1, g.2.1, g.2.2.1, g.2.2.2⟩
    refine ⟨fun g opcode => done rfl opcode ((fine g).hello opcode), fun g opcode => done rfl opcode ((fine g).status opcode),
      fun g opcode => done rfl opcode ((fine g).echo opcode), fun g opcode least most run c names => ?_, fun g opcode other point => done rfl opcode ((fine g).name opcode other point),
      fun r opcode crc last => ?_, fun opcode bad => ?_⟩
    · obtain ⟨w, h⟩ := (fine g).queue opcode least most run names
      exact ⟨w, done rfl opcode h⟩
    · exact done rfl opcode (serveRequest_repeats crc (answeredBefore_of_last opcode (imageField_byte _ _) last))
    · obtain ⟨h, e, mem, code, unit⟩ := serveRequest_bad (s := s) (p := p) (side := side) bad
      refine ⟨done rfl opcode h, _, rfl, e, ?_, code, unit⟩
      rw [served opcode]
      exact mem
  · have run := fun acts same => exec_mailboxRow (s := s) free row acts same
    refine ⟨fun acts still => ?_, fun runs => ⟨fun arg => ?_, fun arg => ?_, fun code c arg least most => ?_, fun part word v data room => ?_, fun i v => ?_⟩⟩
    · have same := fwActs_still still acts
      rw [run acts (by rw [same]), same]
    · rw [run _ (by rw [fwActs_kick runs]; exact traceAs_mbox ..), fwActs_kick runs] <;> rfl
    · rw [run _ (by rw [fwActs_loop runs]; exact traceAs_mbox ..), fwActs_loop runs] <;> rfl
    · have logged := fwActs_message runs least most c arg
      rw [run _ (by rw [logged]; rfl), logged]
    · have stored := fwActs_store runs data room v
      refine ⟨_, run _ (by rw [stored]; rfl), ?_, fun q other => ?_, ?_⟩
      · rw [stored]
        rfl
      · rw [stored, State.onProc_others _ _ other]
      · rw [stored, State.onProc_at]
        cases part <;> rfl
    · obtain ⟨own, others, mbox, kept⟩ := fwActs_reg_at runs i v
      exact ⟨_, run _ mbox, own, others, kept⟩

end

end Sys2Proof.Machine


namespace Sys2Proof.Machine

/-! # Channel operations (R441 to R446) -/

section

variable {s t u : State} {p q r : Proc} {c d ch : Chan}

/-! ## Rules of the channels -/

theorem State.onChan_at (s : State) (c : Chan) (f : ChanSt → ChanSt) : (s.onChan c f).fwp.chans.at c = f (s.fwp.chans.at c) := Tab.at_upd_same ..

theorem State.onChan_others (s : State) {c d : Chan} (f : ChanSt → ChanSt) (other : d ≠ c) : (s.onChan c f).fwp.chans.at d = s.fwp.chans.at d :=
  Tab.at_upd_other _ _ other

theorem ofNat3_toNat (p : Proc) : (BitVec.ofNat 3 p.val).toNat = p.val := by
  rw [BitVec.toNat_ofNat]
  omega

theorem finOf_proc (p : Proc) : finOf 6 p.val = some p := (dif_pos p.isLt).trans rfl

/-! ## OPEN -/

theorem exec_open (may : s.mayOperate p = true) (receiver : Proc) (priority : BitVec 2) : exec (.open_ p ch receiver priority) s =
    if ch.val < 10 then .next (s.returns p .busy)
    else if s.outranks p ch then match finOf 6 (s.fwp.chans.at ch).sender.toNat with
      | some q => .next (openChan { s with out := amend s.out (.chan q .ok) (.chan q .busy) } p ch receiver priority)
      | none => .next (s.returns p .busy)
    else if (s.fwp.chans.at ch).state ≠ .free then .next (s.returns p .busy)
    else .next (openChan s p ch receiver priority) := by
  show execOpen p ch receiver priority s = _
  unfold execOpen
  rw [if_neg (by rw [may]; decide)] <;> rfl

/-- A channel held by its sender. -/
def ChanSt.opened (x : ChanSt) (p receiver : Proc) (priority : BitVec 2) (tick : BitVec 64) : ChanSt :=
  { x with state := .open_, sender := BitVec.ofNat 3 p.val, receiver := BitVec.ofNat 3 receiver.val, prio := priority, told := [], closedAt := none
           openedAt := some tick }

theorem openChan_at (s : State) (p : Proc) (ch : Chan) (receiver : Proc) (priority : BitVec 2) :
    (openChan s p ch receiver priority).fwp.chans.at ch = (s.fwp.chans.at ch).opened p receiver priority s.time.tick := State.onChan_at ..

theorem openChan_others (s : State) (p : Proc) {ch d : Chan} (other : d ≠ ch) (receiver : Proc) (priority : BitVec 2) :
    (openChan s p ch receiver priority).fwp.chans.at d = s.fwp.chans.at d := State.onChan_others s _ other

theorem outranks_of_free (free : (s.fwp.chans.at ch).state = .free) : s.outranks p ch = false := by
  unfold State.outranks
  dsimp only
  rw [free]
  rfl

theorem open_takes_free (may : s.mayOperate p = true) (dynamic : 10 ≤ ch.val) (free : (s.fwp.chans.at ch).state = .free) (receiver : Proc) (priority : BitVec 2) :
    exec (.open_ p ch receiver priority) s = .next (openChan s p ch receiver priority) := by
  rw [exec_open may, if_neg (Nat.not_lt.2 dynamic), if_neg (by rw [outranks_of_free free]; decide), if_neg (not_not_intro free)]

theorem open_outranks (may : s.mayOperate p = true) (dynamic : 10 ≤ ch.val) (outranks : s.outranks p ch = true) (holder : (s.fwp.chans.at ch).sender.toNat = q.val)
    (receiver : Proc) (priority : BitVec 2) :
    exec (.open_ p ch receiver priority) s = .next (openChan { s with out := amend s.out (.chan q .ok) (.chan q .busy) } p ch receiver priority) := by
  rw [exec_open may, if_neg (Nat.not_lt.2 dynamic), if_pos outranks, holder, finOf_proc]

theorem open_busy (may : s.mayOperate p = true) (taken : ch.val < 10 ∨ ((s.fwp.chans.at ch).state ≠ .free ∧ s.outranks p ch = false)) (receiver : Proc) (priority : BitVec 2) :
    exec (.open_ p ch receiver priority) s = .next (s.returns p .busy) := by
  rw [exec_open may]
  split
  · rfl
  · next dynamic =>
    obtain ⟨held, below⟩ := taken.resolve_left dynamic
    rw [if_neg (by rw [below]; decide), if_pos held]

/-! ## SEND -/

theorem wakeReceiver_idle (free : (s.proc q).waitRecv = false) (quiet : (s.proc q).waitSend = none) : wakeReceiver s q = s := by
  unfold wakeReceiver
  rw [if_neg (by rw [free]; decide), quiet]

theorem Logs.waitRecv (h : Logs s t) (q : Proc) : (t.proc q).waitRecv = (s.proc q).waitRecv := (congrArg ProcSt.waitRecv (h.procs q) :)
theorem Logs.waitSend (h : Logs s t) (q : Proc) : (t.proc q).waitSend = (s.proc q).waitSend := (congrArg ProcSt.waitSend (h.procs q) :)
theorem Logs.served (h : Logs s t) (q : Proc) : (t.proc q).served = (s.proc q).served := (congrArg ProcSt.served (h.procs q) :)

/-- An entry behind the others. -/
def entryPut (s : State) (ch : Chan) (e : ChanEntry) : State := s.onChan ch (fun y => { y with entries := y.entries ++ [e], sent := bump y.sent })

theorem creditsFor_eq (kind : BitVec 2) : creditsFor kind = if kind = 1 then 1 else 2 := rfl

theorem exec_send {e : ChanEntry} (may : s.mayOperate p = true) (held : (s.fwp.chans.at ch).heldBy p = true) (quiet : (s.fwp.chans.at ch).told.contains p = false) :
    exec (.send p ch e) s =
      if (s.fwp.chans.at ch).credits < creditsFor e.kind then .next (s.returns p .noCredit)
      else
        let t := (tracePoint (entryPut s ch e) p 4).returns p .ok
        .next (match finOf 6 (s.fwp.chans.at ch).receiver.toNat with | some q => wakeReceiver t q | none => t) := by
  show execSend p ch e s = _
  unfold execSend
  dsimp only
  rw [if_neg (by rw [may]; decide), if_neg (by rw [held, quiet]; decide)] <;> rfl

theorem send_puts {e : ChanEntry} (may : s.mayOperate p = true) (held : (s.fwp.chans.at ch).heldBy p = true) (quiet : (s.fwp.chans.at ch).told.contains p = false)
    (room : (s.fwp.chans.at ch).entries.length + (if e.kind = 1 then 1 else 2) ≤ 16)
    (idle : ∀ q : Proc, (s.fwp.chans.at ch).receiver.toNat = q.val → (s.proc q).waitRecv = false ∧ (s.proc q).waitSend = none) :
    exec (.send p ch e) s = .next ((tracePoint (entryPut s ch e) p 4).returns p .ok) := by
  rw [exec_send may held quiet, if_neg (by rw [creditsFor_eq, ChanSt.credits]; omega)]
  dsimp only
  split
  · next q found =>
    unfold finOf at found
    split at found
    · next small =>
      cases found
      obtain ⟨free, still⟩ := idle ⟨_, small⟩ rfl
      have logs := Logs.tracePoint (entryPut s ch e) p 4
      exact congrArg Host.Outcome.next (wakeReceiver_idle (s := (tracePoint (entryPut s ch e) p 4).returns p .ok) ((logs.waitRecv _).trans free) ((logs.waitSend _).trans still))
    · cases found
  · rfl

/-! ## WAIT_SEND -/

theorem exec_waitSend (may : s.mayOperate p = true) (held : (s.fwp.chans.at ch).heldBy p = true) (quiet : (s.fwp.chans.at ch).told.contains p = false) (any : Bool) :
    exec (.waitSend p ch any) s =
      let t := tracePoint s p 6
      if 2 ≤ (s.fwp.chans.at ch).credits ∨ (any ∧ t.entryFor p) then .next (t.returns p .ok)
      else .next (((t.onProc p (fun y => { y with waitSend := some (ch, any) })).onChan ch (fun y => { y with sendWait := !any })).returns p .waiting) := by
  show execWaitSend p ch any s = _
  unfold execWaitSend
  dsimp only
  rw [if_neg (by rw [may]; decide), if_neg (by rw [held, quiet]; decide)]

/-- A processor that may operate waits in nothing. -/
theorem mayOperate_iff : s.mayOperate p = true ↔ s.fwRuns p = true ∧ (s.proc p).waitSend = none ∧ (s.proc p).waitRecv = false := by
  unfold State.mayOperate
  simp [and_assoc]

/-! ## RECV (R444) -/

/-- The better of the channel found before and the next one. -/
def State.prefer (s : State) (p : Proc) (best : Option Chan) (c : Chan) : Option Chan :=
  match best with
  | none => some c
  | some b =>
    let x := (s.fwp.chans.at c).prio.toNat
    let y := (s.fwp.chans.at b).prio.toNat
    if y < x ∨ (x = y ∧ turn (s.proc p).served c < turn (s.proc p).served b) then some c else some b

theorem chosen_eq (s : State) (p : Proc) : s.chosen p = (s.filled p).foldl (s.prefer p) none := rfl

/-- The channel found has the highest priority of those seen. -/
inductive State.Best (s : State) (seen : Chan → Prop) : Option Chan → Prop
  | nothing (empty : ∀ d, ¬ seen d) : s.Best seen none
  | found (c : Chan) (most : ∀ d, seen d → (s.fwp.chans.at d).prio.toNat ≤ (s.fwp.chans.at c).prio.toNat) : s.Best seen (some c)

theorem State.Best.prefer {seen : Chan → Prop} {best : Option Chan} (h : s.Best seen best) (p : Proc) (c : Chan) :
    s.Best (fun d => seen d ∨ d = c) (s.prefer p best c) := by
  cases h with
  | nothing empty => exact .found c fun d sees => sees.elim (fun before => absurd before (empty d)) fun is => is ▸ Nat.le_refl _
  | found b most =>
    unfold State.prefer
    dsimp only
    split
    · next better => exact .found c fun d sees => sees.elim (fun before => Nat.le_trans (most d before) (by omega)) fun is => is ▸ Nat.le_refl _
    · next worse => exact .found b fun d sees => sees.elim (most d) fun is => is ▸ (by omega)

theorem State.Best.mono {seen sees : Chan → Prop} {best : Option Chan} (h : s.Best seen best) (fewer : ∀ d, sees d → seen d) : s.Best sees best := by
  cases h with
  | nothing empty => exact .nothing fun d see => empty d (fewer d see)
  | found c most => exact .found c fun d see => most d (fewer d see)

theorem State.Best.foldl {seen : Chan → Prop} {best : Option Chan} (h : s.Best seen best) (p : Proc) (l : List Chan) :
    s.Best (fun d => seen d ∨ d ∈ l) (l.foldl (s.prefer p) best) := by
  induction l generalizing seen best with
  | nil => exact h.mono fun d sees => sees.resolve_right List.not_mem_nil
  | cons c l ih => exact (ih (h.prefer p c)).mono fun d sees => by simpa [or_assoc, List.mem_cons] using sees

theorem mem_filled : d ∈ s.filled p ↔ (s.fwp.chans.at d).receiver.toNat = p.val ∧ (s.fwp.chans.at d).entries ≠ [] := by
  simp [State.filled, List.mem_filter, List.mem_finRange]

/-- The channel chosen has the highest priority of those that hold an entry. -/
theorem chosen_most (chosen : s.chosen p = some c) (d : Chan) (receives : (s.fwp.chans.at d).receiver.toNat = p.val) (holds : (s.fwp.chans.at d).entries ≠ []) :
    (s.fwp.chans.at d).prio.toNat ≤ (s.fwp.chans.at c).prio.toNat := by
  have best := State.Best.foldl (s := s) (seen := fun _ => False) (.nothing fun _ => id) p (s.filled p)
  rw [← chosen_eq, chosen] at best
  cases best with
  | found _ most => exact most d (.inr (mem_filled.2 ⟨receives, holds⟩))

theorem chosen_of_empty (empty : ∀ d, (s.fwp.chans.at d).receiver.toNat = p.val → (s.fwp.chans.at d).entries = []) : s.chosen p = none := by
  have none_ : s.filled p = [] := List.eq_nil_iff_forall_not_mem.2 fun d mem => (mem_filled.1 mem).2 (empty d (mem_filled.1 mem).1)
  rw [chosen_eq, none_]
  rfl

theorem entryFor_of_empty (empty : ∀ d, (s.fwp.chans.at d).receiver.toNat = p.val → (s.fwp.chans.at d).entries = []) : s.entryFor p = false := by
  refine Bool.eq_false_iff.2 fun found => ?_
  obtain ⟨d, -, holds⟩ := List.any_eq_true.1 found
  simp only [Bool.and_eq_true, decide_eq_true_eq, Bool.not_eq_true', List.isEmpty_eq_false_iff] at holds
  exact holds.2 (empty d holds.1)

theorem ChanSt.taken_entries {x : ChanSt} {e : ChanEntry} {rest : List ChanEntry} (holds : x.entries = e :: rest) : x.taken.entries = rest := by
  unfold ChanSt.taken
  dsimp only
  rw [holds]
  split
  · next drained => exact drained.2.symm
  · rfl

/-- The oldest entry taken. -/
def oldestTaken (s : State) (p : Proc) (c : Chan) : State := (s.onChan c ChanSt.taken).onProc p (fun y => { y with served := c.val })

theorem exec_recv {e : ChanEntry} {rest : List ChanEntry} (may : s.mayOperate p = true) (chosen : s.chosen p = some c) (holds : (s.fwp.chans.at c).entries = e :: rest)
    (quiet : (s.fwp.chans.at c).told.contains p = false) :
    exec (.recv p) s = .next (wakeSender ((tracePoint (oldestTaken s p c) p 5).returns p (.entry c e)) c) := by
  show execRecv p s = _
  unfold execRecv
  rw [if_neg (by rw [may]; decide), chosen]
  dsimp only
  rw [holds]
  dsimp only
  rw [if_neg (by rw [quiet]; decide)]
  rfl

/-- A wait that ends, or nothing: channels keep their entries, processors all but their waits. -/
structure Wakes (c : Chan) (s t : State) : Prop where
  entries : (t.fwp.chans.at c).entries = (s.fwp.chans.at c).entries
  others : ∀ d, d ≠ c → t.fwp.chans.at d = s.fwp.chans.at d
  served : ∀ q, (t.proc q).served = (s.proc q).served
  out : ∀ o ∈ s.out, o ∈ t.out
  ctxs : t.ctxs = s.ctxs

theorem Wakes.endSendWait (s : State) (q : Proc) (c : Chan) (r : ChanResult) : Wakes c s (endSendWait s q c r) := by
  refine ⟨?_, fun d other => ?_, fun p => ?_, fun o mem => List.mem_append_left _ mem, rfl⟩
  · exact (congrArg ChanSt.entries (State.onChan_at ..)).trans rfl
  · exact State.onChan_others _ _ other
  · show ((s.onProc q (fun x => { x with waitSend := none })).proc p).served = _
    by_cases same : p = q
    · subst same
      rw [State.onProc_at]
    · rw [State.onProc_others _ _ same]

theorem Wakes.wakeSender (s : State) (c : Chan) : Wakes c s (wakeSender s c) := by
  unfold Machine.wakeSender
  split
  · split
    · exact .endSendWait s _ c _
    · exact ⟨rfl, fun _ _ => rfl, fun _ => rfl, fun _ => id, rfl⟩
  · exact ⟨rfl, fun _ _ => rfl, fun _ => rfl, fun _ => id, rfl⟩

/-! ## CLOSE -/

/-- The channel closes: at once where it is empty. -/
def ChanSt.closing (y : ChanSt) (tick : BitVec 64) : ChanSt :=
  if y.entries = [] then { sent := y.sent, discarded := y.discarded, closedAt := some tick, closedBy := y.sender }
  else { y with state := .draining, closedAt := some tick, closedBy := y.sender }

theorem exec_close (may : s.mayOperate p = true) (dynamic : 10 ≤ ch.val) (held : (s.fwp.chans.at ch).heldBy p = true) :
    exec (.close p ch) s = .next ((s.onChan ch (fun y => y.closing s.time.tick)).returns p .ok) := by
  show execClose p ch s = _
  unfold execClose
  dsimp only
  rw [if_neg (by rw [may]; decide), if_neg (Nat.not_lt.2 dynamic), if_neg (by rw [held]; decide)]
  rfl

/-! ## A cycle of blocked senders (R446) -/

/-- A processor but for its waits and its log. -/
def ProcSt.unwaiting (x : ProcSt) : ProcSt := { x with waitSend := none, written := 0, log := [] }

/-- From `s` to `t` channels have closed: waits have ended, and nothing waits to be taken as a fault no more. -/
structure Shuts (s t : State) : Prop where
  procs : ∀ q, (t.proc q).unwaiting = (s.proc q).unwaiting
  faultQ : t.fst.faultQ = s.fst.faultQ

theorem Shuts.refl (s : State) : Shuts s s := ⟨fun _ => rfl, rfl⟩

theorem Shuts.trans (h : Shuts s t) (k : Shuts t u) : Shuts s u := ⟨fun q => (k.procs q).trans (h.procs q), k.faultQ.trans h.faultQ⟩

theorem Shuts.of_same (fwp : t.fwp.procs = s.fwp.procs) (faultQ : t.fst.faultQ = s.fst.faultQ) : Shuts s t :=
  ⟨fun q => by unfold State.proc; rw [fwp], faultQ⟩

theorem Shuts.unwait (s : State) (q : Proc) : Shuts s (s.onProc q (fun y => { y with waitSend := none })) := by
  refine ⟨fun p => ?_, rfl⟩
  by_cases same : p = q
  · subst same
    rw [State.onProc_at]
    rfl
  · rw [State.onProc_others _ _ same]

theorem Shuts.record (s : State) (e : Ev) (record : e.cls = .record) : Shuts s (s.emit e) := by
  rw [State.emit_record _ record]
  exact .of_same rfl rfl

theorem Shuts.endSendWait (s : State) (q : Proc) (c : Chan) (r : ChanResult) : Shuts s (endSendWait s q c r) :=
  (Shuts.unwait s q).trans (.of_same rfl rfl)

theorem Shuts.endCycleWait (s : State) (x : Proc × Chan) : Shuts s (endCycleWait s x) := by
  unfold Machine.endCycleWait
  split
  · exact .endSendWait s _ _ _
  · exact .refl s

/-- The entries of a channel that closes are discarded and recorded. -/
def entriesLost (p : Proc) (s : State) (c : Chan) : State :=
  if (s.fwp.chans.at c).entries.length = 0 then s
  else s.emit { code := 0xB007, unit := uProc p, p16 := BitVec.ofNat 16 c.val, p32 := BitVec.ofNat 32 (s.fwp.chans.at c).entries.length }

/-- The other side of a channel. -/
def ChanSt.partner (x : ChanSt) (p : Proc) : Option Proc := finOf 6 (if decide (x.sender.toNat = p.val) then x.receiver.toNat else x.sender.toNat)

/-- The other side waits to send on the channel. -/
def State.partnerWaits (s : State) (p : Proc) (x : ChanSt) (c : Chan) : Bool :=
  match x.partner p with | some q => !decide (x.sender.toNat = p.val) && (s.proc q).waitSend.any (fun w => w.1 = c) | none => false

/-- The other side sees CLOSED. -/
def partnerTold (s : State) (partner : Option Proc) (waits : Bool) : State :=
  match partner with
  | some q => if waits then (s.onProc q (fun y => { y with waitSend := none })).send (.chan q .closed) else s
  | none => s

theorem Shuts.onChan (s : State) (c : Chan) (f : ChanSt → ChanSt) : Shuts s (s.onChan c f) := .of_same rfl rfl

theorem Shuts.entriesLost (p : Proc) (s : State) (c : Chan) : Shuts s (entriesLost p s c) := by
  unfold Machine.entriesLost
  split
  · exact .refl s
  · exact .record s _ rfl

theorem Shuts.partnerTold (s : State) (partner : Option Proc) (waits : Bool) : Shuts s (partnerTold s partner waits) := by
  cases partner with
  | none => exact .refl s
  | some q =>
    cases waits with
    | false => exact .refl s
    | true => exact (Shuts.unwait s q).trans (.of_same rfl rfl)

theorem closeChan_eq (p : Proc) (s : State) (c : Chan) : closeChan p s c = s ∨ ∃ f, closeChan p s c =
    partnerTold ((entriesLost p s c).onChan c f) ((s.fwp.chans.at c).partner p) ((entriesLost p s c).partnerWaits p (s.fwp.chans.at c) c) := by
  unfold closeChan
  dsimp only
  split
  · exact .inl rfl
  · exact .inr ⟨_, rfl⟩

theorem Shuts.closeChan (p : Proc) (s : State) (c : Chan) : Shuts s (closeChan p s c) := by
  rcases closeChan_eq p s c with same | ⟨f, stages⟩
  · rw [same]
    exact .refl s
  · rw [stages]
    exact (Shuts.entriesLost p s c).trans ((Shuts.onChan _ c f).trans (.partnerTold _ _ _))

theorem Shuts.closeChans (s : State) (p : Proc) : Shuts s (closeChans s p) :=
  State.each_induction (P := Shuts s) (.refl s) fun t c _ before => before.trans (.closeChan p t c)

theorem Shuts.closeOwnRecord (s : State) (p : Proc) : Shuts s (closeOwnRecord s p) := by
  unfold Machine.closeOwnRecord
  split
  · split
    · exact .of_same rfl rfl
    · exact .refl s
  · exact .refl s

/-- The processor under its latches. -/
def latched (s : State) (p : Proc) (cause : BitVec 4) (pc : BitVec 32) : State :=
  s.onProc p (fun x => { x with
    state := .restarting, latches := true, cause, restarts := bump x.restarts, pc, from_ := s.time.tick, waitSend := none, waitRecv := false
    working := [], regs := Vector.replicate 32 0
    recent := if cause = 2 then (s.proc p).counted s.time.opsec else (s.proc p).counted s.time.opsec ++ [s.time.opsec] })

theorem ProcSt.unwaiting_of_unlogged {x y : ProcSt} (same : x.unlogged = y.unlogged) : x.unwaiting = y.unwaiting :=
  (congrArg ProcSt.unwaiting same :)

theorem Shuts.logTo (s : State) (p : Proc) (code : BitVec 16) (c : Option Ctx) (hw : Bool) (arg : BitVec 32) : Shuts s (s.logTo p code c hw arg) :=
  have logs := Logs.logTo s p code c hw arg
  ⟨fun q => ProcSt.unwaiting_of_unlogged (logs.procs q), by rw [logs.fst]⟩

theorem latched_own (s : State) (p : Proc) (cause : BitVec 4) (pc : BitVec 32) : ((latched s p cause pc).proc p).state = .restarting ∧
    ((latched s p cause pc).proc p).cause = cause := by
  unfold latched
  rw [State.onProc_at]
  exact ⟨rfl, rfl⟩

theorem Shuts.state (h : Shuts s t) (q : Proc) : (t.proc q).state = (s.proc q).state := (congrArg ProcSt.state (h.procs q) :)
theorem Shuts.cause (h : Shuts s t) (q : Proc) : (t.proc q).cause = (s.proc q).cause := (congrArg ProcSt.cause (h.procs q) :)

/-- A restart that is not one too many: the latches close, and with them the channels. -/
theorem restartProc_eq {cause : BitVec 4} (few : ((s.proc p).counted s.time.opsec).length < 2) (pc : BitVec 32) : restartProc s p cause pc =
    let t := closeChans (closeOwnRecord ((latched s p cause pc).logTo p 0x8001 none true pc) p) p
    if p = mc then planRequeue (t.setAon (fun a => { a with alive := false })) else t := by
  unfold restartProc
  dsimp only
  rw [if_neg fun ⟨_, many⟩ => absurd few (Nat.not_lt.2 many)]
  rfl

theorem restartProc_restarts (other : p ≠ mc) {cause : BitVec 4} (few : ((s.proc p).counted s.time.opsec).length < 2) (pc : BitVec 32) :
    Shuts (latched s p cause pc) (restartProc s p cause pc) := by
  rw [restartProc_eq few]
  dsimp only
  rw [if_neg other]
  exact (Shuts.logTo _ _ _ _ _ _).trans ((Shuts.closeOwnRecord _ p).trans (.closeChans _ p))

theorem restartProc_kept_of_few (other : p ≠ mc) {cause : BitVec 4} (few : ((s.proc p).counted s.time.opsec).length < 2) (pc : BitVec 32) :
    (restartProc s p cause pc).kept = s.kept := by
  rw [restartProc_eq few]
  dsimp only
  rw [if_neg other, closeChans_kept, closeOwnRecord_kept, State.logTo_kept]
  rfl

theorem chain_of_two (first : p.val < q.val) (there : s.blockedOn p = some (q, c)) (back : s.blockedOn q = some (p, d)) : s.chain p 6 p = some [(p, c), (q, d)] := by
  have differs : q ≠ p := fun same => absurd (same ▸ first) (Nat.lt_irrefl _)
  rw [State.chain, there]
  dsimp only
  rw [if_neg differs, State.chain, back]
  dsimp only
  rw [if_pos rfl]
  rfl

/-- QUEUE_CYCLE of two. -/
def queueCycleEvent (p q : Proc) (c d : Chan) (pc : BitVec 32) : Ev :=
  { code := 0xB004, cls := .u, unit := uProc q, p16 := (1#16 <<< p.val) ||| (1#16 <<< q.val), p32 := (1#32 <<< c.val) ||| (1#32 <<< d.val), acc := 0x50
    addr := pc.setWidth 64 }

theorem exec_queueCycle (first : p.val < q.val) (there : s.blockedOn p = some (q, c)) (back : s.blockedOn q = some (p, d)) :
    let pc := s.fresh.1.setWidth 32
    exec (.queueCycle p) s = .next ((restartProc (s.fresh.2.emit (queueCycleEvent p q c d pc)) q 4 pc).each [(p, c), (q, d)] endCycleWait) := by
  show execQueueCycle p s = _
  unfold execQueueCycle
  rw [chain_of_two first there back]
  have top : [(p, c), (q, d)].foldl (fun (m : Proc) (x : Proc × Chan) => if m.val < x.1.val then x.1 else m) p = q := by
    rw [List.foldl_cons, List.foldl_cons, List.foldl_nil, if_neg (Nat.lt_irrefl _), if_pos first]
  have procs : [(p, c), (q, d)].foldl (fun (m : BitVec 16) (x : Proc × Chan) => m ||| (1#16 <<< x.1.val)) 0 = (1#16 <<< p.val) ||| (1#16 <<< q.val) := by
    simp
  have chans : [(p, c), (q, d)].foldl (fun (m : BitVec 32) (x : Proc × Chan) => m ||| (1#32 <<< x.2.val)) 0 = (1#32 <<< c.val) ||| (1#32 <<< d.val) := by
    simp
  dsimp only
  rw [top, procs, chans]
  rfl

theorem queueCycle_of_two (first : p.val < q.val) (there : s.blockedOn p = some (q, c)) (back : s.blockedOn q = some (p, d))
    (few : ((s.proc q).counted s.time.opsec).length < 2) : ∃ t e, exec (.queueCycle p) s = .next t ∧
    (t.proc q).state = .restarting ∧ (t.proc q).cause = 4 ∧ e ∈ t.fst.faultQ ∧ e.code = 0xB004 ∧ e.cls = .u ∧ e.unit = uProc q ∧ e.p16 = (1#16 <<< p.val) ||| (1#16 <<< q.val) ∧
    e.p32 = (1#32 <<< c.val) ||| (1#32 <<< d.val) ∧ t.kept = s.kept := by
  have run := exec_queueCycle first there back
  dsimp only at run
  generalize s.fresh.1.setWidth 32 = pc at run
  have other : q ≠ mc := fun same => absurd (same ▸ first : p.val < (mc : Proc).val) (Nat.not_lt_zero _)
  have raised : s.fresh.2.stamp (queueCycleEvent p q c d pc) ∈ (s.fresh.2.emit (queueCycleEvent p q c d pc)).fst.faultQ := State.emit_raises _ _ nofun
  have fwp : (s.fresh.2.emit (queueCycleEvent p q c d pc)).fwp = s.fwp := State.emit_fwp ..
  have time : (s.fresh.2.emit (queueCycleEvent p q c d pc)).time = s.time := State.emit_time ..
  have kept : (s.fresh.2.emit (queueCycleEvent p q c d pc)).kept = s.kept := (State.emit_kept ..).trans rfl
  have fewV : (((s.fresh.2.emit (queueCycleEvent p q c d pc)).proc q).counted (s.fresh.2.emit (queueCycleEvent p q c d pc)).time.opsec).length < 2 := by
    unfold State.proc
    rwa [fwp, time]
  generalize s.fresh.2.emit (queueCycleEvent p q c d pc) = v at run raised kept fewV
  have shuts : Shuts (latched v q 4 pc) ((restartProc v q 4 pc).each [(p, c), (q, d)] endCycleWait) :=
    (restartProc_restarts other fewV pc).trans ((Shuts.endCycleWait _ _).trans (.endCycleWait _ _))
  obtain ⟨state, cause⟩ := latched_own v q 4 pc
  exact ⟨_, _, run, (shuts.state q).trans state, (shuts.cause q).trans cause, by rw [shuts.faultQ]; exact raised, rfl, rfl, rfl, rfl, rfl,
    ((endCycleWait_kept _ _).trans (endCycleWait_kept _ _)).trans ((restartProc_kept_of_few other fewV pc).trans kept)⟩

/-! ## The clauses -/

theorem credits_of_few {x : ChanSt} (few : x.entries.length ≤ 14) : 2 ≤ x.credits := by
  unfold ChanSt.credits
  omega

theorem credits_of_full {x : ChanSt} {kind : BitVec 2} (full : 16 < x.entries.length + creditsFor kind) : x.credits < creditsFor kind := by
  have some_ : 1 ≤ creditsFor kind := by
    unfold creditsFor
    split <;> decide
  unfold ChanSt.credits
  omega

theorem recv_takes {e : ChanEntry} {rest : List ChanEntry} (may : s.mayOperate p = true) (chosen : s.chosen p = some c) (holds : (s.fwp.chans.at c).entries = e :: rest)
    (quiet : (s.fwp.chans.at c).told.contains p = false) :
    ∃ t, exec (.recv p) s = .next t ∧ (t.fwp.chans.at c).entries = rest ∧ (t.proc p).served = c.val ∧ Out.chan p (.entry c e) ∈ t.out ∧
      (∀ d, d ≠ c → t.fwp.chans.at d = s.fwp.chans.at d) ∧
      (∀ d, (s.fwp.chans.at d).receiver.toNat = p.val → (s.fwp.chans.at d).entries ≠ [] → (s.fwp.chans.at d).prio.toNat ≤ (s.fwp.chans.at c).prio.toNat) ∧
      t.ctxs = s.ctxs ∧ t.kept = s.kept := by
  have run := exec_recv may chosen holds quiet
  have logs := Logs.tracePoint (oldestTaken s p c) p 5
  have wakes := Wakes.wakeSender ((tracePoint (oldestTaken s p c) p 5).returns p (.entry c e)) c
  refine ⟨_, run, ?_, ?_, wakes.out _ (List.mem_append_right _ (List.mem_singleton_self _)), fun d other => ?_, chosen_most chosen, ?_, (execRecv_kept p s).of_next run⟩
  · refine wakes.entries.trans ?_
    show ((tracePoint (oldestTaken s p c) p 5).fwp.chans.at c).entries = rest
    rw [logs.chans]
    exact (congrArg ChanSt.entries (State.onChan_at s c _)).trans (ChanSt.taken_entries holds)
  · refine (wakes.served p).trans ((logs.served p).trans ?_)
    unfold oldestTaken
    rw [State.onProc_at]
  · refine (wakes.others d other).trans ?_
    show (tracePoint (oldestTaken s p c) p 5).fwp.chans.at d = _
    rw [logs.chans]
    exact State.onChan_others s _ other
  · exact wakes.ctxs.trans (logs.ctxs.trans rfl)

theorem waitSend_waits (may : s.mayOperate p = true) (held : (s.fwp.chans.at ch).heldBy p = true) (quiet : (s.fwp.chans.at ch).told.contains p = false)
    (many : 14 < (s.fwp.chans.at ch).entries.length) : ∃ t, exec (.waitSend p ch false) s = .next t ∧ t.out = s.out ++ [.chan p .waiting] ∧
      (t.proc p).waitSend = some (ch, false) ∧ (t.fwp.chans.at ch).sendWait = true ∧ (t.fwp.chans.at ch).entries = (s.fwp.chans.at ch).entries ∧ t.kept = s.kept := by
  have run := exec_waitSend may held quiet false
  have logs := Logs.tracePoint s p 6
  dsimp only at run
  rw [if_neg (by rw [ChanSt.credits]; rintro (free | ⟨any, -⟩); exact absurd free (by omega); exact absurd any (by decide))] at run
  refine ⟨_, run, ?_, ?_, ?_, ?_, (execWaitSend_kept p ch false s).of_next run⟩
  · exact congrArg (· ++ [Out.chan p .waiting]) logs.out
  · exact (congrArg ProcSt.waitSend (State.onProc_at (tracePoint s p 6) p _)).trans rfl
  · exact (congrArg ChanSt.sendWait (State.onChan_at ((tracePoint s p 6).onProc p _) ch _)).trans rfl
  · refine (congrArg ChanSt.entries (State.onChan_at ((tracePoint s p 6).onProc p _) ch _)).trans ?_
    show ((tracePoint s p 6).fwp.chans.at ch).entries = _
    rw [logs.chans]

/-- Settles O55: each operation by its cases, RECV by the order of R444, and the cycle of two senders by its restart. -/
theorem channelOperations : Obligations.ChannelOperations := by
  unfold Obligations.ChannelOperations
  refine ⟨fun s p receiver ch priority may => ⟨fun dynamic free => ?_, fun q dynamic outranks holder => ?_, fun taken => open_busy may taken receiver priority⟩,
    fun s p ch e may held quiet => ⟨fun room idle => ?_, fun full => ?_⟩, fun s p ch any may held quiet => ⟨fun few => ?_, fun many none_ => ?_⟩,
    fun s p c e rest may chosen holds quiet => recv_takes may chosen holds quiet, fun s p may empty => ⟨?_, ?_⟩, fun s p ch may dynamic held => ?_,
    fun s p q c d first there back few => queueCycle_of_two first there back few⟩
  · have run := open_takes_free may dynamic free receiver priority
    exact ⟨_, run, openChan_at .., fun d other => openChan_others s p other receiver priority, rfl, rfl, (execOpen_kept p ch receiver priority s).of_next run⟩
  · have run := open_outranks may dynamic outranks holder receiver priority
    have at_ := openChan_at { s with out := amend s.out (.chan q .ok) (.chan q .busy) } p ch receiver priority
    refine ⟨_, run, ?_, by rw [at_]; rfl, rfl, rfl, (execOpen_kept p ch receiver priority s).of_next run⟩
    rw [at_]
    show (true && decide ((BitVec.ofNat 3 p.val).toNat = p.val)) = true
    rw [ofNat3_toNat, decide_eq_true rfl]
    rfl
  · have run := send_puts may held quiet room idle
    have logs := Logs.tracePoint (entryPut s ch e) p 4
    have at_ : ((tracePoint (entryPut s ch e) p 4).fwp.chans.at ch) = { s.fwp.chans.at ch with entries := (s.fwp.chans.at ch).entries ++ [e], sent := bump (s.fwp.chans.at ch).sent } := by
      rw [logs.chans]
      exact State.onChan_at s ch _
    refine ⟨_, run, (congrArg ChanSt.entries at_).trans rfl, (congrArg ChanSt.sent at_).trans rfl, fun d other => ?_, congrArg (· ++ [Out.chan p .ok]) logs.out, logs.ctxs,
      (execSend_kept p ch e s).of_next run⟩
    show (tracePoint (entryPut s ch e) p 4).fwp.chans.at d = _
    rw [logs.chans]
    exact State.onChan_others s _ other
  · rw [exec_send may held quiet, if_pos (credits_of_full full)]
    rfl
  · have run := exec_waitSend may held quiet any
    have logs := Logs.tracePoint s p 6
    dsimp only at run
    rw [if_pos (.inl (credits_of_few few))] at run
    exact ⟨_, run, congrArg (· ++ [Out.chan p .ok]) logs.out, (logs.waitSend p).trans (mayOperate_iff.1 may).2.1, logs.chans, (execWaitSend_kept p ch any s).of_next run⟩
  · subst none_
    exact waitSend_waits may held quiet many
  · show execRecv p s = _
    unfold execRecv
    rw [if_neg (by rw [may]; decide), chosen_of_empty empty]
    rfl
  · have run : exec (.waitRecv p) s = .next ((s.onProc p (fun x => { x with waitRecv := true })).returns p .waiting) := by
      show execWaitRecv p s = _
      unfold execWaitRecv
      rw [if_neg (by rw [may]; decide), if_neg (by rw [entryFor_of_empty empty]; decide)]
    exact ⟨_, run, (congrArg ProcSt.waitRecv (State.onProc_at s p _)).trans rfl, rfl, rfl, (execWaitRecv_kept p s).of_next run⟩
  · have run := exec_close may dynamic held
    have at_ : ((s.onChan ch (fun y => y.closing s.time.tick)).fwp.chans.at ch) = (s.fwp.chans.at ch).closing s.time.tick := State.onChan_at ..
    refine ⟨_, run, rfl, (congrArg ChanSt.entries at_).trans ?_, (congrArg ChanSt.state at_).trans ?_, fun d other => State.onChan_others s _ other, rfl,
      (execClose_kept p ch s).of_next run⟩
    all_goals
      unfold ChanSt.closing
      split
    · next empty => exact empty.symm
    · rfl
    · rfl
    · rfl

end

end Sys2Proof.Machine


namespace Sys2Proof.Machine

/-! ## A slot on the spare of a row that its plan does not use (R208, R211)

The statement asks that the end of step 6 leaves every context as it was. Here a context runs a SHADOW-DENSE plan that owns no array of row 0 but
has a chase slot on its spare, and the rows have no free spares: row 0, which no context uses, borrows at once, finds no donor, and
SHADOW_NO_DONOR stops the context. -/

/-- A plan with a chase slot on row 0 and no array of its own. -/
def chasingPlan : Plan := { core := { primary := 2 }, cover := { chase := [{ row := 0, slots := 1, begin_ := 0, end_ := 0, cycles := 0 }] } }

/-- Step 6 with every run decided and TC loaded, no row with a free spare, and the context at its boundary. -/
def noSpares : State :=
  { State.reset with
    fuses := { State.reset.fuses with rowCnt := 1, stackCnt := 0, linkCnt := 0, gradeB := true }
    aon := { State.reset.aon with valid := true, refOk := true }
    pwr := { State.reset.pwr with step := 6, vs := .vs0, path := 2 }
    shd := { State.reset.shd with rows := State.reset.shd.rows.mapAll (fun _ x => { x with gone := [24, 25] }) }
    ctxs := State.reset.ctxs.upd 0 (fun x => { x with pass := { x.pass with st := .boundary }, plan := { x.plan with active := some chasingPlan, loaded := true } })
    fwp := { State.reset.fwp with procs := State.reset.fwp.procs.upd 5 (fun x => { x with state := .hold }) } }

/-- A report in which everything passed. -/
def allPassed : StepReport :=
  { failed := [], cold := [], widths := [], kaRuns := [], rounds := [], memTick := 0, linkTick := 0, refFail := [], histCrc := [], confCrc := [], timeUs := 0 }

/-- The state of a context after a step. -/
def ctxStateAfter (i : Instr) (c : Ctx) (s : State) : Option CtxState :=
  match exec i s with
  | .next t => some (t.ctx c).pass.st
  | _ => none

theorem noSpares_stops : ctxStateAfter (.bringupStep allPassed) 0 noSpares = some .stopped := by decide +kernel

theorem ctxStateAfter_of_next {i : Instr} {s t : State} (c : Ctx) (step : exec i s = .next t) : ctxStateAfter i c s = some (t.ctx c).pass.st := by
  rw [ctxStateAfter, step]

theorem noSpares_ready : noSpares.aon.valid = true ∧ noSpares.pwr.down = none ∧ noSpares.pwr.step = 6 ∧ (noSpares.proc 5).state = .hold ∧ noSpares.fst.orders = [] ∧
    (noSpares.ctx 0).pass.st = .boundary := by decide +kernel

/-- Refutes O56: the end of step 6 gives the rows their roles, and a row without a donor stops the contexts that need one. -/
theorem not_bringUpStepsLeadToReady : ¬ Obligations.BringUpStepsLeadToReady := by
  unfold Obligations.BringUpStepsLeadToReady
  intro claim
  obtain ⟨-, -, -, -, -, step6, -⟩ := claim
  obtain ⟨valid, up, step, loaded, settled, stands⟩ := noSpares_ready
  obtain ⟨-, ends, -⟩ := step6 noSpares allPassed valid up step
  obtain ⟨t, done, -, -, -, ctxs, -⟩ := ends (by rw [loaded]; decide) (by rw [loaded]; decide) settled rfl rfl
  have after := (ctxStateAfter_of_next 0 done).symm.trans noSpares_stops
  rw [State.ctx_eq_of_ctxs ctxs 0, stands] at after
  cases after

end Sys2Proof.Machine


namespace Sys2Proof.Machine

/-! # Reset domains (R471 to R475) -/

/-! ## What resetting a unit leaves alone -/

/-- From `s` to `t` tiles, tests and patterns have been absorbed and reported; power, crossings, time and the part are as they were. -/
structure Absorbs (s t : State) : Prop extends Appends s t where
  power : t.pwr = s.pwr
  crossings : t.xing = s.xing
  now : t.time = s.time
  part : t.fuses = s.fuses

section

variable {s t u : State}

theorem Absorbs.refl (s : State) : Absorbs s s := ⟨.refl s, rfl, rfl, rfl, rfl⟩

theorem Absorbs.trans (h : Absorbs s t) (k : Absorbs t u) : Absorbs s u :=
  ⟨h.toAppends.trans k.toAppends, k.power.trans h.power, k.crossings.trans h.crossings, k.now.trans h.now, k.part.trans h.part⟩

theorem Absorbs.each {α : Type} {f : State → α → State} {xs : List α} (step : ∀ t x, Absorbs t (f t x)) : Absorbs s (s.each xs f) :=
  State.each_induction (P := Absorbs s) (.refl s) fun t x _ before => before.trans (step t x)

theorem Serves.absorbs (h : Serves s t) : Absorbs s t :=
  ⟨h.toAppends, h.pwr, (congrArg State.xing h.rest :), (congrArg State.time h.rest :), (congrArg State.fuses h.rest :)⟩

theorem Tells.absorbs (h : Tells s t) : Absorbs s t :=
  ⟨h.toAppends, (congrArg State.pwr h.rest :), (congrArg State.xing h.rest :), (congrArg State.time h.rest :), (congrArg State.fuses h.rest :)⟩

end

section

variable (s : State)

theorem Absorbs.onSlice (n : Slice) (f : SliceSt → SliceSt) : Absorbs s (s.onSlice n f) := ⟨.of_same rfl rfl rfl rfl, rfl, rfl, rfl, rfl⟩

theorem Absorbs.loseTiles (ps : List Arr) (only : Option Nat) (reason : BitVec 4) : Absorbs s (loseTiles s ps only reason) := by
  have lost : Absorbs s (s.each ps (fun s a => s.onPort a (Port.lose only))) := .each fun _ _ => ⟨.of_same rfl rfl rfl rfl, rfl, rfl, rfl, rfl⟩
  exact lost.trans (Tells.loseVerdicts _ _ reason).absorbs

theorem Absorbs.portResetDone (a : Arr) (tiles : List Tile) : Absorbs s (portResetDone s a tiles) := by
  rw [portResetDone_eq]
  refine .trans ?_ (Serves.emit _ _).absorbs
  have counted (cs : List Ctx) : Absorbs s (countReset s a cs) := .each fun _ _ => ⟨.of_same rfl rfl rfl rfl, rfl, rfl, rfl, rfl⟩
  exact (counted _).trans ⟨.of_same rfl rfl rfl rfl, rfl, rfl, rfl, rfl⟩

theorem Absorbs.resetPorts (ps : List Arr) (only : Option Nat) : Absorbs s (resetPorts s ps only) :=
  (Absorbs.loseTiles s _ _ _).trans (.each fun t _ => .portResetDone t _ _)

theorem Absorbs.resetRow (r : Row) : Absorbs s (resetRow s r) := .resetPorts s _ _

theorem Absorbs.startTakeover (r : Row) (why : BitVec 3) : Absorbs s (startTakeover s r why) := by
  unfold Machine.startTakeover
  dsimp only
  refine Absorbs.trans (Absorbs.trans ?_ (Serves.closeGroups _ r).absorbs) (Serves.emit _ _).absorbs
  exact ⟨.of_same rfl rfl rfl rfl, rfl, rfl, rfl, rfl⟩

/-- A slice reset recorded, its ports absorbed or not, and the reset entered. -/
theorem Absorbs.entersReset {s t : State} (before : Absorbs s t) (n : Slice) : Absorbs s (enterReset t n) := before.trans (.onSlice t n _)

theorem Absorbs.recordSliceReset (n : Slice) (how : BitVec 16) : Absorbs s (recordSliceReset s n how) := (Serves.emit s _).absorbs

theorem Absorbs.resetSlice (n : Slice) : Absorbs s (resetSlice s n) := by
  unfold Machine.resetSlice
  have cut : Absorbs s (cutTestOf s [n]) := (Serves.each fun t m => .cutSelftest t m).absorbs
  generalize cutTestOf s [n] = t at cut ⊢
  have recorded (how : BitVec 16) : Absorbs s (Machine.recordSliceReset t n how) := cut.trans (.recordSliceReset t n how)
  have absorbed (r : Row) : Absorbs s (Machine.resetRow (Machine.recordSliceReset t n 1) r) := (recorded 1).trans (.resetRow _ r)
  dsimp only
  split
  · split
    · exact ((recorded 1).trans (.resetPorts _ _ _)).entersReset n
    · split
      · split
        · exact (absorbed _).entersReset n
        · exact (recorded 0).entersReset n
      · exact (recorded 0).entersReset n
  · split
    · exact (absorbed _).entersReset n
    · exact (recorded 0).entersReset n
  · split
    · exact (recorded 0).trans (.startTakeover _ _ 2)
    · split
      · exact (absorbed _).entersReset n
      · exact (recorded _).entersReset n

end

/-! ## GO (R471, R474) -/

theorem flag_or_bit (v : Reg) (n : Nat) {i : Nat} (small : i < 64) : flag (v ||| BitVec.twoPow 64 n) i = (flag v i || decide (i = n)) := by
  unfold flag
  simp [small, eq_comm]

theorem field_or_bit (v : Reg) {lo w n : Nat} (outside : n < lo ∨ lo + w ≤ n) : field (v ||| BitVec.twoPow 64 n) lo w = field v lo w := by
  unfold field
  ext i h
  simp [BitVec.getLsbD_or, BitVec.getLsbD_twoPow]
  omega

/-- VX_PWR_RESET with the domain and the index written. -/
def resetChosen (s : State) (v : Reg) : State := s.onPwr (fun w => { w with domain := field v 0 4, index := field v 4 12 })

/-- What GO does with the domain chosen. -/
def resetCommand (src : Src) (s : State) : State :=
  if s.pwr.resets ≠ [] ∨ s.pwr.down.isSome ∨ !s.resetAllowed s.pwr.domain s.pwr.index.toNat then resetRefuse s src
  else beginReset s s.pwr.domain s.pwr.index

theorem pwrReset_go (src : Src) (v : Reg) (s : State) : pwrReset src (v ||| 0x10000) s = resetCommand src (resetChosen s v) := by
  have go : flag (v ||| 0x10000) 16 = true := (flag_or_bit v 16 (by decide)).trans (by simp)
  have domain : (field (v ||| 0x10000) 0 4 : BitVec 4) = field v 0 4 := field_or_bit v (n := 16) (.inr (by decide))
  have index : (field (v ||| 0x10000) 4 12 : BitVec 12) = field v 4 12 := field_or_bit v (n := 16) (.inr (by decide))
  unfold pwrReset
  rw [domain, index]
  exact if_neg (by rw [go]; decide)

theorem exec_resetGo {s : State} (carried : s.gate 0xE00010 = .carry) (src : Src) (v : Reg) :
    exec (.resetGo src v) s = .next ((resetCommand src (resetChosen s v)).complete src 0xE00010 false 0 0) := by
  refine congrArg Host.Outcome.next ((gatedWrite_of_carry carried src _ _).trans ?_)
  rw [pwrReset_go]

section

variable (s : State)

/-- BUSY: the job of the domain chosen, with the counts of the reset before cleared. -/
def resetReadied (s : State) : State := s.onPwr (fun w => { w with rRefused := false, outcome := 0, absorbed := 0 })

/-- What a domain of one port, one slice or one array absorbs at once. -/
def resetUnit (s : State) (d : BitVec 4) (i : BitVec 12) : State :=
  if d = 1 ∨ d = 8 then match finOf 624 i.toNat with | some a => resetPort s a | none => s
  else if d = 2 then match finOf 25 i.toNat with | some n => resetSlice s n | none => s
  else s

theorem beginReset_unit {d : BitVec 4} (part : ¬(d = 4 ∨ d = 0xB)) (i : BitVec 12) :
    beginReset s d i = (resetUnit (cutPatterns (resetReadied s) (fun p => (resetReadied s).inDomain { domain := d, index := i, from_ := s.time.tick } p.unit) 3) d i).onPwr
      (fun w => { w with resets := [{ domain := d, index := i, from_ := s.time.tick }] }) := if_neg part

theorem beginReset_whole {d : BitVec 4} (whole : d = 4 ∨ d = 0xB) (i : BitVec 12) :
    beginReset s d i = beginShutdown ((resetReadied s).onPwr (fun w => { w with whole := some { domain := d, index := i, from_ := s.time.tick } })) 0xF := if_pos whole

theorem Absorbs.resetUnit (d : BitVec 4) (i : BitVec 12) : Absorbs s (resetUnit s d i) := by
  unfold Machine.resetUnit
  split
  · split
    · exact .resetPorts s _ _
    · exact .refl s
  · split
    · split
      · exact .resetSlice s _
      · exact .refl s
    · exact .refl s

end

theorem beginReset_unit_leaves (s : State) {d : BitVec 4} (part : ¬(d = 4 ∨ d = 0xB)) (i : BitVec 12) :
    (beginReset s d i).pwr = { s.pwr with rRefused := false, outcome := 0, absorbed := 0, resets := [{ domain := d, index := i, from_ := s.time.tick }] } ∧
      (beginReset s d i).xing = s.xing := by
  rw [beginReset_unit s part]
  have absorbs := (Serves.cutPatterns (resetReadied s) (fun p => (resetReadied s).inDomain { domain := d, index := i, from_ := s.time.tick } p.unit) 3).absorbs.trans
    (.resetUnit _ d i)
  refine ⟨?_, absorbs.crossings⟩
  rw [State.onPwr_pwr, absorbs.power]
  rfl

/-! ## A whole reset begins with the shutdown (R471, R469) -/

theorem State.loaded_stopped {s : State} (stopped : s.allStopped = true) : s.loadedCtxs.filter (fun c => (s.ctx c).pass.st ≠ .stopped) = [] := by
  refine List.filter_eq_nil_iff.2 fun c mem => ?_
  have plan : (s.ctx c).pass.st ≠ .noPlan := by simpa [State.hasPlan] using (List.mem_filter.1 mem).2
  have one := List.all_eq_true.1 stopped c (mem_allCtx c)
  simpa [plan] using one

theorem each_endLoad_pwr (s : State) (xs : List Ctx) : (s.each xs endLoad).pwr = s.pwr := by
  obtain ⟨-, rest, -⟩ := each_endLoad s xs
  generalize s.each xs endLoad = t at rest ⊢
  exact (congrArg State.pwr rest :)

/-- SHUTDOWN recorded. -/
def shutdownNoted (s : State) (target : BitVec 4) (todo : List Ctx) : State :=
  (s.onPwr (fun w => { w with down := some { target, from_ := s.time.tick } })).emit
    { code := 0xE008, unit := uPwr, p16 := target.setWidth 16, p32 := ctxMask todo }

theorem shutdownNoted_pwr (s : State) (target : BitVec 4) (todo : List Ctx) :
    (shutdownNoted s target todo).pwr = { s.pwr with down := some { target, from_ := s.time.tick } } := State.emit_pwr ..

/-- SHUTDOWN recorded, and the loads ended. -/
def shutdownBegun (s : State) (target : BitVec 4) (todo : List Ctx) : State := (shutdownNoted s target todo).each allCtx endLoad

theorem beginShutdown_eq (s : State) (target : BitVec 4) : beginShutdown s target =
    (shutdownBegun s target (s.loadedCtxs.filter (fun c => (s.ctx c).pass.st ≠ .stopped))).each
      (s.loadedCtxs.filter (fun c => (s.ctx c).pass.st ≠ .stopped)) (fun s c => stopCtx s c 0xE008) := rfl

theorem shutdownBegun_pwr (s : State) (target : BitVec 4) (todo : List Ctx) :
    (shutdownBegun s target todo).pwr = { s.pwr with down := some { target, from_ := s.time.tick } } := by
  rw [shutdownBegun, each_endLoad_pwr, shutdownNoted_pwr]

theorem beginShutdown_stopped {s : State} (stopped : s.allStopped = true) (target : BitVec 4) : (beginShutdown s target).pwr =
    { s.pwr with down := some { target, from_ := s.time.tick } } := by
  rw [beginShutdown_eq, s.loaded_stopped stopped, State.each_nil]
  exact shutdownBegun_pwr s target []

theorem beginReset_whole_pwr {s : State} {d : BitVec 4} (whole : d = 4 ∨ d = 0xB) (i : BitVec 12) (stopped : s.allStopped = true) :
    (beginReset s d i).pwr = { s.pwr with rRefused := false, outcome := 0, absorbed := 0, whole := some { domain := d, index := i, from_ := s.time.tick }
                                          down := some { target := 0xF, from_ := s.time.tick } } := by
  rw [beginReset_whole s whole, beginShutdown_stopped (by exact stopped)]
  rfl

theorem resetAllowed_chosen (s : State) (v : Reg) (d : BitVec 4) (i : Nat) : (resetChosen s v).resetAllowed d i = s.resetAllowed d i := rfl

theorem resetCommand_accepted {s : State} {v : Reg} (src : Src) (idle : s.pwr.resets = []) (up : s.pwr.down = none)
    (allowed : s.resetAllowed (field v 0 4) (field v 4 12 : BitVec 12).toNat = true) :
    resetCommand src (resetChosen s v) = beginReset (resetChosen s v) (field v 0 4) (field v 4 12) := by
  refine if_neg ?_
  show ¬(s.pwr.resets ≠ [] ∨ s.pwr.down.isSome ∨ !(resetChosen s v).resetAllowed (field v 0 4) (field v 4 12 : BitVec 12).toNat)
  rw [idle, up, resetAllowed_chosen, allowed]
  simp

theorem resetCommand_refused {s : State} {v : Reg} (src : Src)
    (refused : s.pwr.resets ≠ [] ∨ s.pwr.down.isSome = true ∨ s.resetAllowed (field v 0 4) (field v 4 12 : BitVec 12).toNat = false) :
    resetCommand src (resetChosen s v) = resetRefuse (resetChosen s v) src := by
  refine if_pos ?_
  show s.pwr.resets ≠ [] ∨ s.pwr.down.isSome ∨ !(resetChosen s v).resetAllowed (field v 0 4) (field v 4 12 : BitVec 12).toNat
  rw [resetAllowed_chosen]
  simpa using refused

theorem State.wholeAllowed_of_reset {s : State} {d : BitVec 4} {i : Nat} (whole : d = 4 ∨ d = 0xB) (allowed : s.resetAllowed d i = true) : s.allStopped = true := by
  have cool : s.wholeAllowed = true := by
    rcases whole with rfl | rfl <;> exact allowed
  unfold State.wholeAllowed at cool
  simp only [Bool.and_eq_true] at cool
  exact cool.1.1

/-! ## The end of the drain (R472) -/

section

variable (s : State)

theorem Appends.complete (src : Src) (off : Nat) (error : Bool) (event : BitVec 16) (data : Reg) : Appends s (s.complete src off error event data) := by
  unfold State.complete
  cases src
  · exact .send s _
  · exact .sendMctp s _

theorem Absorbs.absorbAccess (w : XingWait) : Absorbs s (absorbAccess s w) :=
  ⟨.complete s _ _ _ _ _, State.complete_pwr .., State.complete_xing .., State.complete_time .., State.complete_fuses ..⟩

theorem absorbAccess_out {w : XingWait} (host : w.src = .host) : Out.access .host w.off true (errorData w.acc) ∈ (absorbAccess s w).out := by
  unfold absorbAccess State.complete
  rw [host]
  exact List.mem_append_right _ (List.mem_singleton.2 rfl)

theorem each_absorbAccess_out {w : XingWait} {ws : List XingWait} (mem : w ∈ ws) (host : w.src = .host) :
    Out.access .host w.off true (errorData w.acc) ∈ (s.each ws absorbAccess).out := by
  induction ws generalizing s with
  | nil => exact absurd mem List.not_mem_nil
  | cons x xs ih =>
    rw [State.each_cons]
    obtain rfl | mem := List.mem_cons.1 mem
    · exact (Absorbs.each (xs := xs) fun t x => .absorbAccess t x).out (absorbAccess_out s host)
    · exact ih _ mem

theorem each_absorbAccess_fst (ws : List XingWait) : (s.each ws absorbAccess).fst = s.fst :=
  State.each_field (fun t => t.fst) (fun _ _ => State.complete_fst ..) _ _

/-- The accesses that do not wait for the domain. -/
def unboundWaits (j : ResetJob) : State := { s with xing := { s.xing with waits := s.xing.waits.filter (fun w => !s.bound j w) } }

/-- The items of a drain that have not finished (R472). -/
def unfinished (j : ResetJob) (items : Nat) : Nat := items + (s.xing.waits.filter (s.bound j)).length

/-- The drain over: its accesses absorbed, its count stored. -/
def drainCounted (j : ResetJob) (rest : List ResetJob) (n : Nat) : State :=
  (((unboundWaits s j).each (s.xing.waits.filter (s.bound j)) absorbAccess)).onPwr
    (fun w => { w with absorbed := satBits 16 n, resets := { j with drained := true } :: rest })

/-- RESET_ABSORBED. -/
def resetAbsorbed (j : ResetJob) (n : Nat) : Ev :=
  { code := 0xE005, cls := .c, unit := uPwr, p16 := j.domain.setWidth 16 ||| (j.index.setWidth 16 <<< 4), p32 := satBits 32 n }

/-- RESET_ABSORBED raised where anything was absorbed. -/
def drainRaised (j : ResetJob) (n : Nat) : State := if n = 0 then s else s.emit (resetAbsorbed j n)

/-- The ports of the domain's rows absorb their tiles. -/
def drainRows (j : ResetJob) : State := if j.domain = 9 then s.each (s.jobRows j) resetRow else s

theorem exec_resetDrainTimeout {s : State} {j : ResetJob} {rest : List ResetJob} (busy : s.pwr.resets = j :: rest) (drains : j.drained = false)
    (domain : j.domain = 3 ∨ j.domain = 9) (items : Nat) :
    exec (.resetDrainTimeout items) s = .next (stopClocks (drainRows (drainRaised (drainCounted s j rest (unfinished s j items)) j (unfinished s j items)) j) j) := by
  show execResetDrainTimeout items s = _
  have pending : ¬(!j.drains ∨ j.drained) := by
    unfold ResetJob.drains
    rcases domain with domain | domain <;> simp [domain, drains]
  have die : j.domain ≠ 10 := by rcases domain with domain | domain <;> rw [domain] <;> decide
  unfold execResetDrainTimeout drainRows
  rw [busy]
  dsimp only
  rw [if_neg pending, if_neg die]
  simp only [die, or_false]
  rfl

theorem exec_resetDrainTimeout_other {s : State} {j : ResetJob} {rest : List ResetJob} (busy : s.pwr.resets = j :: rest) (partition : j.domain ≠ 3) (row : j.domain ≠ 9)
    (die : j.domain ≠ 10) (items : Nat) : exec (.resetDrainTimeout items) s = .next s := by
  show execResetDrainTimeout items s = _
  unfold execResetDrainTimeout
  rw [busy]
  exact if_pos (.inl (by simpa [ResetJob.drains] using ⟨⟨partition, row⟩, die⟩))

theorem Absorbs.drainRaised (j : ResetJob) (n : Nat) : Absorbs s (drainRaised s j n) := by
  unfold Machine.drainRaised
  split
  · exact .refl s
  · exact (Serves.emit s _).absorbs

theorem Absorbs.drainRows (j : ResetJob) : Absorbs s (drainRows s j) := by
  unfold Machine.drainRows
  split
  · exact .each fun t r => .resetRow t r
  · exact .refl s

theorem Absorbs.unboundEach (j : ResetJob) : Absorbs (unboundWaits s j) ((unboundWaits s j).each (s.xing.waits.filter (s.bound j)) Machine.absorbAccess) :=
  .each fun t w => .absorbAccess t w

theorem drainCounted_leaves (j : ResetJob) (rest : List ResetJob) (n : Nat) :
    (drainCounted s j rest n).pwr = { s.pwr with absorbed := satBits 16 n, resets := { j with drained := true } :: rest } ∧
      (drainCounted s j rest n).xing = { s.xing with waits := s.xing.waits.filter (fun w => !s.bound j w) } ∧ (drainCounted s j rest n).fst = s.fst ∧
      (drainCounted s j rest n).fuses = s.fuses ∧
      ∀ w ∈ s.xing.waits, s.bound j w = true → w.src = .host → Out.access .host w.off true (errorData w.acc) ∈ (drainCounted s j rest n).out := by
  have absorbs := Absorbs.unboundEach s j
  refine ⟨?_, absorbs.crossings, each_absorbAccess_fst .., absorbs.part, fun w mem bound host => each_absorbAccess_out _ (List.mem_filter.2 ⟨mem, bound⟩) host⟩
  unfold drainCounted
  rw [State.onPwr_pwr, absorbs.power]
  rfl

theorem State.jobRows_of_fuses {s t : State} (part : t.fuses = s.fuses) (j : ResetJob) : t.jobRows j = s.jobRows j := by
  unfold State.jobRows State.partRows State.rows
  rw [part]

end

/-! ## The end of a reset (R471) -/

/-- RESET_DONE of a domain. -/
def resetDone (s : State) (j : ResetJob) : Ev :=
  { code := 0xE004, unit := uPwr, p16 := j.domain.setWidth 16 ||| (j.index.setWidth 16 <<< 4), p32 := satBits 32 ((s.time.tick - j.from_).toNat / 1000) }

/-- BUSY cleared, the outcome told, the clocks of the domain running. -/
def resetOver (s : State) (j : ResetJob) (rest : List ResetJob) : State :=
  startClocks (s.onPwr (fun w => { w with resets := rest, outcome := if w.absorbed = 0 then 1 else 2 })) j

theorem exec_resetEnd {s : State} {j : ResetJob} {rest : List ResetJob} (busy : s.pwr.resets = j :: rest)
    (domain : j.domain = 8 ∨ (j.domain = 9 ∧ j.drained = true)) (none : s.wce.orders = []) :
    exec .resetEnd s = .next ((resetOver s j rest).emit (resetDone s j)) := by
  show execResetEnd s = _
  have finished : ¬(j.drains && !j.drained) = true := by
    unfold ResetJob.drains
    rcases domain with domain | ⟨domain, drained⟩
    · simp [domain]
    · simp [drained]
  have die : j.domain ≠ 10 := by rcases domain with domain | ⟨domain, -⟩ <;> rw [domain] <;> decide
  have partition : ¬(j.domain = 3 ∨ j.domain = 10) := by rcases domain with domain | ⟨domain, -⟩ <;> rw [domain] <;> decide
  unfold execResetEnd
  rw [busy]
  dsimp only
  rw [if_neg finished, if_neg die, if_neg partition, nextOrder_of_none (by rw [State.emit_wce]; exact none)]
  rfl

theorem exec_resetEnd_draining {s : State} {j : ResetJob} {rest : List ResetJob} (busy : s.pwr.resets = j :: rest)
    (domain : j.domain = 3 ∨ j.domain = 9 ∨ j.domain = 10) (drains : j.drained = false) : exec .resetEnd s = .next s := by
  show execResetEnd s = _
  unfold execResetEnd
  rw [busy]
  refine if_pos ?_
  unfold ResetJob.drains
  rcases domain with domain | domain | domain <;> simp [domain, drains]

theorem not_mem_resetOver_rows {s : State} {j : ResetJob} {rest : List ResetJob} {r : Row} (mem : r ∈ s.jobRows j) : r ∉ (resetOver s j rest).xing.rows := by
  intro still
  have kept := (List.mem_filter.1 still).2
  have same : (s.onPwr (fun w => { w with resets := rest, outcome := if w.absorbed = 0 then 1 else 2 })).jobRows j = s.jobRows j := s.jobRows_of_fuses rfl j
  rw [same, List.contains_iff_mem.2 mem] at kept
  cases kept

/-- Settles O58: a domain's reset is accepted or refused, its drain absorbs what has not finished, and its end clears BUSY. -/
theorem resetDomains : Obligations.ResetDomains := by
  unfold Obligations.ResetDomains
  refine ⟨fun s src v carried => ⟨fun idle up allowed => ⟨fun partial_ whole refOk => ?_, fun whole => ?_⟩, fun refused => ?_⟩,
    fun s j rest items busy drains => ⟨fun domain refOk => ?_, fun partition row die => exec_resetDrainTimeout_other busy partition row die items⟩,
    fun s j rest busy => ⟨fun domain none => ?_, fun domain drains => exec_resetEnd_draining busy domain drains⟩, fun s idle => ?_⟩
  · have run := exec_resetGo carried src v
    rw [resetCommand_accepted src idle up allowed] at run
    obtain ⟨pwr, xing⟩ := beginReset_unit_leaves (resetChosen s v) (d := field v 0 4) (by exact not_or.2 ⟨partial_, whole⟩) (field v 4 12)
    exact ⟨_, run, by rw [State.complete_pwr, pwr]; rfl, by rw [State.complete_pwr, pwr], by rw [State.complete_pwr, pwr], by rw [State.complete_pwr, pwr],
      (State.complete_xing ..).trans xing, (execResetGo_kept src v s).of_next run⟩
  · have run := exec_resetGo carried src v
    rw [resetCommand_accepted src idle up allowed] at run
    have pwr := beginReset_whole_pwr (s := resetChosen s v) whole (field v 4 12) (State.wholeAllowed_of_reset whole allowed)
    exact ⟨_, run, by rw [State.complete_pwr, pwr]; rfl, by rw [State.complete_pwr, pwr]; rfl, by rw [State.complete_pwr, pwr]; exact idle, (execResetGo_kept src v s).of_next run⟩
  · have run := exec_resetGo carried src v
    rw [resetCommand_refused src refused] at run
    refine ⟨_, run, ?_, ?_, ?_, ?_, ?_, ?_, ?_, (execResetGo_kept src v s).of_next run⟩ <;> cases src <;> rfl
  · have run := exec_resetDrainTimeout busy drains domain items
    obtain ⟨pwr, xing, fst, part, out⟩ := drainCounted_leaves s j rest (Machine.unfinished s j items)
    have raised := Absorbs.drainRaised (drainCounted s j rest (Machine.unfinished s j items)) j (Machine.unfinished s j items)
    have absorbs := raised.trans (.drainRows _ j)
    have rows := State.jobRows_of_fuses (absorbs.part.trans part) j
    refine ⟨_, run, ?_, ?_, ?_, fun w mem bound host => absorbs.out (out w mem bound host), fun r mem => ?_, (execResetDrainTimeout_kept items s).of_next run, fun zero domain => ?_, fun some => ?_⟩
    · exact (congrArg Pwr.resets (absorbs.power.trans pwr) :)
    · exact (congrArg Pwr.absorbed (absorbs.power.trans pwr) :)
    · exact (congrArg Xing.waits (absorbs.crossings.trans xing) :)
    · exact List.mem_append_right _ (rows ▸ mem)
    · have calm : Machine.unfinished s j items = 0 := zero
      show (drainRows _ j).fst = s.fst
      rw [drainRows, if_neg (by rw [domain]; decide), drainRaised, if_pos calm]
      exact fst
    · have raises : drainRaised (drainCounted s j rest (Machine.unfinished s j items)) j (Machine.unfinished s j items) = _ := if_neg some
      have waits := raises ▸ State.emit_raises (drainCounted s j rest (Machine.unfinished s j items)) (resetAbsorbed j (Machine.unfinished s j items)) (by exact nofun)
      exact ⟨_, (Absorbs.drainRows _ j).faultQ waits, rfl, rfl, rfl, rfl⟩
  · have run := exec_resetEnd busy domain none
    have pwr : ((resetOver s j rest).emit (resetDone s j)).pwr = (resetOver s j rest).pwr := State.emit_pwr ..
    refine ⟨_, (resetOver s j rest).stamp (resetDone s j), run, by rw [pwr]; rfl, by rw [pwr]; rfl, by rw [State.emit_record _ (rfl : (resetDone s j).cls = .record)]; rfl, rfl, rfl, rfl, fun r mem => ?_, ?_, ?_, ?_⟩
    · rw [State.emit_xing]
      exact not_mem_resetOver_rows mem
    · rw [State.emit_ctxs]; rfl
    · rw [State.emit_wce]; rfl
    · rw [State.emit_kept]; rfl
  · refine ⟨?_, fun items => ?_⟩
    · show execResetEnd s = _
      unfold execResetEnd
      rw [idle]
    · show execResetDrainTimeout items s = _
      unfold execResetDrainTimeout
      rw [idle]

end Sys2Proof.Machine


namespace Sys2Proof.Machine

/-! # Power states and the orderly shutdown (R476 to R479, R469, R377 to R379) -/

/-! ## A write to VX_PWR_CTRL -/

/-- VX_PWR_CTRL with the target written. -/
def pwrTargeted (s : State) (v : Reg) : State := s.onPwr (fun w => { w with target := field v 0 3 })

theorem manyCommands_pair (v : Reg) (i j : Nat) : manyCommands v [i, j] = (flag v i && flag v j) := by
  unfold manyCommands
  simp only [List.filter_cons, List.filter_nil]
  cases flag v i <;> cases flag v j <;> rfl

theorem pwrCtrl_go {v : Reg} (alone : flag v 4 = false) (src : Src) (s : State) : pwrCtrl src (v ||| 8) s = goCmd src (pwrTargeted s v) := by
  have go : flag (v ||| 8) 3 = true := (flag_or_bit v 3 (by decide)).trans (by simp)
  have other : flag (v ||| 8) 4 = false := (flag_or_bit v 3 (by decide)).trans (by simp [alone])
  have target : (field (v ||| 8) 0 3 : BitVec 3) = field v 0 3 := field_or_bit v (n := 3) (.inr (by decide))
  unfold pwrCtrl
  rw [target, manyCommands_pair, go, other]
  rfl

theorem pwrCtrl_shutdown {v : Reg} (alone : flag v 3 = false) (src : Src) (s : State) : pwrCtrl src (v ||| 16) s = shutdownCmd src (pwrTargeted s v) := by
  have down : flag (v ||| 16) 4 = true := (flag_or_bit v 4 (by decide)).trans (by simp)
  have other : flag (v ||| 16) 3 = false := (flag_or_bit v 4 (by decide)).trans (by simp [alone])
  have target : (field (v ||| 16) 0 3 : BitVec 3) = field v 0 3 := field_or_bit v (n := 4) (.inr (by decide))
  unfold pwrCtrl
  rw [target, manyCommands_pair, down, other]
  rfl

section

variable {s : State} {v : Reg} (src : Src)

theorem exec_powerStateGo (carried : s.gate 0xE00008 = .carry) (alone : flag v 4 = false) :
    exec (.powerStateGo src v) s = .next ((goCmd src (pwrTargeted s v)).complete src 0xE00008 false 0 0) := by
  refine congrArg Host.Outcome.next ((gatedWrite_of_carry carried src _ _).trans ?_)
  rw [pwrCtrl_go alone]

theorem exec_shutdown (carried : s.gate 0xE00008 = .carry) (alone : flag v 3 = false) :
    exec (.shutdown src v) s = .next ((shutdownCmd src (pwrTargeted s v)).complete src 0xE00008 false 0 0) := by
  refine congrArg Host.Outcome.next ((gatedWrite_of_carry carried src _ _).trans ?_)
  rw [pwrCtrl_shutdown alone]

end

/-! ## Moves within VS0 to VS2 (R477) -/

/-- A command taken: REFUSED reads 0. -/
def pwrAccepted (s : State) : State := s.onPwr (fun w => { w with refused := false })

/-- What leaving VS0 ends: tests, patterns and the open record. -/
def leavesWork (s : State) : State := closeRecord (cutPatterns (s.each (List.finRange 25) stopTest) (fun _ => true) 4)

theorem stopTest_untested {s : State} {n : Slice} (untested : s.testOf n = none) : stopTest s n = s := by
  have cut : cutSelftest s n = s := by
    unfold cutSelftest
    rw [untested]
  unfold stopTest
  rw [untested]
  exact cut

theorem each_stopTest_untested {s : State} (untested : s.wce.testing = []) (ns : List Slice) : s.each ns stopTest = s :=
  State.each_induction (P := fun t => t = s) rfl fun t n _ same => by
    subst same
    exact stopTest_untested (by unfold State.testOf; rw [untested]; rfl)

theorem leavesWork_idle {s : State} (untested : s.wce.testing = []) (calm : s.scr.running = []) : leavesWork s = closeRecord s := by
  unfold leavesWork
  rw [each_stopTest_untested untested, cutPatterns, calm]
  rfl

/-- POWER_STATE of a move. -/
def moveEvent (s : State) (dest : Vs) (cause : BitVec 32) : Ev :=
  { code := 0xE006, unit := uPwr, p16 := BitVec.ofNat 16 (s.pwr.vs.code + 8 * dest.code), p32 := cause }

theorem recordMove_moves {s : State} {dest : Vs} (moves : s.pwr.vs ≠ dest) (cause : BitVec 32) : recordMove s dest cause = s.emit (moveEvent s dest cause) := if_neg moves

/-- The engine in its new state within VS0 to VS2. -/
def movedTo (s : State) (dest : Vs) : State :=
  { s.onPwr (fun w => { w with vs := dest, ready := dest = .vs0 ∧ w.step = 7 ∧ !w.waitDrv ∧ s.fst.state = .run }) with
    xing := { s.xing with stopped := stoppedIn dest } }

theorem movedTo_fst (s : State) (dest : Vs) : (movedTo s dest).fst = s.fst := rfl

theorem moveWithin_eq (s : State) (dest : Vs) (cause : BitVec 32) : moveWithin s dest cause =
    movedTo (recordMove (if s.pwr.vs = .vs0 ∧ dest ≠ .vs0 then leavesWork s else s) dest cause) dest := rfl

theorem moveWithin_down {s : State} {dest : Vs} (serves : s.pwr.vs = .vs0) (moves : dest ≠ .vs0) (cause : BitVec 32) :
    moveWithin s dest cause = movedTo (recordMove (leavesWork s) dest cause) dest := by
  rw [moveWithin_eq, if_pos ⟨serves, moves⟩]

theorem moveWithin_low {s : State} (low : s.pwr.vs ≠ .vs0) (dest : Vs) (cause : BitVec 32) :
    moveWithin s dest cause = movedTo (recordMove s dest cause) dest := by
  rw [moveWithin_eq, if_neg fun h => low h.1]

/-! ## GO -/

section

variable (s : State)

theorem Serves.startTakeover (r : Row) (why : BitVec 3) : Serves s (startTakeover s r why) := by
  unfold Machine.startTakeover
  exact ((Serves.onWce s _).trans ((Serves.onWce _ _).trans (.onWce _ _))).trans ((Serves.closeGroups _ r).trans (.emit _ _))

theorem Serves.beginTest (n : Slice) (why : BitVec 3) : Serves s (beginTest s n why) := (Serves.onWce s _).trans (.onWce _ _)

theorem Serves.startTest (n : Slice) : Serves s (startTest s n) := by
  unfold Machine.startTest
  split
  · exact .ite (fun _ => .startTakeover s _ 3) fun _ => .beginTest s n 4
  · exact .beginTest s n 4

theorem Serves.advanceTurn : Serves s (advanceTurn s) := .onWce s _

theorem Serves.turnNow : Serves s (turnNow s) := by
  unfold Machine.turnNow
  refine Serves.trans (t := turnTaken s) (.onWce s _) ?_
  generalize taken : turnTaken s = t
  unfold turnTaken at taken
  rw [taken]
  dsimp only
  split
  · exact .refl t
  · split
    · exact (Serves.advanceTurn t).trans (.ite (fun _ => .startTest _ _) fun _ => .refl _)
    · split
      · exact .ite (fun _ => (Serves.advanceTurn t).trans (.beginTest _ _ 5)) fun _ => .refl t
      · exact .refl t

/-- The slice's turn that was due while the engine was below VS0 (R187). -/
def turnCaught (dest : Vs) : State := if dest = .vs0 ∧ s.wce.turnDue then turnNow s else s

theorem Serves.turnCaught (dest : Vs) : Serves s (turnCaught s dest) := .ite (fun _ => .turnNow s) fun _ => .refl s

end

section

variable {s : State}

theorem goCmd_moves {dest : Vs} (src : Src) (idle : s.pwr.resets = []) (up : s.pwr.down = none) (may : s.mayMove s.pwr.target.toNat = true)
    (code : vsOf s.pwr.target.toNat = some dest) : goCmd src s = turnCaught (moveWithin (pwrAccepted s) dest 1) dest := by
  unfold goCmd
  dsimp only
  rw [if_neg (by simp [idle, up]), if_pos may, code]
  rfl

theorem goCmd_wakes (src : Src) (idle : s.pwr.resets = []) (up : s.pwr.down = none) (stays : s.mayMove s.pwr.target.toNat = false) (target : s.pwr.target = 0)
    (low : s.pwr.vs = .vs3 ∨ (s.pwr.vs = .vs4 ∧ s.pwr.step ≠ 1 ∧ src = .host ∧ s.aon.refOk = true)) : goCmd src s = beginBringup (pwrAccepted s) 4 := by
  unfold goCmd
  dsimp only
  rw [if_neg (by simp [idle, up]), if_neg (Bool.eq_false_iff.1 stays)]
  rcases low with low | ⟨low, step, host, clock⟩
  · rw [if_pos ⟨target, low⟩]
    rfl
  · rw [if_neg (by rw [low]; exact fun h => nomatch h.2), if_pos ⟨target, low, step, host, clock⟩]
    rfl

theorem goCmd_busy (src : Src) (busy : s.pwr.resets ≠ [] ∨ s.pwr.down.isSome = true) : goCmd src s = pwrRefuse s src := if_pos busy

theorem goCmd_refused (src : Src) (stays : s.mayMove s.pwr.target.toNat = false)
    (sleeps : ¬(s.pwr.target = 0 ∧ (s.pwr.vs = .vs3 ∨ (s.pwr.vs = .vs4 ∧ src = .host ∧ s.aon.refOk = true)))) : goCmd src s = pwrRefuse s src := by
  unfold goCmd
  dsimp only
  split
  · rfl
  · rw [if_neg (Bool.eq_false_iff.1 stays), if_neg fun h => sleeps ⟨h.1, .inl h.2⟩, if_neg]
    exact fun ⟨target, low, _, host, clock⟩ => sleeps ⟨target, .inr ⟨low, host, clock⟩⟩

end

/-! ## What each GO leaves -/

section

variable {s : State}

theorem pwrRefuse_leaves (s : State) (src : Src) : (pwrRefuse s src).pwr = { s.pwr with refused := true } ∧ (pwrRefuse s src).ctxs = s.ctxs ∧ (pwrRefuse s src).xing = s.xing :=
  ⟨rfl, rfl, rfl⟩

/-- A move below VS0 or between its lower states: the state, the clocks and the contexts. -/
theorem movedTo_leaves (s : State) (dest : Vs) (cause : BitVec 32) : (movedTo (recordMove s dest cause) dest).pwr.vs = dest ∧
    (movedTo (recordMove s dest cause) dest).pwr.refused = s.pwr.refused ∧
    (movedTo (recordMove s dest cause) dest).pwr.ready = decide (dest = .vs0 ∧ s.pwr.step = 7 ∧ s.pwr.waitDrv = false ∧ s.fst.state = .run) ∧
    (movedTo (recordMove s dest cause) dest).xing.stopped = stoppedIn dest ∧ (movedTo (recordMove s dest cause) dest).ctxs = s.ctxs := by
  have serves := Serves.recordMove s dest cause
  have state := (congrArg Fst.state serves.fst :)
  refine ⟨rfl, (congrArg Pwr.refused serves.pwr :), ?_, rfl, serves.ctxs⟩
  show decide (dest = .vs0 ∧ (recordMove s dest cause).pwr.step = 7 ∧ !(recordMove s dest cause).pwr.waitDrv ∧ (recordMove s dest cause).fst.state = .run) = _
  rw [serves.pwr, show (recordMove s dest cause).fst.state = s.fst.state from state]
  simp

theorem turnCaught_leaves (s : State) (dest : Vs) : (turnCaught s dest).pwr = s.pwr ∧ (turnCaught s dest).xing = s.xing ∧ (turnCaught s dest).ctxs = s.ctxs :=
  ⟨(Serves.turnCaught s dest).pwr, (congrArg State.xing (Serves.turnCaught s dest).rest :), (Serves.turnCaught s dest).ctxs⟩

theorem State.mayMove_down (vs0 : s.pwr.vs = .vs0) : s.mayMove 1 = (s.allStopped && s.prv.spans.isEmpty && !s.scr.running.any (fun q => uClass q.unit = 0)) := by
  unfold State.mayMove
  rw [vs0]
  rfl

theorem State.mayMove_lower (vs1 : s.pwr.vs = .vs1) : s.mayMove 2 = true := by
  unfold State.mayMove
  rw [vs1]
  rfl

theorem State.mayMove_up (vs2 : s.pwr.vs = .vs2) : s.mayMove 1 = !s.thm.stopped := by
  unfold State.mayMove
  rw [vs2]
  rfl

theorem State.mayMove_serve (vs1 : s.pwr.vs = .vs1) : s.mayMove 0 = !s.thm.stopped := by
  unfold State.mayMove
  rw [vs1]
  rfl

theorem State.mayMove_low (low : s.pwr.vs = .vs3 ∨ s.pwr.vs = .vs4) (n : Nat) : s.mayMove n = false := by
  unfold State.mayMove
  rcases low with low | low <;> rw [low]

theorem State.mayMove_far {n : Nat} (far : 3 ≤ n) : s.mayMove n = false := by
  obtain ⟨m, rfl⟩ := Nat.exists_eq_add_of_le' far
  unfold State.mayMove
  cases s.pwr.vs <;> rfl

theorem State.mayMove_skip (vs0 : s.pwr.vs = .vs0) : s.mayMove 2 = false := by
  unfold State.mayMove
  rw [vs0]
  rfl

/-- A move carried out by GO from a state below VS0. -/
theorem goCmd_from_low {dest : Vs} (src : Src) (idle : s.pwr.resets = []) (up : s.pwr.down = none) (low : s.pwr.vs ≠ .vs0) (may : s.mayMove s.pwr.target.toNat = true)
    (code : vsOf s.pwr.target.toNat = some dest) : (goCmd src s).pwr.vs = dest ∧
      (goCmd src s).pwr.ready = decide (dest = .vs0 ∧ s.pwr.step = 7 ∧ s.pwr.waitDrv = false ∧ s.fst.state = .run) ∧ (goCmd src s).xing.stopped = stoppedIn dest ∧
      (goCmd src s).ctxs = s.ctxs := by
  rw [goCmd_moves src idle up may code, moveWithin_low (by exact low)]
  obtain ⟨vs, -, ready, stopped, ctxs⟩ := movedTo_leaves (pwrAccepted s) dest 1
  obtain ⟨pwr, xing, same⟩ := turnCaught_leaves (movedTo (recordMove (pwrAccepted s) dest 1) dest) dest
  exact ⟨(congrArg Pwr.vs pwr).trans vs, (congrArg Pwr.ready pwr).trans ready, (congrArg Xing.stopped xing).trans stopped, same.trans ctxs⟩

/-- The record of a wake. -/
def wakeEvent (s : State) (cause : BitVec 32) : Ev := { code := 0xE006, unit := uPwr, p16 := BitVec.ofNat 16 s.pwr.vs.code, p32 := cause }

theorem beginBringup_leaves (s : State) (cause : BitVec 32) :
    (beginBringup s cause).pwr = { s.pwr with vs := .vs2, step := 2, path := 0, bringUs := 0, early := 0, ready := false, waitDrv := false, lossVs4 := false } ∧
      (beginBringup s cause).rcd.intake = s.rcd.intake ++ [s.stamp (wakeEvent s cause)] ∧ (beginBringup s cause).ctxs = s.ctxs := by
  unfold beginBringup
  dsimp only
  refine ⟨?_, ?_, ?_⟩
  · rw [State.onPwr_pwr, State.onThm_pwr, State.emit_pwr]
  · rw [State.onPwr_rcd, State.onThm_rcd, State.emit_record _ rfl]
    rfl
  · rw [State.onPwr_ctxs, State.onThm_ctxs, State.emit_ctxs]

end

/-! ## The clauses of GO -/

section

variable {s : State} {v : Reg} (src : Src)

/-- The move of R477 from VS0 to VS1. -/
theorem goCmd_from_vs0 (idle : s.pwr.resets = []) (up : s.pwr.down = none) (vs0 : s.pwr.vs = .vs0) (target : s.pwr.target = 1) (stopped : s.allStopped = true)
    (spans : s.prv.spans = []) (calm : s.scr.running = []) (untested : s.wce.testing = []) :
    goCmd src s = movedTo ((closeRecord (pwrAccepted s)).emit (moveEvent (closeRecord (pwrAccepted s)) .vs1 1)) .vs1 := by
  have may : s.mayMove s.pwr.target.toNat = true := by
    rw [target]
    refine (State.mayMove_down vs0).trans ?_
    rw [stopped, spans, calm]
    rfl
  rw [goCmd_moves (dest := .vs1) src idle up may (by rw [target]; rfl), moveWithin_down (by exact vs0) (by decide), leavesWork_idle (by exact untested) (by exact calm),
    recordMove_moves (by exact fun same => nomatch vs0.symm.trans same)]
  exact if_neg fun h => nomatch h.1

theorem go_refused (carried : s.gate 0xE00008 = .carry) (alone : flag v 4 = false) (refused : goCmd src (pwrTargeted s v) = pwrRefuse (pwrTargeted s v) src) :
    ∃ t, exec (.powerStateGo src v) s = .next t ∧ t.pwr.refused = true ∧ t.pwr.vs = s.pwr.vs ∧ t.pwr.down = s.pwr.down ∧ t.ctxs = s.ctxs ∧ t.xing = s.xing ∧ t.kept = s.kept := by
  have run := exec_powerStateGo src carried alone
  rw [refused] at run
  exact ⟨_, run, by rw [State.complete_pwr]; rfl, by rw [State.complete_pwr]; rfl, by rw [State.complete_pwr]; rfl, State.complete_ctxs .., State.complete_xing ..,
    (execPowerStateGo_kept src v s).of_next run⟩

theorem pwrTargeted_mayMove {n : BitVec 3} (target : field v 0 3 = n) : (pwrTargeted s v).mayMove (pwrTargeted s v).pwr.target.toNat = s.mayMove n.toNat :=
  (congrArg (fun n : BitVec 3 => (pwrTargeted s v).mayMove n.toNat) target).trans rfl

theorem pwrTargeted_vsOf {n : BitVec 3} (target : field v 0 3 = n) : vsOf (pwrTargeted s v).pwr.target.toNat = vsOf n.toNat :=
  congrArg (fun n : BitVec 3 => vsOf n.toNat) target

section

variable (carried : s.gate 0xE00008 = .carry) (alone : flag v 4 = false) (idle : s.pwr.resets = []) (up : s.pwr.down = none)

include carried alone idle up

/-- The arrays' clock stops. -/
theorem go_stopsArrays (vs0 : s.pwr.vs = .vs0) (target : (field v 0 3 : BitVec 3) = 1) (stopped : s.allStopped = true) (spans : s.prv.spans = []) (calm : s.scr.running = [])
    (untested : s.wce.testing = []) : ∃ t e, exec (.powerStateGo src v) s = .next t ∧ t.pwr.vs = .vs1 ∧ t.pwr.ready = false ∧ t.pwr.refused = false ∧ t.xing.stopped = [1] ∧
      t.rcd.intake = s.rcd.intake ++ [e] ∧ e.code = 0xE006 ∧ e.p16 = 8 ∧ e.p32 = 1 ∧ t.ctxs = s.ctxs ∧ t.fst = s.fst ∧ t.kept = s.kept := by
  have run := exec_powerStateGo src carried alone
  rw [goCmd_from_vs0 src (s := pwrTargeted s v) idle up vs0 target stopped spans calm untested] at run
  have kept := (execPowerStateGo_kept src v s).of_next run
  have vs : (closeRecord (pwrAccepted (pwrTargeted s v))).pwr.vs = .vs0 := vs0
  have record := (closeRecord (pwrAccepted (pwrTargeted s v))).emit_record (e := moveEvent (closeRecord (pwrAccepted (pwrTargeted s v))) .vs1 1) rfl
  refine ⟨_, (closeRecord (pwrAccepted (pwrTargeted s v))).stamp (moveEvent (closeRecord (pwrAccepted (pwrTargeted s v))) .vs1 1), run, ?_, ?_, ?_, ?_, ?_, rfl, ?_, rfl, ?_, ?_, kept⟩
  · rw [State.complete_pwr]; rfl
  · rw [State.complete_pwr]; rfl
  · rw [State.complete_pwr]
    exact (congrArg Pwr.refused (State.emit_pwr ..) :)
  · rw [State.complete_xing]; rfl
  · rw [State.complete_rcd]
    exact (congrArg (fun t : State => t.rcd.intake) record :)
  · show BitVec.ofNat 16 ((closeRecord (pwrAccepted (pwrTargeted s v))).pwr.vs.code + 8 * Vs.code .vs1) = 8
    rw [vs]
    rfl
  · rw [State.complete_ctxs]
    exact (State.emit_ctxs ..)
  · rw [State.complete_fst, movedTo_fst, record]
    rfl

/-- A move from VS1 or VS2. -/
theorem go_moves {n : BitVec 3} {dest : Vs} (low : s.pwr.vs ≠ .vs0) (target : field v 0 3 = n) (may : s.mayMove n.toNat = true) (code : vsOf n.toNat = some dest) :
    ∃ t, exec (.powerStateGo src v) s = .next t ∧ t.pwr.vs = dest ∧
      t.pwr.ready = decide (dest = .vs0 ∧ s.pwr.step = 7 ∧ s.pwr.waitDrv = false ∧ s.fst.state = .run) ∧ t.xing.stopped = stoppedIn dest ∧ t.ctxs = s.ctxs ∧ t.kept = s.kept := by
  have run := exec_powerStateGo src carried alone
  obtain ⟨vs, ready, stopped, ctxs⟩ := goCmd_from_low (s := pwrTargeted s v) (dest := dest) src idle up low ((pwrTargeted_mayMove target).trans may)
    ((pwrTargeted_vsOf target).trans code)
  exact ⟨_, run, by rw [State.complete_pwr, vs], by rw [State.complete_pwr, ready]; rfl, by rw [State.complete_xing, stopped], (State.complete_ctxs ..).trans ctxs,
    (execPowerStateGo_kept src v s).of_next run⟩

/-- A wake into bring-up step 2. -/
theorem go_wakes (target : (field v 0 3 : BitVec 3) = 0) (low : s.pwr.vs = .vs3 ∨ (s.pwr.vs = .vs4 ∧ s.pwr.step ≠ 1 ∧ src = .host ∧ s.aon.refOk = true)) :
    ∃ t e, exec (.powerStateGo src v) s = .next t ∧ t.pwr.vs = .vs2 ∧ t.pwr.step = 2 ∧ t.pwr.path = 0 ∧ t.pwr.ready = false ∧
      t.rcd.intake = s.rcd.intake ++ [e] ∧ e.code = 0xE006 ∧ e.p16 = BitVec.ofNat 16 s.pwr.vs.code ∧ e.p32 = 4 ∧ t.ctxs = s.ctxs ∧ t.kept = s.kept := by
  have run := exec_powerStateGo src carried alone
  rw [goCmd_wakes (s := pwrTargeted s v) src idle up (State.mayMove_low (low.imp id And.left) _) target low] at run
  have kept := (execPowerStateGo_kept src v s).of_next run
  obtain ⟨pwr, intake, ctxs⟩ := beginBringup_leaves (pwrAccepted (pwrTargeted s v)) 4
  exact ⟨_, (pwrAccepted (pwrTargeted s v)).stamp (wakeEvent (pwrAccepted (pwrTargeted s v)) 4), run, by rw [State.complete_pwr, pwr], by rw [State.complete_pwr, pwr],
    by rw [State.complete_pwr, pwr], by rw [State.complete_pwr, pwr], by rw [State.complete_rcd, intake]; rfl, rfl, rfl, rfl, (State.complete_ctxs ..).trans ctxs, kept⟩

end

/-- What still works holds the engine in VS0. -/
theorem go_held (carried : s.gate 0xE00008 = .carry) (alone : flag v 4 = false) (vs0 : s.pwr.vs = .vs0) (target : (field v 0 3 : BitVec 3) = 1)
    (busy : s.allStopped = false ∨ s.prv.spans ≠ [] ∨ s.scr.running.any (fun q => uClass q.unit = 0) = true) :
    ∃ t, exec (.powerStateGo src v) s = .next t ∧ t.pwr.refused = true ∧ t.pwr.vs = .vs0 ∧ t.ctxs = s.ctxs ∧ t.kept = s.kept := by
  have stays : s.mayMove 1 = false := by
    rw [State.mayMove_down vs0]
    rcases busy with busy | busy | busy
    · simp [busy]
    · simp [busy]
    · rw [busy]
      simp
  have awake : ¬((pwrTargeted s v).pwr.target = 0 ∧ ((pwrTargeted s v).pwr.vs = .vs3 ∨ ((pwrTargeted s v).pwr.vs = .vs4 ∧ src = .host ∧ (pwrTargeted s v).aon.refOk = true))) :=
    fun h => nomatch target.symm.trans h.1
  obtain ⟨t, next, refused, vs, -, ctxs, -, kept⟩ := go_refused src carried alone (goCmd_refused src ((pwrTargeted_mayMove target).trans stays) awake)
  exact ⟨t, next, refused, vs.trans vs0, ctxs, kept⟩

/-- The management side cannot wake the engine from VS4, and no one can without the reference clock. -/
theorem go_shut (carried : s.gate 0xE00008 = .carry) (alone : flag v 4 = false) (vs4 : s.pwr.vs = .vs4) (shut : src = .mgt ∨ s.aon.refOk = false) :
    ∃ t, exec (.powerStateGo src v) s = .next t ∧ t.pwr.refused = true ∧ t.pwr.vs = .vs4 ∧ t.ctxs = s.ctxs ∧ t.kept = s.kept := by
  have sleeps : ¬((pwrTargeted s v).pwr.target = 0 ∧ ((pwrTargeted s v).pwr.vs = .vs3 ∨ ((pwrTargeted s v).pwr.vs = .vs4 ∧ src = .host ∧ (pwrTargeted s v).aon.refOk = true))) := by
    rintro ⟨-, low | ⟨-, host, clock⟩⟩
    · exact nomatch vs4.symm.trans low
    · rcases shut with rfl | lost
      · cases host
      · exact nomatch lost.symm.trans clock
  obtain ⟨t, next, refused, vs, -, ctxs, -, kept⟩ := go_refused src carried alone (goCmd_refused src (State.mayMove_low (.inr vs4) _) sleeps)
  exact ⟨t, next, refused, vs.trans vs4, ctxs, kept⟩

/-- GO to a state that cannot be reached, while a reset is BUSY and during a shutdown. -/
theorem goCmd_unreachable (refused : s.pwr.resets ≠ [] ∨ s.pwr.down.isSome = true ∨ 3 ≤ (field v 0 3 : BitVec 3).toNat ∨ (s.pwr.vs = .vs0 ∧ (field v 0 3 : BitVec 3) = 2)) :
    goCmd src (pwrTargeted s v) = pwrRefuse (pwrTargeted s v) src := by
  rcases refused with busy | busy | far | ⟨vs0, target⟩
  · exact goCmd_busy src (.inl busy)
  · exact goCmd_busy src (.inr busy)
  · refine goCmd_refused src (State.mayMove_far (by exact far)) fun ⟨zero, _⟩ => ?_
    rw [show (field v 0 3 : BitVec 3) = 0 from zero] at far
    exact absurd far (by decide)
  · exact goCmd_refused src ((pwrTargeted_mayMove target).trans (State.mayMove_skip vs0)) fun h => nomatch target.symm.trans h.1

end

end Sys2Proof.Machine


namespace Sys2Proof.Machine

/-! ## SHUTDOWN: the contexts stop (R469) -/

/-- The power block but for what a move within VS0 to VS2 changes. -/
def Pwr.butMoved (w : Pwr) : Pwr := { w with vs := .vs0, ready := false }

section

variable {s : State} {c : Ctx}

theorem endDrain_butMoved (s : State) : (endDrain s).pwr.butMoved = s.pwr.butMoved := by
  have left (t : State) (xs : List UnitId) : (t.each xs leaveService).pwr = t.pwr :=
    (Serves.each (s := t) (f := leaveService) (xs := xs) fun t u => .leaveService t u).pwr
  unfold endDrain
  dsimp only
  rw [State.onFst_pwr, left, State.emit_pwr]
  rfl

theorem movedTo_butMoved (s : State) (dest : Vs) : (movedTo s dest).pwr.butMoved = s.pwr.butMoved := rfl

theorem moveWithin_butMoved (s : State) (dest : Vs) (cause : BitVec 32) : (moveWithin s dest cause).pwr.butMoved = s.pwr.butMoved := by
  have left : (if s.pwr.vs = .vs0 ∧ dest ≠ .vs0 then leavesWork s else s).pwr = s.pwr :=
    (Serves.ite (fun _ => (Serves.each fun t n => .stopTest t n).trans ((Serves.cutPatterns _ _ _).trans (.closeRecord _))) fun _ => .refl s).pwr
  rw [moveWithin_eq, movedTo_butMoved, (Serves.recordMove _ dest cause).pwr, left]

theorem afterStop_butMoved (clock : s.aon.refOk = true) : (afterStop s).pwr.butMoved = s.pwr.butMoved := by
  unfold afterStop
  dsimp only
  split
  · rfl
  have drained : (if s.fst.state = .draining then endDrain s else s).pwr.butMoved = s.pwr.butMoved ∧
      (if s.fst.state = .draining then endDrain s else s).aon = s.aon := by
    split
    · exact ⟨endDrain_butMoved s, (Stops.endDrain s).aon⟩
    · exact ⟨rfl, rfl⟩
  generalize (if s.fst.state = .draining then endDrain s else s) = t at drained ⊢
  obtain ⟨pwr, aon⟩ := drained
  have moved : (if t.thm.stopped ∧ t.pwr.vs.code < 2 then (moveWithin t .vs2 2).send .stopArrayClock else t).pwr.butMoved = s.pwr.butMoved ∧
      (if t.thm.stopped ∧ t.pwr.vs.code < 2 then (moveWithin t .vs2 2).send .stopArrayClock else t).aon = s.aon := by
    split
    · exact ⟨(moveWithin_butMoved t _ _).trans pwr, (Stops.moveWithin t _ _).aon.trans aon⟩
    · exact ⟨pwr, aon⟩
  generalize (if t.thm.stopped ∧ t.pwr.vs.code < 2 then (moveWithin t .vs2 2).send .stopArrayClock else t) = u at moved ⊢
  obtain ⟨pwr, aon⟩ := moved
  rw [if_neg (by simp [aon, clock])]
  exact pwr

theorem stopCtx_butMoved (clock : s.aon.refOk = true) (event : BitVec 16) : (stopCtx s c event).pwr.butMoved = s.pwr.butMoved := by
  have effects := Within.stopEffects c s event
  have entered : (enterStopped s c event).pwr.butMoved = s.pwr.butMoved := by
    rw [enterStopped_eq, afterStop_butMoved (by rw [effects.appends.refOk, clock]), effects.pwr]
  unfold stopCtx
  split
  case h_1 | h_2 | h_3 => rfl
  all_goals
    split
    · rfl
    · exact entered

theorem beginShutdown_butMoved (clock : s.aon.refOk = true) (target : BitVec 4) :
    (beginShutdown s target).pwr.butMoved = ({ s.pwr with down := some { target, from_ := s.time.tick } } : Pwr).butMoved := by
  rw [beginShutdown_eq]
  have begun := shutdownBegun_pwr s target (s.loadedCtxs.filter (fun c => (s.ctx c).pass.st ≠ .stopped))
  have on : (shutdownBegun s target (s.loadedCtxs.filter (fun c => (s.ctx c).pass.st ≠ .stopped))).aon.refOk = true := by
    rw [shutdownBegun, (each_endLoad _ allCtx).1.refOk, shutdownNoted, State.emit_aon]
    exact clock
  generalize shutdownBegun s target (s.loadedCtxs.filter (fun c => (s.ctx c).pass.st ≠ .stopped)) = t at begun on ⊢
  rw [← begun]
  exact (State.each_induction (P := fun u => u.pwr.butMoved = t.pwr.butMoved ∧ u.aon.refOk = true) ⟨rfl, on⟩ fun u d _ before =>
    ⟨(stopCtx_butMoved before.2 _).trans before.1, (stopCtx_refOk u d _).trans before.2⟩).1

/-- SHUTDOWN is refused outside VS0 to VS2, for another target, while a reset is BUSY and during a shutdown (R477). -/
def State.mayShutdown (s : State) : Prop :=
  s.pwr.resets = [] ∧ s.pwr.down = none ∧ s.pwr.vs.code ≤ 2 ∧ (s.pwr.target = 3 ∨ s.pwr.target = 4)

theorem shutdownCmd_accepted (may : s.mayShutdown) (src : Src) : shutdownCmd src s = beginShutdown (pwrAccepted s) (s.pwr.target.setWidth 4) := by
  obtain ⟨idle, up, high, target⟩ := may
  refine if_neg ?_
  rintro (busy | busy | low | ⟨three, four⟩)
  · exact busy idle
  · rw [up] at busy
    cases busy
  · exact absurd high (Nat.not_le.2 low)
  · exact target.elim three four

theorem shutdownCmd_refused (refused : s.pwr.resets ≠ [] ∨ s.pwr.down.isSome = true ∨ 2 < s.pwr.vs.code ∨ (s.pwr.target ≠ 3 ∧ s.pwr.target ≠ 4)) (src : Src) :
    shutdownCmd src s = pwrRefuse s src := if_pos refused

/-! ## SHUTDOWN_STOP_TIMEOUT -/

theorem exec_shutdownStopTimeout_up (up : s.pwr.down = none) : exec (.shutdownStopTimeout c) s = .next s := by
  show execShutdownStopTimeout c s = _
  unfold execShutdownStopTimeout
  rw [up]
  rfl

theorem exec_shutdownStopTimeout (down : s.pwr.down.isSome = true) : exec (.shutdownStopTimeout c) s = .next (abortStopCtx s c 0xE008) :=
  congrArg Host.Outcome.next (if_pos down)

theorem State.AtWork.of_running (runs : (s.ctx c).pass.st = .running) : s.AtWork c := by
  unfold State.AtWork State.deciding
  rw [runs]
  exact ⟨rfl, nofun, nofun⟩

theorem abortStopCtx_others_of_atWork (works : s.AtWork c) (event : BitVec 16) {d : Ctx} (other : d ≠ c) : (abortStopCtx s c event).ctx d = s.ctx d := by
  rw [abortStopCtx_of_atWork works, noteCause, State.onExec_ctx_other _ _ other, State.onExec_ctx_other _ _ other]

theorem abortStopCtx_pass_of_atWork (works : s.AtWork c) (event : BitVec 16) : ((abortStopCtx s c event).ctx c).pass = (s.ctx c).pass := by
  rw [abortStopCtx_of_atWork works, noteCause, State.onExec_ctx_same, State.onExec_ctx_same]

theorem abortStopCtx_at_rest (rests : (s.ctx c).pass.st = .stopped ∨ (s.ctx c).pass.st = .noPlan) (event : BitVec 16) : abortStopCtx s c event = s := by
  have idle : ¬(s.deciding c ∧ (s.ctx c).pass.st ≠ .noPlan ∧ (s.ctx c).pass.st ≠ .stopped) := fun ⟨_, noPlan, stopped⟩ => rests.elim stopped noPlan
  refine (if_neg idle).trans ?_
  unfold stopCtx
  rcases rests with rests | rests <;> rw [rests]

end

end Sys2Proof.Machine


namespace Sys2Proof.Machine

/-! ## Items stored before the self-test (R349, R412) -/

/-- The active bank of the persistent configuration with a record more. -/
def Flash.withItem (f : Flash) (item : BitVec 16) (value tick : BitVec 64) : Flash :=
  let r : ConfRec := { seq := f.confSeq, item, value, tick }
  let f := if f.confOne then { f with conf1 := f.conf1 ++ [r] } else { f with conf0 := f.conf0 ++ [r] }
  { f with confSeq := f.confSeq + 1 }

theorem Flash.withItem_conf (f : Flash) (item : BitVec 16) (value tick : BitVec 64) :
    (f.withItem item value tick).conf = f.conf ++ [{ seq := f.confSeq, item, value, tick }] := by
  unfold Flash.withItem Flash.conf
  by_cases one : f.confOne = true
  · simp [one]
  · simp [one]

theorem Flash.putItem_of_room {f : Flash} (room : f.conf.length + 1 < 15360) (item : BitVec 16) (value tick : BitVec 64) :
    f.putItem item value tick = f.withItem item value tick := by
  have fits : (f.withItem item value tick).conf.length < 15360 := by
    rw [Flash.withItem_conf, List.length_append]
    exact room
  exact if_pos fits

theorem Flash.item_withItem (f : Flash) (item other : BitVec 16) (value tick : BitVec 64) :
    (f.withItem item value tick).item other = if item = other then some value else f.item other := by
  unfold Flash.item Flash.newest
  rw [Flash.withItem_conf, List.filter_append]
  by_cases same : item = other
  · simp [same, ConfRec.ok]
  · simp [same, ConfRec.ok]

/-- What the two times of a shutdown leave of the stored items. -/
theorem storeTimes_flash {s : State} (answers : s.rcd.flashOk = true) (room : s.rcd.flash.conf.length + 2 < 15360) :
    s.storeTimes.rcd.flash.item 2 = some (s.time.opsec.setWidth 64) ∧ s.storeTimes.rcd.flash.item 3 = some (s.time.wall.setWidth 64) := by
  have stored : s.storeTimes.rcd.flash =
      (s.rcd.flash.withItem 2 (s.time.opsec.setWidth 64) s.time.tick).withItem 3 (s.time.wall.setWidth 64) s.time.tick := by
    rw [State.putItem_times]
    dsimp only
    rw [if_pos answers, Flash.putItem_of_room (f := s.rcd.flash) (by omega), Flash.putItem_of_room]
    rw [Flash.withItem_conf, List.length_append]
    exact room
  rw [stored]
  simp [Flash.item_withItem]

/-! ## The start of the self-test -/

theorem State.readyForTest_storeTimes (s : State) : s.storeTimes.pwr = s.pwr ∧ s.storeTimes.ctxs = s.ctxs ∧ s.storeTimes.fst = s.fst ∧ s.storeTimes.thm = s.thm ∧
    s.storeTimes.aon = s.aon := by
  rw [State.putItem_times]
  exact ⟨rfl, rfl, rfl, rfl, rfl⟩

theorem State.noTest_storeTimes (s : State) : s.storeTimes.noTest = s.noTest := by
  obtain ⟨-, -, fst, thm, aon⟩ := s.readyForTest_storeTimes
  unfold State.noTest
  rw [fst, thm, aon]

section

variable {s : State} {d : Shutdown}

theorem exec_shutdownSelftestStart_waits (down : s.pwr.down = some d) (waits : s.readyForTest = false) : exec .shutdownSelftestStart s = .next s := by
  show execShutdownSelftestStart s = _
  unfold execShutdownSelftestStart
  rw [down]
  exact if_pos (.inr (by rw [waits]; rfl))

theorem exec_shutdownSelftestStart (down : s.pwr.down = some d) (untested : d.testing = false) (ready : s.readyForTest = true) :
    exec .shutdownSelftestStart s = .next (if s.noTest then finishShutdown s.storeTimes d false
      else s.storeTimes.onPwr (fun w => { w with down := some { d with testing := true } })) := by
  show execShutdownSelftestStart s = _
  unfold execShutdownSelftestStart
  rw [down]
  dsimp only
  rw [if_neg (by simp [untested, ready]), State.noTest_storeTimes]
  split <;> rfl

end

/-! ## The engine enters VS3 or VS4 (R469, R476) -/

section

variable (s : State)

theorem endDrain_stored : (endDrain s).rcd.stored = s.rcd.stored := by
  have left (t : State) (xs : List UnitId) : (t.each xs leaveService).rcd.stored = t.rcd.stored :=
    (Serves.each (s := t) (f := leaveService) (xs := xs) fun t u => .leaveService t u).stored
  unfold endDrain
  dsimp only
  rw [State.onFst_rcd, left, (Serves.emit _ _).stored]
  rfl

variable (dest : Vs) (cause : BitVec 32)

theorem lowRecorded_of_drained (t : State) (drained : t = if s.fst.state = .draining then endDrain s else s) : Serves t (lowRecorded s dest cause) :=
  (lowReady_of_drained s t drained).trans ((Serves.closeRecord _).trans (.recordMove _ dest cause))

theorem lowRecorded_stored : (lowRecorded s dest cause).rcd.stored = s.rcd.stored := by
  rw [(lowRecorded_of_drained s dest cause _ rfl).stored]
  split
  · exact endDrain_stored s
  · rfl

theorem lowRecorded_butMoved : (lowRecorded s dest cause).pwr.butMoved = s.pwr.butMoved := by
  rw [(lowRecorded_of_drained s dest cause _ rfl).pwr]
  split
  · exact endDrain_butMoved s
  · rfl

theorem lowRest_stored : (lowRest s dest).rcd.stored = s.rcd.stored := by
  dsimp only [lowRest, State.onPwr, State.onThm, State.onFst, clearEngine, RecSt.stored]

theorem lowRest_pwr : (lowRest s dest).pwr.cleanDown = s.pwr.cleanDown ∧ (lowRest s dest).pwr.down = none := by
  dsimp only [lowRest, State.onPwr, State.onThm, State.onFst, clearEngine]
  exact ⟨rfl, rfl⟩

theorem enterLow_stored : (enterLow s dest cause).rcd.stored = s.rcd.stored := by
  rw [enterLow_eq, State.setAon_rcd, lowRest_stored, lowRecorded_stored]

theorem Pwr.cleanDown_of_butMoved {w x : Pwr} (same : w.butMoved = x.butMoved) : w.cleanDown = x.cleanDown := (congrArg Pwr.cleanDown same :)

theorem enterLow_pwr : (enterLow s dest cause).pwr.cleanDown = s.pwr.cleanDown ∧ (enterLow s dest cause).pwr.down = none := by
  rw [enterLow_eq, State.setAon_pwr]
  obtain ⟨clean, up⟩ := lowRest_pwr (lowRecorded s dest cause) dest
  exact ⟨clean.trans (Pwr.cleanDown_of_butMoved (lowRecorded_butMoved s dest cause)), up⟩

/-- SHUTDOWN_DONE, and whether the self-test ran. -/
def shutdownOver (d : Shutdown) (ran : Bool) : State :=
  (s.emit { code := 0xE009, unit := uPwr, p16 := d.target.setWidth 16
            p32 := (satBits 16 ((s.time.tick - d.from_).toNat / 1000000)).setWidth 32 ||| (if ran then 0x10000 else 0) }).onPwr
    (fun w => { w with down := none, cleanDown := ran })

theorem shutdownOver_cleanDown (d : Shutdown) (ran : Bool) : (shutdownOver s d ran).pwr.cleanDown = ran := rfl

theorem shutdownOver_stored (d : Shutdown) (ran : Bool) : (shutdownOver s d ran).rcd.stored = s.rcd.stored := (Serves.emit s _).stored

/-- The power state that the shutdown enters. -/
def Shutdown.vs (d : Shutdown) : Vs := if d.target = 3 then .vs3 else .vs4

theorem finishShutdown_low {d : Shutdown} (low : d.target = 3 ∨ d.target = 4) (ran : Bool) : finishShutdown s d ran = enterLow (shutdownOver s d ran) d.vs 1 := by
  unfold finishShutdown Shutdown.vs
  dsimp only
  by_cases three : d.target = 3
  · rw [if_pos three, if_pos three]
    rfl
  · rw [if_neg three, if_neg three, if_pos (low.resolve_left three)]
    rfl

/-- A shutdown that has ended: the state entered, the path to come, every context in NO_PLAN, the items as they were stored. -/
theorem finishShutdown_leaves {d : Shutdown} (low : d.target = 3 ∨ d.target = 4) (ran : Bool) : (finishShutdown s d ran).pwr.vs = d.vs ∧
    (finishShutdown s d ran).pwr.cleanDown = ran ∧ (finishShutdown s d ran).pwr.down = none ∧ (∀ k, ((finishShutdown s d ran).ctx k).pass.st = .noPlan) ∧
    (finishShutdown s d ran).rcd.stored = s.rcd.stored := by
  rw [finishShutdown_low s low ran]
  obtain ⟨clean, up⟩ := enterLow_pwr (shutdownOver s d ran) d.vs 1
  rw [enterLow_stored, shutdownOver_stored, clean, shutdownOver_cleanDown]
  exact ⟨enterLow_vs .., rfl, up, fun k => enterLow_noPlan .., rfl⟩

end

/-! ## The end of the self-test (R378, R379, R381) -/

theorem itemGroup_cases (u : UnitId) : itemGroup u = 0 ∨ itemGroup u ∈ [1, 2, 3, 4] := by
  unfold itemGroup
  repeat' split
  all_goals simp

theorem State.hasItem_group {s : State} {u : UnitId} (has : s.hasItem u = true) : itemGroup u ∈ [1, 2, 3, 4] := by
  refine (itemGroup_cases u).resolve_left fun none => ?_
  unfold State.hasItem at has
  rw [none] at has
  cases has

theorem State.mem_failing {s : State} {items : List TestItem} {x : TestItem} :
    x ∈ s.failing items ↔ x ∈ items ∧ s.hasItem x.unit = true ∧ itemPasses x = false := by
  unfold State.failing
  simp only [List.mem_flatMap, List.mem_filter, Bool.and_eq_true, Bool.not_eq_true', decide_eq_true_eq]
  constructor
  · rintro ⟨g, -, ⟨mem, has, fails⟩, -⟩
    exact ⟨mem, has, fails⟩
  · rintro ⟨mem, has, fails⟩
    exact ⟨_, State.hasItem_group has, ⟨mem, has, fails⟩, rfl⟩

/-- The failure bits of the flag word. -/
def failBits (fails : List TestItem) : BitVec 64 := fails.foldl (fun w x => w ||| BitVec.ofNat 64 (groupBit (itemGroup x.unit))) (0#64)

theorem foldl_or_flag (fails : List TestItem) (w : BitVec 64) (i : Nat) :
    flag (fails.foldl (fun w x => w ||| BitVec.ofNat 64 (groupBit (itemGroup x.unit))) w) i =
      (flag w i || fails.any (fun x => flag (BitVec.ofNat 64 (groupBit (itemGroup x.unit))) i)) := by
  induction fails generalizing w with
  | nil => simp
  | cons x xs ih => rw [List.foldl_cons, ih, List.any_cons, ← Bool.or_assoc]; simp [flag]

theorem flag_or (a b : Reg) (i : Nat) : flag (a ||| b) i = (flag a i || flag b i) := BitVec.getLsbD_or

theorem flagWord_ran (fails : List TestItem) (tick : BitVec 64) : flag (flagWord fails tick) 0 = true := by
  unfold flagWord
  dsimp only
  simp only [flag_or]
  rfl

theorem flagWord_fails {fails : List TestItem} {x : TestItem} (mem : x ∈ fails) (tick : BitVec 64) {i : Nat}
    (bit : flag (BitVec.ofNat 64 (groupBit (itemGroup x.unit))) i = true) : flag (flagWord fails tick) i = true := by
  have bits : flag (failBits fails) i = true := by
    unfold failBits
    rw [foldl_or_flag, List.any_eq_true.2 ⟨x, mem, bit⟩, Bool.or_true]
  unfold flagWord
  dsimp only
  simp only [flag_or]
  rw [show flag (fails.foldl (fun w x => w ||| BitVec.ofNat 64 (groupBit (itemGroup x.unit))) (0#64)) i = true from bits]
  simp

theorem flagWord_clean (tick : BitVec 64) : flagWord [] tick = 0xFFFF0021 ||| ((tick >>> 32) <<< 32) := rfl

/-- The results of the self-test recorded. -/
def testReported (s : State) (fails : List TestItem) (w : Reg) : State :=
  (s.emit { code := 0xD009, unit := uScr, p16 := field w 0 16, p32 := (field w 16 16 : BitVec 16).setWidth 32 }).each (fails.take 16)
    (fun s x => s.emit { code := 0xD00A, unit := x.unit, p16 := BitVec.ofNat 16 (itemGroup x.unit), p32 := x.value })

theorem Serves.testReported (s : State) (fails : List TestItem) (w : Reg) : Serves s (testReported s fails w) :=
  (Serves.emit s _).trans (.each fun t _ => .emit t _)

theorem exec_shutdownSelftestEnd {s : State} {d : Shutdown} (down : s.pwr.down = some d) (testing : d.testing = true) (items : List TestItem) :
    exec (.shutdownSelftestEnd items) s = .next (finishShutdown ((testReported s (s.failing items) (flagWord (s.failing items) s.time.tick)).putItem 8
      (flagWord (s.failing items) s.time.tick)) d true) := by
  show execShutdownSelftestEnd items s = _
  unfold execShutdownSelftestEnd
  rw [down]
  dsimp only
  rw [if_neg (by simp [testing])]
  rfl

/-- What an item stored leaves of the recorder's items. -/
theorem putItem_stored {s t : State} (serves : Serves s t) (room : s.rcd.flash.conf.length + 1 < 15360) (item : BitVec 16) (value : BitVec 64) :
    (s.rcd.flashOk = true → (t.putItem item value).rcd.stored.flash.item item = some value) ∧
      (s.rcd.flashOk = false → (item, value, s.time.tick) ∈ (t.putItem item value).rcd.stored.confOut) := by
  have stored := serves.stored
  have ok : t.rcd.flashOk = s.rcd.flashOk := (congrArg RecSt.flashOk stored :)
  have conf : t.rcd.flash.conf = s.rcd.flash.conf := (congrArg (fun r : RecSt => r.flash.conf) stored :)
  have time : t.time = s.time := (congrArg State.time serves.rest :)
  refine ⟨fun answers => ?_, fun lost => ?_⟩
  · rw [State.putItem_of_answers (ok.trans answers), Flash.putItem_of_room (by rw [conf]; exact room)]
    exact (Flash.item_withItem ..).trans (if_pos rfl)
  · rw [State.putItem_of_lost (by rw [ok, lost]; decide), ← time]
    exact List.mem_append_right _ (List.mem_singleton.2 rfl)

/-- An item of the self-test that its limits let pass (R378). -/
theorem itemPasses_of_limits {x : TestItem} (group : itemGroup x.unit ∈ [1, 2, 3, 4]) (limits : (itemGroup x.unit = 1 → x.value.toInt.natAbs ≤ 10) ∧
    (itemGroup x.unit = 2 → x.value.toInt.natAbs ≤ 24) ∧ (itemGroup x.unit = 3 → x.value.toNat ≤ 448) ∧
    (itemGroup x.unit = 4 → x.lockUs ≤ 50 ∧ x.value.toInt.natAbs ≤ 100)) : itemPasses x = true := by
  obtain ⟨monitor, sensor, serdes, pll⟩ := limits
  simp only [List.mem_cons, List.not_mem_nil, or_false] at group
  unfold itemPasses
  rcases group with group | group | group | group <;> rw [group]
  · simpa using monitor group
  · simpa using sensor group
  · simpa using serdes group
  · simpa using pll group

theorem failing_of_limits {s : State} {items : List TestItem} (limits : ∀ x ∈ items, s.hasItem x.unit = true → (itemGroup x.unit = 1 → x.value.toInt.natAbs ≤ 10) ∧
    (itemGroup x.unit = 2 → x.value.toInt.natAbs ≤ 24) ∧ (itemGroup x.unit = 3 → x.value.toNat ≤ 448) ∧
    (itemGroup x.unit = 4 → x.lockUs ≤ 50 ∧ x.value.toInt.natAbs ≤ 100)) : s.failing items = [] := by
  refine List.eq_nil_iff_forall_not_mem.2 fun x mem => ?_
  obtain ⟨listed, has, fails⟩ := State.mem_failing.1 mem
  rw [itemPasses_of_limits (State.hasItem_group has) (limits x listed has)] at fails
  cases fails

/-- An item that fails sets the bit of its group. -/
theorem flagWord_of_fails {s : State} {items : List TestItem} {x : TestItem} (mem : x ∈ items) (has : s.hasItem x.unit = true) (fails : itemPasses x = false)
    {i : Nat} (bit : flag (BitVec.ofNat 64 (groupBit (itemGroup x.unit))) i = true) : flag (flagWord (s.failing items) s.time.tick) i = true :=
  flagWord_fails (State.mem_failing.2 ⟨mem, has, fails⟩) _ bit

theorem flagWord_groups {s : State} {items : List TestItem} {x : TestItem} (mem : x ∈ items) (has : s.hasItem x.unit = true) :
    (itemGroup x.unit = 1 → 10 < x.value.toInt.natAbs → flag (flagWord (s.failing items) s.time.tick) 4 = true) ∧
    (itemGroup x.unit = 2 → 24 < x.value.toInt.natAbs → flag (flagWord (s.failing items) s.time.tick) 1 = true) ∧
    (itemGroup x.unit = 3 → 448 < x.value.toNat → flag (flagWord (s.failing items) s.time.tick) 3 = true) ∧
    (itemGroup x.unit = 4 → (50 < x.lockUs ∨ 100 < x.value.toInt.natAbs) → flag (flagWord (s.failing items) s.time.tick) 2 = true) := by
  refine ⟨fun group beyond => ?_, fun group beyond => ?_, fun group beyond => ?_, fun group beyond => ?_⟩ <;>
    refine flagWord_of_fails mem has ?_ (by rw [group]; rfl) <;> unfold itemPasses <;> rw [group]
  · simpa using beyond
  · simpa using beyond
  · simpa using beyond
  · simp only [Bool.and_eq_false_iff, decide_eq_false_iff_not, Nat.not_le]
    exact beyond

end Sys2Proof.Machine


namespace Sys2Proof.Machine

/-! ## O57 -/

/-- Settles O57: GO moves, wakes or is refused; the orderly shutdown stops the contexts, stores the times, tests itself and enters its state with the flag word stored. -/
theorem powerStatesAndTheOrderlyShutdown : Obligations.PowerStatesAndTheOrderlyShutdown := by
  unfold Obligations.PowerStatesAndTheOrderlyShutdown
  refine ⟨fun s src v carried alone => ⟨fun idle up => ⟨fun vs0 target stopped spans calm untested => go_stopsArrays src carried alone idle up vs0 target stopped spans calm untested,
      fun vs0 target busy => go_held src carried alone vs0 target busy, fun vs1 target => ?_, fun cool vs2 target => ?_, fun cool vs1 target => ?_, fun vs3 target => ?_,
      fun vs4 step target host clock => ?_, fun vs4 shut => go_shut src carried alone vs4 shut⟩, fun refused => go_refused src carried alone (goCmd_unreachable src refused)⟩,
    fun s src v carried alone => ⟨fun idle up high target clock => ?_, fun refused => ?_⟩,
    fun s c => ⟨exec_shutdownStopTimeout_up, fun down runs => ?_, fun down rests => ?_⟩,
    fun s d down untested => ⟨exec_shutdownSelftestStart_waits down, fun ready room tests => ?_, fun ready noTest target => ?_⟩,
    fun s d items down testing low room => ?_⟩
  · obtain ⟨t, next, vs, ready, stopped, ctxs, kept⟩ := go_moves src carried alone idle up (by rw [vs1]; decide) target (State.mayMove_lower vs1) rfl
    exact ⟨t, next, vs, ready.trans (by simp), by rw [stopped]; rfl, ctxs, kept⟩
  · obtain ⟨t, next, vs, -, stopped, ctxs, kept⟩ := go_moves src carried alone idle up (by rw [vs2]; decide) target ((State.mayMove_up vs2).trans (by rw [cool]; rfl)) rfl
    exact ⟨t, next, vs, stopped, ctxs, kept⟩
  · obtain ⟨t, next, vs, ready, stopped, ctxs, kept⟩ := go_moves src carried alone idle up (by rw [vs1]; decide) target ((State.mayMove_serve vs1).trans (by rw [cool]; rfl)) rfl
    exact ⟨t, next, vs, ready.trans (by simp), stopped, ctxs, kept⟩
  · obtain ⟨t, e, next, vs, step, path, ready, intake, code, p16, p32, ctxs, kept⟩ := go_wakes src carried alone idle up target (.inl vs3)
    exact ⟨t, e, next, vs, step, path, ready, intake, code, by rw [p16, vs3]; rfl, p32, ctxs, kept⟩
  · obtain ⟨t, e, next, vs, step, -, ready, -, -, -, -, ctxs, kept⟩ := go_wakes src carried alone idle up target (.inr ⟨vs4, step, host, clock⟩)
    exact ⟨t, next, vs, step, ready, ctxs, kept⟩
  · have run := exec_shutdown src carried alone
    rw [shutdownCmd_accepted (s := pwrTargeted s v) ⟨idle, up, high, target⟩ src] at run
    have kept := (execShutdown_kept src v s).of_next run
    have begun := beginShutdown_butMoved (s := pwrAccepted (pwrTargeted s v)) clock ((pwrTargeted s v).pwr.target.setWidth 4)
    generalize beginShutdown (pwrAccepted (pwrTargeted s v)) ((pwrTargeted s v).pwr.target.setWidth 4) = t at run kept begun
    exact ⟨_, run, by rw [State.complete_pwr]; exact (congrArg Pwr.down begun :), by rw [State.complete_pwr]; exact (congrArg Pwr.refused begun :), kept⟩
  · have run := exec_shutdown src carried alone
    rw [shutdownCmd_refused (s := pwrTargeted s v) refused src] at run
    exact ⟨_, run, by rw [State.complete_pwr]; rfl, by rw [State.complete_pwr]; rfl, by rw [State.complete_pwr]; rfl, State.complete_ctxs ..,
      (execShutdown_kept src v s).of_next run⟩
  · have works := State.AtWork.of_running runs
    have run := exec_shutdownStopTimeout (c := c) down
    obtain ⟨-, cause, stopAfter, -⟩ := abortStopCtx_aborts works 0xE008
    exact ⟨_, run, by rw [stopAfter]; rfl, by rw [cause]; rfl, abortStopCtx_pass_of_atWork works _, fun d other => abortStopCtx_others_of_atWork works _ other,
      (execShutdownStopTimeout_kept c s).of_next run⟩
  · rw [exec_shutdownStopTimeout down, abortStopCtx_at_rest rests]
  · have run := exec_shutdownSelftestStart down untested ready
    rw [if_neg (by rw [tests]; decide)] at run
    obtain ⟨pwr, ctxs, -⟩ := s.readyForTest_storeTimes
    refine ⟨_, run, rfl, (congrArg Pwr.vs pwr :), fun answers => storeTimes_flash answers room, fun lost => ?_, ctxs, (execShutdownSelftestStart_kept s).of_next run⟩
    rw [State.onPwr_rcd, State.putItem_times]
    dsimp only
    rw [if_neg (by rw [lost]; decide)]
    exact ⟨rfl, rfl⟩
  · have run := exec_shutdownSelftestStart down untested ready
    rw [if_pos noTest] at run
    have kept := (execShutdownSelftestStart_kept s).of_next run
    obtain ⟨vs, clean, up, plans, -⟩ := finishShutdown_leaves s.storeTimes (d := d) (.inl target) false
    exact ⟨_, run, vs.trans (if_pos target), clean, up, plans, kept⟩
  · have run := exec_shutdownSelftestEnd down testing items
    have kept := (execShutdownSelftestEnd_kept items s).of_next run
    obtain ⟨vs, clean, up, plans, stored⟩ := finishShutdown_leaves ((testReported s (s.failing items) (flagWord (s.failing items) s.time.tick)).putItem 8
      (flagWord (s.failing items) s.time.tick)) low true
    obtain ⟨written, waits⟩ := putItem_stored (.testReported s (s.failing items) (flagWord (s.failing items) s.time.tick)) room 8 (flagWord (s.failing items) s.time.tick)
    rw [← stored] at written waits
    refine ⟨_, run, vs, clean, up, plans, kept, flagWord (s.failing items) s.time.tick, written, waits, flagWord_ran .., fun limits => ?_,
      fun x mem has => flagWord_groups mem has⟩
    rw [failing_of_limits limits, flagWord_clean]

end Sys2Proof.Machine
